-- ==== Sys2Proof/Word.lean ====
section
/-!
DEFINITION. The word types of the KX4 and the one sparse table type of the model.
Byte order (R5) is decided once, in Machine/Tab.lean.
-/

namespace Sys2Proof

/-- A byte of memory, of a tile slot or of a record. -/
abbrev Byte := BitVec 8

/-- A scalar register, a descriptor register or a 64-bit field (R76). -/
abbrev Word := BitVec 64

/-- A 32-bit instruction word (R41). -/
abbrev Word32 := BitVec 32

/-- A sparse table: keys strictly rising, no entry equal to the table's default (Tab.wf). -/
abbrev Tab (α : Type) := List (Nat × α)

/-- Number of a scalar register s0–s31 (Table 3.3, class s). -/
abbrev SReg := BitVec 5

/-- Number of a predicate register q0–q7 (Table 3.3, class q). -/
abbrev QReg := BitVec 3

/-- Number of a descriptor register d0–d7 (Table 3.3, class t). -/
abbrev TReg := BitVec 3

end Sys2Proof
end

