-- ==== Sys2Proof/Syntax.lean ====
section
/-!
DEFINITION. The steps of the KX4: one constructor for each row of spec/opcode_table.json.
Rows 0–200 are the instructions of a cell (Tables 3.7, 3.8 and R56), with the fields of their words.
The firmware commands (Table 21.6) name the command queue whose next entry is taken, since their operands
stand in that entry. The other rows are steps of the device, of the host and of the environment; their
operands say which unit steps and what the outside world supplied.
-/

namespace Sys2Proof

/-- The condition of an instruction: q[q], or its negation (R44). -/
structure Cond where
  neg : Bool
  q : QReg
deriving DecidableEq, Repr, Inhabited

/-- Word 1 of a memory access (Table 3.4). -/
structure MWord where
  offset : BitVec 20
  type : BitVec 4
  evict : BitVec 3
  scope : BitVec 3
  ord : BitVec 2
deriving DecidableEq, Repr, Inhabited

/-- Word 1 of an engine command (Table 3.6). -/
structure EWord where
  acc : Bool
  sat : Bool
  pri : BitVec 2
  tc : BitVec 4
  tb : BitVec 4
  ta : BitVec 4
  rnd : BitVec 3
  e : BitVec 3
  c : BitVec 3
deriving DecidableEq, Repr, Inhabited

/-- Why the words at a pc are no instruction (Table 3.9). -/
inductive NotInstr where
  /-- The pc is at or past the end, or the instruction is cut off by it: NO_EXIT. -/
  | noExit
  /-- Bits [1:0] of word 0 are 11: ILLEGAL_LENGTH. -/
  | illegalLength
  /-- An unassigned opcode or field value: ILLEGAL_OPCODE. -/
  | illegalOpcode
  /-- A nonzero Res0 bit: RESERVED_FIELD, or PRIV first for a privileged opcode outside the supervisor (R57). -/
  | reservedField (priv : Bool)
deriving DecidableEq, Repr, Inhabited

/-- A register of the queue window (Table 21.1) or of the management interface (Table 22.2) whose write has no step of its own. -/
inductive DevReg where
  | qbase (queue : BitVec 6)
  | qcfg (queue : BitVec 6)
  | ident
  | pcap
  | pmeas
  | rota
  | scrub
  | fabdev
  | stage
deriving DecidableEq, Repr, Inhabited

/-- A request to a home slice (R200): the next one of a cell, a prefetch of it, or that of an engine of hearth `req`, or of a chimney from 1,024 on, for
the line at a device address. -/
inductive SliceReq where
  | cell (uid cix : Nat)
  | pref (uid cix op : Nat)
  | line (pa req : Nat) (evict : BitVec 3) (write : Bool)
deriving DecidableEq, Repr, Inhabited

/-- What one run of a lease's pattern set showed (R294, R359). -/
structure TestRun where
  /-- Every pattern passed at nominal conditions. -/
  nominal : Bool
  /-- Every pattern passed at the outer margin. -/
  outer : Bool
  /-- First failing pattern and its place, 64 bits as the detail field (R359). -/
  detail : Word
  /-- Test time of this run in microseconds. -/
  micros : Nat
deriving DecidableEq, Repr, Inhabited

/-- The atomics of a host agent (R337). -/
inductive HostAtomic where
  | add
  | swap
  | cas
deriving DecidableEq, Repr, Inhabited

/-- The ordering attribute of a host request (R337). -/
inductive HostOrd where
  | plain
  | acquire
  | release
deriving DecidableEq, Repr, Inhabited

/-- What a host agent asks through the windows (R337): bytes to or from device memory, or an atomic on 4 or 8 bytes of it; bytes of the
register window. -/
inductive HostAsk where
  | write (addr : Nat) (bytes : List Byte)
  | read (addr n : Nat)
  | readReg (off n : Nat)
  | atomic (op : HostAtomic) (wide : Bool) (addr : Nat) (x y : Word)
deriving DecidableEq, Repr, Inhabited

/-- The steps of the machine. -/
inductive Instr where
  /-- NOP (R89): Does nothing to any register or to memory. -/
  | nop (c : Cond)
  /-- COMMIT (R90): Stops the cell by commit; if it is the last cell of its area, decides the area's ending and applies the rewrite. -/
  | commit (c : Cond)
  /-- DISCARD (R90): Stops the cell by discard, so that the whole area discards when its last cell stops. -/
  | discard (c : Cond)
  /-- YIELD (R89): Makes the cell not ready for its lane's next choice. -/
  | yield (c : Cond)
  /-- TRAP (R91): Holds the area and runs the trap operator with a software trap code. -/
  | trap (c : Cond) (code : BitVec 8)
  /-- BRKPT (R92): With breakpoints enabled, writes a breakpoint trace record and marks the area for a stop before its ending is applied. -/
  | brkpt (c : Cond)
  /-- BR (R85): Branches to a pc-relative word offset. -/
  | br (c : Cond) (off : BitVec 18)
  /-- CALL (R85): Writes the return address to s31 and branches to a pc-relative word offset. -/
  | call (c : Cond) (off : BitVec 18)
  /-- BRX (R86): Branches to the byte offset held in a register. -/
  | brx (c : Cond) (a : SReg)
  /-- RETN (R86): Returns to the byte offset held in a register, by default s31. -/
  | retn (c : Cond) (a : SReg)
  /-- CMP (R93): Writes a predicate from an integer comparison of two registers. -/
  | cmp (c : Cond) (f : BitVec 3) (d : QReg) (a b : SReg)
  /-- FCMP (R94): Writes a predicate from an FP32 comparison of two registers. -/
  | fcmp (c : Cond) (f : BitVec 3) (d : QReg) (a b : SReg)
  /-- PAND (R95): Predicate AND. -/
  | pand (c : Cond) (d a b : QReg)
  /-- POR (R95): Predicate OR. -/
  | por (c : Cond) (d a b : QReg)
  /-- PXOR (R95): Predicate XOR. -/
  | pxor (c : Cond) (d a b : QReg)
  /-- PNOT (R95): Predicate NOT. -/
  | pnot (c : Cond) (d a : QReg)
  /-- PMOV (R95): Predicate move. -/
  | pmov (c : Cond) (d a : QReg)
  /-- SEL (R96): Selects one of two scalar registers by a predicate. -/
  | sel (c : Cond) (f : QReg) (d a b : SReg)
  /-- CMPI_EQ (R93): Writes a predicate: register equal to immediate. -/
  | cmpiEq (c : Cond) (d : QReg) (a : SReg) (imm : BitVec 8)
  /-- CMPI_NE (R93): Writes a predicate: register not equal to immediate. -/
  | cmpiNe (c : Cond) (d : QReg) (a : SReg) (imm : BitVec 8)
  /-- CMPI_LT (R93): Writes a predicate: signed less than immediate. -/
  | cmpiLt (c : Cond) (d : QReg) (a : SReg) (imm : BitVec 8)
  /-- CMPI_LE (R93): Writes a predicate: signed less than or equal to immediate. -/
  | cmpiLe (c : Cond) (d : QReg) (a : SReg) (imm : BitVec 8)
  /-- CMPI_GT (R93): Writes a predicate: signed greater than immediate. -/
  | cmpiGt (c : Cond) (d : QReg) (a : SReg) (imm : BitVec 8)
  /-- CMPI_GE (R93): Writes a predicate: signed greater than or equal to immediate. -/
  | cmpiGe (c : Cond) (d : QReg) (a : SReg) (imm : BitVec 8)
  /-- CMPI_LTU (R93): Writes a predicate: unsigned less than the sign-extended immediate. -/
  | cmpiLtu (c : Cond) (d : QReg) (a : SReg) (imm : BitVec 8)
  /-- CMPI_GEU (R93): Writes a predicate: unsigned greater than or equal to the sign-extended immediate. -/
  | cmpiGeu (c : Cond) (d : QReg) (a : SReg) (imm : BitVec 8)
  /-- ADD (R97): Integer addition modulo 2^64. -/
  | add (c : Cond) (d a b : SReg)
  /-- SUB (R97): Integer subtraction modulo 2^64. -/
  | sub (c : Cond) (d a b : SReg)
  /-- MUL (R97): Low 64 bits of the product. -/
  | mul (c : Cond) (d a b : SReg)
  /-- MULHI (R97): High 64 bits of the signed product. -/
  | mulhi (c : Cond) (d a b : SReg)
  /-- MULHIU (R97): High 64 bits of the unsigned product. -/
  | mulhiu (c : Cond) (d a b : SReg)
  /-- DIV (R98): Signed division with defined results for zero divisors and overflow. -/
  | div (c : Cond) (d a b : SReg)
  /-- DIVU (R98): Unsigned division with a defined result for a zero divisor. -/
  | divu (c : Cond) (d a b : SReg)
  /-- REM (R98): Signed remainder with defined special cases. -/
  | rem (c : Cond) (d a b : SReg)
  /-- REMU (R98): Unsigned remainder with a defined result for a zero divisor. -/
  | remu (c : Cond) (d a b : SReg)
  /-- AND (R97): Bitwise AND. -/
  | and (c : Cond) (d a b : SReg)
  /-- OR (R97): Bitwise OR. -/
  | or (c : Cond) (d a b : SReg)
  /-- XOR (R97): Bitwise XOR. -/
  | xor (c : Cond) (d a b : SReg)
  /-- SHL (R97): Shift left by the low six bits of a register. -/
  | shl (c : Cond) (d a b : SReg)
  /-- SHR (R97): Logical shift right. -/
  | shr (c : Cond) (d a b : SReg)
  /-- SRA (R97): Arithmetic shift right. -/
  | sra (c : Cond) (d a b : SReg)
  /-- ROL (R97): Rotate left. -/
  | rol (c : Cond) (d a b : SReg)
  /-- MIN (R97): Signed minimum. -/
  | min (c : Cond) (d a b : SReg)
  /-- MAX (R97): Signed maximum. -/
  | max (c : Cond) (d a b : SReg)
  /-- MINU (R97): Unsigned minimum. -/
  | minu (c : Cond) (d a b : SReg)
  /-- MAXU (R97): Unsigned maximum. -/
  | maxu (c : Cond) (d a b : SReg)
  /-- ABS (R99): Absolute value modulo 2^64. -/
  | abs (c : Cond) (d a : SReg)
  /-- NEG (R99): Negation modulo 2^64. -/
  | neg (c : Cond) (d a : SReg)
  /-- CLZ (R99): Count of leading zero bits. -/
  | clz (c : Cond) (d a : SReg)
  /-- CTZ (R99): Count of trailing zero bits. -/
  | ctz (c : Cond) (d a : SReg)
  /-- POPC (R99): Count of one bits. -/
  | popc (c : Cond) (d a : SReg)
  /-- SEXT (R99): Sign-extends the low 8, 16 or 32 bits. -/
  | sext (c : Cond) (f : BitVec 3) (d a : SReg)
  /-- ZEXT (R99): Zero-extends the low 8, 16 or 32 bits. -/
  | zext (c : Cond) (f : BitVec 3) (d a : SReg)
  /-- MOV (R99): Copies a scalar register. -/
  | mov (c : Cond) (d a : SReg)
  /-- ADDI (R100): Adds a sign-extended immediate. -/
  | addi (c : Cond) (d a : SReg) (imm : BitVec 8)
  /-- ANDI (R100): ANDs a sign-extended immediate. -/
  | andi (c : Cond) (d a : SReg) (imm : BitVec 8)
  /-- ORI (R100): ORs a sign-extended immediate. -/
  | ori (c : Cond) (d a : SReg) (imm : BitVec 8)
  /-- XORI (R100): XORs a sign-extended immediate. -/
  | xori (c : Cond) (d a : SReg) (imm : BitVec 8)
  /-- SHLI (R100): Shift left by an immediate count. -/
  | shli (c : Cond) (d a : SReg) (n : BitVec 6)
  /-- SHRI (R100): Logical shift right by an immediate count. -/
  | shri (c : Cond) (d a : SReg) (n : BitVec 6)
  /-- SRAI (R100): Arithmetic shift right by an immediate count. -/
  | srai (c : Cond) (d a : SReg) (n : BitVec 6)
  /-- ROLI (R100): Rotate left by an immediate count. -/
  | roli (c : Cond) (d a : SReg) (n : BitVec 6)
  /-- MOVI (R100): Writes a sign-extended immediate. -/
  | movi (c : Cond) (d : SReg) (imm : BitVec 8)
  /-- FADD (R102): FP32 addition, rounded by the given mode. -/
  | fadd (c : Cond) (rnd : BitVec 3) (d a b : SReg)
  /-- FSUB (R102): FP32 subtraction, rounded by the given mode. -/
  | fsub (c : Cond) (rnd : BitVec 3) (d a b : SReg)
  /-- FMUL (R102): FP32 multiplication, rounded by the given mode. -/
  | fmul (c : Cond) (rnd : BitVec 3) (d a b : SReg)
  /-- FDIV (R102): FP32 division, rounded by the given mode. -/
  | fdiv (c : Cond) (rnd : BitVec 3) (d a b : SReg)
  /-- FSQRT (R102): FP32 square root, rounded by the given mode. -/
  | fsqrt (c : Cond) (f : BitVec 3) (d a : SReg)
  /-- FMIN (R103): FP32 minimum with defined NaN and zero cases. -/
  | fmin (c : Cond) (d a b : SReg)
  /-- FMAX (R103): FP32 maximum with defined NaN and zero cases. -/
  | fmax (c : Cond) (d a b : SReg)
  /-- FABS (R103): Clears the FP32 sign bit. -/
  | fabs (c : Cond) (d a : SReg)
  /-- FNEG (R103): Inverts the FP32 sign bit. -/
  | fneg (c : Cond) (d a : SReg)
  /-- FCLASS (R103): Writes a one-hot class mask of an FP32 value. -/
  | fclass (c : Cond) (d a : SReg)
  /-- SYMRD (R105): Reads the value and poison of the cell's own symbol. -/
  | symrd (c : Cond) (d : SReg)
  /-- SYMKD (R105): Reads the kind of the cell's own symbol. -/
  | symkd (c : Cond) (d : SReg)
  /-- MKSYM (R106): Forms the value field of a symbol of a given kind. -/
  | mksym (c : Cond) (k : BitVec 4) (d a : SReg)
  /-- MOVS (R107): Reads a special register. -/
  | movs (c : Cond) (d : SReg) (x : BitVec 5)
  /-- SYMGET (R112): Reads the value or kind word of any cell of the area. -/
  | symget (c : Cond) (f : BitVec 3) (d a : SReg)
  /-- BCAST (R113): Arrives at a collective that broadcasts one cell's value to the area. -/
  | bcast (c : Cond) (d a b : SReg)
  /-- REDUCE_INT (R114): Arrives at an integer reduction collective over the area. -/
  | reduceInt (c : Cond) (f : BitVec 3) (d a : SReg)
  /-- REDUCE_FP32 (R114): Arrives at an FP32 reduction collective over the area. -/
  | reduceFp32 (c : Cond) (f : BitVec 3) (d a : SReg)
  /-- SCAN_INT (R115): Arrives at an integer exclusive scan collective. -/
  | scanInt (c : Cond) (f : BitVec 3) (d a : SReg)
  /-- SCAN_FP32 (R115): Arrives at an FP32 exclusive scan collective. -/
  | scanFp32 (c : Cond) (f : BitVec 3) (d a : SReg)
  /-- COUNT (R116): Arrives at a collective counting true predicates. -/
  | count (c : Cond) (d : SReg) (a : QReg)
  /-- FIRST (R116): Arrives at a collective finding the lowest cix with a true predicate. -/
  | first (c : Cond) (d : SReg) (a : QReg)
  /-- AREABAR (R117): Arrives at an area barrier collective. -/
  | areabar (c : Cond)
  /-- EMIT (R118): Sets the cell's own rewrite to a replacement symbol. -/
  | emit (c : Cond) (k : BitVec 4) (a : SReg)
  /-- EMITN (R118): Fills one inserted position of the cell's rewrite record. -/
  | emitn (c : Cond) (k : BitVec 4) (a b : SReg)
  /-- INSERT (R118): Sets the count of inserted positions in the rewrite record. -/
  | insert (c : Cond) (a : SReg)
  /-- DELETE (R118): Sets the cell's own rewrite to delete. -/
  | delete (c : Cond)
  /-- OPLD (R139): Registers a request to load an operator in the hearth. -/
  | opld (c : Cond) (a : SReg)
  /-- MOVD (R157): Copies a scalar register into a descriptor register. -/
  | movd (c : Cond) (d : TReg) (a : SReg)
  /-- MOVDS (R157): Copies a descriptor register into a scalar register. -/
  | movds (c : Cond) (d : SReg) (a : TReg)
  /-- DSET (R157): Sets one field of a descriptor register. -/
  | dset (c : Cond) (f : BitVec 3) (d : TReg) (a : SReg)
  /-- TALLOC (R150): Allocates a tile slot in the hearth and writes its handle, or the null handle. -/
  | talloc (c : Cond) (d : TReg) (a : SReg)
  /-- TFREE (R151): Frees the slot a descriptor names, reclaiming it once its queued commands complete. -/
  | tfree (c : Cond) (a : TReg)
  /-- QFENCE (R160): Places fence entries in the named engine queues. -/
  | qfence (c : Cond) (m : BitVec 4)
  /-- QWAIT (R161): Waits for the cell's own commands in the named queues to complete. -/
  | qwait (c : Cond) (m : BitVec 4)
  /-- SLOTREL (R246): Sends a freed-slot notice for a ring slot to its chimney. -/
  | slotrel (c : Cond) (a b : SReg)
  /-- UNSUBS (R248): Ends a stream subscription. -/
  | unsubs (c : Cond) (a : SReg)
  /-- BINIT (R235): Arms and tags a barrier word. -/
  | binit (c : Cond) (a b : SReg)
  /-- BARV (R235): Arrives at a barrier, a release that may complete its phase. -/
  | barv (c : Cond) (a : SReg)
  /-- BEXP (R235): Adds expected bytes to a barrier's pending count. -/
  | bexp (c : Cond) (a b : SReg)
  /-- BWAIT (R238): Waits for a barrier phase or error and writes the error predicate. -/
  | bwait (c : Cond) (d : QReg) (a b : SReg)
  /-- BTRY (R238): Tests a barrier phase or error without waiting. -/
  | btry (c : Cond) (d : QReg) (a b : SReg)
  /-- FENCE (R262): Orders the cell's accesses at a scope as an acquire, release or both. -/
  | fence (c : Cond) (scope : BitVec 3) (ord : BitVec 2)
  /-- POPSET (R282): Binds or unbinds a population through the event queue. -/
  | popset (c : Cond) (pri : BitVec 2) (a b : SReg)
  /-- EVSEND (R281): Emits an event at the current horizon. -/
  | evsend (c : Cond) (pri : BitVec 2) (a b : SReg)
  /-- ACCRD (R281): Reads a neuron's tlast and state. -/
  | accrd (c : Cond) (pri : BitVec 2) (d a : SReg)
  /-- ACCWR (R281): Writes a neuron's state and clears its poison. -/
  | accwr (c : Cond) (pri : BitVec 2) (a b : SReg)
  /-- ACCFL (R281): Fires each neuron of a range that has arrivals. -/
  | accfl (c : Cond) (pri : BitVec 2) (a b : SReg)
  /-- EVWAIT (R283): Waits until the horizon passes a tick and its events are delivered. -/
  | evwait (c : Cond) (a : SReg)
  /-- CAPRD (R306): Reads one word of the device's copy of the capacity record. -/
  | caprd (c : Cond) (d a : SReg)
  /-- SUSRD (R301): Reads a unit's suspicion score and status. -/
  | susrd (c : Cond) (d a : SReg)
  /-- TRET_RESUME (R320): Ends a trap and resumes the held area at fpc. -/
  | tretResume (c : Cond)
  /-- TRET_SKIP (R320): Ends a trap and resumes the named cell past the faulting instruction. -/
  | tretSkip (c : Cond)
  /-- TRET_DISCARD (R320): Ends a trap by discarding the held area. -/
  | tretDiscard (c : Cond)
  /-- TRET_KILL (R320): Ends a trap by retiring the area and tearing down the context. -/
  | tretKill (c : Cond)
  /-- AREARD (R325): Stores the next suspended area of the hearth. -/
  | areard (c : Cond) (d a : SReg)
  /-- AREAWR (R326): Claims an application and restores its cells from an area record. -/
  | areawr (c : Cond) (a b : SReg)
  /-- SAVEC (R323): Writes the hearth's save image of the context. -/
  | savec (c : Cond) (a : SReg)
  /-- RESTC (R326): Restores the hearth's share of the context from a save image. -/
  | restc (c : Cond) (a : SReg)
  /-- TLBINV (R333): Removes cached translations of a range from every TLB of the partition. -/
  | tlbinv (c : Cond) (a b : SReg)
  /-- RDCTR (R332): Reads a hearth counter after issue or completion of earlier instructions. -/
  | rdctr (c : Cond) (f : BitVec 3) (d a : SReg)
  /-- MARK (R334): Appends a software mark to the device journal. -/
  | mark (c : Cond) (a : SReg)
  /-- HOSTSIG (R348): Writes a host signal ring entry and sends an interrupt message. -/
  | hostsig (c : Cond) (a b : SReg)
  /-- BRC (R87): Compares two registers and branches. -/
  | brc (c : Cond) (f : BitVec 3) (a b : SReg) (off : BitVec 18)
  /-- LOOP (R88): Decrements a counter and branches while nonzero. -/
  | loop (c : Cond) (d : SReg) (off : BitVec 18)
  /-- BEXT (R101): Extracts a bit field. -/
  | bext (c : Cond) (d a : SReg) (w lo : BitVec 6)
  /-- BINS (R101): Inserts a bit field. -/
  | bins (c : Cond) (d a : SReg) (w lo : BitVec 6)
  /-- FFMA (R102): FP32 fused multiply-add, rounded once. -/
  | ffma (c : Cond) (rnd : BitVec 3) (d a b e : SReg)
  /-- FCVT (R104): Converts a scalar between element types. -/
  | fcvt (c : Cond) (d a : SReg) (sat : Bool) (rnd : BitVec 3) (dt st : BitVec 4)
  /-- EVSENDT (R281): Emits an event at a given tick. -/
  | evsendt (c : Cond) (pri : BitVec 2) (a b e : SReg)
  /-- CSRRD (R318): Reads a control register. -/
  | csrrd (c : Cond) (d : SReg) (num : BitVec 12)
  /-- CSRWR (R318): Writes a control register. -/
  | csrwr (c : Cond) (a : SReg) (num : BitVec 12)
  /-- LD (R209): Loads a value from memory or the tile window. -/
  | ld (c : Cond) (d a : SReg) (m : MWord)
  /-- ST (R210): Posts a store to memory or the tile window. -/
  | st (c : Cond) (a b : SReg) (m : MWord)
  /-- PREF (R215): Prefetches a line into its slice and the L1. -/
  | pref (c : Cond) (a : SReg) (m : MWord)
  /-- AADD (R213): Atomic integer add at the home. -/
  | aadd (c : Cond) (d a b : SReg) (m : MWord)
  /-- AFADD (R213): Atomic FP32 add at the home. -/
  | afadd (c : Cond) (d a b : SReg) (m : MWord)
  /-- AMIN (R213): Atomic minimum. -/
  | amin (c : Cond) (d a b : SReg) (m : MWord)
  /-- AMAX (R213): Atomic maximum. -/
  | amax (c : Cond) (d a b : SReg) (m : MWord)
  /-- AAND (R213): Atomic AND. -/
  | aand (c : Cond) (d a b : SReg) (m : MWord)
  /-- AOR (R213): Atomic OR. -/
  | aor (c : Cond) (d a b : SReg) (m : MWord)
  /-- AXOR (R213): Atomic XOR. -/
  | axor (c : Cond) (d a b : SReg) (m : MWord)
  /-- ASWP (R213): Atomic swap. -/
  | aswp (c : Cond) (d a b : SReg) (m : MWord)
  /-- ACAS (R214): Atomic compare-and-swap. -/
  | acas (c : Cond) (d a b : SReg) (m : MWord)
  /-- WAITA (R216): Waits until a memory word satisfies a comparison. -/
  | waita (c : Cond) (f : BitVec 3) (a b : SReg) (m : MWord)
  /-- CPYIN (R229): Copies a memory image into a tile slot. -/
  | cpyin (c : Cond) (pri : BitVec 2) (ctr : Bool) (d : TReg) (a b : SReg) (m : MWord)
  /-- CPYOUT (R229): Copies a tile slot to a memory image. -/
  | cpyout (c : Cond) (pri : BitVec 2) (ctr : Bool) (d : TReg) (a b : SReg) (m : MWord)
  /-- CPYT (R229): Copies one tile slot into another. -/
  | cpyt (c : Cond) (pri : BitVec 2) (ctr : Bool) (d a : TReg) (b : SReg) (m : MWord)
  /-- CPYX (R229): Copies a tile slot to a peer device over the fabric. -/
  | cpyx (c : Cond) (pri : BitVec 2) (ctr : Bool) (d : TReg) (a b : SReg) (m : MWord)
  /-- GATHER (R232): Gathers indexed memory rows into a tile. -/
  | gather (c : Cond) (pri : BitVec 2) (d : TReg) (a : SReg) (b : TReg) (m : MWord)
  /-- SCATTER (R232): Scatters tile rows to indexed memory rows. -/
  | scatter (c : Cond) (pri : BitVec 2) (d : TReg) (a : SReg) (b : TReg) (m : MWord)
  /-- SCATADD (R232): Atomically adds tile rows into indexed memory rows. -/
  | scatadd (c : Cond) (pri : BitVec 2) (d : TReg) (a : SReg) (b : TReg) (m : MWord)
  /-- SUBSCR (R244): Subscribes a ring of slots to a chimney stream. -/
  | subscr (c : Cond) (pri : BitVec 2) (d a b : SReg) (m : MWord)
  /-- SLOTWB (R247): Writes a ring slot back to memory and then frees it. -/
  | slotwb (c : Cond) (pri : BitVec 2) (a b : SReg) (m : MWord)
  /-- CADD (R240): Adds to a counter, saturating. -/
  | cadd (c : Cond) (a b : SReg) (m : MWord)
  /-- CWAIT (R241): Waits until a counter reaches a target. -/
  | cwait (c : Cond) (a b : SReg) (m : MWord)
  /-- TLD (R164): Copies memory bytes into a slot's footprint. -/
  | tld (c : Cond) (pri : BitVec 2) (d : TReg) (a : SReg) (m : MWord)
  /-- TST (R164): Copies a slot's footprint to memory. -/
  | tst (c : Cond) (pri : BitVec 2) (a : SReg) (b : TReg) (m : MWord)
  /-- MMA (R167): Floating matrix multiply with chunked accumulation. -/
  | mma (c : Cond) (f d a b : BitVec 3) (w : EWord)
  /-- MMAI (R168): 8-bit integer matrix multiply. -/
  | mmai (c : Cond) (f d a b : BitVec 3) (w : EWord)
  /-- MMAX (R169): Unscaled MXFP4 block matrix multiply. -/
  | mmax (c : Cond) (f d a b : BitVec 3) (w : EWord)
  /-- SCACC (R170): Applies block scales and accumulates. -/
  | scacc (c : Cond) (f d a b : BitVec 3) (w : EWord)
  /-- TTRN (R171): Transposes a tile. -/
  | ttrn (c : Cond) (f d a b : BitVec 3) (w : EWord)
  /-- TCVT (R171): Converts a tile, including packed and microscaled sources, in the matrix queue. -/
  | tcvt (c : Cond) (f d a b : BitVec 3) (w : EWord)
  /-- CXSORT (R171): Sorts each row of a tile with source indices. -/
  | cxsort (c : Cond) (f d a b : BitVec 3) (w : EWord)
  /-- CXMERGE (R171): Merges rows of two tiles with source indices. -/
  | cxmerge (c : Cond) (f d a b : BitVec 3) (w : EWord)
  /-- TZERO (R165): Writes zero to every element of a tile. -/
  | tzero (c : Cond) (f d a b : BitVec 3) (w : EWord)
  /-- TFILL (R165): Fills a tile with a scalar. -/
  | tfill (c : Cond) (f d a : BitVec 3) (b : SReg) (w : EWord)
  /-- TLAY (R165): Copies a tile between layouts. -/
  | tlay (c : Cond) (f d a b : BitVec 3) (w : EWord)
  /-- VADD (R179): Element-wise addition. -/
  | vadd (c : Cond) (f d a b : BitVec 3) (w : EWord)
  /-- VSUB (R179): Element-wise subtraction. -/
  | vsub (c : Cond) (f d a b : BitVec 3) (w : EWord)
  /-- VMUL (R179): Element-wise multiplication. -/
  | vmul (c : Cond) (f d a b : BitVec 3) (w : EWord)
  /-- VFMA (R179): Element-wise fused multiply-add. -/
  | vfma (c : Cond) (f d a b : BitVec 3) (w : EWord)
  /-- VMIN (R179): Element-wise minimum. -/
  | vmin (c : Cond) (f d a b : BitVec 3) (w : EWord)
  /-- VMAX (R179): Element-wise maximum. -/
  | vmax (c : Cond) (f d a b : BitVec 3) (w : EWord)
  /-- VABS (R179): Element-wise absolute value. -/
  | vabs (c : Cond) (f d a b : BitVec 3) (w : EWord)
  /-- VNEG (R179): Element-wise negation. -/
  | vneg (c : Cond) (f d a b : BitVec 3) (w : EWord)
  /-- VAND (R179): Element-wise bitwise AND. -/
  | vand (c : Cond) (f d a b : BitVec 3) (w : EWord)
  /-- VOR (R179): Element-wise bitwise OR. -/
  | vor (c : Cond) (f d a b : BitVec 3) (w : EWord)
  /-- VXOR (R179): Element-wise bitwise XOR. -/
  | vxor (c : Cond) (f d a b : BitVec 3) (w : EWord)
  /-- VSHL (R179): Element-wise shift left. -/
  | vshl (c : Cond) (f d a b : BitVec 3) (w : EWord)
  /-- VSHR (R179): Element-wise shift right. -/
  | vshr (c : Cond) (f d a b : BitVec 3) (w : EWord)
  /-- VCMP (R179): Element-wise comparison into BOOL. -/
  | vcmp (c : Cond) (f d a b : BitVec 3) (w : EWord)
  /-- VSEL (R179): Element-wise selection by a BOOL mask. -/
  | vsel (c : Cond) (f d a b : BitVec 3) (w : EWord)
  /-- VCVT (R186): Converts a tile in the vector queue. -/
  | vcvt (c : Cond) (f d a b : BitVec 3) (w : EWord)
  /-- VSCL (R180): Combines each element with a scalar. -/
  | vscl (c : Cond) (f d a : BitVec 3) (b : SReg) (w : EWord)
  /-- VCLMP (R181): Clamps each element between two bounds. -/
  | vclmp (c : Cond) (f d a b : BitVec 3) (w : EWord)
  /-- VBCR (R182): Combines a tile with a broadcast row. -/
  | vbcr (c : Cond) (f d a b : BitVec 3) (w : EWord)
  /-- VBCC (R182): Combines a tile with a broadcast column. -/
  | vbcc (c : Cond) (f d a b : BitVec 3) (w : EWord)
  /-- VRSUM (R183): Reduces each row in index order. -/
  | vrsum (c : Cond) (f d a b : BitVec 3) (w : EWord)
  /-- VCSUM (R183): Reduces each column in index order. -/
  | vcsum (c : Cond) (f d a b : BitVec 3) (w : EWord)
  /-- VRR (R190): Range-reduces each element for a function table. -/
  | vrr (c : Cond) (f d a b : BitVec 3) (w : EWord)
  /-- VFN (R191): Evaluates a function table on each element. -/
  | vfn (c : Cond) (f d a b : BitVec 3) (w : EWord)
  /-- VTBL (R188): Loads a user function table from a tile. -/
  | vtbl (c : Cond) (f d a b : BitVec 3) (w : EWord)
  /-- VIOTA (R184): Writes element indices. -/
  | viota (c : Cond) (f d a b : BitVec 3) (w : EWord)
  /-- VPERM (R185): Gathers elements within rows or columns by an index tile. -/
  | vperm (c : Cond) (f d a b : BitVec 3) (w : EWord)
  /-- LIT (R52): Writes a sign- or zero-extended 32-bit literal. -/
  | lit (c : Cond) (f : BitVec 3) (d : SReg) (lit : Word32)
  /-- LITH (R52): Writes a 32-bit literal into the upper half of a register. -/
  | lith (c : Cond) (d : SReg) (lit : Word32)
  /-- ENCODING_NOT_INSTRUCTION (R58): A cell issues at a pc whose word is not an instruction: length class 11, an unassigned opcode or field value, a nonzero Res0 bit, or a pc at or past the end of its microprogram. -/
  | encodingNotInstruction (why : NotInstr)
  /-- CREATE_CONTEXT (R342): Creates a context with its ASID, root table and signal ring. -/
  | createContext (queue : BitVec 6)
  /-- DESTROY_CONTEXT (R342): Tears down a context without a dump and frees its id. -/
  | destroyContext (queue : BitVec 6)
  /-- LOAD_OPERATORS (R137): Invalidates every resident operator of the context. -/
  | loadOperators (queue : BitVec 6)
  /-- LOAD_EXPR (R312): Places the context's MARK and expression image in the partition. -/
  | loadExpr (queue : BitVec 6)
  /-- START (R24): Checks and latches the launch block and starts the context. -/
  | start (queue : BitVec 6)
  /-- PREEMPT (R322): Requests pre-emption of a context at the end of the current sweep. -/
  | preempt (queue : BitVec 6)
  /-- RESUME (R322): Runs the restore operator and resumes a pre-empted context. -/
  | resume (queue : BitVec 6)
  /-- READ_EXPR (R342): Writes the context's expression as an image to host memory. -/
  | readExpr (queue : BitVec 6)
  /-- MAP (R342): Writes page-table entries and optionally loads a key slot. -/
  | map (queue : BitVec 6)
  /-- UNMAP (R342): Clears page-table entries, invalidates TLBs and cancels affected subscriptions. -/
  | unmap (queue : BitVec 6)
  /-- FORCE_LEASE (R313): Starts a lease at once or arms an area trigger for it. -/
  | forceLease (queue : BitVec 6)
  /-- INJECT_FAULT (R313): Forces test failures or scores injected errors for a unit. -/
  | injectFault (queue : BitVec 6)
  /-- PARTITION (R345): Recuts the device into partitions. -/
  | partition (queue : BitVec 6)
  /-- QUERY_CAPACITY (R342): Writes the partition's capacity record and the lease log to the host. -/
  | queryCapacity (queue : BitVec 6)
  /-- READ_RETIREMENTS (R303): Writes the signed retirement records to the host. -/
  | readRetirements (queue : BitVec 6)
  /-- ATTEST (R347): Writes a signed attestation report. -/
  | attest (queue : BitVec 6)
  /-- READ_JOURNAL (R343): Copies held journal entries to the host. -/
  | readJournal (queue : BitVec 6)
  /-- QNOTIFY (R340): A host write of a new tail to a command queue, latched as pending if the queue is unmapped. -/
  | qnotify (agent : Nat) (queue : BitVec 6) (tail : Word)
  /-- RESET_REGISTER_WRITE (R357): A write of 0x5A to RESET starts a warm reset. -/
  | resetRegisterWrite (v : Word)
  /-- REGISTER_WRITE (R355): A write to a queue or management register that has no behaviour of its own. -/
  | registerWrite (agent : Nat) (r : DevReg) (v : Word)
  /-- I3C_DYNAMIC_ADDRESS (R355): The board's controller assigns the device its I3C dynamic address. -/
  | i3cDynamicAddress (addr : BitVec 7)
  /-- BYPASS (R356): Boundary-scan BYPASS instruction. -/
  | bypass
  /-- IDCODE (R356): Boundary-scan IDCODE instruction, reading 0x0B41_D2A5. -/
  | idcode
  /-- SAMPLE_PRELOAD (R356): Boundary-scan SAMPLE/PRELOAD instruction. -/
  | samplePreload
  /-- EXTEST (R356): Boundary-scan EXTEST, accepted only in reset or at stage 0. -/
  | extest
  /-- POWER_UP (R357): Power-up starts a cold reset and the bring-up stages. -/
  | powerUp
  /-- RESET_INPUT (R357): The reset input starts a warm reset. -/
  | resetInput (held : Bool)
  /-- BRINGUP_STAGE_COMPLETE (R357): A bring-up stage finishes and the next begins. -/
  | bringupStageComplete (ok : Bool)
  /-- THERMAL_TRIP (R354): A sensor above 120 °C or a coolant fault removes power from dies and stacks. -/
  | thermalTrip
  /-- COOLANT_OUT_OF_RANGE (R353): Inlet temperature or flow leaves its range, asserting the alert and derating the cap. -/
  | coolantOutOfRange
  /-- HEARTH_OVER_110C (R352): A hearth junction above 110 °C starts a thermal evacuation. -/
  | hearthOver110c (hid : Nat)
  /-- THERMAL_CLEARANCE (R352): A hearth out for heat that has read below 95 °C for 1 s returns. -/
  | thermalClearance (hid : Nat)
  /-- JUNCTION_CLOCK_STEP (R352): Every 1 ms a hearth above 105 °C lowers its clock one step. -/
  | junctionClockStep (hid : Nat)
  /-- POWER_CONTROLLER_STEP (R351): Every 1 ms the power controller lowers or raises one hearth clock step against the cap. -/
  | powerControllerStep (watts hid : Nat)
  /-- LINK_RETUNE (R354): A lane whose corrected-error rate passed its limit retunes in an idle period. -/
  | linkRetune (unit : Nat)
  /-- EMBER_SPILL_ADJUST (R354): The controller moves an ember queue's spill point. -/
  | emberSpillAdjust (hid point : Nat)
  /-- SWEEP (R13): A partition sweep snapshots the cells, writes depths and claims innermost applications. -/
  | sweep (die : Nat)
  /-- MICROPROGRAM_FETCH_COMPLETE (R138): An operator's fetch ends, making it resident or holding its areas on a fault. -/
  | microprogramFetchComplete (hid : Nat)
  /-- OPLD_REQUEST_EXPIRY (R139): An OPLD request lapses after 256 sweeps. -/
  | opldRequestExpiry (hid ctx op : Nat)
  /-- VOTED_PLACEMENT_TIMEOUT (R307): A voted area without placement for 1,024 sweeps is held. -/
  | votedPlacementTimeout (uid : Nat)
  /-- HANG (R327): The watchdog count reaches its interval and the context is frozen with a hang map. -/
  | hang (ctx : Nat)
  /-- WATCHDOG (R17): An area held, or a save or restore operator running, past the watchdog interval kills the context. -/
  | watchdog (uid : Nat)
  /-- COLLECTIVE_COMPLETE (R110): A collective instance delivers its results after its flue-tree latency. -/
  | collectiveComplete (uid : Nat)
  /-- SUPERVISOR_INVOCATION_START (R316): A waiting trap, save or restore invocation starts on a free supervisor cell. -/
  | supervisorInvocationStart (hid : Nat)
  /-- PREEMPTION_EFFECT (R322): At the end of the sweep, pre-emption stops claims and suspends the context's areas. -/
  | preemptionEffect (ctx : Nat)
  /-- SAVE_OPERATOR_START (R322): Once held, committing and draining areas are done, the save operator runs. -/
  | saveOperatorStart (ctx : Nat)
  /-- DUMP_WRITE (R329): The device writes a waiting dump and announces it in the journal. -/
  | dumpWrite
  /-- ENGINE_COMMAND_START (R159): A queued command or fence entry starts in queue order. -/
  | engineCommandStart (hid queue : Nat)
  /-- ENGINE_COMMAND_COMPLETE (R162): A queued command completes, releasing waiters, fences and slot reclaims. -/
  | engineCommandComplete (id : Nat)
  /-- COPY_PART_LANDED (R237): A landed part of a copy or push subtracts its bytes from its barrier. -/
  | copyPartLanded (id n : Nat)
  /-- COUNTER_SIGNAL (R231): A copy's counter is added once its last write is acknowledged. -/
  | counterSignal (id : Nat)
  /-- FREED_SLOT_NOTICE (R245): A chimney receives a freed-slot notice and starts the next push. -/
  | freedSlotNotice (id : Nat)
  /-- SLICE_ACCESS (R200): A request is performed at its home slice, with ECC correction and error scoring. -/
  | sliceAccess (r : SliceReq) (err : BitVec 704)
  /-- STORE_ACKNOWLEDGED (R16): A store, atomic or CADD is acknowledged, possibly ending an area's drain. -/
  | storeAcknowledged (uid cix op : Nat)
  /-- LOAD_REPLY (R208): A load's value arrives at the cell. -/
  | loadReply (uid cix op : Nat)
  /-- WAITA_PERIODIC_READ (R216): The home rereads a watched word at least every 1,024 cycles. -/
  | waitaPeriodicRead (uid cix : Nat)
  /-- STAGING_LINE_TIMEOUT (R199): A staging-buffer line that waited 256 cycles is written to the channel. -/
  | stagingLineTimeout (channel line : Nat) (err : BitVec 704)
  /-- PAGE_WALK_COMPLETE (R207): A page walk ends, filling TLBs or faulting, and frees its walker. -/
  | pageWalkComplete (id : Nat)
  /-- ROUTER_PACKET_AGING (R225): A head packet ages by 1 every 16 cycles it waits. -/
  | routerPacketAging (id : Nat)
  /-- SCRUB_LINE_READ (R219): The scrubber reads and corrects a line, recomputing encrypted page tags. -/
  | scrubLineRead (line : Nat) (err : BitVec 704)
  /-- SCORE_HALVING (R299): Every score halves at each whole 24 hours and is saved. -/
  | scoreHalving
  /-- EVENT_ARRIVAL (R278): An event arrives at its hearth's ember queue or overflow ring. -/
  | eventArrival (id : Nat)
  /-- EVENT_DELIVERY (R274): An event below the horizon is integrated into its neuron's entry. -/
  | eventDelivery (hid : Nat)
  /-- TILE_MIGRATION_COMPLETE (R124): A moved payload lands, the handle is remapped and transit is cleared. -/
  | tileMigrationComplete (ctx handle : Nat)
  /-- GRANULE_MIGRATION (R197): A channel granule is copied to the spare and its held requests forwarded. -/
  | granuleMigration (stack : Nat)
  /-- LEASE_ROTA_TURN (R290): A unit's rota turn starts its lease when its class limit allows. -/
  | leaseRotaTurn (unit : Nat)
  /-- LEASE_RETRY_TIMER (R295): An abandoned lease is taken again one hour later. -/
  | leaseRetryTimer (unit : Nat)
  /-- EVACUATION_COMPLETE (R291): A hearth holds nothing of any context, its areas resume and its test begins. -/
  | evacuationComplete (hid : Nat)
  /-- PORT_DRAIN_COMPLETE (R293): A leased port's accepted packets are acknowledged and its traffic moves. -/
  | portDrainComplete (unit : Nat)
  /-- PORT_TRAFFIC_RETURN (R293): Traffic moves back to a returned port in a 1,024-cycle idle period. -/
  | portTrafficReturn (unit : Nat)
  /-- LEASE_TEST_COMPLETE (R294): A lease test run ends as returned, marginal or failed, with retest or retirement. -/
  | leaseTestComplete (unit : Nat) (run : TestRun)
  /-- CAPACITY_COUNTER_SIGNAL (R304): Once the record is acknowledged, the capacity counter advances and the notifier is inserted. -/
  | capacityCounterSignal (ctx : Nat)
  /-- QUEUE_SLOT_IDLE_UNMAP (R340): A queue idle for 4,096 cycles loses its hardware slot to a waiting queue. -/
  | queueSlotIdleUnmap (queue : Nat)
  /-- QUEUE_MAP (R340): A waiting queue is mapped to a free slot and its pending tail taken. -/
  | queueMap (queue : Nat)
  /-- HOST_POSTED_WRITE (R337): A host posted write is performed at its home slice. -/
  | hostPostedWrite (req : Nat)
  /-- HOST_READ (R337): A host read of device memory is performed at its home slice. -/
  | hostRead (req : Nat)
  /-- HOST_ATOMIC (R337): A host atomic is performed indivisibly at its home slice. -/
  | hostAtomic (req : Nat)
  /-- REMOTE_WRITE (R346): A peer's fabric write is translated and performed. -/
  | remoteWrite (job va : Nat) (bytes : List Byte)
  /-- REMOTE_COUNTER_ADD (R346): A peer's fabric counter add is translated and performed. -/
  | remoteCounterAdd (job va : Nat) (amount : Word)
  /-- REMOTE_ACKNOWLEDGEMENT (R231): A fabric acknowledgement arrives; a negative one fails the remote copy. -/
  | remoteAcknowledgement (id : Nat) (ok : Bool)
  /-- UNASSIGNED_COMMAND_OPCODE (R342): The device takes a command entry whose opcode is not in Table 21.6 and completes it with INVALID. -/
  | unassignedCommandOpcode (queue : BitVec 6)
  /-- COMBINING_FORM_APPLIED (R140): The firmware finishes applying a combining form's rewrite, or holds its area for a shape mismatch, after a running time that is not fixed. -/
  | combiningFormApplied (uid : Nat)
  /-- LINK_RETRY (R298): A fabric port or die-link lane group corrects an error by retry, and the unit's score rises by 1. -/
  | linkRetry (unit : Nat)
  /-- LOSS_OF_POWER (R303): Power is lost without a thermal trip, so everything is lost except the retirement store and the scores saved at the last halving. -/
  | lossOfPower
  /-- ORDERLY_SHUTDOWN (R299): An orderly shutdown saves every suspicion score to the nonvolatile store. -/
  | orderlyShutdown
  /-- EARLY_LEASE_HOLDOFF_EXPIRY (R299): The hour since a unit's last early lease runs out, so that a pending early lease can move to the head of its class. -/
  | earlyLeaseHoldoffExpiry (unit : Nat)
  /-- INLET_TEMPERATURE_CHANGE (R353): The coolant inlet crosses a whole degree above 40 °C, or inlet and flow return into range, which changes the effective cap and releases the alert. -/
  | inletTemperatureChange (degrees : Nat) (inRange : Bool)
deriving DecidableEq, Repr, Inhabited

/-- An error of a hearth's tile store or accumulator banks, which no row of the step table names: the hardware brings it about
(R193, R194, R272) (log 11). -/
inductive Upset where
  /-- One bit of a tile-store chunk of hearth `hid` fails and is corrected. -/
  | tileCorrected (hid : Nat)
  /-- The error of 16-byte chunk `chunk` of the tile store of hearth `hid` cannot be corrected. -/
  | tileChunk (hid chunk : Nat)
  /-- The parity of byte `byte` of the tile store of hearth `hid` fails. -/
  | tileParity (hid byte : Nat)
  /-- The error of a neuron's accumulator entry cannot be corrected. -/
  | entry (ctx pop neuron : Nat)
deriving DecidableEq, Repr, Inhabited

/-- What one turn of the machine is: a cell lane issues, a step that no cell takes happens, a store fails, a router picks a packet, or a
host agent asks something. -/
inductive Act where
  /-- Lane `lane` of hearth `hid` picks among the cells of `ready` (cell numbers in the hearth, 256 + k for supervisor cell k), the cells that the latencies of Table 5.4 let issue. -/
  | lane (hid lane : Nat) (ready : List Nat)
  /-- A row of the step table that is not an instruction of a cell. -/
  | event (i : Instr)
  /-- An error of a store. -/
  | upset (e : Upset)
  /-- The output of router `r` to router `out`, or out of the mesh where the two are one, picks a packet (R225). -/
  | route (r out : Nat)
  /-- Host agent `agent` sends a request (R337, R338). -/
  | host (agent : Nat) (ord : HostOrd) (ask : HostAsk)
deriving DecidableEq, Repr, Inhabited

/-- A turn: `dt` ticks of the reference pass, and then `act` happens. -/
structure Turn where
  dt : Nat
  act : Act
deriving DecidableEq, Repr, Inhabited

end Sys2Proof
end

