-- ==== Sys2Proof/WellFormed.lean ====
section
/-!
DEFINITION. Which field values of an instruction are assigned (R49, R50, R53, R54, Table 3.5 and the chapters'
rows) and which of its fields the instruction does not use and must be zero (Res0). Both are checks of decoding.
-/

namespace Sys2Proof

/-- An integer element type, codes 0–6 (R176). -/
def isIntType (t : BitVec 4) : Bool := t.toNat ≤ 6

/-- A floating element type, codes 7–11 (R176). -/
def isFloatType (t : BitVec 4) : Bool := decide (7 ≤ t.toNat ∧ t.toNat ≤ 11)

/-- Codes 0–11. -/
def isNumType (t : BitVec 4) : Bool := t.toNat ≤ 11

/-- Codes 0–11, 13 and 14: the types that a mover of codes takes (R176). -/
def isCodeType (t : BitVec 4) : Bool := t.toNat ≤ 11 || t.toNat = 13 || t.toNat = 14

/-- Codes 0–14 (R53). -/
def isType (t : BitVec 4) : Bool := t.toNat ≤ 14

/-- Rounding codes 0–4 (Table 3.11). -/
def isRnd (r : BitVec 3) : Bool := r.toNat ≤ 4

/-- Every type and rounding field of engine word 1 holds an assigned code, whether or not the instruction uses it: code 15
and codes 5–7 are unassigned in every instruction (R53) (log 83). -/
def EWord.coded (w : EWord) : Bool := isType w.ta && isType w.tb && isType w.tc && isRnd w.rnd

/-- The types of an arithmetic command: all integer or all floating (R176). -/
def arith2 (x y : BitVec 4) : Bool := (isIntType x && isIntType y) || (isFloatType x && isFloatType y)

/-- As `arith2`, for three types. -/
def arith3 (x y z : BitVec 4) : Bool := arith2 x y && arith2 y z

/-- ord and type of word 1 by Table 3.5, and a scope that is assigned. -/
def MWord.accepts (m : MWord) (ords : List Nat) (types : List Nat) : Bool :=
  m.scope.toNat ≤ 6 && ords.contains m.ord.toNat && types.contains m.type.toNat

/-- A control-register number of Table 19.1. -/
def isCsr (n : BitVec 12) : Bool :=
  n.toNat ≤ 0x007 || (0x100 ≤ n.toNat && n.toNat ≤ 0x120) || (0x128 ≤ n.toNat && n.toNat ≤ 0x130) ||
    (0x200 ≤ n.toNat && n.toNat ≤ 0x206) || n.toNat = 0x210

/-- The types of the MMA variants (R50). -/
def mmaTypes (w : EWord) : Bool :=
  w.tc = 9 && w.ta = w.tb && (w.ta = 7 || w.ta = 8 || w.ta = 10 || w.ta = 11)

/-- Keys of CXSORT and CXMERGE: INT32 or FP32 (Table 9.5). -/
def isKeyType (t : BitVec 4) : Bool := t = 4 || t = 9

/-- Every field value of the instruction that a table lists as unassigned is avoided (R58: ILLEGAL_OPCODE otherwise) (log 83). -/
def Instr.assigned : Instr → Bool
  | .sext _ f _ _ => f.toNat ≤ 2
  | .zext _ f _ _ => f.toNat ≤ 2
  | .fadd _ r _ _ _ => isRnd r
  | .fsub _ r _ _ _ => isRnd r
  | .fmul _ r _ _ _ => isRnd r
  | .fdiv _ r _ _ _ => isRnd r
  | .fsqrt _ r _ _ => isRnd r
  | .ffma _ r _ _ _ _ => isRnd r
  | .mksym _ k _ _ => k.toNat < 12
  | .movs _ _ x => x.toNat < 12
  | .symget _ f _ _ => f.toNat ≤ 1
  | .reduceFp32 _ f _ _ => f.toNat ≤ 2
  | .scanFp32 _ f _ _ => f.toNat ≤ 2
  | .qfence _ m => m ≠ 0
  | .qwait _ m => m ≠ 0
  | .fence _ s o => s.toNat ≤ 6 && o ≠ 0
  | .rdctr _ f _ _ => f.toNat ≤ 1
  | .fcvt _ _ _ _ r tD tS => isRnd r && isType tD && isType tS
  | .csrrd _ _ n => isCsr n
  | .csrwr _ _ n => isCsr n
  | .ld _ _ _ m => m.accepts [0, 1] [0, 1, 2, 3, 4, 5, 6]
  | .st _ _ _ m => m.accepts [0, 2] [0, 1, 2, 3, 4, 5, 6]
  | .pref _ _ m => m.accepts [0] [0]
  | .aadd _ _ _ _ m => m.accepts [0, 1, 2, 3] [4, 5, 6]
  | .afadd _ _ _ _ m => m.accepts [0, 1, 2, 3] [9]
  | .amin _ _ _ _ m => m.accepts [0, 1, 2, 3] [4, 5, 6]
  | .amax _ _ _ _ m => m.accepts [0, 1, 2, 3] [4, 5, 6]
  | .aand _ _ _ _ m => m.accepts [0, 1, 2, 3] [4, 5, 6]
  | .aor _ _ _ _ m => m.accepts [0, 1, 2, 3] [4, 5, 6]
  | .axor _ _ _ _ m => m.accepts [0, 1, 2, 3] [4, 5, 6]
  | .aswp _ _ _ _ m => m.accepts [0, 1, 2, 3] [4, 5, 6]
  | .acas _ _ _ _ m => m.accepts [0, 1, 2, 3] [4, 5, 6]
  | .waita _ _ _ _ m => m.accepts [0, 1] [4, 5, 6]
  | .cadd _ _ _ m => m.accepts [0, 2] [6]
  | .cwait _ _ _ m => m.accepts [0, 1] [6]
  | .cpyin _ _ _ _ _ _ m => m.accepts [0] [0]
  | .cpyout _ _ _ _ _ _ m => m.accepts [0] [0]
  | .cpyt _ _ _ _ _ _ m => m.accepts [0] [0]
  | .cpyx _ _ _ _ _ _ m => m.accepts [0] [0] && m.scope = 6
  | .gather _ _ _ _ _ m => m.accepts [0] [0]
  | .scatter _ _ _ _ _ m => m.accepts [0] [0]
  | .scatadd _ _ _ _ _ m => m.accepts [0] [0]
  | .subscr _ _ _ _ _ m => m.accepts [0] [0]
  | .slotwb _ _ _ _ m => m.accepts [0] [0]
  | .tld _ _ _ _ m => m.accepts [0] [0]
  | .tst _ _ _ _ m => m.accepts [0] [0]
  | .mma _ _ _ _ _ w => w.coded && mmaTypes w
  | .mmai _ _ _ _ _ w => w.coded && w.tc = 4 && w.ta = w.tb && (w.ta = 0 || w.ta = 1)
  | .mmax _ _ _ _ _ w => w.coded && w.ta = 12 && w.tb = 12 && w.tc = 9
  | .scacc _ _ _ _ _ w => w.coded && w.ta = 9 && w.tb = 13 && w.tc = 9
  | .ttrn _ _ _ _ _ w => w.coded && w.ta = w.tc && w.tc ≠ 12
  | .tcvt _ f _ _ _ w => w.coded && f.toNat ≤ 4
  | .cxsort _ f _ _ _ w => w.coded && f.toNat ≤ 1 && w.ta = w.tc && isKeyType w.tc
  | .cxmerge _ f _ _ _ w => w.coded && f.toNat ≤ 1 && w.ta = w.tc && w.tb = w.tc && isKeyType w.tc
  | .tzero _ _ _ _ _ w => w.coded
  | .tfill _ _ _ _ _ w => w.coded
  | .tlay _ _ _ _ _ w => w.coded && w.ta = w.tc
  | .vadd _ _ _ _ _ w => w.coded && arith3 w.ta w.tb w.tc
  | .vsub _ _ _ _ _ w => w.coded && arith3 w.ta w.tb w.tc
  | .vmul _ _ _ _ _ w => w.coded && arith3 w.ta w.tb w.tc
  | .vfma _ _ _ _ _ w => w.coded && arith3 w.ta w.tb w.tc
  | .vmin _ _ _ _ _ w => w.coded && w.ta = w.tb && w.tb = w.tc && isNumType w.tc
  | .vmax _ _ _ _ _ w => w.coded && w.ta = w.tb && w.tb = w.tc && isNumType w.tc
  | .vabs _ _ _ _ _ w => w.coded && w.ta = w.tc && isNumType w.tc
  | .vneg _ _ _ _ _ w => w.coded && w.ta = w.tc && isNumType w.tc
  | .vand _ _ _ _ _ w => w.coded && w.ta = w.tb && w.tb = w.tc && isCodeType w.tc
  | .vor _ _ _ _ _ w => w.coded && w.ta = w.tb && w.tb = w.tc && isCodeType w.tc
  | .vxor _ _ _ _ _ w => w.coded && w.ta = w.tb && w.tb = w.tc && isCodeType w.tc
  | .vshl _ _ _ _ _ w => w.coded && w.ta = w.tc && isIntType w.tc && isIntType w.tb
  | .vshr _ f _ _ _ w => w.coded && f.toNat ≤ 1 && w.ta = w.tc && isIntType w.tc && isIntType w.tb
  | .vcmp _ f _ _ _ w => w.coded && w.ta = w.tb && w.tc = 14 && isNumType w.ta && (isFloatType w.ta || f.toNat ≤ 5)
  | .vsel _ _ _ _ _ w => w.coded && w.ta = w.tb && w.tb = w.tc && isCodeType w.tc
  | .vcvt _ _ _ _ _ w => w.coded
  | .vscl _ f _ _ _ w => w.coded && f.toNat ≤ 4 && arith2 w.ta w.tc
  | .vclmp _ _ _ _ _ w => w.coded && w.ta = w.tb && w.tb = w.tc && isNumType w.tc
  | .vbcr _ f _ _ _ w => w.coded && f.toNat ≤ 4 &&
      (if f.toNat ≤ 2 then arith3 w.ta w.tb w.tc else w.ta = w.tb && w.tb = w.tc && isNumType w.tc)
  | .vbcc _ f _ _ _ w => w.coded && f.toNat ≤ 4 &&
      (if f.toNat ≤ 2 then arith3 w.ta w.tb w.tc else w.ta = w.tb && w.tb = w.tc && isNumType w.tc)
  | .vrsum _ f _ _ _ w => w.coded && f.toNat ≤ 2 && arith2 w.ta w.tc
  | .vcsum _ f _ _ _ w => w.coded && f.toNat ≤ 2 && arith2 w.ta w.tc
  | .vrr _ f _ _ _ w => w.coded && f.toNat ≤ 4 && w.ta = 9 && w.tc = 9 && (w.tb = 9 || (w.tb = 4 && f.toNat ≤ 2))
  | .vfn _ _ _ _ _ w => w.coded && w.ta = 9 && isFloatType w.tc && (w.tb = 0 || w.tb = 4 || w.tb = 9)
  | .vtbl _ f _ _ _ w => w.coded && 6 ≤ f.toNat && w.ta = 9
  | .viota _ f _ _ _ w => w.coded && f.toNat ≤ 2 && isNumType w.tc
  | .vperm _ f _ _ _ w => w.coded && f.toNat ≤ 1 && w.ta = w.tc && isCodeType w.tc && w.tb = 4
  | .lit _ f _ _ => f.toNat ≤ 1
  | _ => true

/-- Fields of engine word 1 that no row of the matrix movers uses: acc, sat, rnd, e and c. -/
def EWord.plain (w : EWord) : Bool := !w.acc && !w.sat && w.rnd = 0 && w.e = 0 && w.c = 0

/-- rnd is Res0 when the result type is an integer (R176). -/
def EWord.rndOk (w : EWord) : Bool := !(isIntType w.tc) || w.rnd = 0

/-- The fields that the instruction carries and does not use are zero (R6, R50, R175: RESERVED_FIELD otherwise) (log 83). -/
def Instr.res0 : Instr → Bool
  | .cpyt _ _ _ _ _ _ m => m.offset = 0
  | .cpyx _ _ _ _ _ _ m => m.offset.extractLsb' 12 8 = 0
  | .mma _ f _ _ _ w => f = 0 && w.rnd = 0 && w.c = 0 && w.e = 0
  | .mmai _ f _ _ _ w => f = 0 && w.rnd = 0 && w.c = 0 && w.e = 0
  | .mmax _ f _ _ _ w => f = 0 && w.plain
  | .scacc _ _ _ _ _ w => !w.acc && w.rnd = 0 && w.e = 0
  | .ttrn _ f _ _ b w => f = 0 && b = 0 && w.tb = 0 && w.plain
  | .tcvt _ f _ _ b w => b = 0 && w.tb = 0 && !w.acc && (f = 0 || w.ta = 0) &&
      (w.c = 0 || f = 4 || (f = 0 && w.ta = 12)) && (w.e = 0 || w.tc = 12)
  | .cxsort _ _ _ _ b w => b = 0 && w.tb = 0 && !w.acc && !w.sat && w.rnd = 0 && w.e = 0
  | .cxmerge _ _ _ _ _ w => !w.acc && !w.sat && w.rnd = 0 && w.e = 0
  | .tzero _ f _ a b w => f = 0 && a = 0 && b = 0 && w.ta = 0 && w.tb = 0 && w.plain
  | .tfill _ f _ a _ w => f = 0 && a = 0 && w.ta = 0 && w.tb = 0 && w.plain
  | .tlay _ f _ _ b w => f = 0 && b = 0 && w.tb = 0 && w.plain
  | .vadd _ f _ _ _ w => f = 0 && !w.acc && w.rndOk && w.c = 0 && w.e = 0
  | .vsub _ f _ _ _ w => f = 0 && !w.acc && w.rndOk && w.c = 0 && w.e = 0
  | .vmul _ f _ _ _ w => f = 0 && !w.acc && w.rndOk && w.c = 0 && w.e = 0
  | .vfma _ f _ _ _ w => f = 0 && !w.acc && w.rndOk && w.e = 0
  | .vmin _ f _ _ _ w => f = 0 && w.plain
  | .vmax _ f _ _ _ w => f = 0 && w.plain
  | .vabs _ f _ _ b w => f = 0 && b = 0 && w.tb = 0 && !w.acc && (isIntType w.tc || !w.sat) && w.rnd = 0 && w.c = 0 && w.e = 0
  | .vneg _ f _ _ b w => f = 0 && b = 0 && w.tb = 0 && !w.acc && (isIntType w.tc || !w.sat) && w.rnd = 0 && w.c = 0 && w.e = 0
  | .vand _ f _ _ _ w => f = 0 && w.plain
  | .vor _ f _ _ _ w => f = 0 && w.plain
  | .vxor _ f _ _ _ w => f = 0 && w.plain
  | .vshl _ f _ _ _ w => f = 0 && w.plain
  | .vshr _ _ _ _ _ w => w.plain
  | .vcmp _ _ _ _ _ w => w.plain
  | .vsel _ f _ _ _ w => f = 0 && !w.acc && !w.sat && w.rnd = 0 && w.e = 0
  | .vcvt _ f _ _ b w => f = 0 && b = 0 && w.tb = 0 && !w.acc && w.rndOk && (w.c = 0 || w.ta = 12) && (w.e = 0 || w.tc = 12)
  | .vscl _ _ _ _ _ w => w.tb = 0 && !w.acc && w.rndOk && w.c = 0 && w.e = 0
  | .vclmp _ f _ _ _ w => f = 0 && w.plain
  | .vbcr _ _ _ _ _ w => !w.acc && w.rndOk && w.c = 0 && w.e = 0
  | .vbcc _ _ _ _ _ w => !w.acc && w.rndOk && w.c = 0 && w.e = 0
  | .vrsum _ _ _ _ b w => b = 0 && w.tb = 0 && w.rndOk && w.c = 0 && w.e = 0
  | .vcsum _ _ _ _ b w => b = 0 && w.tb = 0 && w.rndOk && w.c = 0 && w.e = 0
  | .vrr _ _ _ _ b w => b = 0 && !w.acc && !w.sat && w.rnd = 0 && w.e = 0
  | .vfn _ _ _ _ b w => !w.acc && w.c = 0 && w.e = 0 && (w.tb ≠ 0 || b = 0)
  | .vtbl _ _ d _ b w => d = 0 && b = 0 && w.tb = 0 && w.tc = 0 && w.pri = 0 && w.plain
  | .viota _ _ _ a b w => a = 0 && b = 0 && w.ta = 0 && w.tb = 0 && !w.acc && w.rndOk && w.c = 0 && w.e = 0
  | .vperm _ _ _ _ _ w => w.plain
  | _ => true

/-- The privileged opcodes (Tables 3.7 and 3.8, R315). -/
def Instr.privileged : Instr → Bool
  | .susrd .. => true
  | .tretResume .. => true
  | .tretSkip .. => true
  | .tretDiscard .. => true
  | .tretKill .. => true
  | .areard .. => true
  | .areawr .. => true
  | .savec .. => true
  | .restc .. => true
  | .tlbinv .. => true
  | .mark .. => true
  | .csrrd .. => true
  | .csrwr .. => true
  | _ => false

/-- A well-formed instruction: assigned values, and zero in every field it does not use. -/
def Instr.wf (i : Instr) : Bool := i.assigned && i.res0

end Sys2Proof
end

