-- ==== Sys2Proof/Decode.lean ====
section
/-!
DEFINITION. Decoding and encoding of the instructions of a cell (R41–R58).
The words are read by their fields first (parse), then checked in the order of R57: an unassigned opcode or
field value, and then a nonzero Res0 bit, which is a bit that the words have and their encoding has not.
-/

namespace Sys2Proof

/-- Bits [9:2] of word 0: the major opcode (Table 3.2). -/
def opcodeOf (w : Word32) : BitVec 8 := w.extractLsb' 2 8

/-- Bits [1:0] of word 0: the length class (Table 3.1). -/
def lengthClass (w : Word32) : BitVec 2 := w.extractLsb' 0 2

/-- Bits [13:10] of word 0: the condition (R44). -/
def condOf (w : Word32) : Cond := ⟨w.getLsbD 13, w.extractLsb' 10 3⟩

/-- Word 1 of a memory access, read by Table 3.4. -/
def mwordOf (v : Word32) : MWord :=
  ⟨v.extractLsb' 12 20, v.extractLsb' 8 4, v.extractLsb' 5 3, v.extractLsb' 2 3, v.extractLsb' 0 2⟩

/-- Word 1 of an engine command, read by Table 3.6. -/
def ewordOf (v : Word32) : EWord :=
  ⟨v.getLsbD 27, v.getLsbD 26, v.extractLsb' 24 2, v.extractLsb' 20 4, v.extractLsb' 16 4, v.extractLsb' 12 4,
   v.extractLsb' 8 3, v.extractLsb' 4 3, v.extractLsb' 0 3⟩

/-- Word 0 in the R-form (Table 3.2). -/
def word0 (f : BitVec 3) (b a d : BitVec 5) (c : Cond) (op : BitVec 8) (len : BitVec 2) : Word32 :=
  f ++ b ++ a ++ d ++ BitVec.ofBool c.neg ++ c.q ++ op ++ len

/-- Word 0 in the I-form (R46). -/
def iword (imm : BitVec 8) (a d : BitVec 5) (c : Cond) (op : BitVec 8) : Word32 :=
  imm ++ a ++ d ++ BitVec.ofBool c.neg ++ c.q ++ op ++ (0 : BitVec 2)

/-- Word 0 in the J-form (R47). -/
def jword (off : BitVec 18) (c : Cond) (op : BitVec 8) : Word32 :=
  off ++ BitVec.ofBool c.neg ++ c.q ++ op ++ (0 : BitVec 2)

/-- Word 1 of a memory access (Table 3.4). -/
def mwordBits (m : MWord) : Word32 := m.offset ++ m.type ++ m.evict ++ m.scope ++ m.ord

/-- Word 1 of an engine command (Table 3.6). -/
def ewordBits (w : EWord) : Word32 :=
  (0 : BitVec 4) ++ BitVec.ofBool w.acc ++ BitVec.ofBool w.sat ++ w.pri ++ w.tc ++ w.tb ++ w.ta ++
    (0 : BitVec 1) ++ w.rnd ++ (0 : BitVec 1) ++ w.e ++ (0 : BitVec 1) ++ w.c

/-- The instruction that a 32-bit word reads as, its Res0 bits aside (Table 3.7). -/
def parse32 (w : Word32) : Option Instr :=
  match (opcodeOf w).toNat with
  | 0x00 => some (.nop (condOf w))
  | 0x01 => some (.commit (condOf w))
  | 0x02 => some (.discard (condOf w))
  | 0x03 => some (.yield (condOf w))
  | 0x04 => some (.trap (condOf w) (w.extractLsb' 24 8))
  | 0x05 => some (.brkpt (condOf w))
  | 0x06 => some (.br (condOf w) (w.extractLsb' 14 18))
  | 0x07 => some (.call (condOf w) (w.extractLsb' 14 18))
  | 0x08 => some (.brx (condOf w) (w.extractLsb' 19 5))
  | 0x09 => some (.retn (condOf w) (w.extractLsb' 19 5))
  | 0x10 => some (.cmp (condOf w) (w.extractLsb' 29 3) (w.extractLsb' 14 3) (w.extractLsb' 19 5) (w.extractLsb' 24 5))
  | 0x11 => some (.fcmp (condOf w) (w.extractLsb' 29 3) (w.extractLsb' 14 3) (w.extractLsb' 19 5) (w.extractLsb' 24 5))
  | 0x12 => some (.pand (condOf w) (w.extractLsb' 14 3) (w.extractLsb' 19 3) (w.extractLsb' 24 3))
  | 0x13 => some (.por (condOf w) (w.extractLsb' 14 3) (w.extractLsb' 19 3) (w.extractLsb' 24 3))
  | 0x14 => some (.pxor (condOf w) (w.extractLsb' 14 3) (w.extractLsb' 19 3) (w.extractLsb' 24 3))
  | 0x15 => some (.pnot (condOf w) (w.extractLsb' 14 3) (w.extractLsb' 19 3))
  | 0x16 => some (.pmov (condOf w) (w.extractLsb' 14 3) (w.extractLsb' 19 3))
  | 0x17 => some (.sel (condOf w) (w.extractLsb' 29 3) (w.extractLsb' 14 5) (w.extractLsb' 19 5) (w.extractLsb' 24 5))
  | 0x18 => some (.cmpiEq (condOf w) (w.extractLsb' 14 3) (w.extractLsb' 19 5) (w.extractLsb' 24 8))
  | 0x19 => some (.cmpiNe (condOf w) (w.extractLsb' 14 3) (w.extractLsb' 19 5) (w.extractLsb' 24 8))
  | 0x1A => some (.cmpiLt (condOf w) (w.extractLsb' 14 3) (w.extractLsb' 19 5) (w.extractLsb' 24 8))
  | 0x1B => some (.cmpiLe (condOf w) (w.extractLsb' 14 3) (w.extractLsb' 19 5) (w.extractLsb' 24 8))
  | 0x1C => some (.cmpiGt (condOf w) (w.extractLsb' 14 3) (w.extractLsb' 19 5) (w.extractLsb' 24 8))
  | 0x1D => some (.cmpiGe (condOf w) (w.extractLsb' 14 3) (w.extractLsb' 19 5) (w.extractLsb' 24 8))
  | 0x1E => some (.cmpiLtu (condOf w) (w.extractLsb' 14 3) (w.extractLsb' 19 5) (w.extractLsb' 24 8))
  | 0x1F => some (.cmpiGeu (condOf w) (w.extractLsb' 14 3) (w.extractLsb' 19 5) (w.extractLsb' 24 8))
  | 0x20 => some (.add (condOf w) (w.extractLsb' 14 5) (w.extractLsb' 19 5) (w.extractLsb' 24 5))
  | 0x21 => some (.sub (condOf w) (w.extractLsb' 14 5) (w.extractLsb' 19 5) (w.extractLsb' 24 5))
  | 0x22 => some (.mul (condOf w) (w.extractLsb' 14 5) (w.extractLsb' 19 5) (w.extractLsb' 24 5))
  | 0x23 => some (.mulhi (condOf w) (w.extractLsb' 14 5) (w.extractLsb' 19 5) (w.extractLsb' 24 5))
  | 0x24 => some (.mulhiu (condOf w) (w.extractLsb' 14 5) (w.extractLsb' 19 5) (w.extractLsb' 24 5))
  | 0x25 => some (.div (condOf w) (w.extractLsb' 14 5) (w.extractLsb' 19 5) (w.extractLsb' 24 5))
  | 0x26 => some (.divu (condOf w) (w.extractLsb' 14 5) (w.extractLsb' 19 5) (w.extractLsb' 24 5))
  | 0x27 => some (.rem (condOf w) (w.extractLsb' 14 5) (w.extractLsb' 19 5) (w.extractLsb' 24 5))
  | 0x28 => some (.remu (condOf w) (w.extractLsb' 14 5) (w.extractLsb' 19 5) (w.extractLsb' 24 5))
  | 0x29 => some (.and (condOf w) (w.extractLsb' 14 5) (w.extractLsb' 19 5) (w.extractLsb' 24 5))
  | 0x2A => some (.or (condOf w) (w.extractLsb' 14 5) (w.extractLsb' 19 5) (w.extractLsb' 24 5))
  | 0x2B => some (.xor (condOf w) (w.extractLsb' 14 5) (w.extractLsb' 19 5) (w.extractLsb' 24 5))
  | 0x2C => some (.shl (condOf w) (w.extractLsb' 14 5) (w.extractLsb' 19 5) (w.extractLsb' 24 5))
  | 0x2D => some (.shr (condOf w) (w.extractLsb' 14 5) (w.extractLsb' 19 5) (w.extractLsb' 24 5))
  | 0x2E => some (.sra (condOf w) (w.extractLsb' 14 5) (w.extractLsb' 19 5) (w.extractLsb' 24 5))
  | 0x2F => some (.rol (condOf w) (w.extractLsb' 14 5) (w.extractLsb' 19 5) (w.extractLsb' 24 5))
  | 0x30 => some (.min (condOf w) (w.extractLsb' 14 5) (w.extractLsb' 19 5) (w.extractLsb' 24 5))
  | 0x31 => some (.max (condOf w) (w.extractLsb' 14 5) (w.extractLsb' 19 5) (w.extractLsb' 24 5))
  | 0x32 => some (.minu (condOf w) (w.extractLsb' 14 5) (w.extractLsb' 19 5) (w.extractLsb' 24 5))
  | 0x33 => some (.maxu (condOf w) (w.extractLsb' 14 5) (w.extractLsb' 19 5) (w.extractLsb' 24 5))
  | 0x34 => some (.abs (condOf w) (w.extractLsb' 14 5) (w.extractLsb' 19 5))
  | 0x35 => some (.neg (condOf w) (w.extractLsb' 14 5) (w.extractLsb' 19 5))
  | 0x36 => some (.clz (condOf w) (w.extractLsb' 14 5) (w.extractLsb' 19 5))
  | 0x37 => some (.ctz (condOf w) (w.extractLsb' 14 5) (w.extractLsb' 19 5))
  | 0x38 => some (.popc (condOf w) (w.extractLsb' 14 5) (w.extractLsb' 19 5))
  | 0x39 => some (.sext (condOf w) (w.extractLsb' 29 3) (w.extractLsb' 14 5) (w.extractLsb' 19 5))
  | 0x3A => some (.zext (condOf w) (w.extractLsb' 29 3) (w.extractLsb' 14 5) (w.extractLsb' 19 5))
  | 0x3B => some (.mov (condOf w) (w.extractLsb' 14 5) (w.extractLsb' 19 5))
  | 0x40 => some (.addi (condOf w) (w.extractLsb' 14 5) (w.extractLsb' 19 5) (w.extractLsb' 24 8))
  | 0x41 => some (.andi (condOf w) (w.extractLsb' 14 5) (w.extractLsb' 19 5) (w.extractLsb' 24 8))
  | 0x42 => some (.ori (condOf w) (w.extractLsb' 14 5) (w.extractLsb' 19 5) (w.extractLsb' 24 8))
  | 0x43 => some (.xori (condOf w) (w.extractLsb' 14 5) (w.extractLsb' 19 5) (w.extractLsb' 24 8))
  | 0x44 => some (.shli (condOf w) (w.extractLsb' 14 5) (w.extractLsb' 19 5) (w.extractLsb' 24 6))
  | 0x45 => some (.shri (condOf w) (w.extractLsb' 14 5) (w.extractLsb' 19 5) (w.extractLsb' 24 6))
  | 0x46 => some (.srai (condOf w) (w.extractLsb' 14 5) (w.extractLsb' 19 5) (w.extractLsb' 24 6))
  | 0x47 => some (.roli (condOf w) (w.extractLsb' 14 5) (w.extractLsb' 19 5) (w.extractLsb' 24 6))
  | 0x48 => some (.movi (condOf w) (w.extractLsb' 14 5) (w.extractLsb' 24 8))
  | 0x50 => some (.fadd (condOf w) (w.extractLsb' 29 3) (w.extractLsb' 14 5) (w.extractLsb' 19 5) (w.extractLsb' 24 5))
  | 0x51 => some (.fsub (condOf w) (w.extractLsb' 29 3) (w.extractLsb' 14 5) (w.extractLsb' 19 5) (w.extractLsb' 24 5))
  | 0x52 => some (.fmul (condOf w) (w.extractLsb' 29 3) (w.extractLsb' 14 5) (w.extractLsb' 19 5) (w.extractLsb' 24 5))
  | 0x53 => some (.fdiv (condOf w) (w.extractLsb' 29 3) (w.extractLsb' 14 5) (w.extractLsb' 19 5) (w.extractLsb' 24 5))
  | 0x54 => some (.fsqrt (condOf w) (w.extractLsb' 29 3) (w.extractLsb' 14 5) (w.extractLsb' 19 5))
  | 0x55 => some (.fmin (condOf w) (w.extractLsb' 14 5) (w.extractLsb' 19 5) (w.extractLsb' 24 5))
  | 0x56 => some (.fmax (condOf w) (w.extractLsb' 14 5) (w.extractLsb' 19 5) (w.extractLsb' 24 5))
  | 0x57 => some (.fabs (condOf w) (w.extractLsb' 14 5) (w.extractLsb' 19 5))
  | 0x58 => some (.fneg (condOf w) (w.extractLsb' 14 5) (w.extractLsb' 19 5))
  | 0x59 => some (.fclass (condOf w) (w.extractLsb' 14 5) (w.extractLsb' 19 5))
  | 0x60 => some (.symrd (condOf w) (w.extractLsb' 14 5))
  | 0x61 => some (.symkd (condOf w) (w.extractLsb' 14 5))
  | 0x62 => some (.mksym (condOf w) (w.extractLsb' 24 4) (w.extractLsb' 14 5) (w.extractLsb' 19 5))
  | 0x63 => some (.movs (condOf w) (w.extractLsb' 14 5) (w.extractLsb' 19 5))
  | 0x64 => some (.symget (condOf w) (w.extractLsb' 29 3) (w.extractLsb' 14 5) (w.extractLsb' 19 5))
  | 0x65 => some (.bcast (condOf w) (w.extractLsb' 14 5) (w.extractLsb' 19 5) (w.extractLsb' 24 5))
  | 0x66 => some (.reduceInt (condOf w) (w.extractLsb' 29 3) (w.extractLsb' 14 5) (w.extractLsb' 19 5))
  | 0x67 => some (.reduceFp32 (condOf w) (w.extractLsb' 29 3) (w.extractLsb' 14 5) (w.extractLsb' 19 5))
  | 0x68 => some (.scanInt (condOf w) (w.extractLsb' 29 3) (w.extractLsb' 14 5) (w.extractLsb' 19 5))
  | 0x69 => some (.scanFp32 (condOf w) (w.extractLsb' 29 3) (w.extractLsb' 14 5) (w.extractLsb' 19 5))
  | 0x6A => some (.count (condOf w) (w.extractLsb' 14 5) (w.extractLsb' 19 3))
  | 0x6B => some (.first (condOf w) (w.extractLsb' 14 5) (w.extractLsb' 19 3))
  | 0x6C => some (.areabar (condOf w))
  | 0x6D => some (.emit (condOf w) (w.extractLsb' 14 4) (w.extractLsb' 19 5))
  | 0x6E => some (.emitn (condOf w) (w.extractLsb' 14 4) (w.extractLsb' 19 5) (w.extractLsb' 24 5))
  | 0x6F => some (.insert (condOf w) (w.extractLsb' 19 5))
  | 0x70 => some (.delete (condOf w))
  | 0x71 => some (.opld (condOf w) (w.extractLsb' 19 5))
  | 0x72 => some (.movd (condOf w) (w.extractLsb' 14 3) (w.extractLsb' 19 5))
  | 0x73 => some (.movds (condOf w) (w.extractLsb' 14 5) (w.extractLsb' 19 3))
  | 0x74 => some (.dset (condOf w) (w.extractLsb' 29 3) (w.extractLsb' 14 3) (w.extractLsb' 19 5))
  | 0x75 => some (.talloc (condOf w) (w.extractLsb' 14 3) (w.extractLsb' 19 5))
  | 0x76 => some (.tfree (condOf w) (w.extractLsb' 19 3))
  | 0x77 => some (.qfence (condOf w) (w.extractLsb' 24 4))
  | 0x78 => some (.qwait (condOf w) (w.extractLsb' 24 4))
  | 0x79 => some (.slotrel (condOf w) (w.extractLsb' 19 5) (w.extractLsb' 24 5))
  | 0x7A => some (.unsubs (condOf w) (w.extractLsb' 19 5))
  | 0x7B => some (.binit (condOf w) (w.extractLsb' 19 5) (w.extractLsb' 24 5))
  | 0x7C => some (.barv (condOf w) (w.extractLsb' 19 5))
  | 0x7D => some (.bexp (condOf w) (w.extractLsb' 19 5) (w.extractLsb' 24 5))
  | 0x7E => some (.bwait (condOf w) (w.extractLsb' 14 3) (w.extractLsb' 19 5) (w.extractLsb' 24 5))
  | 0x7F => some (.btry (condOf w) (w.extractLsb' 14 3) (w.extractLsb' 19 5) (w.extractLsb' 24 5))
  | 0x80 => some (.fence (condOf w) (w.extractLsb' 29 3) (w.extractLsb' 24 2))
  | 0x81 => some (.popset (condOf w) (w.extractLsb' 29 2) (w.extractLsb' 19 5) (w.extractLsb' 24 5))
  | 0x82 => some (.evsend (condOf w) (w.extractLsb' 29 2) (w.extractLsb' 19 5) (w.extractLsb' 24 5))
  | 0x83 => some (.accrd (condOf w) (w.extractLsb' 29 2) (w.extractLsb' 14 5) (w.extractLsb' 19 5))
  | 0x84 => some (.accwr (condOf w) (w.extractLsb' 29 2) (w.extractLsb' 19 5) (w.extractLsb' 24 5))
  | 0x85 => some (.accfl (condOf w) (w.extractLsb' 29 2) (w.extractLsb' 19 5) (w.extractLsb' 24 5))
  | 0x86 => some (.evwait (condOf w) (w.extractLsb' 19 5))
  | 0x87 => some (.caprd (condOf w) (w.extractLsb' 14 5) (w.extractLsb' 19 5))
  | 0x88 => some (.susrd (condOf w) (w.extractLsb' 14 5) (w.extractLsb' 19 5))
  | 0x89 =>
    match (w.extractLsb' 29 3).toNat with
    | 0 => some (.tretResume (condOf w))
    | 1 => some (.tretSkip (condOf w))
    | 2 => some (.tretDiscard (condOf w))
    | 3 => some (.tretKill (condOf w))
    | _ => none
  | 0x8A => some (.areard (condOf w) (w.extractLsb' 14 5) (w.extractLsb' 19 5))
  | 0x8B => some (.areawr (condOf w) (w.extractLsb' 19 5) (w.extractLsb' 24 5))
  | 0x8C => some (.savec (condOf w) (w.extractLsb' 19 5))
  | 0x8D => some (.restc (condOf w) (w.extractLsb' 19 5))
  | 0x8E => some (.tlbinv (condOf w) (w.extractLsb' 19 5) (w.extractLsb' 24 5))
  | 0x8F => some (.rdctr (condOf w) (w.extractLsb' 29 3) (w.extractLsb' 14 5) (w.extractLsb' 19 5))
  | 0x90 => some (.mark (condOf w) (w.extractLsb' 19 5))
  | 0x91 => some (.hostsig (condOf w) (w.extractLsb' 19 5) (w.extractLsb' 24 5))
  | _ => none

/-- The instruction that the two words of the 64-bit class read as, their Res0 bits aside (Table 3.8). -/
def parse64 (w v : Word32) : Option Instr :=
  match (opcodeOf w).toNat with
  | 0x00 => some (.brc (condOf w) (w.extractLsb' 29 3) (w.extractLsb' 19 5) (w.extractLsb' 24 5) (v.extractLsb' 14 18))
  | 0x01 => some (.loop (condOf w) (w.extractLsb' 14 5) (v.extractLsb' 14 18))
  | 0x02 => some (.bext (condOf w) (w.extractLsb' 14 5) (w.extractLsb' 19 5) (v.extractLsb' 6 6) (v.extractLsb' 0 6))
  | 0x03 => some (.bins (condOf w) (w.extractLsb' 14 5) (w.extractLsb' 19 5) (v.extractLsb' 6 6) (v.extractLsb' 0 6))
  | 0x04 => some (.ffma (condOf w) (w.extractLsb' 29 3) (w.extractLsb' 14 5) (w.extractLsb' 19 5) (w.extractLsb' 24 5) (v.extractLsb' 0 5))
  | 0x05 => some (.fcvt (condOf w) (w.extractLsb' 14 5) (w.extractLsb' 19 5) (v.getLsbD 11) (v.extractLsb' 8 3) (v.extractLsb' 4 4) (v.extractLsb' 0 4))
  | 0x06 => some (.evsendt (condOf w) (w.extractLsb' 29 2) (w.extractLsb' 19 5) (w.extractLsb' 24 5) (v.extractLsb' 0 5))
  | 0x08 => some (.csrrd (condOf w) (w.extractLsb' 14 5) (v.extractLsb' 0 12))
  | 0x09 => some (.csrwr (condOf w) (w.extractLsb' 19 5) (v.extractLsb' 0 12))
  | 0x10 => some (.ld (condOf w) (w.extractLsb' 14 5) (w.extractLsb' 19 5) (mwordOf v))
  | 0x11 => some (.st (condOf w) (w.extractLsb' 19 5) (w.extractLsb' 24 5) (mwordOf v))
  | 0x12 => some (.pref (condOf w) (w.extractLsb' 19 5) (mwordOf v))
  | 0x13 => some (.aadd (condOf w) (w.extractLsb' 14 5) (w.extractLsb' 19 5) (w.extractLsb' 24 5) (mwordOf v))
  | 0x14 => some (.afadd (condOf w) (w.extractLsb' 14 5) (w.extractLsb' 19 5) (w.extractLsb' 24 5) (mwordOf v))
  | 0x15 => some (.amin (condOf w) (w.extractLsb' 14 5) (w.extractLsb' 19 5) (w.extractLsb' 24 5) (mwordOf v))
  | 0x16 => some (.amax (condOf w) (w.extractLsb' 14 5) (w.extractLsb' 19 5) (w.extractLsb' 24 5) (mwordOf v))
  | 0x17 => some (.aand (condOf w) (w.extractLsb' 14 5) (w.extractLsb' 19 5) (w.extractLsb' 24 5) (mwordOf v))
  | 0x18 => some (.aor (condOf w) (w.extractLsb' 14 5) (w.extractLsb' 19 5) (w.extractLsb' 24 5) (mwordOf v))
  | 0x19 => some (.axor (condOf w) (w.extractLsb' 14 5) (w.extractLsb' 19 5) (w.extractLsb' 24 5) (mwordOf v))
  | 0x1A => some (.aswp (condOf w) (w.extractLsb' 14 5) (w.extractLsb' 19 5) (w.extractLsb' 24 5) (mwordOf v))
  | 0x1B => some (.acas (condOf w) (w.extractLsb' 14 5) (w.extractLsb' 19 5) (w.extractLsb' 24 5) (mwordOf v))
  | 0x1C => some (.waita (condOf w) (w.extractLsb' 29 3) (w.extractLsb' 19 5) (w.extractLsb' 24 5) (mwordOf v))
  | 0x20 => some (.cpyin (condOf w) (w.extractLsb' 29 2) (w.getLsbD 31) (w.extractLsb' 14 3) (w.extractLsb' 19 5) (w.extractLsb' 24 5) (mwordOf v))
  | 0x21 => some (.cpyout (condOf w) (w.extractLsb' 29 2) (w.getLsbD 31) (w.extractLsb' 14 3) (w.extractLsb' 19 5) (w.extractLsb' 24 5) (mwordOf v))
  | 0x22 => some (.cpyt (condOf w) (w.extractLsb' 29 2) (w.getLsbD 31) (w.extractLsb' 14 3) (w.extractLsb' 19 3) (w.extractLsb' 24 5) (mwordOf v))
  | 0x23 => some (.cpyx (condOf w) (w.extractLsb' 29 2) (w.getLsbD 31) (w.extractLsb' 14 3) (w.extractLsb' 19 5) (w.extractLsb' 24 5) (mwordOf v))
  | 0x24 => some (.gather (condOf w) (w.extractLsb' 29 2) (w.extractLsb' 14 3) (w.extractLsb' 19 5) (w.extractLsb' 24 3) (mwordOf v))
  | 0x25 => some (.scatter (condOf w) (w.extractLsb' 29 2) (w.extractLsb' 14 3) (w.extractLsb' 19 5) (w.extractLsb' 24 3) (mwordOf v))
  | 0x26 => some (.scatadd (condOf w) (w.extractLsb' 29 2) (w.extractLsb' 14 3) (w.extractLsb' 19 5) (w.extractLsb' 24 3) (mwordOf v))
  | 0x27 => some (.subscr (condOf w) (w.extractLsb' 29 2) (w.extractLsb' 14 5) (w.extractLsb' 19 5) (w.extractLsb' 24 5) (mwordOf v))
  | 0x28 => some (.slotwb (condOf w) (w.extractLsb' 29 2) (w.extractLsb' 19 5) (w.extractLsb' 24 5) (mwordOf v))
  | 0x29 => some (.cadd (condOf w) (w.extractLsb' 19 5) (w.extractLsb' 24 5) (mwordOf v))
  | 0x2A => some (.cwait (condOf w) (w.extractLsb' 19 5) (w.extractLsb' 24 5) (mwordOf v))
  | 0x2B => some (.tld (condOf w) (w.extractLsb' 29 2) (w.extractLsb' 14 3) (w.extractLsb' 19 5) (mwordOf v))
  | 0x2C => some (.tst (condOf w) (w.extractLsb' 29 2) (w.extractLsb' 19 5) (w.extractLsb' 24 3) (mwordOf v))
  | 0x40 => some (.mma (condOf w) (w.extractLsb' 29 3) (w.extractLsb' 14 3) (w.extractLsb' 19 3) (w.extractLsb' 24 3) (ewordOf v))
  | 0x41 => some (.mmai (condOf w) (w.extractLsb' 29 3) (w.extractLsb' 14 3) (w.extractLsb' 19 3) (w.extractLsb' 24 3) (ewordOf v))
  | 0x42 => some (.mmax (condOf w) (w.extractLsb' 29 3) (w.extractLsb' 14 3) (w.extractLsb' 19 3) (w.extractLsb' 24 3) (ewordOf v))
  | 0x43 => some (.scacc (condOf w) (w.extractLsb' 29 3) (w.extractLsb' 14 3) (w.extractLsb' 19 3) (w.extractLsb' 24 3) (ewordOf v))
  | 0x44 => some (.ttrn (condOf w) (w.extractLsb' 29 3) (w.extractLsb' 14 3) (w.extractLsb' 19 3) (w.extractLsb' 24 3) (ewordOf v))
  | 0x45 => some (.tcvt (condOf w) (w.extractLsb' 29 3) (w.extractLsb' 14 3) (w.extractLsb' 19 3) (w.extractLsb' 24 3) (ewordOf v))
  | 0x46 => some (.cxsort (condOf w) (w.extractLsb' 29 3) (w.extractLsb' 14 3) (w.extractLsb' 19 3) (w.extractLsb' 24 3) (ewordOf v))
  | 0x47 => some (.cxmerge (condOf w) (w.extractLsb' 29 3) (w.extractLsb' 14 3) (w.extractLsb' 19 3) (w.extractLsb' 24 3) (ewordOf v))
  | 0x48 => some (.tzero (condOf w) (w.extractLsb' 29 3) (w.extractLsb' 14 3) (w.extractLsb' 19 3) (w.extractLsb' 24 3) (ewordOf v))
  | 0x49 => some (.tfill (condOf w) (w.extractLsb' 29 3) (w.extractLsb' 14 3) (w.extractLsb' 19 3) (w.extractLsb' 24 5) (ewordOf v))
  | 0x4A => some (.tlay (condOf w) (w.extractLsb' 29 3) (w.extractLsb' 14 3) (w.extractLsb' 19 3) (w.extractLsb' 24 3) (ewordOf v))
  | 0x60 => some (.vadd (condOf w) (w.extractLsb' 29 3) (w.extractLsb' 14 3) (w.extractLsb' 19 3) (w.extractLsb' 24 3) (ewordOf v))
  | 0x61 => some (.vsub (condOf w) (w.extractLsb' 29 3) (w.extractLsb' 14 3) (w.extractLsb' 19 3) (w.extractLsb' 24 3) (ewordOf v))
  | 0x62 => some (.vmul (condOf w) (w.extractLsb' 29 3) (w.extractLsb' 14 3) (w.extractLsb' 19 3) (w.extractLsb' 24 3) (ewordOf v))
  | 0x63 => some (.vfma (condOf w) (w.extractLsb' 29 3) (w.extractLsb' 14 3) (w.extractLsb' 19 3) (w.extractLsb' 24 3) (ewordOf v))
  | 0x64 => some (.vmin (condOf w) (w.extractLsb' 29 3) (w.extractLsb' 14 3) (w.extractLsb' 19 3) (w.extractLsb' 24 3) (ewordOf v))
  | 0x65 => some (.vmax (condOf w) (w.extractLsb' 29 3) (w.extractLsb' 14 3) (w.extractLsb' 19 3) (w.extractLsb' 24 3) (ewordOf v))
  | 0x66 => some (.vabs (condOf w) (w.extractLsb' 29 3) (w.extractLsb' 14 3) (w.extractLsb' 19 3) (w.extractLsb' 24 3) (ewordOf v))
  | 0x67 => some (.vneg (condOf w) (w.extractLsb' 29 3) (w.extractLsb' 14 3) (w.extractLsb' 19 3) (w.extractLsb' 24 3) (ewordOf v))
  | 0x68 => some (.vand (condOf w) (w.extractLsb' 29 3) (w.extractLsb' 14 3) (w.extractLsb' 19 3) (w.extractLsb' 24 3) (ewordOf v))
  | 0x69 => some (.vor (condOf w) (w.extractLsb' 29 3) (w.extractLsb' 14 3) (w.extractLsb' 19 3) (w.extractLsb' 24 3) (ewordOf v))
  | 0x6A => some (.vxor (condOf w) (w.extractLsb' 29 3) (w.extractLsb' 14 3) (w.extractLsb' 19 3) (w.extractLsb' 24 3) (ewordOf v))
  | 0x6B => some (.vshl (condOf w) (w.extractLsb' 29 3) (w.extractLsb' 14 3) (w.extractLsb' 19 3) (w.extractLsb' 24 3) (ewordOf v))
  | 0x6C => some (.vshr (condOf w) (w.extractLsb' 29 3) (w.extractLsb' 14 3) (w.extractLsb' 19 3) (w.extractLsb' 24 3) (ewordOf v))
  | 0x6D => some (.vcmp (condOf w) (w.extractLsb' 29 3) (w.extractLsb' 14 3) (w.extractLsb' 19 3) (w.extractLsb' 24 3) (ewordOf v))
  | 0x6E => some (.vsel (condOf w) (w.extractLsb' 29 3) (w.extractLsb' 14 3) (w.extractLsb' 19 3) (w.extractLsb' 24 3) (ewordOf v))
  | 0x6F => some (.vcvt (condOf w) (w.extractLsb' 29 3) (w.extractLsb' 14 3) (w.extractLsb' 19 3) (w.extractLsb' 24 3) (ewordOf v))
  | 0x70 => some (.vscl (condOf w) (w.extractLsb' 29 3) (w.extractLsb' 14 3) (w.extractLsb' 19 3) (w.extractLsb' 24 5) (ewordOf v))
  | 0x71 => some (.vclmp (condOf w) (w.extractLsb' 29 3) (w.extractLsb' 14 3) (w.extractLsb' 19 3) (w.extractLsb' 24 3) (ewordOf v))
  | 0x72 => some (.vbcr (condOf w) (w.extractLsb' 29 3) (w.extractLsb' 14 3) (w.extractLsb' 19 3) (w.extractLsb' 24 3) (ewordOf v))
  | 0x73 => some (.vbcc (condOf w) (w.extractLsb' 29 3) (w.extractLsb' 14 3) (w.extractLsb' 19 3) (w.extractLsb' 24 3) (ewordOf v))
  | 0x74 => some (.vrsum (condOf w) (w.extractLsb' 29 3) (w.extractLsb' 14 3) (w.extractLsb' 19 3) (w.extractLsb' 24 3) (ewordOf v))
  | 0x75 => some (.vcsum (condOf w) (w.extractLsb' 29 3) (w.extractLsb' 14 3) (w.extractLsb' 19 3) (w.extractLsb' 24 3) (ewordOf v))
  | 0x76 => some (.vrr (condOf w) (w.extractLsb' 29 3) (w.extractLsb' 14 3) (w.extractLsb' 19 3) (w.extractLsb' 24 3) (ewordOf v))
  | 0x77 => some (.vfn (condOf w) (w.extractLsb' 29 3) (w.extractLsb' 14 3) (w.extractLsb' 19 3) (w.extractLsb' 24 3) (ewordOf v))
  | 0x78 => some (.vtbl (condOf w) (w.extractLsb' 29 3) (w.extractLsb' 14 3) (w.extractLsb' 19 3) (w.extractLsb' 24 3) (ewordOf v))
  | 0x79 => some (.viota (condOf w) (w.extractLsb' 29 3) (w.extractLsb' 14 3) (w.extractLsb' 19 3) (w.extractLsb' 24 3) (ewordOf v))
  | 0x7A => some (.vperm (condOf w) (w.extractLsb' 29 3) (w.extractLsb' 14 3) (w.extractLsb' 19 3) (w.extractLsb' 24 3) (ewordOf v))
  | _ => none

/-- The instruction that the three words of the 96-bit class read as (R56). -/
def parse96 (w u : Word32) : Option Instr :=
  match (opcodeOf w).toNat with
  | 0x00 => some (.lit (condOf w) (w.extractLsb' 29 3) (w.extractLsb' 14 5) u)
  | 0x01 => some (.lith (condOf w) (w.extractLsb' 14 5) u)
  | _ => none

/-- The words of an instruction, from Tables 3.2, 3.4, 3.6, R51 and R52. A step that is no instruction has no words. -/
def encode : Instr → List Word32
  | .nop c => [word0 (0 : BitVec 3) (0 : BitVec 5) (0 : BitVec 5) (0 : BitVec 5) c (0x00 : BitVec 8) 0]
  | .commit c => [word0 (0 : BitVec 3) (0 : BitVec 5) (0 : BitVec 5) (0 : BitVec 5) c (0x01 : BitVec 8) 0]
  | .discard c => [word0 (0 : BitVec 3) (0 : BitVec 5) (0 : BitVec 5) (0 : BitVec 5) c (0x02 : BitVec 8) 0]
  | .yield c => [word0 (0 : BitVec 3) (0 : BitVec 5) (0 : BitVec 5) (0 : BitVec 5) c (0x03 : BitVec 8) 0]
  | .trap c code => [iword code (0 : BitVec 5) (0 : BitVec 5) c (0x04 : BitVec 8)]
  | .brkpt c => [word0 (0 : BitVec 3) (0 : BitVec 5) (0 : BitVec 5) (0 : BitVec 5) c (0x05 : BitVec 8) 0]
  | .br c off => [jword off c (0x06 : BitVec 8)]
  | .call c off => [jword off c (0x07 : BitVec 8)]
  | .brx c a => [word0 (0 : BitVec 3) (0 : BitVec 5) a (0 : BitVec 5) c (0x08 : BitVec 8) 0]
  | .retn c a => [word0 (0 : BitVec 3) (0 : BitVec 5) a (0 : BitVec 5) c (0x09 : BitVec 8) 0]
  | .cmp c f d a b => [word0 f b a ((0 : BitVec 2) ++ d) c (0x10 : BitVec 8) 0]
  | .fcmp c f d a b => [word0 f b a ((0 : BitVec 2) ++ d) c (0x11 : BitVec 8) 0]
  | .pand c d a b => [word0 (0 : BitVec 3) ((0 : BitVec 2) ++ b) ((0 : BitVec 2) ++ a) ((0 : BitVec 2) ++ d) c (0x12 : BitVec 8) 0]
  | .por c d a b => [word0 (0 : BitVec 3) ((0 : BitVec 2) ++ b) ((0 : BitVec 2) ++ a) ((0 : BitVec 2) ++ d) c (0x13 : BitVec 8) 0]
  | .pxor c d a b => [word0 (0 : BitVec 3) ((0 : BitVec 2) ++ b) ((0 : BitVec 2) ++ a) ((0 : BitVec 2) ++ d) c (0x14 : BitVec 8) 0]
  | .pnot c d a => [word0 (0 : BitVec 3) (0 : BitVec 5) ((0 : BitVec 2) ++ a) ((0 : BitVec 2) ++ d) c (0x15 : BitVec 8) 0]
  | .pmov c d a => [word0 (0 : BitVec 3) (0 : BitVec 5) ((0 : BitVec 2) ++ a) ((0 : BitVec 2) ++ d) c (0x16 : BitVec 8) 0]
  | .sel c f d a b => [word0 f b a d c (0x17 : BitVec 8) 0]
  | .cmpiEq c d a imm => [iword imm a ((0 : BitVec 2) ++ d) c (0x18 : BitVec 8)]
  | .cmpiNe c d a imm => [iword imm a ((0 : BitVec 2) ++ d) c (0x19 : BitVec 8)]
  | .cmpiLt c d a imm => [iword imm a ((0 : BitVec 2) ++ d) c (0x1A : BitVec 8)]
  | .cmpiLe c d a imm => [iword imm a ((0 : BitVec 2) ++ d) c (0x1B : BitVec 8)]
  | .cmpiGt c d a imm => [iword imm a ((0 : BitVec 2) ++ d) c (0x1C : BitVec 8)]
  | .cmpiGe c d a imm => [iword imm a ((0 : BitVec 2) ++ d) c (0x1D : BitVec 8)]
  | .cmpiLtu c d a imm => [iword imm a ((0 : BitVec 2) ++ d) c (0x1E : BitVec 8)]
  | .cmpiGeu c d a imm => [iword imm a ((0 : BitVec 2) ++ d) c (0x1F : BitVec 8)]
  | .add c d a b => [word0 (0 : BitVec 3) b a d c (0x20 : BitVec 8) 0]
  | .sub c d a b => [word0 (0 : BitVec 3) b a d c (0x21 : BitVec 8) 0]
  | .mul c d a b => [word0 (0 : BitVec 3) b a d c (0x22 : BitVec 8) 0]
  | .mulhi c d a b => [word0 (0 : BitVec 3) b a d c (0x23 : BitVec 8) 0]
  | .mulhiu c d a b => [word0 (0 : BitVec 3) b a d c (0x24 : BitVec 8) 0]
  | .div c d a b => [word0 (0 : BitVec 3) b a d c (0x25 : BitVec 8) 0]
  | .divu c d a b => [word0 (0 : BitVec 3) b a d c (0x26 : BitVec 8) 0]
  | .rem c d a b => [word0 (0 : BitVec 3) b a d c (0x27 : BitVec 8) 0]
  | .remu c d a b => [word0 (0 : BitVec 3) b a d c (0x28 : BitVec 8) 0]
  | .and c d a b => [word0 (0 : BitVec 3) b a d c (0x29 : BitVec 8) 0]
  | .or c d a b => [word0 (0 : BitVec 3) b a d c (0x2A : BitVec 8) 0]
  | .xor c d a b => [word0 (0 : BitVec 3) b a d c (0x2B : BitVec 8) 0]
  | .shl c d a b => [word0 (0 : BitVec 3) b a d c (0x2C : BitVec 8) 0]
  | .shr c d a b => [word0 (0 : BitVec 3) b a d c (0x2D : BitVec 8) 0]
  | .sra c d a b => [word0 (0 : BitVec 3) b a d c (0x2E : BitVec 8) 0]
  | .rol c d a b => [word0 (0 : BitVec 3) b a d c (0x2F : BitVec 8) 0]
  | .min c d a b => [word0 (0 : BitVec 3) b a d c (0x30 : BitVec 8) 0]
  | .max c d a b => [word0 (0 : BitVec 3) b a d c (0x31 : BitVec 8) 0]
  | .minu c d a b => [word0 (0 : BitVec 3) b a d c (0x32 : BitVec 8) 0]
  | .maxu c d a b => [word0 (0 : BitVec 3) b a d c (0x33 : BitVec 8) 0]
  | .abs c d a => [word0 (0 : BitVec 3) (0 : BitVec 5) a d c (0x34 : BitVec 8) 0]
  | .neg c d a => [word0 (0 : BitVec 3) (0 : BitVec 5) a d c (0x35 : BitVec 8) 0]
  | .clz c d a => [word0 (0 : BitVec 3) (0 : BitVec 5) a d c (0x36 : BitVec 8) 0]
  | .ctz c d a => [word0 (0 : BitVec 3) (0 : BitVec 5) a d c (0x37 : BitVec 8) 0]
  | .popc c d a => [word0 (0 : BitVec 3) (0 : BitVec 5) a d c (0x38 : BitVec 8) 0]
  | .sext c f d a => [word0 f (0 : BitVec 5) a d c (0x39 : BitVec 8) 0]
  | .zext c f d a => [word0 f (0 : BitVec 5) a d c (0x3A : BitVec 8) 0]
  | .mov c d a => [word0 (0 : BitVec 3) (0 : BitVec 5) a d c (0x3B : BitVec 8) 0]
  | .addi c d a imm => [iword imm a d c (0x40 : BitVec 8)]
  | .andi c d a imm => [iword imm a d c (0x41 : BitVec 8)]
  | .ori c d a imm => [iword imm a d c (0x42 : BitVec 8)]
  | .xori c d a imm => [iword imm a d c (0x43 : BitVec 8)]
  | .shli c d a n => [iword ((0 : BitVec 2) ++ n) a d c (0x44 : BitVec 8)]
  | .shri c d a n => [iword ((0 : BitVec 2) ++ n) a d c (0x45 : BitVec 8)]
  | .srai c d a n => [iword ((0 : BitVec 2) ++ n) a d c (0x46 : BitVec 8)]
  | .roli c d a n => [iword ((0 : BitVec 2) ++ n) a d c (0x47 : BitVec 8)]
  | .movi c d imm => [iword imm (0 : BitVec 5) d c (0x48 : BitVec 8)]
  | .fadd c rnd d a b => [word0 rnd b a d c (0x50 : BitVec 8) 0]
  | .fsub c rnd d a b => [word0 rnd b a d c (0x51 : BitVec 8) 0]
  | .fmul c rnd d a b => [word0 rnd b a d c (0x52 : BitVec 8) 0]
  | .fdiv c rnd d a b => [word0 rnd b a d c (0x53 : BitVec 8) 0]
  | .fsqrt c f d a => [word0 f (0 : BitVec 5) a d c (0x54 : BitVec 8) 0]
  | .fmin c d a b => [word0 (0 : BitVec 3) b a d c (0x55 : BitVec 8) 0]
  | .fmax c d a b => [word0 (0 : BitVec 3) b a d c (0x56 : BitVec 8) 0]
  | .fabs c d a => [word0 (0 : BitVec 3) (0 : BitVec 5) a d c (0x57 : BitVec 8) 0]
  | .fneg c d a => [word0 (0 : BitVec 3) (0 : BitVec 5) a d c (0x58 : BitVec 8) 0]
  | .fclass c d a => [word0 (0 : BitVec 3) (0 : BitVec 5) a d c (0x59 : BitVec 8) 0]
  | .symrd c d => [word0 (0 : BitVec 3) (0 : BitVec 5) (0 : BitVec 5) d c (0x60 : BitVec 8) 0]
  | .symkd c d => [word0 (0 : BitVec 3) (0 : BitVec 5) (0 : BitVec 5) d c (0x61 : BitVec 8) 0]
  | .mksym c k d a => [word0 (0 : BitVec 3) ((0 : BitVec 1) ++ k) a d c (0x62 : BitVec 8) 0]
  | .movs c d x => [word0 (0 : BitVec 3) (0 : BitVec 5) x d c (0x63 : BitVec 8) 0]
  | .symget c f d a => [word0 f (0 : BitVec 5) a d c (0x64 : BitVec 8) 0]
  | .bcast c d a b => [word0 (0 : BitVec 3) b a d c (0x65 : BitVec 8) 0]
  | .reduceInt c f d a => [word0 f (0 : BitVec 5) a d c (0x66 : BitVec 8) 0]
  | .reduceFp32 c f d a => [word0 f (0 : BitVec 5) a d c (0x67 : BitVec 8) 0]
  | .scanInt c f d a => [word0 f (0 : BitVec 5) a d c (0x68 : BitVec 8) 0]
  | .scanFp32 c f d a => [word0 f (0 : BitVec 5) a d c (0x69 : BitVec 8) 0]
  | .count c d a => [word0 (0 : BitVec 3) (0 : BitVec 5) ((0 : BitVec 2) ++ a) d c (0x6A : BitVec 8) 0]
  | .first c d a => [word0 (0 : BitVec 3) (0 : BitVec 5) ((0 : BitVec 2) ++ a) d c (0x6B : BitVec 8) 0]
  | .areabar c => [word0 (0 : BitVec 3) (0 : BitVec 5) (0 : BitVec 5) (0 : BitVec 5) c (0x6C : BitVec 8) 0]
  | .emit c k a => [word0 (0 : BitVec 3) (0 : BitVec 5) a ((0 : BitVec 1) ++ k) c (0x6D : BitVec 8) 0]
  | .emitn c k a b => [word0 (0 : BitVec 3) b a ((0 : BitVec 1) ++ k) c (0x6E : BitVec 8) 0]
  | .insert c a => [word0 (0 : BitVec 3) (0 : BitVec 5) a (0 : BitVec 5) c (0x6F : BitVec 8) 0]
  | .delete c => [word0 (0 : BitVec 3) (0 : BitVec 5) (0 : BitVec 5) (0 : BitVec 5) c (0x70 : BitVec 8) 0]
  | .opld c a => [word0 (0 : BitVec 3) (0 : BitVec 5) a (0 : BitVec 5) c (0x71 : BitVec 8) 0]
  | .movd c d a => [word0 (0 : BitVec 3) (0 : BitVec 5) a ((0 : BitVec 2) ++ d) c (0x72 : BitVec 8) 0]
  | .movds c d a => [word0 (0 : BitVec 3) (0 : BitVec 5) ((0 : BitVec 2) ++ a) d c (0x73 : BitVec 8) 0]
  | .dset c f d a => [word0 f (0 : BitVec 5) a ((0 : BitVec 2) ++ d) c (0x74 : BitVec 8) 0]
  | .talloc c d a => [word0 (0 : BitVec 3) (0 : BitVec 5) a ((0 : BitVec 2) ++ d) c (0x75 : BitVec 8) 0]
  | .tfree c a => [word0 (0 : BitVec 3) (0 : BitVec 5) ((0 : BitVec 2) ++ a) (0 : BitVec 5) c (0x76 : BitVec 8) 0]
  | .qfence c m => [word0 (0 : BitVec 3) ((0 : BitVec 1) ++ m) (0 : BitVec 5) (0 : BitVec 5) c (0x77 : BitVec 8) 0]
  | .qwait c m => [word0 (0 : BitVec 3) ((0 : BitVec 1) ++ m) (0 : BitVec 5) (0 : BitVec 5) c (0x78 : BitVec 8) 0]
  | .slotrel c a b => [word0 (0 : BitVec 3) b a (0 : BitVec 5) c (0x79 : BitVec 8) 0]
  | .unsubs c a => [word0 (0 : BitVec 3) (0 : BitVec 5) a (0 : BitVec 5) c (0x7A : BitVec 8) 0]
  | .binit c a b => [word0 (0 : BitVec 3) b a (0 : BitVec 5) c (0x7B : BitVec 8) 0]
  | .barv c a => [word0 (0 : BitVec 3) (0 : BitVec 5) a (0 : BitVec 5) c (0x7C : BitVec 8) 0]
  | .bexp c a b => [word0 (0 : BitVec 3) b a (0 : BitVec 5) c (0x7D : BitVec 8) 0]
  | .bwait c d a b => [word0 (0 : BitVec 3) b a ((0 : BitVec 2) ++ d) c (0x7E : BitVec 8) 0]
  | .btry c d a b => [word0 (0 : BitVec 3) b a ((0 : BitVec 2) ++ d) c (0x7F : BitVec 8) 0]
  | .fence c scope ord => [word0 scope ((0 : BitVec 3) ++ ord) (0 : BitVec 5) (0 : BitVec 5) c (0x80 : BitVec 8) 0]
  | .popset c pri a b => [word0 ((0 : BitVec 1) ++ pri) b a (0 : BitVec 5) c (0x81 : BitVec 8) 0]
  | .evsend c pri a b => [word0 ((0 : BitVec 1) ++ pri) b a (0 : BitVec 5) c (0x82 : BitVec 8) 0]
  | .accrd c pri d a => [word0 ((0 : BitVec 1) ++ pri) (0 : BitVec 5) a d c (0x83 : BitVec 8) 0]
  | .accwr c pri a b => [word0 ((0 : BitVec 1) ++ pri) b a (0 : BitVec 5) c (0x84 : BitVec 8) 0]
  | .accfl c pri a b => [word0 ((0 : BitVec 1) ++ pri) b a (0 : BitVec 5) c (0x85 : BitVec 8) 0]
  | .evwait c a => [word0 (0 : BitVec 3) (0 : BitVec 5) a (0 : BitVec 5) c (0x86 : BitVec 8) 0]
  | .caprd c d a => [word0 (0 : BitVec 3) (0 : BitVec 5) a d c (0x87 : BitVec 8) 0]
  | .susrd c d a => [word0 (0 : BitVec 3) (0 : BitVec 5) a d c (0x88 : BitVec 8) 0]
  | .tretResume c => [word0 (0 : BitVec 3) (0 : BitVec 5) (0 : BitVec 5) (0 : BitVec 5) c (0x89 : BitVec 8) 0]
  | .tretSkip c => [word0 (1 : BitVec 3) (0 : BitVec 5) (0 : BitVec 5) (0 : BitVec 5) c (0x89 : BitVec 8) 0]
  | .tretDiscard c => [word0 (2 : BitVec 3) (0 : BitVec 5) (0 : BitVec 5) (0 : BitVec 5) c (0x89 : BitVec 8) 0]
  | .tretKill c => [word0 (3 : BitVec 3) (0 : BitVec 5) (0 : BitVec 5) (0 : BitVec 5) c (0x89 : BitVec 8) 0]
  | .areard c d a => [word0 (0 : BitVec 3) (0 : BitVec 5) a d c (0x8A : BitVec 8) 0]
  | .areawr c a b => [word0 (0 : BitVec 3) b a (0 : BitVec 5) c (0x8B : BitVec 8) 0]
  | .savec c a => [word0 (0 : BitVec 3) (0 : BitVec 5) a (0 : BitVec 5) c (0x8C : BitVec 8) 0]
  | .restc c a => [word0 (0 : BitVec 3) (0 : BitVec 5) a (0 : BitVec 5) c (0x8D : BitVec 8) 0]
  | .tlbinv c a b => [word0 (0 : BitVec 3) b a (0 : BitVec 5) c (0x8E : BitVec 8) 0]
  | .rdctr c f d a => [word0 f (0 : BitVec 5) a d c (0x8F : BitVec 8) 0]
  | .mark c a => [word0 (0 : BitVec 3) (0 : BitVec 5) a (0 : BitVec 5) c (0x90 : BitVec 8) 0]
  | .hostsig c a b => [word0 (0 : BitVec 3) b a (0 : BitVec 5) c (0x91 : BitVec 8) 0]
  | .brc c f a b off => [word0 f b a (0 : BitVec 5) c (0x00 : BitVec 8) 1, (off ++ (0 : BitVec 14))]
  | .loop c d off => [word0 (0 : BitVec 3) (0 : BitVec 5) (0 : BitVec 5) d c (0x01 : BitVec 8) 1, (off ++ (0 : BitVec 14))]
  | .bext c d a w lo => [word0 (0 : BitVec 3) (0 : BitVec 5) a d c (0x02 : BitVec 8) 1, ((0 : BitVec 20) ++ w ++ lo)]
  | .bins c d a w lo => [word0 (0 : BitVec 3) (0 : BitVec 5) a d c (0x03 : BitVec 8) 1, ((0 : BitVec 20) ++ w ++ lo)]
  | .ffma c rnd d a b e => [word0 rnd b a d c (0x04 : BitVec 8) 1, ((0 : BitVec 27) ++ e)]
  | .fcvt c d a sat rnd dt st => [word0 (0 : BitVec 3) (0 : BitVec 5) a d c (0x05 : BitVec 8) 1, ((0 : BitVec 20) ++ BitVec.ofBool sat ++ rnd ++ dt ++ st)]
  | .evsendt c pri a b e => [word0 ((0 : BitVec 1) ++ pri) b a (0 : BitVec 5) c (0x06 : BitVec 8) 1, ((0 : BitVec 27) ++ e)]
  | .csrrd c d num => [word0 (0 : BitVec 3) (0 : BitVec 5) (0 : BitVec 5) d c (0x08 : BitVec 8) 1, ((0 : BitVec 20) ++ num)]
  | .csrwr c a num => [word0 (0 : BitVec 3) (0 : BitVec 5) a (0 : BitVec 5) c (0x09 : BitVec 8) 1, ((0 : BitVec 20) ++ num)]
  | .ld c d a m => [word0 (0 : BitVec 3) (0 : BitVec 5) a d c (0x10 : BitVec 8) 1, mwordBits m]
  | .st c a b m => [word0 (0 : BitVec 3) b a (0 : BitVec 5) c (0x11 : BitVec 8) 1, mwordBits m]
  | .pref c a m => [word0 (0 : BitVec 3) (0 : BitVec 5) a (0 : BitVec 5) c (0x12 : BitVec 8) 1, mwordBits m]
  | .aadd c d a b m => [word0 (0 : BitVec 3) b a d c (0x13 : BitVec 8) 1, mwordBits m]
  | .afadd c d a b m => [word0 (0 : BitVec 3) b a d c (0x14 : BitVec 8) 1, mwordBits m]
  | .amin c d a b m => [word0 (0 : BitVec 3) b a d c (0x15 : BitVec 8) 1, mwordBits m]
  | .amax c d a b m => [word0 (0 : BitVec 3) b a d c (0x16 : BitVec 8) 1, mwordBits m]
  | .aand c d a b m => [word0 (0 : BitVec 3) b a d c (0x17 : BitVec 8) 1, mwordBits m]
  | .aor c d a b m => [word0 (0 : BitVec 3) b a d c (0x18 : BitVec 8) 1, mwordBits m]
  | .axor c d a b m => [word0 (0 : BitVec 3) b a d c (0x19 : BitVec 8) 1, mwordBits m]
  | .aswp c d a b m => [word0 (0 : BitVec 3) b a d c (0x1A : BitVec 8) 1, mwordBits m]
  | .acas c d a b m => [word0 (0 : BitVec 3) b a d c (0x1B : BitVec 8) 1, mwordBits m]
  | .waita c f a b m => [word0 f b a (0 : BitVec 5) c (0x1C : BitVec 8) 1, mwordBits m]
  | .cpyin c pri ctr d a b m => [word0 (BitVec.ofBool ctr ++ pri) b a ((0 : BitVec 2) ++ d) c (0x20 : BitVec 8) 1, mwordBits m]
  | .cpyout c pri ctr d a b m => [word0 (BitVec.ofBool ctr ++ pri) b a ((0 : BitVec 2) ++ d) c (0x21 : BitVec 8) 1, mwordBits m]
  | .cpyt c pri ctr d a b m => [word0 (BitVec.ofBool ctr ++ pri) b ((0 : BitVec 2) ++ a) ((0 : BitVec 2) ++ d) c (0x22 : BitVec 8) 1, mwordBits m]
  | .cpyx c pri ctr d a b m => [word0 (BitVec.ofBool ctr ++ pri) b a ((0 : BitVec 2) ++ d) c (0x23 : BitVec 8) 1, mwordBits m]
  | .gather c pri d a b m => [word0 ((0 : BitVec 1) ++ pri) ((0 : BitVec 2) ++ b) a ((0 : BitVec 2) ++ d) c (0x24 : BitVec 8) 1, mwordBits m]
  | .scatter c pri d a b m => [word0 ((0 : BitVec 1) ++ pri) ((0 : BitVec 2) ++ b) a ((0 : BitVec 2) ++ d) c (0x25 : BitVec 8) 1, mwordBits m]
  | .scatadd c pri d a b m => [word0 ((0 : BitVec 1) ++ pri) ((0 : BitVec 2) ++ b) a ((0 : BitVec 2) ++ d) c (0x26 : BitVec 8) 1, mwordBits m]
  | .subscr c pri d a b m => [word0 ((0 : BitVec 1) ++ pri) b a d c (0x27 : BitVec 8) 1, mwordBits m]
  | .slotwb c pri a b m => [word0 ((0 : BitVec 1) ++ pri) b a (0 : BitVec 5) c (0x28 : BitVec 8) 1, mwordBits m]
  | .cadd c a b m => [word0 (0 : BitVec 3) b a (0 : BitVec 5) c (0x29 : BitVec 8) 1, mwordBits m]
  | .cwait c a b m => [word0 (0 : BitVec 3) b a (0 : BitVec 5) c (0x2A : BitVec 8) 1, mwordBits m]
  | .tld c pri d a m => [word0 ((0 : BitVec 1) ++ pri) (0 : BitVec 5) a ((0 : BitVec 2) ++ d) c (0x2B : BitVec 8) 1, mwordBits m]
  | .tst c pri a b m => [word0 ((0 : BitVec 1) ++ pri) ((0 : BitVec 2) ++ b) a (0 : BitVec 5) c (0x2C : BitVec 8) 1, mwordBits m]
  | .mma c f d a b w => [word0 f ((0 : BitVec 2) ++ b) ((0 : BitVec 2) ++ a) ((0 : BitVec 2) ++ d) c (0x40 : BitVec 8) 1, ewordBits w]
  | .mmai c f d a b w => [word0 f ((0 : BitVec 2) ++ b) ((0 : BitVec 2) ++ a) ((0 : BitVec 2) ++ d) c (0x41 : BitVec 8) 1, ewordBits w]
  | .mmax c f d a b w => [word0 f ((0 : BitVec 2) ++ b) ((0 : BitVec 2) ++ a) ((0 : BitVec 2) ++ d) c (0x42 : BitVec 8) 1, ewordBits w]
  | .scacc c f d a b w => [word0 f ((0 : BitVec 2) ++ b) ((0 : BitVec 2) ++ a) ((0 : BitVec 2) ++ d) c (0x43 : BitVec 8) 1, ewordBits w]
  | .ttrn c f d a b w => [word0 f ((0 : BitVec 2) ++ b) ((0 : BitVec 2) ++ a) ((0 : BitVec 2) ++ d) c (0x44 : BitVec 8) 1, ewordBits w]
  | .tcvt c f d a b w => [word0 f ((0 : BitVec 2) ++ b) ((0 : BitVec 2) ++ a) ((0 : BitVec 2) ++ d) c (0x45 : BitVec 8) 1, ewordBits w]
  | .cxsort c f d a b w => [word0 f ((0 : BitVec 2) ++ b) ((0 : BitVec 2) ++ a) ((0 : BitVec 2) ++ d) c (0x46 : BitVec 8) 1, ewordBits w]
  | .cxmerge c f d a b w => [word0 f ((0 : BitVec 2) ++ b) ((0 : BitVec 2) ++ a) ((0 : BitVec 2) ++ d) c (0x47 : BitVec 8) 1, ewordBits w]
  | .tzero c f d a b w => [word0 f ((0 : BitVec 2) ++ b) ((0 : BitVec 2) ++ a) ((0 : BitVec 2) ++ d) c (0x48 : BitVec 8) 1, ewordBits w]
  | .tfill c f d a b w => [word0 f b ((0 : BitVec 2) ++ a) ((0 : BitVec 2) ++ d) c (0x49 : BitVec 8) 1, ewordBits w]
  | .tlay c f d a b w => [word0 f ((0 : BitVec 2) ++ b) ((0 : BitVec 2) ++ a) ((0 : BitVec 2) ++ d) c (0x4A : BitVec 8) 1, ewordBits w]
  | .vadd c f d a b w => [word0 f ((0 : BitVec 2) ++ b) ((0 : BitVec 2) ++ a) ((0 : BitVec 2) ++ d) c (0x60 : BitVec 8) 1, ewordBits w]
  | .vsub c f d a b w => [word0 f ((0 : BitVec 2) ++ b) ((0 : BitVec 2) ++ a) ((0 : BitVec 2) ++ d) c (0x61 : BitVec 8) 1, ewordBits w]
  | .vmul c f d a b w => [word0 f ((0 : BitVec 2) ++ b) ((0 : BitVec 2) ++ a) ((0 : BitVec 2) ++ d) c (0x62 : BitVec 8) 1, ewordBits w]
  | .vfma c f d a b w => [word0 f ((0 : BitVec 2) ++ b) ((0 : BitVec 2) ++ a) ((0 : BitVec 2) ++ d) c (0x63 : BitVec 8) 1, ewordBits w]
  | .vmin c f d a b w => [word0 f ((0 : BitVec 2) ++ b) ((0 : BitVec 2) ++ a) ((0 : BitVec 2) ++ d) c (0x64 : BitVec 8) 1, ewordBits w]
  | .vmax c f d a b w => [word0 f ((0 : BitVec 2) ++ b) ((0 : BitVec 2) ++ a) ((0 : BitVec 2) ++ d) c (0x65 : BitVec 8) 1, ewordBits w]
  | .vabs c f d a b w => [word0 f ((0 : BitVec 2) ++ b) ((0 : BitVec 2) ++ a) ((0 : BitVec 2) ++ d) c (0x66 : BitVec 8) 1, ewordBits w]
  | .vneg c f d a b w => [word0 f ((0 : BitVec 2) ++ b) ((0 : BitVec 2) ++ a) ((0 : BitVec 2) ++ d) c (0x67 : BitVec 8) 1, ewordBits w]
  | .vand c f d a b w => [word0 f ((0 : BitVec 2) ++ b) ((0 : BitVec 2) ++ a) ((0 : BitVec 2) ++ d) c (0x68 : BitVec 8) 1, ewordBits w]
  | .vor c f d a b w => [word0 f ((0 : BitVec 2) ++ b) ((0 : BitVec 2) ++ a) ((0 : BitVec 2) ++ d) c (0x69 : BitVec 8) 1, ewordBits w]
  | .vxor c f d a b w => [word0 f ((0 : BitVec 2) ++ b) ((0 : BitVec 2) ++ a) ((0 : BitVec 2) ++ d) c (0x6A : BitVec 8) 1, ewordBits w]
  | .vshl c f d a b w => [word0 f ((0 : BitVec 2) ++ b) ((0 : BitVec 2) ++ a) ((0 : BitVec 2) ++ d) c (0x6B : BitVec 8) 1, ewordBits w]
  | .vshr c f d a b w => [word0 f ((0 : BitVec 2) ++ b) ((0 : BitVec 2) ++ a) ((0 : BitVec 2) ++ d) c (0x6C : BitVec 8) 1, ewordBits w]
  | .vcmp c f d a b w => [word0 f ((0 : BitVec 2) ++ b) ((0 : BitVec 2) ++ a) ((0 : BitVec 2) ++ d) c (0x6D : BitVec 8) 1, ewordBits w]
  | .vsel c f d a b w => [word0 f ((0 : BitVec 2) ++ b) ((0 : BitVec 2) ++ a) ((0 : BitVec 2) ++ d) c (0x6E : BitVec 8) 1, ewordBits w]
  | .vcvt c f d a b w => [word0 f ((0 : BitVec 2) ++ b) ((0 : BitVec 2) ++ a) ((0 : BitVec 2) ++ d) c (0x6F : BitVec 8) 1, ewordBits w]
  | .vscl c f d a b w => [word0 f b ((0 : BitVec 2) ++ a) ((0 : BitVec 2) ++ d) c (0x70 : BitVec 8) 1, ewordBits w]
  | .vclmp c f d a b w => [word0 f ((0 : BitVec 2) ++ b) ((0 : BitVec 2) ++ a) ((0 : BitVec 2) ++ d) c (0x71 : BitVec 8) 1, ewordBits w]
  | .vbcr c f d a b w => [word0 f ((0 : BitVec 2) ++ b) ((0 : BitVec 2) ++ a) ((0 : BitVec 2) ++ d) c (0x72 : BitVec 8) 1, ewordBits w]
  | .vbcc c f d a b w => [word0 f ((0 : BitVec 2) ++ b) ((0 : BitVec 2) ++ a) ((0 : BitVec 2) ++ d) c (0x73 : BitVec 8) 1, ewordBits w]
  | .vrsum c f d a b w => [word0 f ((0 : BitVec 2) ++ b) ((0 : BitVec 2) ++ a) ((0 : BitVec 2) ++ d) c (0x74 : BitVec 8) 1, ewordBits w]
  | .vcsum c f d a b w => [word0 f ((0 : BitVec 2) ++ b) ((0 : BitVec 2) ++ a) ((0 : BitVec 2) ++ d) c (0x75 : BitVec 8) 1, ewordBits w]
  | .vrr c f d a b w => [word0 f ((0 : BitVec 2) ++ b) ((0 : BitVec 2) ++ a) ((0 : BitVec 2) ++ d) c (0x76 : BitVec 8) 1, ewordBits w]
  | .vfn c f d a b w => [word0 f ((0 : BitVec 2) ++ b) ((0 : BitVec 2) ++ a) ((0 : BitVec 2) ++ d) c (0x77 : BitVec 8) 1, ewordBits w]
  | .vtbl c f d a b w => [word0 f ((0 : BitVec 2) ++ b) ((0 : BitVec 2) ++ a) ((0 : BitVec 2) ++ d) c (0x78 : BitVec 8) 1, ewordBits w]
  | .viota c f d a b w => [word0 f ((0 : BitVec 2) ++ b) ((0 : BitVec 2) ++ a) ((0 : BitVec 2) ++ d) c (0x79 : BitVec 8) 1, ewordBits w]
  | .vperm c f d a b w => [word0 f ((0 : BitVec 2) ++ b) ((0 : BitVec 2) ++ a) ((0 : BitVec 2) ++ d) c (0x7A : BitVec 8) 1, ewordBits w]
  | .lit c f d lit => [word0 f (0 : BitVec 5) (0 : BitVec 5) d c (0x00 : BitVec 8) 2, 0, lit]
  | .lith c d lit => [word0 (0 : BitVec 3) (0 : BitVec 5) (0 : BitVec 5) d c (0x01 : BitVec 8) 2, 0, lit]
  | _ => []

/-- The words of the instruction at the head of a word list, by its length class (Table 3.1), read by their fields. -/
def parseWords : List Word32 → Option Instr
  | [] => none
  | w :: rest =>
    match (lengthClass w).toNat, rest with
    | 0, _ => parse32 w
    | 1, v :: _ => parse64 w v
    | 2, _ :: u :: _ => parse96 w u
    | _, _ => none

/-- How many words the instruction that begins with `w` has; 0 for the reserved length class. -/
def wordCount (w : Word32) : Nat :=
  if lengthClass w = 3 then 0 else 1 + (lengthClass w).toNat

/-- R57 from the check of the length class to the check of Res0, on the words from the pc to the end of the
microprogram. PRIV, which stands between the last two checks, needs the cell: `reservedField` says whether the
opcode is privileged, and a privileged instruction that decodes checks the cell itself. -/
def decode (ws : List Word32) : Except NotInstr Instr :=
  match ws with
  | [] => .error .noExit
  | w :: _ =>
    if lengthClass w = 3 then .error .illegalLength
    else if ws.length < wordCount w then .error .noExit
    else
      match parseWords ws with
      | none => .error .illegalOpcode
      | some i =>
        if i.assigned = false then .error .illegalOpcode
        else if encode i = ws.take (wordCount w) ∧ i.res0 = true then .ok i
        else .error (.reservedField i.privileged)

/-- The 32-bit word of four bytes, the lowest address first (R5, R41). -/
def wordOfBytes (b0 b1 b2 b3 : Byte) : Word32 := b3 ++ b2 ++ b1 ++ b0

/-- The whole 32-bit words of a byte list. -/
def wordsOfBytes : List Byte → List Word32
  | b0 :: b1 :: b2 :: b3 :: rest => wordOfBytes b0 b1 b2 b3 :: wordsOfBytes rest
  | _ => []

/-- The four bytes of a word, the lowest address first (R5). -/
def bytesOfWord (w : Word32) : List Byte :=
  [w.extractLsb' 0 8, w.extractLsb' 8 8, w.extractLsb' 16 8, w.extractLsb' 24 8]

/-- The bytes of words, as a microprogram holds them. -/
def bytesOfWords (ws : List Word32) : List Byte := ws.flatMap bytesOfWord

/-- Decoding on bytes: bytes after the last whole word count for nothing. -/
def decodeBytes (bs : List Byte) : Except NotInstr Instr := decode (wordsOfBytes bs)

/-- The three words of an instruction whose bits are `w`, word 0 in the low 32 bits; the longest instruction has 96 bits. -/
def tableWords (w : Nat) : List Word32 :=
  [BitVec.ofNat 32 w, BitVec.ofNat 32 (w / 2 ^ 32), BitVec.ofNat 32 (w / 2 ^ 64)]

/-- The instruction that the decoder reads from the low `nbits` bits of `w`, laid out as the hardware stores its words. -/
def decodeTableWord (nbits w : Nat) : Option Instr :=
  match decodeBytes (bytesOfWords (tableWords (w % 2 ^ nbits))) with
  | .ok i => some i
  | .error _ => none

end Sys2Proof
end

