-- ==== Sys2Proof/Machine/Tab.lean ====
section
/-!
DEFINITION. Operations on sparse tables, bit fields and little-endian byte lists (R5).
-/

namespace Sys2Proof

/-- The entry of key `k`. -/
def Tab.find {α : Type} : Tab α → Nat → Option α
  | [], _ => none
  | (j, v) :: r, k => if j = k then some v else Tab.find r k

/-- The table without key `k`. -/
def Tab.erase {α : Type} (t : Tab α) (k : Nat) : Tab α := t.filter (fun p => p.1 ≠ k)

/-- Insertion before the first greater key. -/
def Tab.ins {α : Type} : Tab α → Nat → α → Tab α
  | [], k, v => [(k, v)]
  | (j, w) :: r, k, v => if k < j then (k, v) :: (j, w) :: r else (j, w) :: Tab.ins r k v

/-- The table with key `k` at `v`. -/
def Tab.set {α : Type} (t : Tab α) (k : Nat) (v : α) : Tab α := (t.erase k).ins k v

/-- The entry of key `k`, or the default. -/
def Tab.get {α : Type} (d : α) (t : Tab α) (k : Nat) : α := (t.find k).getD d

/-- The table with key `k` reading `v`: an entry equal to the default is not listed. -/
def Tab.put {α : Type} [DecidableEq α] (d : α) (t : Tab α) (k : Nat) (v : α) : Tab α :=
  if v = d then t.erase k else t.set k v

/-- The table with the entry of key `k`, where there is one, changed by `f`. -/
def Tab.upd {α : Type} (t : Tab α) (k : Nat) (f : α → α) : Tab α :=
  match t.find k with
  | some v => t.set k (f v)
  | none => t

/-- The canonical form: keys strictly rising, no entry equal to the default. -/
def Tab.wf {α : Type} [DecidableEq α] (d : α) (t : Tab α) : Bool :=
  decide (t.Pairwise (fun p r => p.1 < r.1)) && t.all (fun p => p.2 ≠ d)

/-- Bits [lo + n − 1 : lo] of a number. -/
def bits (x lo n : Nat) : Nat := x / 2 ^ lo % 2 ^ n

/-- Bit `i` of a number. -/
def bitOf (x i : Nat) : Bool := x / 2 ^ i % 2 = 1

/-- A flag as a bit. -/
def bit (b : Bool) : Nat := if b then 1 else 0

/-- `n` bits read as two's complement. -/
def sInt (n x : Nat) : Int := if 2 * (x % 2 ^ n) < 2 ^ n then (x % 2 ^ n : Nat) else (x % 2 ^ n : Nat) - (2 ^ n : Nat)

/-- An integer's low `n` bits. -/
def wrap (n : Nat) (x : Int) : Nat := (x % (2 ^ n : Nat)).toNat

/-- x limited to the range lo to hi (R75). -/
def clamp (x lo hi : Int) : Int := max lo (min x hi)

/-- The fields of a record, each a width and a value, the first field at bit 0. -/
def packFields : List (Nat × Nat) → Nat
  | [] => 0
  | (n, v) :: r => v % 2 ^ n + 2 ^ n * packFields r

/-- The `n` bytes of a number, the low byte first (R5). -/
def leBytes : Nat → Nat → List Byte
  | 0, _ => []
  | n + 1, x => BitVec.ofNat 8 x :: leBytes n (x / 256)

/-- The number of a byte list, the low byte first (R5). -/
def ofLe : List Byte → Nat
  | [] => 0
  | b :: r => b.toNat + 256 * ofLe r

/-- ⌈x / y⌉. -/
def ceilDiv (x y : Nat) : Nat := (x + y - 1) / y

/-- The first element that meets `p`, with its place. -/
def findIdx {α : Type} (p : α → Bool) : List α → Nat → Option (Nat × α)
  | [], _ => none
  | x :: r, i => if p x then some (i, x) else findIdx p r (i + 1)

/-- Inserts before the first element that `x` does not come after, where `lt y x` says that `y` comes before `x`. -/
def insBy {α : Type} (lt : α → α → Bool) (x : α) : List α → List α
  | [] => [x]
  | y :: r => if lt y x then y :: insBy lt x r else x :: y :: r

/-- A stable sort. -/
def sortBy {α : Type} (lt : α → α → Bool) (l : List α) : List α := l.foldr (insBy lt) []

end Sys2Proof
end

