-- ==== Sys2Proof/Machine/Float.lean ====
section
/-!
DEFINITION. Number formats and exact arithmetic (R59–R75): values, decoding, the one rounding, conversions, and the
exact operations with the special cases of R102.
-/

namespace Sys2Proof.Machine

/-- An exact value (R75): NaN with its sign and FP32 fraction bits, an infinity, or ±m · 2^e, where m = 0 is a zero
with its sign. -/
inductive Val where
  | nan (neg : Bool) (frac : Nat)
  | inf (neg : Bool)
  | fin (neg : Bool) (m : Nat) (e : Int)
deriving DecidableEq, Repr, Inhabited

/-- A floating format (Table 4.1). -/
structure Fmt where
  frac : Nat
  expo : Nat
  bias : Nat
deriving DecidableEq, Repr

def fp32 : Fmt := ⟨23, 8, 127⟩
def bf16 : Fmt := ⟨7, 8, 127⟩
def fp16 : Fmt := ⟨10, 5, 15⟩
def e4m3 : Fmt := ⟨3, 4, 7⟩
def e5m2 : Fmt := ⟨2, 5, 15⟩
def e2m1 : Fmt := ⟨1, 2, 1⟩
def e2m3 : Fmt := ⟨3, 2, 1⟩
def e3m2 : Fmt := ⟨2, 3, 3⟩

/-- Formats with infinities (Table 4.2). -/
def Fmt.hasInf (f : Fmt) : Bool := f = fp32 || f = bf16 || f = fp16 || f = e5m2

/-- The floating format of an element type code (Table 3.10). -/
def fmtOf (t : Nat) : Option Fmt :=
  match t with
  | 7 => some bf16
  | 8 => some fp16
  | 9 => some fp32
  | 10 => some e4m3
  | 11 => some e5m2
  | 12 => some e2m1
  | _ => none

/-- Bits of an element of a type code: 4 for type 12 (R60, R152). -/
def typeBits (t : Nat) : Nat :=
  match t with
  | 0 | 1 | 10 | 11 | 13 | 14 => 8
  | 2 | 3 | 7 | 8 => 16
  | 4 | 5 | 9 => 32
  | 6 => 64
  | 12 => 4
  | _ => 8

/-- Width and signedness of an integer type code. -/
def intOf (t : Nat) : Option (Nat × Bool) :=
  match t with
  | 0 => some (8, true)
  | 1 => some (8, false)
  | 2 => some (16, true)
  | 3 => some (16, false)
  | 4 => some (32, true)
  | 5 => some (32, false)
  | 6 => some (64, true)
  | _ => none

/-- The code's value in a format without its special codes (R61). -/
def Fmt.plain (f : Fmt) (c : Nat) : Val :=
  let neg := bitOf c (f.frac + f.expo)
  let e := bits c f.frac f.expo
  let m := bits c 0 f.frac
  if e = 0 then .fin neg m (1 - (f.bias : Int) - f.frac)
  else .fin neg (2 ^ f.frac + m) ((e : Int) - f.bias - f.frac)

/-- Decode of a floating code (R61, R62), NaN fractions as Table 4.7 carries them to FP32. -/
def Fmt.decode (f : Fmt) (c : Nat) : Val :=
  let neg := bitOf c (f.frac + f.expo)
  let e := bits c f.frac f.expo
  let m := bits c 0 f.frac
  if f.hasInf && e = 2 ^ f.expo - 1 then
    if m = 0 then .inf neg else .nan neg (m * 2 ^ (23 - f.frac))
  else if f = e4m3 && e = 15 && m = 7 then .nan neg 0x400000
  else f.plain c

/-- The value of an integer. -/
def Val.ofInt (x : Int) : Val := .fin (x < 0) x.natAbs 0

/-- Decode(c, t) (R59, R61–R63). -/
def decodeT (t c : Nat) : Val :=
  match intOf t with
  | some (n, true) => .ofInt (sInt n c)
  | some (n, false) => .ofInt (bits c 0 n : Nat)
  | none =>
    match fmtOf t with
    | some f => f.decode c
    | none =>
      if t = 13 then (if bits c 0 8 = 255 then .nan false 0x400000 else .fin false 1 ((bits c 0 8 : Int) - 127))
      else .ofInt (if bits c 0 8 = 0 then 0 else 1)

/-- ⌊log2 m⌋ + e for a nonzero value (ExpOf, R75). -/
def expOf (m : Nat) (e : Int) : Int := (Nat.log2 m : Int) + e

/-- Table 4.3: m · 2^(−k) rounded to a whole number, with the sign `neg` and the draw `r`. -/
def roundUnits (mode : Nat) (neg : Bool) (r m : Nat) (k : Int) : Nat :=
  if k ≤ 0 then m * 2 ^ k.natAbs
  else
    let p := 2 ^ k.natAbs
    let lo := m / p
    let rem := m % p
    if rem = 0 then lo
    else
      match mode with
      | 0 => if 2 * rem < p then lo else if p < 2 * rem then lo + 1 else lo + lo % 2
      | 1 => lo
      | 2 => if neg then lo + 1 else lo
      | 3 => if neg then lo else lo + 1
      | _ => if 2 ^ 16 ≤ rem * 2 ^ 16 / p + r then lo + 1 else lo

/-- A code from its sign, exponent field and fraction field. -/
def Fmt.code (f : Fmt) (neg : Bool) (e m : Nat) : Nat := bit neg * 2 ^ (f.frac + f.expo) + e * 2 ^ f.frac + m

/-- The code of the largest finite magnitude. -/
def Fmt.largest (f : Fmt) (neg : Bool) : Nat :=
  if f.hasInf then f.code neg (2 ^ f.expo - 2) (2 ^ f.frac - 1)
  else if f = e4m3 then f.code neg 15 6
  else f.code neg (2 ^ f.expo - 1) (2 ^ f.frac - 1)

/-- The default NaN (Table 4.6); E2M1 has none and gives +0 (Table 4.7). -/
def Fmt.defaultNaN (f : Fmt) : Nat :=
  if f.hasInf then f.code false (2 ^ f.expo - 1) (2 ^ (f.frac - 1))
  else if f = e4m3 then 0x7F else 0

/-- A NaN in conversion (Table 4.7). -/
def Fmt.nanCode (f : Fmt) (neg : Bool) (frac : Nat) : Nat :=
  if f.hasInf then
    let m := frac / 2 ^ (23 - f.frac) % 2 ^ f.frac
    f.code neg (2 ^ f.expo - 1) (if m = 0 then 1 else m)
  else if f = e4m3 then f.code neg 15 7 else 0

/-- Table 4.4: the overflow result. -/
def Fmt.overflow (f : Fmt) (mode : Nat) (sat neg : Bool) : Nat :=
  let away := f.largest neg
  let past := if f.hasInf then f.code neg (2 ^ f.expo - 1) 0 else if f = e4m3 then f.code neg 15 7 else away
  if sat then away
  else
    match mode with
    | 1 => away
    | 2 => if neg then past else away
    | 3 => if neg then away else past
    | _ => past

/-- Round(v, f, mode, sat) for a floating target (R66, R67, Table 4.7). -/
def Fmt.round (f : Fmt) (mode : Nat) (sat : Bool) (r : Nat) : Val → Nat
  | .nan neg frac => f.nanCode neg frac
  | .inf neg => if f.hasInf && !sat then f.code neg (2 ^ f.expo - 1) 0 else f.overflow mode sat neg
  | .fin neg m e =>
    if m = 0 then f.code neg 0 0
    else
      let emin : Int := 1 - f.bias
      let q : Int := max (expOf m e) emin - f.frac
      let u := roundUnits mode neg r m (q - e)
      let (u, q) := if u = 2 ^ (f.frac + 1) then (2 ^ f.frac, q + 1) else (u, q)
      if u < 2 ^ f.frac then f.code neg 0 u
      else
        let ef := (q + f.frac + f.bias).toNat
        if f.largest false < f.code false ef (u - 2 ^ f.frac) then f.overflow mode sat neg
        else f.code neg ef (u - 2 ^ f.frac)

/-- A value rounded to an integer by a mode (R69); none for NaN and infinities. -/
def Val.toInt (mode r : Nat) : Val → Option Int
  | .fin neg m e =>
    let u := roundUnits mode neg r m (-e)
    some (if neg then -(u : Int) else u)
  | _ => none

/-- Limits of an integer type. -/
def intMin (n : Nat) (signed : Bool) : Int := if signed then -(2 ^ (n - 1) : Nat) else 0
def intMax (n : Nat) (signed : Bool) : Int := if signed then (2 ^ (n - 1) : Nat) - 1 else (2 ^ n : Nat) - 1

/-- Any source to E8M0 (R69). -/
def roundE8M0 (mode : Nat) (sat : Bool) (r : Nat) : Val → Nat
  | .inf false => if sat then 0xFE else 0xFF
  | .fin false m e =>
    if m = 0 then 0xFF
    else
      let x := expOf m e
      let lo := 2 ^ Nat.log2 m
      let rem := m - lo
      let up :=
        if rem = 0 then false
        else
          match mode with
          | 0 => if 2 * rem < lo then false else if lo < 2 * rem then true else (x + 127) % 2 = 1
          | 1 => false
          | 2 => false
          | 3 => true
          | _ => decide (2 ^ 16 ≤ rem * 2 ^ 16 / lo + r)
      let y := if up then x + 1 else x
      if y < -127 then 0x00 else if 127 < y then (if sat then 0xFE else 0xFF) else (y + 127).toNat
  | _ => 0xFF

/-- Round(v, t, mode, sat): the code of type t (R66, R67, R69). -/
def roundT (t mode : Nat) (sat : Bool) (r : Nat) (v : Val) : Nat :=
  match fmtOf t with
  | some f => f.round mode sat r v
  | none =>
    if t = 13 then roundE8M0 mode sat r v
    else if t = 14 then (match v with | .fin _ 0 _ => 0 | _ => 1)
    else
      match intOf t with
      | none => 0
      | some (n, sg) =>
        match v with
        | .nan _ _ => 0
        | .inf neg => wrap n (if neg then intMin n sg else intMax n sg)
        | v => wrap n (clamp ((v.toInt mode r).getD 0) (intMin n sg) (intMax n sg))

/-- An infinity converted to a format that has infinities stays one, with either sat (R72, R73) (log 28); from FP32 to FP32 it follows
Table 4.4 (R67). -/
def keptInf (src dst : Nat) (v : Val) : Option Nat :=
  match v, fmtOf dst with
  | .inf neg, some f => if f.hasInf && !(src = 9 && dst = 9) then some (f.code neg (2 ^ f.expo - 1) 0) else none
  | _, _ => none

/-- Convert(c, s, t, mode, sat) (R69, R71–R75) (log 28, 29). -/
def convert (src dst mode : Nat) (sat : Bool) (r c : Nat) : Nat :=
  match intOf src, intOf dst with
  | some _, some (n, sg) =>
    match decodeT src c with
    | .fin neg m _ =>
      let x : Int := if neg then -(m : Int) else m
      wrap n (if sat then clamp x (intMin n sg) (intMax n sg) else x)
    | _ => 0
  | _, _ =>
    if src = 14 && dst = 13 then (if bits c 0 8 = 0 then 0xFF else 0x7F)
    else (keptInf src dst (decodeT src c)).getD (roundT dst mode sat r (decodeT src c))

/-- A typed result in a scalar register (R60). -/
def extendT (t c : Nat) : Word :=
  match intOf t with
  | some (n, true) => BitVec.ofInt 64 (sInt n c)
  | _ => BitVec.ofNat 64 (bits c 0 (typeBits t))

/-- The default NaN value of an arithmetic result. -/
def Val.qnan : Val := .nan false 0x400000

/-- The sign of a value. -/
def Val.neg : Val → Bool
  | .nan n _ => n
  | .inf n => n
  | .fin n _ _ => n

def Val.isNan : Val → Bool
  | .nan _ _ => true
  | _ => false

def Val.isZero : Val → Bool
  | .fin _ 0 _ => true
  | _ => false

/-- −v. -/
def Val.negate : Val → Val
  | .nan n f => .nan (!n) f
  | .inf n => .inf (!n)
  | .fin n m e => .fin (!n) m e

/-- The signed mantissa at exponent `e0`, at most its own. -/
def signedAt (neg : Bool) (m : Nat) (e e0 : Int) : Int :=
  let x : Int := m * 2 ^ (e - e0).natAbs
  if neg then -x else x

/-- A signed mantissa and an exponent as a value; an exact zero has the sign `z`. -/
def ofSigned (z : Bool) (x e : Int) : Val := if x = 0 then .fin z 0 0 else .fin (x < 0) x.natAbs e

/-- x + y (R102): the mode decides the sign of an exact zero. -/
def Val.add (mode : Nat) : Val → Val → Val
  | .nan _ _, _ => .qnan
  | _, .nan _ _ => .qnan
  | .inf a, .inf b => if a = b then .inf a else .qnan
  | .inf a, _ => .inf a
  | _, .inf b => .inf b
  | .fin a m e, .fin b n f =>
    if m = 0 && n = 0 then .fin (if a = b then a else mode = 2) 0 0
    else
      let e0 := min e f
      ofSigned (mode = 2) (signedAt a m e e0 + signedAt b n f e0) e0

/-- x × y (R102). -/
def Val.mul : Val → Val → Val
  | .nan _ _, _ => .qnan
  | _, .nan _ _ => .qnan
  | .inf a, .inf b => .inf (a != b)
  | .inf a, .fin b n _ => if n = 0 then .qnan else .inf (a != b)
  | .fin a m _, .inf b => if m = 0 then .qnan else .inf (a != b)
  | .fin a m e, .fin b n f => .fin (a != b) (m * n) (e + f)

/-- x × y + z (R102). -/
def Val.fma (mode : Nat) (x y z : Val) : Val := Val.add mode (Val.mul x y) z

/-- x / y with 96 bits and a sticky bit below them, enough for every rounding of R66 (R102). -/
def Val.div : Val → Val → Val
  | .nan _ _, _ => .qnan
  | _, .nan _ _ => .qnan
  | .inf _, .inf _ => .qnan
  | .inf a, .fin b _ _ => .inf (a != b)
  | .fin a _ _, .inf b => .fin (a != b) 0 0
  | .fin a m e, .fin b n f =>
    if n = 0 then (if m = 0 then .qnan else .inf (a != b))
    else if m = 0 then .fin (a != b) 0 0
    else
      let x := m * 2 ^ 128
      .fin (a != b) (2 * (x / n) + (if x % n = 0 then 0 else 1)) (e - f - 129)

/-- ⌊√x⌋ by bits from `k` down. -/
def isqrt : Nat → Nat → Nat → Nat
  | 0, _, r => r
  | k + 1, x, r => isqrt k x (if (r + 2 ^ k) * (r + 2 ^ k) ≤ x then r + 2 ^ k else r)

/-- √x with a sticky bit (R102). -/
def Val.sqrt : Val → Val
  | .nan _ _ => .qnan
  | .inf false => .inf false
  | .inf true => .qnan
  | .fin a m e =>
    if m = 0 then .fin a 0 0
    else if a then .qnan
    else
      let m2 := if e % 2 = 0 then m else 2 * m
      let e2 := if e % 2 = 0 then e else e - 1
      let x := m2 * 2 ^ 128
      let q := isqrt 100 x 0
      .fin false (2 * q + (if q * q = x then 0 else 1)) (e2 / 2 - 65)

/-- Order of two values that are not NaN: x < y of the reals. -/
def Val.lt : Val → Val → Bool
  | .nan _ _, _ => false
  | _, .nan _ _ => false
  | .inf a, .inf b => a && !b
  | .inf a, .fin _ _ _ => a
  | .fin _ _ _, .inf b => !b
  | .fin a m e, .fin b n f =>
    let e0 := min e f
    decide (signedAt a m e e0 < signedAt b n f e0)

/-- Equality of two values that are not NaN. -/
def Val.eqv (x y : Val) : Bool := !x.isNan && !y.isNan && !x.lt y && !y.lt x

/-- x before y, with −0 before +0 (R103). -/
def Val.ltZ (x y : Val) : Bool := x.lt y || (x.isZero && y.isZero && x.neg && !y.neg)

/-- An arithmetic result: a NaN becomes the default NaN (R70, R178). -/
def arith (t mode : Nat) (sat : Bool) (r : Nat) (v : Val) : Nat :=
  match v, fmtOf t with
  | .nan _ _, some f => f.defaultNaN
  | v, _ => roundT t mode sat r v

/-- RoundFP32 of an arithmetic result (R75, R102). -/
def roundFP32 (mode r : Nat) (v : Val) : Nat := arith 9 mode false r v

/-- FMIN and FMAX on codes of a floating type (R103, R179). -/
def fminT (t : Nat) (max_ : Bool) (x y : Nat) : Nat :=
  let v := decodeT t x
  let w := decodeT t y
  match v.isNan, w.isNan with
  | true, true => (match fmtOf t with | some f => f.defaultNaN | none => 0)
  | true, false => y
  | false, true => x
  | false, false => if (if max_ then v.ltZ w else w.ltZ v) then y else x

/-- FCMP's conditions (R53, R94): 0 eq, 1 ne, 2 lt, 3 le, 4 gt, 5 ge, 6 unord, 7 ord. -/
def fcmpV (cond : Nat) (x y : Val) : Bool :=
  let un := x.isNan || y.isNan
  match cond with
  | 0 => !un && x.eqv y
  | 1 => un || !x.eqv y
  | 2 => !un && x.lt y
  | 3 => !un && !y.lt x
  | 4 => !un && y.lt x
  | 5 => !un && !x.lt y
  | 6 => un
  | _ => !un

/-- v truncated toward zero to a multiple of 2^q (R75), as a count of 2^q. -/
def truncUnits (neg : Bool) (m : Nat) (e q : Int) : Int :=
  let u : Int := if q ≤ e then m * 2 ^ (e - q).natAbs else m / 2 ^ (q - e).natAbs
  if neg then -u else u

/-- EncodeMX (R74): elements and scale, with one draw for each element. -/
def encodeMX (mode : Nat) (xs : List (Val × Nat)) : List Nat × Nat :=
  if xs.any (fun p => match p.1 with | .fin _ _ _ => false | _ => true) then (xs.map (fun _ => 0), 0xFF)
  else
    let big := xs.foldl (fun (acc : Option Int) p =>
      match p.1 with
      | .fin _ m e => if m = 0 then acc else some (match acc with | none => expOf m e | some x => max x (expOf m e))
      | _ => acc) none
    let k : Int := match big with | none => -127 | some x => clamp (x - 2) (-127) 127
    (xs.map (fun p =>
      match p.1 with
      | .fin n m e => e2m1.round mode true p.2 (.fin n m (e - k))
      | v => e2m1.round mode true p.2 v), (k + 127).toNat)

/-- v × 2^x. -/
def Val.scale (v : Val) (x : Int) : Val :=
  match v with
  | .fin n m e => .fin n m (e + x)
  | v => v

/-- DecodeMX (R74). -/
def decodeMX (elem scale : Nat) : Val :=
  if scale = 255 then .nan false 0x400000 else (e2m1.decode elem).scale ((scale : Int) - 127)

end Sys2Proof.Machine
end

