-- ==== Sys2Proof/Config.lean ====
section
/-!
DEFINITION. What one device fixes and what the manual leaves open, as constants without a body: nothing can
evaluate them, so every claim holds for each of their values.
-/

namespace Sys2Proof

/-- The turn taken when the agenda is empty: the order of the steps of different agents is open (log 1). -/
opaque Config.freeTurn : Nat → Turn

/-- A value the manual leaves open, by the place it arises and a counter (log 2). -/
opaque Config.freeValue : Nat → BitVec 64

/-- The fused device identity (R303, R355). -/
opaque Config.devid : BitVec 64

/-- The firmware version that retirement records and reports name (R303). -/
opaque Config.fwver : BitVec 64

/-- The 512-bit measurement of the firmware (R347). -/
opaque Config.meas : BitVec 512

/-- The device's Falcon-1024 public key, 1,793 bytes (R347). -/
opaque Config.publicKey : BitVec 14344

/-- The Falcon-1024 signature under the device key over a SHAKE256 digest of the given bytes, 1,280 bytes (R303, R347). -/
opaque Config.signature : List Byte → BitVec 10240

/-- Where LOAD_EXPR finds the payload of the k-th TILE symbol of a context's image: context, image address, k (R39, log 20). -/
opaque Config.payload : Nat → Word → Nat → Word

/-- The fabric port of a die, 0 to 31, that traffic to a device takes: the route table that bring-up writes (R346). -/
opaque Config.routePort : Nat → Nat → Nat

/-- The peer that a fabric port reaches (R293) (log 16). -/
opaque Config.portPeer : Nat → Nat

/-- Whether the edge of a die with its die links, ports and FVL is its last row, and not its first (R222, log 48). -/
opaque Config.lastRow : Nat → Bool

/-- The order in which the stacks of a die take the other three edges (R222, log 48). -/
opaque Config.stackOrder : Nat → Nat

/-- The columns at which the fourth edge's units attach: fabric ports 0 to 127, FVL 128, and the two ends of the lane groups of the die
links from 129 on (R222, log 48). -/
opaque Config.column : Nat → Nat

/-- The die of FVL (R222, log 48). -/
opaque Config.fvlDie : Nat

/-- Whether traffic between two opposite dies goes up the ring of links (R222, log 48). -/
opaque Config.ringUp : Nat → Nat → Bool

/-- The two ends, source and destination router, of a control packet (R224, log 17). -/
opaque Config.control : Nat → Nat × Nat

/-- Flits of the packet of a name, where the manual gives no number (R222, log 48). -/
opaque Config.flits : Nat → Nat

/-- Whether a write to host memory by the signal unit fails, and with which fault code; 0 when it does not (R348, log 88). -/
opaque Config.hostFault : Nat → BitVec 8

/-- The hottest junction in 0.1 °C, by the reading (R355). -/
opaque Config.junction : Nat → BitVec 16

end Sys2Proof
end

