-- ==== Sys2Proof/Machine/State.lean ====
section
/-!
DEFINITION. The state of the KX4, as plain data: everything the manual gives the machine, one record for each
unit that has state, and the machine right after power-up (`State.reset`). INVENTORY.md lists each field with its
rule. A `Tab` field lists the entries that differ from the default named with the field.
-/

namespace Sys2Proof.Machine

/-- A symbol (Table 1.1). -/
structure Sym where
  kind : BitVec 4
  poison : Bool
  transit : Bool
  value : Word
deriving DecidableEq, Repr, Inhabited

/-- The EMPTY symbol (Table 1.2). -/
def Sym.empty : Sym := ⟨0, false, false, 0⟩

/-- Stop state of a cell (Table 5.1). -/
inductive Stop where
  | running
  | commit
  | discard
deriving DecidableEq, Repr, Inhabited

/-- What a rewrite record does to the cell's own symbol (R118). -/
inductive Own where
  | keep
  | replace (y : Sym)
  | delete
deriving DecidableEq, Repr, Inhabited

/-- A rewrite record (R118): `ins` lists the filled positions below `n`. -/
structure Rewrite where
  own : Own
  n : Nat
  ins : Tab Sym
deriving DecidableEq, Repr, Inhabited

/-- The home of an access. -/
inductive Loc where
  | dev (pa : Nat) (key : Option Nat)
  | host (ha : Nat)
  /-- Slot key, offset in the slot, byte of the tile-store table. -/
  | tile (slot off a : Nat)
deriving DecidableEq, Repr, Inhabited

/-- What a cell waits on (Table 1.3, Table 19.7 kinds 1–8); a wait on a stream slot is a wait on its ring barrier (R238). `restore`:
a RESTC whose symbols are not placed yet (R326). -/
inductive WaitKind where
  | barrier
  | counter
  | address
  | horizon
  | queue
  | tile
  | port
  | restore
deriving DecidableEq, Repr, Inhabited

/-- An arrival at a collective (R109): opcode and f, whether the cell contributes and receives, whether it waits,
its destination register, its operand with poison, and the source index of BCAST. -/
structure Arrival where
  opcode : BitVec 8
  f : BitVec 3
  active : Bool
  waits : Bool
  dst : SReg
  val : Word
  psn : Bool
  idx : Word
deriving DecidableEq, Repr, Inhabited

/-- A release that a word carries to the acquires that read it (R256, R257): the logical time that its writes have reached, the
scopes that must take the acquirer in, and the releaser: hearth, area and cell. -/
structure Release where
  time : Nat
  scopes : List (BitVec 3)
  hid : Nat
  uid : Nat
  cix : Nat
deriving DecidableEq, Repr, Inhabited

/-- A wait: its condition, the address and value that a dump shows (Table 19.7), the home of a watched word of memory, and, once the
condition was seen to hold at the home of the word, the error bit it showed (R216, R237, R241). -/
structure Wait where
  kind : WaitKind
  waddr : Word
  value : Word
  home : Option Loc
  granted : Option Bool
  /-- Of a wait on the engine queues: the commands that it is for; with none it is for room in the queues of its mask. -/
  ids : List Nat
  /-- What the read that granted it met (R236, R256). -/
  rels : List Release
deriving DecidableEq, Repr, Inhabited

/-- Kinds of memory operation (R208, R240). -/
inductive MemKind where
  | load
  | pref
  | store
  | atomic
  | cadd
deriving DecidableEq, Repr, Inhabited

/-- An outstanding memory operation of a cell (R208). -/
structure MemOp where
  /-- Its name, that of its request and reply. -/
  id : Nat
  kind : MemKind
  instr : Instr
  m : MWord
  va : Word
  home : Loc
  /-- The page may be cached in the L1 (R201). -/
  cached : Bool
  dst : SReg
  /-- The operands s[b] and, of ACAS, s[d], with their poison. -/
  x : Word
  xp : Bool
  y : Word
  yp : Bool
  /-- Held writes of its copy that come before it (R261). -/
  held : Nat
  /-- Its request has left for the slice. -/
  sent : Bool
  /-- The value and poison that it brings, once it is performed at its home. -/
  done : Option (Word × Bool)
deriving DecidableEq, Repr, Inhabited

/-- A cell of an area, or a supervisor cell (Table 5.1, R316). `psn` is laid out as fpsn (Table 19.1). -/
structure Cell where
  /-- Physical cell id (R7); of a supervisor cell, the id that `cid` returns (R317). -/
  phys : Nat
  /-- The supervisor cell k, or none: a leaf cell, or an invocation that waits for a supervisor cell. -/
  sup : Option Nat
  s : Tab Word
  q : BitVec 8
  d : Tab Word
  psn : BitVec 48
  pc : Word
  stop : Stop
  rw : Rewrite
  /-- Collectives executed (R109). -/
  coll : Nat
  /-- Arrivals at instances not yet complete, the earliest first. -/
  arrs : List Arrival
  wait : Option Wait
  /-- Outstanding memory operations, the oldest first, at most 16 (R208). -/
  ops : List MemOp
  /-- Logical times (R256, R262): the releases that its plain reads met, its own releases by FENCE toward later commands, and the
  time that its completed commands of each queue reached, for QWAIT (R161). -/
  met : List Release
  fenced : List Release
  reached : Tab Nat
  /-- Outstanding engine commands: queue 0–3 and id. -/
  cmds : List (Nat × Nat)
  /-- Registers awaited from ACCRD and SUBSCR: register and command id (R244, R281). -/
  pend : List (SReg × Nat)
deriving DecidableEq, Repr, Inhabited

/-- A cell at the start of its area (Table 5.1): q0 reads true. -/
def Cell.start (phys : Nat) : Cell :=
  ⟨phys, none, [], 1, [], 0, 0, .running, ⟨.keep, 0, []⟩, 0, [], none, [], [], [], [], [], []⟩

/-- The kinds of area: of an application, a shadow copy n of a voted area, an invocation for the held area, a save
or restore operator (R307, R316). -/
inductive AKind where
  | user
  | shadow (n : Nat) (orig : Nat)
  | trap (held : Nat)
  | save
  | restore
deriving DecidableEq, Repr, Inhabited

/-- Area states (Table 1.3). `active` is running or waiting, which its cells decide (Area.code); a retired area is
not listed. -/
inductive Phase where
  | found
  | loading
  | active
  | held
  | committing
  | draining
  | suspended
deriving DecidableEq, Repr, Inhabited

/-- A trap record (R318, R319). -/
structure TrapRec where
  fault : BitVec 8
  code : BitVec 8
  copy : BitVec 2
  noinstr : Bool
  brk : Bool
  fcix : Nat
  fpc : Word
  faddr : Word
  fword0 : Word32
  fword1 : Word32
deriving DecidableEq, Repr, Inhabited

/-- An operator-table entry as read (Table 7.1). -/
structure OpEntry where
  expect : Nat
  len : Nat
  priv : Bool
  pure : Bool
  voted : Bool
  addr : Nat
deriving DecidableEq, Repr, Inhabited

/-- Where a held write comes from: the hearth, its eviction priority, the virtual address of a cell's own access, none for an engine's
or a signal's, and what it releases, at the time at which it is performed. -/
structure Origin where
  hid : Nat
  prio : Nat
  va : Option Word
  rels : List Release
deriving DecidableEq, Repr, Inhabited

/-- A write of a voted copy held at the slices (R261, R308): bytes, a counter addition, a landing of `k` bytes on the barrier at an offset
of a slot. -/
inductive HeldWrite where
  | bytes (pa : Nat) (key : Option Nat) (bs : List Byte) (psn : Bool) (src : Origin)
  | cadd (pa : Nat) (key : Option Nat) (amount : Nat) (psn : Bool) (src : Origin)
  | landing (slot off : Nat) (k : Nat) (src : Origin)
deriving DecidableEq, Repr, Inhabited

/-- An area (R15–R18), a shadow of a voted area, or a supervisor area. -/
structure Area where
  ctx : Nat
  kind : AKind
  /-- Logical position of its `(` at discovery (R15). -/
  pos : Nat
  /-- Context sweep number of its discovery (R15). -/
  stamp : Nat
  op : Nat
  phase : Phase
  /-- The state it left when it was suspended, 2 running or 3 waiting (R325), which is then 2 once it goes on and one of its cells has its
  turn; and the hearths whose evacuation suspended it (R17). -/
  left : Nat
  evac : List Nat
  cells : Tab Cell
  /-- The microprogram of its operator's resident copy in each hearth, and the entry of the copy in its `(` cell's (R135). -/
  code : Tab (List Byte)
  entry : Option OpEntry
  /-- Marked for consuming poison (R81), for a breakpoint (R92), on its second attempt (R311). -/
  consumed : Bool
  brk : Bool
  retried : Bool
  trap : Option TrapRec
  /-- Sweep of its context at which it was held, or from which a placement is awaited (R307). -/
  since : Nat
  /-- Collectives completed (R109). -/
  done : Nat
  /-- Cells that a commit still needs and how many segment records are reserved for it (R119, R120). -/
  growth : Nat
  recs : Nat
  /-- Running time and the sums of R331 for codes 0–6; its overrun entry is written. -/
  time : Nat
  sums : List Nat
  logged : Bool
  /-- The cell that stopped last (R11). -/
  lastStop : Nat
  /-- Reference count of the fault that holds it (R28). -/
  heldAt : Nat
  /-- Of a voted area: disagreements in a row (R309), and a number that the drop of its held writes raises: what a command of an
  earlier number has still to write is dropped with them (R310); of a copy: its held writes. -/
  dissent : Nat
  round : Nat
  heldw : List HeldWrite
  /-- Of a save operator's cells: areas already stored (R325); of a restored area: cells written (R326). -/
  taken : List Nat
deriving DecidableEq, Repr, Inhabited

/-- An area when it is claimed or requested: found, with nothing run. -/
def Area.start (ctx : Nat) (kind : AKind) (pos stamp op : Nat) (cells : Tab Cell) (since : Nat) : Area where
  ctx := ctx
  kind := kind
  pos := pos
  stamp := stamp
  op := op
  phase := .found
  left := 2
  evac := []
  cells := cells
  code := []
  entry := none
  consumed := false
  brk := false
  retried := false
  trap := none
  since := since
  done := 0
  growth := 0
  recs := 0
  time := 0
  sums := List.replicate 7 0
  logged := false
  lastStop := 0
  heldAt := 0
  dissent := 0
  round := 0
  heldw := []
  taken := []

/-- A slot's way to another hearth (R124): the receiving hearth, the first unit reserved there, the first command id that waits for it,
and whether it carries the displaced mark there (R126). -/
structure Move where
  hid : Nat
  unit : Nat
  mark : Nat
  displaced : Bool
deriving DecidableEq, Repr, Inhabited

/-- A tile descriptor's slot (R146–R156). Tags are byte offsets of barrier words. -/
structure Slot where
  hid : Nat
  unit : Nat
  units : Nat
  layout : BitVec 4
  tags : List Nat
  moving : Option Move
  displaced : Bool
  dying : Bool
deriving DecidableEq, Repr, Inhabited

/-- A translation: page base, leaf bits and key (R204, R206). -/
structure Trans where
  ctx : Nat
  big : Bool
  vpage : Nat
  pte : BitVec 64
deriving DecidableEq, Repr, Inhabited

/-- A running page walk (R207): the hearths that wait for it. -/
structure Walk where
  id : Nat
  die : Nat
  ctx : Nat
  vpage : Nat
  hids : List Nat
deriving DecidableEq, Repr, Inhabited

/-- A captured operand of an engine command: descriptor value and poison of its register. -/
structure Opnd where
  desc : Word
  psn : Bool
deriving DecidableEq, Repr, Inhabited

/-- The signal of a copy (R231): an offset in a slot, or a counter at a physical address. -/
inductive Signal where
  | none
  | barrier (slot off : Nat)
  | counter (pa : Nat) (key : Option Nat) (amount : Nat)
deriving DecidableEq, Repr, Inhabited

/-- An entry of an engine queue (R158–R162): a command with what it captured at issue, or a fence entry, whose mask
names its queues and whose id its siblings share. -/
structure Cmd where
  id : Nat
  fence : Option (BitVec 4)
  instr : Instr
  hid : Nat
  ctx : Nat
  /-- The issuer: area and cell; a supervisor's accesses ignore tags in a restore operator (R326). -/
  uid : Nat
  cix : Nat
  /-- Of a copy of a voted area, the number under which its writes are held (R308, R310). -/
  round : Option Nat
  restoring : Bool
  pri : Nat
  started : Bool
  d : Opnd
  a : Opnd
  b : Opnd
  c : Opnd
  e : Opnd
  /-- A scalar operand, its poison, the address A, and the translations obtained at issue (R164). -/
  scal : Word
  addr : Word
  pages : List Trans
  /-- Keys of the slots that it names, and of those that it writes. -/
  names : List Nat
  outs : List Nat
  /-- The pitch of a memory image; byte offsets of the rows of an indexed copy (R228, R233). -/
  pitch : Nat
  rows : List Int
  sig : Signal
  /-- Units landed so far (R237, R253). -/
  landed : Nat
  /-- Of a GATHER: the elements fetched so far with their poison, by twice their address and one more for a high half; a
  repeated index is fetched once (R233). -/
  got : Tab (Nat × Bool)
  /-- For events: the key taken at acceptance and the time (R268, R281); of a SUBSCR, the stream descriptor. -/
  key : Nat
  time : Nat
  /-- The issuer's releases by FENCE before it (R262). -/
  fenced : List Release
deriving DecidableEq, Repr, Inhabited

/-- A push of a tile into a ring slot: the tile, its units landed, the translations of its source (R245). -/
structure Push where
  tile : Nat
  landed : Nat
  pages : List Trans
  /-- The name of its packets. -/
  id : Nat
deriving DecidableEq, Repr, Inhabited

/-- A subscription (R243–R249): a ring slot awaits its next tile, is being filled, or is full. -/
structure Sub where
  ctx : Nat
  hid : Nat
  desc : BitVec 1024
  bar : Word
  scope : BitVec 3
  /-- The next tile of each ring slot. -/
  next : List Nat
  push : Tab Push
  /-- Ring slots that hold a tile. -/
  full : List Nat
  /-- Write-backs that hold a slot against a push: slot and command. -/
  wb : List (Nat × Nat)
  faulted : Option Word
  reported : Bool
  dead : Bool
  /-- The issuer's releases by FENCE before its SUBSCR (R262). -/
  fenced : List Release
deriving DecidableEq, Repr, Inhabited

/-- What a message of the mesh or the fabric carries (R224, R246, R231, R346). -/
inductive Body where
  /-- A freed-slot notice. -/
  | notice (stream slot : Nat)
  /-- A counter signal: physical address and key slot, amount, the area that drains for it, and what it releases. -/
  | signal (pa : Nat) (key : Option Nat) (amount : Nat) (uid : Nat) (rs : List Release)
  /-- Packets through a port to a fabric device: the writes of a CPYX, awaiting acknowledgement. -/
  | remoteWrite (port dev job : Nat) (bytes : List (Nat × Byte)) (cmd : Nat)
  /-- A counter add to a fabric device, and the area that drains for it. -/
  | remoteAdd (port dev job : Nat) (va : Word) (amount : Nat) (uid : Nat)
  /-- A cell's request to the home slice of operation `op`, and what comes back. -/
  | request (uid cix op : Nat)
  | reply (uid cix op : Nat)
  /-- A tile that a chimney pushes: stream, ring slot, and the push's name. -/
  | push (stream slot op : Nat)
  /-- A pending event. -/
  | event (ev : Nat)
  /-- A page walk on its way to the table (R207). -/
  | walk (id : Nat)
  /-- A packet that only takes its way: a walk's result, a line that a copy reads or writes, control (Table 11.6). -/
  | plain
deriving DecidableEq, Repr, Inhabited

/-- A packet of the mesh: its class by Table 11.6, virtual channel and age, the routers it comes from, goes to and stands at, and the
input port there; `here` once it has left its last router (R222–R225). -/
structure Msg where
  id : Nat
  cls : Nat
  vc : Nat
  age : Nat
  src : Nat
  dst : Nat
  at_ : Nat
  port : Nat
  here : Bool
  body : Body
deriving DecidableEq, Repr, Inhabited

/-- The arbiter of a router's output (R225): the class it serves and how many packets that class may still send in its turn, and the
virtual channel that each class sent from last. -/
structure Arbiter where
  cls : Nat
  credit : Nat
  last : Tab Nat
deriving DecidableEq, Repr, Inhabited

/-- Where a pending event stands (R280). -/
inductive Place where
  /-- In its sender's queue, as the command `id`. -/
  | sender
  /-- On the mesh or at a mailbox slice. -/
  | mesh
  /-- In the ember queue or the overflow ring of the hearth. -/
  | queue
  | ring
deriving DecidableEq, Repr, Inhabited

/-- A pending event (Table 15.1) with its context, the hearth it is bound for, and its order of arrival. -/
structure Ev where
  id : Nat
  ctx : Nat
  key : Nat
  value : BitVec 32
  neuron : Nat
  pop : Nat
  time : Nat
  hid : Nat
  place : Place
  arrived : Nat
deriving DecidableEq, Repr, Inhabited

/-- A population (R269–R273, R282): its handle's count field, its dynamics descriptor, the physical hearth of each
set member, the horizon at its binding; `gone`: its unbinding is performed, and a delivery to it remains. -/
structure Pop where
  count : Nat
  desc : BitVec 512
  members : List Nat
  installed : Bool
  /-- The POPSET that installs it. -/
  cmd : Nat
  born : Nat
  gone : Bool
deriving DecidableEq, Repr, Inhabited

/-- An accumulator entry (Table 15.5). -/
structure Acc where
  arrivals : Nat
  rvalid : Bool
  poison : Bool
  trefr : Nat
  tlast : Nat
  state : BitVec 32
deriving DecidableEq, Repr, Inhabited

/-- A resident operator (R135): ROM forms have no context. -/
structure Resident where
  ctx : Option Nat
  op : Nat
  entry : OpEntry
  code : List Byte
  ents : List Nat
  lastRun : Nat
  /-- Invalidated while pinned: it serves only the areas that were found before, whose names lie below this one (R137). -/
  stale : Option Nat
deriving DecidableEq, Repr, Inhabited

/-- A load in progress (R138). -/
structure Load where
  ctx : Option Nat
  op : Nat
  entry : OpEntry
  ents : List Nat
  begun : Nat
deriving DecidableEq, Repr, Inhabited

/-- An OPLD request (R139). -/
structure Opld where
  ctx : Nat
  op : Nat
  begun : Nat
deriving DecidableEq, Repr, Inhabited

/-- A function table of a hearth that programs may load (R187, R188). -/
structure FTab where
  entries : Tab (BitVec 64)
  poison : List Nat
  owner : Option Nat
deriving DecidableEq, Repr, Inhabited

/-- The tables 6 and 7 at hearth reset: zero entries, no owner. -/
def FTab.reset : FTab := ⟨[], [], none⟩

/-- The stochastic generator's value at hearth reset (R68). -/
def seed0 : Word := 0x9E3779B97F4A7C15#64

/-- A line of an L1 (R201): its line of device memory and key slot, its eviction priority, its bytes, the logical time of the write that
it holds, its read lease, and the releases that its words carried when it was read (R257). -/
structure L1Line where
  line : Nat
  key : Option Nat
  prio : Nat
  data : List Byte
  wt : Nat
  lease : Nat
  rels : Tab (List Release)
deriving DecidableEq, Repr, Inhabited

/-- The state of a hearth that is not in another table. -/
structure Hearth where
  seed : Word
  eseq : Nat
  residents : List Resident
  load : Option Load
  oplds : List Opld
  tlb : List Trans
  ftab6 : FTab
  ftab7 : FTab
  /-- RDCTR counters by selector (R332). -/
  ctrs : Tab Nat
  full : Bool
  spill : Nat
  /-- What the power controller and what the junction ask of the clock in one millisecond, in steps of 100 MHz, 12–36, and 36 where one
  asks nothing; that millisecond and the clock before it (R351, R352). -/
  pclk : Nat
  jclk : Nat
  asked : Nat × Nat
  /-- Clock in steps of 100 MHz; the clock cycles counted before its last change, in thirty-sixths, and
  the reference count of that change (R332). -/
  clock : Nat
  cycles : Nat
  clockRef : Nat
  /-- Sweep number of the partition at the hearth's last reset (R332). -/
  sweepBase : Nat
  /-- The cell each lane served last; 16 stands for the supervisor cell (R27). -/
  last : Tab Nat
  /-- The cell that may not be its lane's next choice (R89). -/
  yielded : Tab Nat
  /-- The cells that each lane has looked at since it served one, and found not ready (R27). -/
  passed : Tab (List Nat)
  /-- Sweep from which each context's activity stamp of R123 is taken. -/
  activity : Tab Nat
  /-- The L1, most recently used first; what the logical clock has above the reference count (R201, R252). -/
  l1 : List L1Line
  clk : Nat
deriving DecidableEq, Repr, Inhabited

/-- A hearth right after hearth reset (log 8, 66). -/
def Hearth.reset : Hearth :=
  ⟨seed0, 0, [], none, [], [], FTab.reset, FTab.reset, [], false, 4096, 36, 36, (0, 36), 36, 0, 0, 0, [], [], [], [], [], 0⟩

/-- An entry of a slice's stream detector (R199). -/
structure Detector where
  last : Nat
  run : Nat
deriving DecidableEq, Repr, Inhabited

/-- A line of a slice: its line of device memory, its eviction priority, whether the channel has older data (R198). -/
structure SliceLine where
  line : Nat
  prio : Nat
  dirty : Bool
deriving DecidableEq, Repr, Inhabited

/-- An L2 slice (R198, R199): lines held, most recently used first; a detector for each requester; staged lines, with a bit for each
byte that a write brought. -/
structure Slice where
  lines : List SliceLine
  dets : Tab Detector
  staged : List (Nat × BitVec 64)
deriving DecidableEq, Repr, Inhabited

/-- Launch block fields that START latches (Table 1.6). -/
structure Launch where
  prio : Nat
  nops : Nat
  optable : Nat
  trapop : Nat
  saveop : Nat
  restop : Nat
  notify : Bool
  notifop : Nat
  wdog : Nat
  carve : Nat
  ovfbase : Nat
  ovfsize : Nat
  capctr : Nat
  caprec : Nat
  hangaddr : Nat
  hangsize : Nat
deriving DecidableEq, Repr, Inhabited

/-- The life of a context (R22, R24, R322, R327, R328). -/
inductive CtxStatus where
  | created
  | running
  /-- PREEMPT accepted; then claims stopped; then the save operator runs. -/
  | preempting
  | stopping
  | saving
  | preempted
  | restoring
  /-- Frozen by a fatal fault, with its dump to be written; `dead` after its teardown. -/
  | frozen
  | dead
deriving DecidableEq, Repr, Inhabited

/-- A context (R22). -/
structure Ctx where
  part : Nat
  root : Nat
  lb : Word
  privOk : Bool
  job : Nat
  ring : Nat
  ringLog : Nat
  /-- Signals sent on its ring (R348). -/
  sigs : Nat
  status : CtxStatus
  launch : Option Launch
  /-- Partition sweep number from which its own sweeps count (R7). -/
  base : Nat
  strict : Bool
  brk : Bool
  trace : BitVec 2
  logbase : Word
  logsize : Nat
  hangpol : Bool
  /-- Sweeps counted toward HANG (R327). -/
  idle : Nat
  /-- Some area of it committed since the last sweep ended (R327). -/
  moved : Bool
  capCount : Nat
  capRec : BitVec 512
  /-- Capacity changes whose counter signal is due: kind, unit, sequence number, and whether a notifier follows (R304, R305). -/
  capDue : List (Nat × Nat × Nat × Bool)
  /-- Notifier insertions outstanding, the cells of the `(` of those that are placed, and the logical positions of those that a
  pre-emption released (R305). -/
  notes : Nat
  noteAt : List Nat
  notePos : List Nat
  cursor : Nat
  inuse : Nat
  /-- Queue whose PREEMPT or RESUME command waits for its end. -/
  waiter : Option Nat
  /-- Partition sweep number at which PREEMPT was accepted (R322). -/
  since : Nat
  /-- Handles kept through a pre-emption, and logical positions of its released symbols (R324). -/
  keptHandles : List Nat
  holes : List Nat
deriving DecidableEq, Repr, Inhabited

/-- A swept-out segment (R129). -/
structure Seg where
  ctx : Nat
  lpos : Nat
  count : Nat
  net : Int
  low : Int
  hasopen : Bool
  hasclose : Bool
  record : Nat
  /-- The logical position that the record's header holds, of its sweep-out. -/
  wrote : Nat
  /-- A sweep has requested it (R13). -/
  wanted : Bool
  /-- Offsets of the `(` of notifiers that are outstanding (R305). -/
  notes : List Nat
deriving DecidableEq, Repr, Inhabited

/-- A waiting insertion (R358). -/
structure Insertion where
  ctx : Nat
  syms : List Sym
  note : Bool
  sweep : Nat
  /-- The time and population of the event whose delivery caused the fire that asks for it: that delivery remains until then (R280). -/
  tick : Option (Nat × Nat)
deriving DecidableEq, Repr, Inhabited

/-- A symbol that RESTC has read and the next move pass places at its logical position (R326). -/
structure Restore where
  ctx : Nat
  pos : Nat
  sym : Sym
  /-- The hearth and the cell that wait for it. -/
  hid : Nat
  uid : Nat
  cix : Nat
deriving DecidableEq, Repr, Inhabited

/-- A partition (R25). -/
structure Part where
  dies : Nat
  sweep : Nat
  horizon : Nat
  cyc : Nat
  dir : List Seg
  inserts : List Insertion
  restores : List Restore
  /-- Cells of evacuating hearths could not be placed (R123). -/
  stuck : List Nat
  /-- The logical time that its commits have reached (R21, R257). -/
  reached : Nat
deriving DecidableEq, Repr, Inhabited

/-- A dump waiting to be written (R328, R329). -/
structure Dump where
  ctx : Nat
  fault : BitVec 8
  area : Nat
  addr : Word
  pc : Word
  cut : Bool
  /-- HANG: only waiting areas are listed. -/
  hang : Bool
  /-- Context sweep number at the freeze. -/
  swp : Nat
deriving DecidableEq, Repr, Inhabited

/-- Health of a unit (R289, R301, R302). -/
inductive Health where
  | inService
  | retired
deriving DecidableEq, Repr, Inhabited

/-- A unit that takes leases (R289, R298–R300, R313). -/
structure LUnit where
  score : Nat
  health : Health
  early : Bool
  holdoff : Bool
  inject : Nat
  /-- Forced leases that wait for their start, by their pattern sets, the oldest first. -/
  forced : List Nat
  /-- Its turn waits for a place (R290). -/
  due : Bool
  /-- Out for heat (R296); awaiting its retry after an abandoned lease (R295). -/
  hot : Bool
  retry : Bool
deriving DecidableEq, Repr, Inhabited

/-- A unit at first boot. -/
def LUnit.reset : LUnit := ⟨0, .inService, false, false, 0, [], false, false, false⟩

/-- Stage of a lease (R291–R294). -/
inductive LeaseStage where
  | withdrawal
  | evacuation
  | test (second : Bool)
  /-- Its test is over; a thermal evacuation that joined it is not (R296). -/
  | waitHeat
deriving DecidableEq, Repr, Inhabited

/-- A running lease or thermal evacuation (R291–R297). -/
structure Lease where
  unit : Nat
  /-- 0 rota, 1 early, 2 forced, 3 thermal. -/
  cause : Nat
  pset : Nat
  stage : LeaseStage
  sc0 : Nat
  swp : Nat
  /-- Reference count at the start and at the end of the evacuation. -/
  t0 : Nat
  t1 : Nat
  ttest : Nat
  /-- Granules of a channel lease already migrated (R197). -/
  granules : Nat
  /-- First failure seen and whether it was forced (R313, R359). -/
  detail : Word
  forced : Bool
  /-- Outcome so far, once a thermal evacuation delays the return. -/
  result : Nat
deriving DecidableEq, Repr, Inhabited

/-- A command queue of the host (R339–R341). -/
structure HostQ where
  base : Word
  cfg : Word
  tail : Nat
  head : Nat
  mapped : Bool
  pending : Bool
  ltail : Nat
  /-- The entry of a taken command that has not completed; whether it runs, or waits for another one on its context; and its place
  in the order of taking (R341). -/
  busy : Option (BitVec 512)
  runs : Bool
  taken : Nat
  /-- The hardware slot of a mapped queue. -/
  slot : Nat
deriving DecidableEq, Repr, Inhabited

/-- A command queue at reset (Table 21.1) (log 66). -/
def HostQ.reset : HostQ := ⟨0, 0, 0, 0, false, false, 0, none, false, 0, 0⟩

/-- A request of a host agent that is not performed yet (R337, R338). -/
structure HostReq where
  id : Nat
  agent : Nat
  ord : HostOrd
  ask : HostAsk
deriving DecidableEq, Repr, Inhabited

/-- Boundary-scan instruction selected at the test access port (R356). -/
inductive Tap where
  | bypass
  | idcode
  | samplePreload
  | extest
deriving DecidableEq, Repr, Inhabited

/-- An encrypted page's integrity tag, with its key slot and the lines of its page (R221). -/
structure PageTag where
  key : Nat
  lines : Nat
  tag : BitVec 128
deriving DecidableEq, Repr, Inhabited

/-- The machine. -/
structure State where
  /-- The model's schedule: turns to be taken, a counter for the free schedule, one for free values, one for names (log 1–3). -/
  agenda : List Turn
  tick : Nat
  free : Nat
  nextUid : Nat
  /-- The issuing cell: area and cix (log 3). -/
  cur : Nat × Nat
  /-- Device memory by physical address; 0 by default (R196, R357). -/
  mem : Tab Byte
  /-- Lines stored with the poison pattern; false by default (R218). -/
  linePoison : Tab Bool
  /-- Logical times of lines: that of the last write and the last read lease granted; 0 by default (R201). -/
  lineTime : Tab (Nat × Nat)
  /-- Releases that words carry, by their number: words of device memory, from 2^60 on of the tile stores, and from 2^61 on of host
  memory (R257). -/
  releases : Tab (List Release)
  /-- Host memory; 0 by default (log 4). -/
  hostMem : Tab Byte
  /-- Tile stores: byte `hid · 1,572,864 + offset`; 0 by default (log 6); the poison of each half byte, by twice that address
  for the low half and one more for the high (R173, R193). -/
  tile : Tab Byte
  tilePoison : Tab Bool
  /-- Bytes whose parity fails when read as a scale (R193). -/
  badScale : Tab Bool
  /-- The row of symbols by physical cell id; EMPTY by default. -/
  row : Tab Sym
  areas : Tab Area
  ctxs : Tab Ctx
  parts : Tab Part
  hearths : Tab Hearth
  /-- Slots by `uid · 2^26 + ctx · 2^20 + handle`, uid 0 but for a shadow's own slots. -/
  slots : Tab Slot
  /-- Reserved units of a context in a hearth, by `hid · 64 + ctx` (R148). -/
  carves : Tab (List Nat)
  /-- Engine queues by `hid · 4 + queue` (R158). -/
  queues : Tab (List Cmd)
  subs : Tab Sub
  msgs : List Msg
  /-- Arbiters by router · 2048 + output (R225). -/
  arbiters : Tab Arbiter
  pops : Tab Pop
  /-- Entries by `(ctx · 256 + pop) · 2^24 + neuron`; the binding's value by default (R272). -/
  accs : Tab Acc
  events : List Ev
  dtlb : Tab (List Trans)
  walks : List Walk
  /-- Pages that the running step looked for in no TLB: hearth, context, page; empty between steps (R207). -/
  missed : List (Nat × Nat × Nat)
  slices : Tab Slice
  /-- Slot `stack · 64 + slot` to channel, the identity by default (R197); spare channel of each stack, 63 by default,
  64 for none (R195). -/
  chanMap : Tab Nat
  spare : Tab Nat
  /-- 96-byte key slots as numbers (R220); page tags by the first 64 KiB of the page (R221). -/
  keys : Tab (BitVec 768)
  tags : Tab PageTag
  /-- Pages whose integrity failed, the latest first (R221). -/
  integrity : List Nat
  units : Tab LUnit
  leases : List Lease
  leaseLog : List (BitVec 256)
  lseq : Nat
  /-- Area triggers: context, operator, unit, pattern set (R313). -/
  triggers : List (Nat × Nat × Nat × Nat)
  retireStore : List (BitVec 512)
  retireFull : Bool
  savedScores : Tab Nat
  /-- Port to which a leased or retired port's traffic moved (R293). -/
  portTo : Tab Nat
  /-- The ports that were out of service when bring-up wrote the route table (R346). -/
  unrouted : List Nat
  /-- The index at which the rota of each unit class stands (R290). -/
  rotaNext : Tab Nat
  hq : Tab HostQ
  /-- A PARTITION that waits for leases to end: its queue, and how many partitions it makes (R345). -/
  cutting : Option (Nat × Nat)
  /-- Last queue mapped (R340), and the slot taken from last (R341). -/
  lastMapped : Nat
  lastSlot : Nat
  /-- Journal entries by number mod 65,536, and how many were written (R343). -/
  journal : Tab (BitVec 512)
  jseq : Nat
  /-- Interrupt messages sent, the latest first (R348). -/
  irqs : List (BitVec 6)
  /-- Requests of host agents, the oldest first; the logical time that each agent outside the device has reached (R338, R346); the data
  that the last read or atomic returned (R337). -/
  hostReqs : List HostReq
  hostClk : Tab Nat
  hostReply : List Byte
  /-- Acknowledgements sent to peer devices, the latest first: job, and whether the request was performed (R346). -/
  fabAcks : List (Nat × Bool)
  dumps : List Dump
  stage : Nat
  cut : Nat
  powered : Bool
  cold : Bool
  pcap : Nat
  /-- The last average power in W (R351, R355); reference ticks in which the matrix queue of each hearth had a command, in the running
  window and in the last one. -/
  watts : Nat
  busyNow : Tab Nat
  busyLast : Tab Nat
  rota : Word
  scrub : Nat
  fabdev : Nat
  i3cAddr : BitVec 7
  tap : Tap
  resetHeld : Bool
  alert : Bool
  inletDeg : Nat
  inletOut : Bool
  /-- Reference ticks since power-up, those at the last device reset, and halvings applied (R299). -/
  ref : Nat
  refReset : Nat
  halvings : Nat
deriving DecidableEq, Repr

/-- Why a step stops: only a call of an instruction's meaning for a cell that is not there. -/
inductive Fault where
  /-- Raised by every cell instruction when no cell is issuing: the machine itself never steps so. Safe: the model stops. -/
  | noIssuingCell
deriving DecidableEq, Repr

/-- Why a meaning is refused. -/
inductive Refusal where
  /-- An arm of Dispatch without a meaning; none is left. Safe: the model stops. -/
  | notModelled (mnemonic : String)
deriving DecidableEq, Repr

/-- A partition right after its reset: sweep 0 before the first sweep, horizon 0, reference count 0 (log 66). -/
def Part.reset (dies : Nat) : Part := ⟨dies, 0, 0, 0, [], [], [], [], 0⟩

/-- The machine right after power-up: stage 0 of a cold reset (R357). -/
def State.reset : State where
  agenda := []
  tick := 0
  free := 0
  nextUid := 1
  cur := (0, 0)
  mem := []
  linePoison := []
  lineTime := []
  releases := []
  hostMem := []
  tile := []
  tilePoison := []
  badScale := []
  row := []
  areas := []
  ctxs := []
  parts := [(0, Part.reset 4)]
  hearths := []
  slots := []
  carves := []
  queues := []
  subs := []
  msgs := []
  arbiters := []
  pops := []
  accs := []
  events := []
  dtlb := []
  walks := []
  missed := []
  slices := []
  chanMap := []
  spare := []
  keys := []
  tags := []
  integrity := []
  units := []
  leases := []
  leaseLog := []
  lseq := 0
  triggers := []
  retireStore := []
  retireFull := false
  savedScores := []
  portTo := []
  unrouted := []
  rotaNext := []
  hq := []
  cutting := none
  lastMapped := 63
  lastSlot := 15
  journal := []
  jseq := 0
  irqs := []
  hostReqs := []
  hostClk := []
  hostReply := []
  fabAcks := []
  dumps := []
  stage := 0
  cut := 1
  powered := true
  cold := true
  pcap := 3200
  watts := 0
  busyNow := []
  busyLast := []
  rota := 0x0004000400180008#64
  scrub := 24
  fabdev := 0
  i3cAddr := 0x3A
  tap := .idcode
  resetHeld := false
  alert := false
  inletDeg := 20
  inletOut := false
  ref := 0
  refReset := 0
  halvings := 0

end Sys2Proof.Machine
end

