-- ==== Sys2Proof/Machine/Ops.lean ====
section
/-!
DEFINITION. The named operations over the tables of the state and over a cell's registers, the gate that every cell
instruction passes (R57, R33), taking an exception and returning from one (R28, R316–R320).
-/

namespace Sys2Proof.Machine

/-- `x` with bit `i` at `b`. -/
def setBit {n : Nat} (x : BitVec n) (i : Nat) (b : Bool) : BitVec n :=
  if b then x ||| BitVec.ofNat n (2 ^ i) else x &&& ~~~(BitVec.ofNat n (2 ^ i))

/-! Units and tables. -/

/-- Hearth of a physical cell id (R7). -/
def hidOf (phys : Nat) : Nat := phys / 256

/-- Die of a hearth (R7). -/
def dieOf (hid : Nat) : Nat := hid / 256

/-- Leading die of the partition of a die (R25). -/
def State.lead (s : State) (die : Nat) : Nat :=
  if s.cut = 1 then 0 else if s.cut = 2 then die / 2 * 2 else die

/-- Leading die of a hearth's partition. -/
def State.leadOf (s : State) (hid : Nat) : Nat := s.lead (dieOf hid)

/-- A partition by its leading die. -/
def State.part (s : State) (l : Nat) : Part := (s.parts.find l).getD (Part.reset 0)

def State.modPart (s : State) (l : Nat) (f : Part → Part) : State := { s with parts := s.parts.upd l f }

/-- The hearths of a partition, in increasing id. -/
def State.partHearths (s : State) (l : Nat) : List Nat :=
  (List.range (256 * (s.part l).dies)).map (· + 256 * l)

def State.hearth (s : State) (h : Nat) : Hearth := s.hearths.get Hearth.reset h

def State.modHearth (s : State) (h : Nat) (f : Hearth → Hearth) : State :=
  { s with hearths := s.hearths.put Hearth.reset h (f (s.hearth h)) }

/-- Adds to an RDCTR counter of a hearth (R332). -/
def State.count (s : State) (h sel n : Nat) : State :=
  s.modHearth h (fun x => { x with ctrs := x.ctrs.put 0 sel ((x.ctrs.get 0 sel + n) % 2 ^ 64) })

def State.sym (s : State) (p : Nat) : Sym := s.row.get Sym.empty p

def State.setSym (s : State) (p : Nat) (y : Sym) : State := { s with row := s.row.put Sym.empty p y }

def State.unit (s : State) (u : Nat) : LUnit := s.units.get LUnit.reset u

def State.modUnit (s : State) (u : Nat) (f : LUnit → LUnit) : State :=
  { s with units := s.units.put LUnit.reset u (f (s.unit u)) }

def State.ctx (s : State) (c : Nat) : Option Ctx := s.ctxs.find c

def State.modCtx (s : State) (c : Nat) (f : Ctx → Ctx) : State := { s with ctxs := s.ctxs.upd c f }

/-- The context sweep number: 0 before its first START (R7). -/
def State.ctxSweep (s : State) (c : Nat) : Nat :=
  match s.ctx c with
  | some x => if x.launch.isSome then (s.part x.part).sweep - x.base else 0
  | none => 0

def State.launch (s : State) (c : Nat) : Option Launch := (s.ctx c).bind (·.launch)

/-- Strict-poison control of a context (R81). -/
def State.strict (s : State) (c : Nat) : Bool := ((s.ctx c).map (·.strict)).getD false

def State.area (s : State) (u : Nat) : Option Area := s.areas.find u

def State.modArea (s : State) (u : Nat) (f : Area → Area) : State := { s with areas := s.areas.upd u f }

def State.modCell (s : State) (u i : Nat) (f : Cell → Cell) : State :=
  s.modArea u (fun a => { a with cells := a.cells.upd i f })

/-- Changes the issuing cell (log 3). -/
def State.modCur (s : State) (f : Cell → Cell) : State := s.modCell s.cur.1 s.cur.2 f

/-- The next free value (log 2). -/
def State.freeVal (s : State) : BitVec 64 := Config.freeValue s.free

def State.tickFree (s : State) : State := { s with free := s.free + 1 }

/-- A new name for an area, a command or a message (log 3). -/
def State.fresh (s : State) : State := { s with nextUid := s.nextUid + 1 }

/-! Registers (R76, R80): s0 reads 0 and q0 reads true, neither is ever poisoned, writes to them are discarded. -/

def Cell.sreg (c : Cell) (r : SReg) : Word := if r = 0 then 0 else c.s.get 0 r.toNat

def Cell.spsn (c : Cell) (r : SReg) : Bool := if r = 0 then false else c.psn.getLsbD r.toNat

def Cell.setS (c : Cell) (r : SReg) (v : Word) (p : Bool) : Cell :=
  if r = 0 then c else { c with s := c.s.put 0 r.toNat v, psn := setBit c.psn r.toNat p }

def Cell.qreg (c : Cell) (r : QReg) : Bool := if r = 0 then true else c.q.getLsbD r.toNat

def Cell.qpsn (c : Cell) (r : QReg) : Bool := if r = 0 then false else c.psn.getLsbD (40 + r.toNat)

def Cell.setQ (c : Cell) (r : QReg) (v p : Bool) : Cell :=
  if r = 0 then c else { c with q := setBit c.q r.toNat v, psn := setBit c.psn (40 + r.toNat) p }

def Cell.dreg (c : Cell) (r : TReg) : Word := c.d.get 0 r.toNat

def Cell.dpsn (c : Cell) (r : TReg) : Bool := c.psn.getLsbD (32 + r.toNat)

def Cell.setD (c : Cell) (r : TReg) (v : Word) (p : Bool) : Cell :=
  { c with d := c.d.put 0 r.toNat v, psn := setBit c.psn (32 + r.toNat) p }

/-- The value of a condition (R33, R44). -/
def Cell.cond (c : Cell) (k : Cond) : Bool := c.qreg k.q != k.neg

/-- The hearth of a cell. -/
def Cell.hid (c : Cell) : Nat := hidOf c.phys

/-- The lane of a cell (R82, R317). -/
def Cell.lane (c : Cell) : Nat := c.sup.getD (c.phys % 16)

/-- Supervisor areas: trap, save and restore operators (R316). -/
def AKind.supervisor : AKind → Bool
  | .trap _ => true
  | .save => true
  | .restore => true
  | _ => false

/-- Supervisor() of R57 (R315). -/
def Area.privileged (a : Area) : Bool :=
  a.kind.supervisor || ((a.entry.map (·.priv)).getD false)

/-- The area is a copy of a voted application. -/
def Area.isVoted (a : Area) : Bool := !a.kind.supervisor && ((a.entry.map (·.voted)).getD false)

/-! Fault codes (Table 1.7). -/

def fltIllegalLength : BitVec 8 := 0x01
def fltIllegalOpcode : BitVec 8 := 0x02
def fltReservedField : BitVec 8 := 0x03
def fltPriv : BitVec 8 := 0x04
def fltNoExit : BitVec 8 := 0x05
def fltPageFault : BitVec 8 := 0x10
def fltProtection : BitVec 8 := 0x11
def fltMisaligned : BitVec 8 := 0x12
def fltTileBounds : BitVec 8 := 0x20
def fltTileFormat : BitVec 8 := 0x21
def fltLayoutStrict : BitVec 8 := 0x22
def fltBarrierClobber : BitVec 8 := 0x23
def fltBarrierOverflow : BitVec 8 := 0x24
def fltPoisonConsumed : BitVec 8 := 0x30
def fltStreamFault : BitVec 8 := 0x31
def fltVoteFailed : BitVec 8 := 0x32
def fltExprFull : BitVec 8 := 0x40
def fltAreaTooLarge : BitVec 8 := 0x41
def fltOperatorInvalid : BitVec 8 := 0x42
def fltExprCorrupt : BitVec 8 := 0x43
def fltEventLate : BitVec 8 := 0x50
def fltEventOverflow : BitVec 8 := 0x51
def fltPopulationFull : BitVec 8 := 0x52
def fltHang : BitVec 8 := 0x60
def fltWatchdog : BitVec 8 := 0x61

/-! Taking an exception. -/

/-- The area address of R15. -/
def areaAddr (ctx pos : Nat) : Nat := ctx * 2 ^ 58 + pos

/-- Freezes a context and queues its dump (R328, R329). A fatal fault of a context whose own dump is being written
cuts that dump short (log 64). -/
def State.fatal (s : State) (ctx : Nat) (fault : BitVec 8) (area : Nat) (addr pc : Word) : State :=
  match s.ctx ctx with
  | none => s
  | some x =>
    match x.status with
    | .dead => s
    | .frozen =>
      match s.dumps with
      | d :: r => if d.ctx = ctx then { s with dumps := { d with cut := true } :: r } else s
      | [] => s
    | _ =>
      { s.modCtx ctx (fun x => { x with status := .frozen }) with
        dumps := s.dumps ++ [⟨ctx, fault, area, addr, pc, false, fault = fltHang, s.ctxSweep ctx⟩] }

/-- The microprogram that a cell of the area runs: the copy resident in its hearth (log 37). -/
def Area.codeOf (a : Area) (c : Cell) : List Byte := a.code.get [] (hidOf c.phys)

/-- Word `i` of a cell's instruction, 0 past the end. -/
def Area.word (a : Area) (c : Cell) (i : Nat) : Word32 :=
  match ((a.codeOf c).drop (c.pc.toNat + 4 * i)).take 4 with
  | [b0, b1, b2, b3] => wordOfBytes b0 b1 b2 b3
  | _ => 0

/-- Word 1 of a cell's instruction, 0 where it has none (Table 19.1). -/
def Area.word1 (a : Area) (c : Cell) : Word32 :=
  let n := bits (a.word c 0).toNat 0 2
  if n = 1 || n = 2 then a.word c 1 else 0

/-- The trap operator's invocation for a held area, on the hearth of its named cell: requested, it waits for a
supervisor cell (R316). -/
def State.requestTrap (s : State) (u : Nat) (a : Area) (phys : Nat) : State :=
  let op := ((s.launch a.ctx).map (·.trapop)).getD 0
  { s.fresh with
    areas := s.areas.set s.nextUid (Area.start a.ctx (.trap u) a.pos a.stamp op [(0, Cell.start phys)] (s.ctxSweep a.ctx)) }

/-- The invocation that waits for the supervisor of a held area's named cell follows it to the hearth of `phys`. -/
def State.moveTrap (s : State) (u phys : Nat) : State :=
  { s with areas := s.areas.map (fun p =>
      if p.2.kind = .trap u && p.2.phase = .found then
        (p.1, { p.2 with cells := p.2.cells.map (fun q => (q.1, { q.2 with phys := phys })) })
      else p) }

/-- Of two faults of an area in one cycle the record names that of the lower `cix`, and of copies that of the lower copy (R28) (log 47). -/
def TrapRec.before (r t : TrapRec) : Bool := decide (r.fcix < t.fcix) || (decide (r.fcix = t.fcix) && decide (r.copy.toNat ≤ t.copy.toNat))

/-- A fault at a COMMIT, which the cell executes again (R11, R120) (log 32). -/
def TrapRec.atCommit (t : TrapRec) : Bool :=
  !t.noinstr && !t.brk && (t.fault = fltExprFull || t.fault = fltOperatorInvalid) &&
    (t.fword0.extractLsb' 0 10 = 0x004#10 || t.fword0.extractLsb' 0 10 = 0x008#10)

/-- A cell of the area, or of another copy of it, faulted in this cycle: what the other lanes issue in it happens all the same (R28)
(log 47). -/
def State.heldNow (s : State) (a : Area) : Bool :=
  let t := match a.kind with | .user => a.trap | .shadow _ o => (s.area o).bind (·.trap) | _ => none
  a.phase = .held && a.heldAt = s.ref && (match t with | some t => !t.noinstr && !t.brk && !t.atCommit | none => false)

/-- Holds area `u` with the record `t` and requests its trap operator (R28, R316). A fault of a supervisor area is
fatal to its context (R28). A fault of a copy of a voted area holds copy 0 and drops every held write (R310). Of the faults of one
cycle the record names the lowest `cix` (R28). -/
def State.hold (s : State) (u : Nat) (t : TrapRec) (phys : Nat) : State :=
  match s.area u with
  | none => s
  | some a =>
    if a.kind.supervisor then
      let addr := match a.kind with | .trap _ => areaAddr a.ctx a.pos | _ => 0
      s.fatal a.ctx t.fault addr t.faddr t.fpc
    else
      let (v, t) :=
        match a.kind with
        | .shadow n o => (o, { t with copy := BitVec.ofNat 2 n })
        | _ => (u, t)
      if a.phase = .held then
        if (((s.area v).bind (·.trap)).map (fun r => r.before t)).getD true then s
        else (s.modArea v (fun a => { a with trap := some t })).moveTrap v phys
      else
      let s := { s with areas := s.areas.map (fun p =>
        let copy := match p.2.kind with | .shadow _ o => o = v && !t.brk | _ => false
        if p.1 = v || copy then
          (p.1, { p.2 with
            heldw := if t.brk then p.2.heldw else []
            round := if t.brk then p.2.round else p.2.round + 1
            phase := .held
            trap := if p.1 = v then some t else p.2.trap
            heldAt := s.ref
            since := s.ctxSweep a.ctx })
        else p) }
      match s.area v with
      | none => s
      | some a => s.requestTrap v a phys

/-- Raises a synchronous fault in the issuing cell: precise, so nothing but the hold happens (R28, R319) (log 47). -/
def State.raiseWith (s : State) (fault code : BitVec 8) (faddr : Word) : State :=
  match s.area s.cur.1 with
  | none => s
  | some a =>
    match a.cells.find s.cur.2 with
    | none => s
    | some c =>
      let s := s.modCur (fun c => { c with wait := none })
      s.hold s.cur.1 ⟨fault, code, 0, false, false, s.cur.2, c.pc, faddr, a.word c 0, a.word1 c⟩ c.phys

/-- Raises a fault of Table 1.7 with its address (log 47). -/
def State.raise (s : State) (fault : BitVec 8) (faddr : Word) : State := s.raiseWith fault 0 faddr

/-- Holds an area with no faulting instruction: at discovery, at fetch, without placement, or in a form (R319). -/
def State.holdNoInstr (s : State) (u : Nat) (fault : BitVec 8) (cix : Nat) : State :=
  match s.area u with
  | none => s
  | some a =>
    match a.cells.find cix with
    | none => s
    | some c => s.hold u ⟨fault, 0, 0, true, false, cix, 0, 0, 0, 0⟩ c.phys

/-! The gate and the ends of an instruction. -/

/-- The register `d` is awaited from the command `id`; a write to s0 is discarded, so nothing awaits it (R32, R76). -/
def Cell.await (k : Cell) (d : SReg) (id : Nat) : Cell :=
  if d = 0 then k else { k with pend := k.pend ++ [(d, id)] }

/-- A write that its home acknowledges (R210, R240). -/
def MemOp.posted (o : MemOp) : Bool := o.kind = .store || o.kind = .atomic || o.kind = .cadd

/-- A write of the cell is not acknowledged. -/
def Cell.posted (k : Cell) : Bool := k.ops.any MemOp.posted

/-- Its wait of kind `kind`, once its condition was seen to hold, with what it observed. -/
def Cell.seen (k : Cell) (kind : WaitKind) : Option (Wait × Bool) :=
  k.wait.bind (fun w => if w.kind = kind then w.granted.map (fun e => (w, e)) else none)

/-- A memory operation performed at its home, or on its way back, is over for the order of the cell's accesses (R252), in which a prefetch
has no part (R215). -/
def Cell.settled (k : Cell) : Bool := k.ops.all (fun o => o.done.isSome || o.kind = .pref)

/-- A register that an outstanding load or atomic of the cell will write is among `regs` (R208). -/
def Cell.awaitsMem (k : Cell) (regs : List SReg) : Bool := k.ops.any (fun o => o.dst ≠ 0 && regs.contains o.dst)

/-- A cell that starts over: what it issued before goes on, and brings no register anything. -/
def Cell.again (k : Cell) : Cell :=
  { Cell.start k.phys with ops := k.ops.map (fun o => { o with dst := 0 }), cmds := k.cmds }

/-- The value of the command `id` reaches the register that awaits it; a cell that was restarted since awaits nothing. -/
def Cell.receive (k : Cell) (d : SReg) (id : Nat) (v : Word) (p : Bool) : Cell :=
  if k.pend.any (fun x => x.2 = id) then { k.setS d v p with pend := k.pend.filter (fun x => x.2 ≠ id) } else k

/-- Marks the issuing cell's area as having consumed poison (R81). -/
def State.markConsumed (s : State) : State := s.modArea s.cur.1 (fun a => { a with consumed := true })

/-- The instruction of `n` words has issued: the cell changes by `f` and goes on behind it. -/
def State.finish (s : State) (c : Cell) (n : Nat) (f : Cell → Cell) : State :=
  (s.count c.hid 1 1).modCur (fun c => { f c with pc := c.pc + BitVec.ofNat 64 (4 * n), wait := none })

/-- The pc of a branch target: its 14 bits (R76), and for a target that they do not hold a mark above them, so that its fetch
raises NO_EXIT (R47, R86) (log 50). -/
def pcOf (w : Word) : Word := if w.toNat < 2 ^ 14 then w else (w &&& 0x3FFF) ||| 0x4000

/-- As `finish`, with the target of a branch. -/
def State.jump (s : State) (c : Cell) (target : Word) (f : Cell → Cell) : State :=
  (s.count c.hid 1 1).modCur (fun c => { f c with pc := pcOf target, wait := none })

/-- The cell waits and executes the instruction again later (Table 1.3) (log 79). -/
def State.waitOn (s : State) (kind : WaitKind) (waddr value : Word) : State :=
  s.modCur (fun c => { c with wait := some ⟨kind, waddr, value, none, none, [], []⟩ })

/-- The cell waits on the engine queues of a mask for the commands `ids`. -/
def State.waitQueue (s : State) (mask : Word) (ids : List Nat) : State :=
  s.modCur (fun c => { c with wait := some ⟨.queue, 0, mask, none, none, ids, []⟩ })

/-- The commands from which the registers `regs` of a cell are awaited. -/
def Cell.awaited (k : Cell) (regs : List SReg) : List Nat := (k.pend.filter (fun p => regs.contains p.1)).map (·.2)

/-- The mask of the queues that hold the commands `ids` of a cell. -/
def Cell.queueMask (k : Cell) (ids : List Nat) : Word :=
  BitVec.ofNat 64 ((List.range 4).foldl (fun m q => if k.cmds.any (fun p => p.1 = q && ids.contains p.2) then m + 2 ^ q else m) 0)

/-- The cell waits for the registers `regs` that engines will write (R244, R281). -/
def State.waitPend (s : State) (k : Cell) (regs : List SReg) : State :=
  s.waitQueue (k.queueMask (k.awaited regs)) (k.awaited regs)

/-- A cell instruction of `n` words that names the scalar registers `regs`: with a poisoned condition it consumes
poison, with a false one it goes on with no other effect; a register still awaited from an engine stops it on the
engine queue, one awaited from memory on the memory port (R57, R33, R81, R208, R244, R281). -/
def State.gate (s : State) (k : Cond) (n : Nat) (regs : List SReg) (body : Area → Cell → State → State) :
    Host.Outcome State Fault Refusal :=
  match s.area s.cur.1 with
  | none => .fault .noIssuingCell
  | some a =>
    match a.cells.find s.cur.2 with
    | none => .fault .noIssuingCell
    | some c =>
      .next (
        if c.qpsn k.q && s.strict a.ctx then s.raise fltPoisonConsumed 0
        else
          let s := if c.qpsn k.q then s.markConsumed else s
          if c.cond k = false then s.finish c n id
          else if c.pend.any (fun p => regs.contains p.1) then s.waitPend c regs
          else if c.awaitsMem regs then s.waitOn .port 0 0
          else body a c s)

/-- As `gate`, for a privileged opcode: PRIV comes before the condition (R57, R315). -/
def State.privGate (s : State) (k : Cond) (n : Nat) (regs : List SReg) (body : Area → Cell → State → State) :
    Host.Outcome State Fault Refusal :=
  match s.area s.cur.1 with
  | none => .fault .noIssuingCell
  | some a =>
    if a.privileged then s.gate k n regs body
    else
      match a.cells.find s.cur.2 with
      | none => .fault .noIssuingCell
      | some _ => .next (s.raise fltPriv 0)

/-- The issuing cell is `k` of area `ar`, and an instruction with condition `c` that names the scalar registers `regs`
passes its gate: the condition is true and not poisoned, and no register named is awaited from an engine or from memory. -/
def State.issues (s : State) (c : Cond) (regs : List SReg) (ar : Area) (k : Cell) : Prop :=
  s.area s.cur.1 = some ar ∧ ar.cells.find s.cur.2 = some k ∧ k.qpsn c.q = false ∧ k.cond c = true ∧
    k.pend.any (fun p => regs.contains p.1) = false ∧ k.awaitsMem regs = false

/-- Consumes the poison `p` of an operand that decides control or names a location, then goes on (R81). -/
def State.consume (s : State) (a : Area) (p : Bool) (faddr : Word) (k : State → State) : State :=
  if p then (if s.strict a.ctx then s.raise fltPoisonConsumed faddr else k s.markConsumed) else k s

/-- One draw of the hearth's generator (R68): the 16 bits and the generator after it. -/
def drawSR (g : Word) : Nat × Word :=
  let g := g ^^^ (g <<< 13)
  let g := g ^^^ (g >>> 7)
  let g := g ^^^ (g <<< 17)
  ((g >>> 48).toNat, g)

/-- The draw of hearth `h` when the mode is SR, and the state after it. -/
def State.draw (s : State) (h mode : Nat) : Nat × State :=
  if mode = 4 then
    let (r, g) := drawSR (s.hearth h).seed
    (r, s.modHearth h (fun x => { x with seed := g }))
  else (0, s)

/-- The cell waits at a collective, behind false AREABARs that it has passed (R109, R111, R117). -/
def Cell.atCollective (c : Cell) : Bool := c.arrs.any (·.waits)

/-- A symbol of the area is in transit (Table 1.4). -/
def State.inTransit (s : State) (a : Area) : Bool :=
  !a.kind.supervisor && a.cells.any (fun p => (s.sym p.2.phys).transit)

/-- The areas of a context, with their names. -/
def State.areasOf (s : State) (ctx : Nat) : List (Nat × Area) := s.areas.filter (fun p => p.2.ctx = ctx)

/-- Whether a context's areas may be claimed and its cells may issue. -/
def Ctx.live (x : Ctx) : Bool :=
  match x.status with
  | .running | .preempting | .stopping | .saving | .restoring => true
  | _ => false

end Sys2Proof.Machine
end

