-- ==== Sys2Proof/Machine/Flags.lean ====
section
/-!
DEFINITION. The comparisons that write predicates and decide branches and waits (R53, R93, R94), and the class mask
of FCLASS (R103). The KX4 has no flag register: its predicates are q0–q7.
-/

namespace Sys2Proof.Machine

/-- Compare (R53, R93): 0 eq, 1 ne, 2 lt, 3 le, 4 gt, 5 ge as signed, 6 ltu, 7 geu as unsigned. -/
def compare (cond : Nat) (x y : Word) : Bool :=
  match cond with
  | 0 => x == y
  | 1 => x != y
  | 2 => x.slt y
  | 3 => x.sle y
  | 4 => y.slt x
  | 5 => y.sle x
  | 6 => x.ult y
  | _ => y.ule x

/-- FCMP of two FP32 codes in registers (R94). -/
def fcompare (cond : Nat) (x y : Word) : Bool :=
  fcmpV cond (decodeT 9 (bits x.toNat 0 32)) (decodeT 9 (bits y.toNat 0 32))

/-- The bit that FCLASS sets (R103). -/
def fclassBit (c : Nat) : Nat :=
  let neg := bitOf c 31
  let e := bits c 23 8
  let m := bits c 0 23
  if e = 255 then
    if m = 0 then (if neg then 0 else 7) else (if bitOf c 22 then 9 else 8)
  else if e = 0 then
    if m = 0 then (if neg then 3 else 4) else (if neg then 2 else 5)
  else (if neg then 1 else 6)

end Sys2Proof.Machine
end

