-- ==== Sys2Proof/Machine/Hash.lean ====
section
/-!
DEFINITION. SHAKE256 of the records' chains and digests (R303, R343, R347), and AES-256 with the XTS line cipher and
the CMAC of encrypted pages (R220, R221). The manual names the published algorithms.
-/

namespace Sys2Proof.Machine

/-- The state after `t` steps of the shift register, with feedback x^8 + x^6 + x^5 + x^4 + 1, that the round constants come from. -/
def roundLfsr : Nat → Nat
  | 0 => 1
  | t + 1 => let r := 2 * roundLfsr t; if 256 ≤ r then r ^^^ 0x171 else r

/-- The constant of round `i`: its bit 2^j − 1 is output 7i + j of the register. -/
def roundConst (i : Nat) : BitVec 64 :=
  BitVec.ofNat 64 (((List.range 7).map (fun j => roundLfsr (7 * i + j) % 2 * 2 ^ (2 ^ j - 1))).sum)

/-- The lane, by column and row, that the walk of the rotations reaches at step `t`. -/
def rotWalk : Nat → Nat × Nat
  | 0 => (1, 0)
  | t + 1 => let (x, y) := rotWalk t; (y, (2 * x + 3 * y) % 5)

/-- The rotation of a lane: triangular numbers along the walk, 0 for the lane that it never reaches. -/
def laneRot (x y : Nat) : Nat :=
  match (List.range 24).find? (fun t => rotWalk t = (x % 5, y % 5)) with
  | some t => (t + 1) * (t + 2) / 2
  | none => 0

/-- A sponge state: 25 lanes, row by row. -/
abbrev Lanes := List (BitVec 64)

def Lanes.of (f : Nat → Nat → BitVec 64) : Lanes := (List.range 5).flatMap (fun y => (List.range 5).map (fun x => f x y))

def Lanes.lane (a : Lanes) (x y : Nat) : BitVec 64 := a.getD (5 * (y % 5) + x % 5) 0

/-- Parity of a column. -/
def Lanes.column (a : Lanes) (x : Nat) : BitVec 64 := (List.range 5).foldl (fun p y => p ^^^ a.lane x y) 0

/-- θ: each lane with the parities of two columns. -/
def Lanes.mixColumns (a : Lanes) : Lanes := .of (fun x y => a.lane x y ^^^ a.column (x + 4) ^^^ (a.column (x + 1)).rotateLeft 1)

/-- ρ and π: each lane comes rotated from its source. -/
def Lanes.scatter (a : Lanes) : Lanes := .of (fun x y => (a.lane (x + 3 * y) x).rotateLeft (laneRot (x + 3 * y) x))

/-- χ, and ι with the constant `rc`. -/
def Lanes.mixRows (a : Lanes) (rc : BitVec 64) : Lanes :=
  .of (fun x y => a.lane x y ^^^ (a.lane (x + 2) y &&& ~~~(a.lane (x + 1) y)) ^^^ (if x = 0 && y = 0 then rc else 0))

/-- The permutation of SHAKE256: 24 rounds. -/
def Lanes.permute (a : Lanes) : Lanes :=
  (List.range 24).foldl (fun a i => a.mixColumns.scatter.mixRows (roundConst i)) a

/-- A state with one 136-byte block taken in. -/
def Lanes.take136 (a : Lanes) (block : List Byte) : Lanes :=
  Lanes.permute (.of (fun x y =>
    let i := 5 * y + x
    a.lane x y ^^^ (if i < 17 then BitVec.ofNat 64 (ofLe ((block.drop (8 * i)).take 8)) else 0)))

/-- The blocks of a padded message, with `fuel` at least their number. -/
def shakeBlocks : Nat → List Byte → Lanes → Lanes
  | 0, _, a => a
  | n + 1, bs, a =>
    if bs.length < 136 then
      let last := bs ++ [0x1F#8] ++ List.replicate (135 - bs.length) 0#8
      a.take136 (last.take 135 ++ [last.getD 135 0 ||| 0x80#8])
    else shakeBlocks n (bs.drop 136) (a.take136 (bs.take 136))

/-- The first `n` ≤ 136 bytes of SHAKE256. -/
def shake256 (n : Nat) (bs : List Byte) : List Byte :=
  ((shakeBlocks (bs.length / 136 + 1) bs (List.replicate 25 0)).flatMap (fun w => leBytes 8 w.toNat)).take n

/-- Multiplication by x in GF(2^8) of AES. -/
def xtime (b : Byte) : Byte := (b <<< 1) ^^^ (if b.getLsbD 7 then 0x1B#8 else 0)

/-- Multiplication in GF(2^8) of AES, `n` bits of the second factor. -/
def gmul : Nat → Byte → Byte → Byte
  | 0, _, _ => 0
  | n + 1, a, b => (if b.getLsbD 0 then a else 0) ^^^ gmul n (xtime a) (b >>> 1)

/-- b^254, the inverse in GF(2^8), 0 for 0. -/
def ginv (b : Byte) : Byte :=
  let b2 := gmul 8 b b
  let b3 := gmul 8 b2 b
  let b12 := gmul 8 (gmul 8 b3 b3) (gmul 8 b3 b3)
  let b15 := gmul 8 b12 b3
  let b30 := gmul 8 b15 b15
  let b60 := gmul 8 b30 b30
  let b120 := gmul 8 b60 b60
  let b127 := gmul 8 b120 (gmul 8 b3 (gmul 8 b3 b))
  gmul 8 b127 b127

/-- AES S-box. -/
def sbox (b : Byte) : Byte :=
  let i := ginv b
  i ^^^ i.rotateLeft 1 ^^^ i.rotateLeft 2 ^^^ i.rotateLeft 3 ^^^ i.rotateLeft 4 ^^^ 0x63#8

/-- Inverse of the S-box. -/
def sboxInv (b : Byte) : Byte := ginv (b.rotateLeft 1 ^^^ b.rotateLeft 3 ^^^ b.rotateLeft 6 ^^^ 0x05#8)

/-- Byte-wise XOR. -/
def xorBytes (a b : List Byte) : List Byte := List.zipWith (· ^^^ ·) a b

/-- The key schedule's words from word `i` on, the latest first. -/
def aesExpand : Nat → Nat → Byte → List (List Byte) → List (List Byte)
  | 0, _, _, ws => ws
  | n + 1, i, rc, ws =>
    let prev := ws.getD 0 []
    let t :=
      if i % 8 = 0 then xorBytes ((prev.drop 1 ++ prev.take 1).map sbox) [rc, 0, 0, 0]
      else if i % 8 = 4 then prev.map sbox
      else prev
    aesExpand n (i + 1) (if i % 8 = 0 then xtime rc else rc) (xorBytes (ws.getD 7 []) t :: ws)

/-- The fifteen 16-byte round keys of a 32-byte key. -/
def aesKeys (key : List Byte) : List (List Byte) :=
  let ws := (aesExpand 52 8 1 ((List.range 8).reverse.map (fun i => (key.drop (4 * i)).take 4))).reverse
  (List.range 15).map (fun r => ((ws.drop (4 * r)).take 4).flatten)

/-- ShiftRows by `k` times the row, on a block in column order. -/
def shiftRows (k : Nat) (s : List Byte) : List Byte :=
  (List.range 16).map (fun i => s.getD ((i + 4 * k * (i % 4)) % 16) 0)

/-- A circulant column mix with the given first row. -/
def mixColumns (m : List Byte) (s : List Byte) : List Byte :=
  (List.range 16).map (fun i =>
    (List.range 4).foldl (fun acc j => acc ^^^ gmul 8 (s.getD (i / 4 * 4 + (i + j) % 4) 0) (m.getD j 0)) 0)

/-- AES-256 encryption of a block. -/
def aesEnc (rk : List (List Byte)) (b : List Byte) : List Byte :=
  let s := (List.range 13).foldl (fun s r =>
    xorBytes (mixColumns [2, 3, 1, 1] (shiftRows 1 (s.map sbox))) (rk.getD (r + 1) [])) (xorBytes b (rk.getD 0 []))
  xorBytes (shiftRows 1 (s.map sbox)) (rk.getD 14 [])

/-- AES-256 decryption of a block. -/
def aesDec (rk : List (List Byte)) (b : List Byte) : List Byte :=
  let s := (List.range 13).foldl (fun s r =>
    mixColumns [14, 11, 13, 9] (xorBytes ((shiftRows 3 s).map sboxInv) (rk.getD (13 - r) [])))
    (xorBytes b (rk.getD 14 []))
  xorBytes ((shiftRows 3 s).map sboxInv) (rk.getD 0 [])

/-- Multiplication of an XTS tweak by x (IEEE 1619): the low byte first. -/
def xtsDouble (t : List Byte) : List Byte :=
  let x := ofLe t * 2
  leBytes 16 (if 2 ^ 128 ≤ x then (x - 2 ^ 128) ^^^ 0x87 else x)

/-- Byte `i` to `i + n − 1` of a key slot. -/
def keyBytes (slot : BitVec 768) (i n : Nat) : List Byte := leBytes n (slot.toNat / 256 ^ i)

/-- XTS-AES-256 of the 64-byte line with number `line` (R220), encrypting or decrypting. -/
def xtsLine (enc : Bool) (slot : BitVec 768) (line : Nat) (bs : List Byte) : List Byte :=
  let k1 := aesKeys (keyBytes slot 0 32)
  let t0 := aesEnc (aesKeys (keyBytes slot 32 32)) (leBytes 16 line)
  ((List.range 4).foldl (fun (acc : List Byte × List Byte) i =>
    let b := (bs.drop (16 * i)).take 16
    let x := xorBytes b acc.2
    let y := xorBytes (if enc then aesEnc k1 x else aesDec k1 x) acc.2
    (acc.1 ++ y, xtsDouble acc.2)) ([], t0)).1

/-- Doubling of a CMAC subkey: the high byte first. -/
def cmacDouble (b : List Byte) : List Byte :=
  let x := ofLe b.reverse * 2
  (leBytes 16 (if 2 ^ 128 ≤ x then (x - 2 ^ 128) ^^^ 0x87 else x)).reverse

/-- AES-CMAC with AES-256 of a message of 64 to 79 bytes. -/
def cmac (key : List Byte) (msg : List Byte) : List Byte :=
  let rk := aesKeys key
  let l := aesEnc rk (List.replicate 16 0)
  let k2 := cmacDouble (cmacDouble l)
  let s := (List.range 4).foldl (fun acc i => aesEnc rk (xorBytes acc ((msg.drop (16 * i)).take 16))) (List.replicate 16 0)
  let last := msg.drop 64
  let pad := last ++ [0x80#8] ++ List.replicate (15 - last.length) 0
  aesEnc rk (xorBytes s (xorBytes pad k2))

/-- The line MAC of R221: over the line's ciphertext followed by its PA[47:6], which R221 does not lay out: 6 bytes, the lowest first, the
model's choice (log 96). -/
def lineMac (slot : BitVec 768) (line : Nat) (cipher : List Byte) : BitVec 128 :=
  BitVec.ofNat 128 (ofLe (cmac (keyBytes slot 64 32) (cipher ++ leBytes 6 line)))

end Sys2Proof.Machine
end

