-- ==== Sys2Proof/Machine/Times.lean ====
section
/-!
DEFINITION. Logical time, releases and acquires: what keeps the accesses of cells in one order while hearths read old lines
from their L1s (R201, R252–R257, R262).
-/

namespace Sys2Proof.Machine

/-! Logical clocks. -/

/-- The logical clock of a hearth: it advances on its own with the reference count (log 30). -/
def State.now (s : State) (h : Nat) : Nat := (s.hearth h).clk + s.ref

/-- The clock of a hearth moves up to `t`. -/
def State.meet (s : State) (h t : Nat) : State :=
  if t ≤ s.now h then s else s.modHearth h (fun x => { x with clk := t - s.ref })

/-- A cell of the hearth reads a line at its home: it meets the line's write time, and no later write takes a time at which it read. -/
def State.meetLine (s : State) (h line : Nat) : State :=
  let t := s.lineTime.get (0, 0) line
  let s := s.meet h t.1
  { s with lineTime := s.lineTime.put (0, 0) line (t.1, max t.2 (s.now h)) }

/-- A cell of the hearth has written a line at its home: the write lies behind the line's last write and behind every read of it, and
the clock of the hearth moves up to it. -/
def State.wroteLine (s : State) (h line : Nat) : State :=
  let t := s.lineTime.get (0, 0) line
  let w := max (s.now h) (max t.1 (t.2 + 1))
  ({ s with lineTime := s.lineTime.put (0, 0) line (w, t.2) } : State).meet h w

/-- The L1 without a line. -/
def State.l1Drop (s : State) (h line : Nat) : State :=
  if (s.hearth h).l1.any (fun x => x.line = line) then
    s.modHearth h (fun x => { x with l1 := x.l1.filter (fun y => y.line ≠ line) })
  else s

/-- Cells of the hearth have written lines at their homes: the hearth keeps no copy of them (R200, R201). -/
def State.wroteLines (s : State) (h : Nat) (ls : List Nat) : State := ls.foldl (fun s l => (s.wroteLine h l).l1Drop h l) s

/-- The latest write time of lines. -/
def State.linesTime (s : State) (ls : List Nat) : Nat := ls.foldl (fun m l => max m (s.lineTime.get (0, 0) l).1) 0

/-- What cells discover from now on in a partition lies behind `t` (R21, R257). -/
def State.reachTo (s : State) (l t : Nat) : State := s.modPart l (fun p => { p with reached := max p.reached t })

/-! Agents (R251). A hearth's number stands for its cells and engines. -/

/-- A host agent, a peer device by its job, and the device itself in a partition. -/
def hostAgent (a : Nat) : Nat := 1024 + 2 * a
def peerAgent (job : Nat) : Nat := 1025 + 2 * job
def deviceAgent (l : Nat) : Nat := 2 ^ 200 + l

/-- The partition of an agent inside the device. -/
def State.agentPart (s : State) (x : Nat) : Option Nat :=
  if x < 1024 then some (s.leadOf x) else if 2 ^ 200 ≤ x then some (x - 2 ^ 200) else none

/-- A peer device. -/
def isPeer (x : Nat) : Bool := 1024 ≤ x && x < 2 ^ 200 && x % 2 = 1

/-! Releases and acquires (R256, R257). -/

/-- The agents of a scope of Table 13.2: agent, area, cell. -/
def State.inScope (s : State) (scope : BitVec 3) (x y : Nat × Nat × Nat) : Bool :=
  let cells := decide (x.1 < 1024) && decide (y.1 < 1024)
  match scope.toNat with
  | 0 => cells && x = y
  | 1 => cells && x.2.1 = y.2.1
  | 2 => cells && x.1 = y.1
  | 3 => cells && dieOf x.1 = dieOf y.1
  | 4 => (s.agentPart x.1).isSome && s.agentPart x.1 = s.agentPart y.1
  | 5 =>
    !isPeer x.1 && !isPeer y.1 &&
      ((s.agentPart x.1).isNone || (s.agentPart y.1).isNone || s.agentPart x.1 = s.agentPart y.1)
  | _ => true

/-- A release and an acquire at `scope` by `by_` match (R256). -/
def State.synchronises (s : State) (r : Release) (scope : BitVec 3) (by_ : Nat × Nat × Nat) : Bool :=
  r.scopes.all (fun x => s.inScope x (r.hid, r.uid, r.cix) by_) && s.inScope scope by_ (r.hid, r.uid, r.cix)

/-- The word that carries releases at a location. -/
def Loc.word : Loc → Nat
  | .dev pa _ => pa / 8
  | .host ha => 2 ^ 61 + ha / 8
  | .tile _ _ a => 2 ^ 60 + a / 8

/-- Releases that the word at a location carries. -/
def State.released (s : State) (l : Loc) : List Release := (s.releases.find l.word).getD []

/-- The word at a location carries more releases; of one releaser and one list of scopes it keeps the latest. -/
def State.release_ (s : State) (l : Loc) (rs : List Release) : State :=
  let keep (old : List Release) : List Release :=
    rs ++ old.filter (fun o => !rs.any (fun r => r.scopes = o.scopes && r.hid = o.hid && r.uid = o.uid && r.cix = o.cix && o.time ≤ r.time))
  if rs = [] then s else { s with releases := s.releases.set l.word (keep (s.released l)) }

/-- The word at a location is written afresh: it carries no release (R236). -/
def State.clearReleases (s : State) (l : Loc) : State := { s with releases := s.releases.erase l.word }

/-- The releases of the words of `n` bytes of the tile stores from `a` on move to the words from `b` on (R124, R238). -/
def State.moveReleases (s : State) (a b n : Nat) : State :=
  let moved := s.releases.filter (fun p => 2 ^ 60 + a / 8 ≤ p.1 && p.1 < 2 ^ 60 + (a + n) / 8)
  let rest := s.releases.filter (fun p =>
    !(2 ^ 60 + a / 8 ≤ p.1 && p.1 < 2 ^ 60 + (a + n) / 8) && !(2 ^ 60 + b / 8 ≤ p.1 && p.1 < 2 ^ 60 + (b + n) / 8))
  { s with releases := moved.foldl (fun t p => t.set (p.1 - a / 8 + b / 8) p.2) rest }

/-- An agent acquires at `scope` the releases `rs` that its read met. -/
def State.acquire (s : State) (rs : List Release) (scope : BitVec 3) (h u i : Nat) : State :=
  rs.foldl (fun s r => if s.synchronises r scope (h, u, i) then s.meet h r.time else s) s

/-- The scope of the device, and the one that takes in the host (Table 13.2). -/
def scopeDev : BitVec 3 := 4
def scopeNode : BitVec 3 := 5

/-- A read by a cell that met the releases `rs`: an acquire at `scope` when `acq`; otherwise a later FENCE may make it one (R262). -/
def State.metReleases (s : State) (rs : List Release) (acq : Bool) (scope : BitVec 3) (h u i : Nat) : State :=
  if rs = [] then s
  else if acq then s.acquire rs scope h u i
  else s.modCell u i (fun k => { k with met := (k.met ++ rs).eraseDups })

/-- A read of the word at `l` by a cell. -/
def State.readWord (s : State) (l : Loc) (acq : Bool) (scope : BitVec 3) (h u i : Nat) : State :=
  s.metReleases (s.released l) acq scope h u i

end Sys2Proof.Machine
end

