-- ==== Sys2Proof/Machine/Mem.lean ====
section
/-!
DEFINITION. Memory by physical address, address translation, the tile store, and the one place where bytes are read
and written, with their poison and encryption (R195–R221).
-/

namespace Sys2Proof.Machine

/-- Bytes of one die's device memory (R196). -/
def dieBytes : Nat := 0x2370000000

/-- Bytes of one hearth's tile store (R146). -/
def tileBytes : Nat := 1572864

/-- Consecutive bytes of a table. -/
def readTab (t : Tab Byte) (a : Nat) : Nat → List Byte
  | 0 => []
  | n + 1 => t.get 0 a :: readTab t (a + 1) n

/-- A table with consecutive bytes written. -/
def writeTab (t : Tab Byte) (a : Nat) : List Byte → Tab Byte
  | [] => t
  | b :: r => writeTab (t.put 0 a b) (a + 1) r

/-- The canonical form of a byte memory: addresses strictly rising, and no byte listed that reads as 0. -/
def Memory.wf (m : Tab Byte) : Bool := Tab.wf 0 m

/-- A table of flags with `n` consecutive entries set. -/
def flagTab (t : Tab Bool) (a : Nat) (v : Bool) : Nat → Tab Bool
  | 0 => t
  | n + 1 => flagTab (t.put false a v) (a + 1) v n

/-- Some of `n` consecutive flags is set. -/
def anyTab (t : Tab Bool) (a : Nat) : Nat → Bool
  | 0 => false
  | n + 1 => t.get false a || anyTab t (a + 1) n

/-! Device memory. -/

/-- The stored bytes of a line (ciphertext on an encrypted page). -/
def State.lineRaw (s : State) (line : Nat) : List Byte := readTab s.mem (64 * line) 64

/-- `n` bytes at a device address through a mapping with key slot `key`; they lie in one line or the page is not encrypted. -/
def State.readDev (s : State) (pa : Nat) (key : Option Nat) (n : Nat) : List Byte :=
  match key with
  | none => readTab s.mem pa n
  | some k =>
    ((List.range ((pa + n - 1) / 64 - pa / 64 + 1)).flatMap (fun i =>
      xtsLine false (s.keys.get 0 k) (pa / 64 + i) (s.lineRaw (pa / 64 + i)))).drop (pa % 64) |>.take n

/-- A line that read leases were granted on takes a write time behind the last of them (R201, R252). -/
def State.stampLine (s : State) (line : Nat) : State :=
  { s with lineTime := s.lineTime.upd line (fun t => (max t.1 (t.2 + 1), t.2)) }

/-- An encrypted page's tag as its lines now give it, `page` being its first 64 KiB (R221): CMAC over each line's ciphertext and its
PA[47:6] (log 23). -/
def State.tagNow (s : State) (page lines key : Nat) : BitVec 128 :=
  (List.range lines).foldl (fun t i => t ^^^ lineMac (s.keys.get 0 key) (page * 1024 + i) (s.lineRaw (page * 1024 + i))) 0

/-- The tag of the page that a line lies in: that of its 512 MiB, if it has one, or of its 64 KiB. -/
def State.tagKey (s : State) (line : Nat) : Nat :=
  let big := line / 8388608 * 8192
  if ((s.tags.find big).map (fun t => decide (1024 < t.lines))).getD false then big else line / 1024

/-- Writes bytes of one line through a mapping with key slot `key`, updating the page's tag (R220, R221) (log 23). -/
def State.writeLine (s : State) (pa : Nat) (key : Option Nat) (bs : List Byte) : State :=
  let s := s.stampLine (pa / 64)
  match key with
  | none => { s with mem := writeTab s.mem pa bs }
  | some k =>
    let line := pa / 64
    let slot := s.keys.get 0 k
    let old := s.lineRaw line
    let plain := xtsLine false slot line old
    let new := xtsLine true slot line (plain.take (pa % 64) ++ bs ++ plain.drop (pa % 64 + bs.length))
    { s with
      mem := writeTab s.mem (64 * line) new
      tags := s.tags.upd (s.tagKey line) (fun t =>
        { t with tag := t.tag ^^^ lineMac slot line old ^^^ lineMac slot line new }) }

/-- Writes bytes at a device address, line by line, and sets the poison of the lines: a poisoned write poisons a
line, an unpoisoned one clears it only when it covers all 64 bytes (R210). `fuel` bounds the lines. -/
def State.writeDev (s : State) (pa : Nat) (key : Option Nat) (psn : Bool) : Nat → List Byte → State
  | 0, _ => s
  | _, [] => s
  | fuel + 1, b :: r =>
    let n := 64 - pa % 64
    let part := (b :: r).take n
    let s := s.writeLine pa key part
    let s :=
      if psn then { s with linePoison := s.linePoison.put false (pa / 64) true }
      else if part.length = 64 then { s with linePoison := s.linePoison.put false (pa / 64) false }
      else s
    s.writeDev (pa + n) key psn fuel ((b :: r).drop n)

/-- The lines of `n` bytes at a device address. -/
def linesOf (pa n : Nat) : List Nat := (List.range ((pa + n - 1) / 64 - pa / 64 + 1)).map (· + pa / 64)

/-- Whether a line of `n` bytes at `pa` is poisoned (R218). -/
def State.devPoison (s : State) (pa n : Nat) : Bool :=
  (List.range ((pa + n - 1) / 64 - pa / 64 + 1)).any (fun i => s.linePoison.get false (pa / 64 + i))

/-! Translation (R202–R207). -/

/-- A[63:36] all ones: the tile window (R202). -/
def inTileWindow (a : Word) : Bool := a.toNat / 2 ^ 36 = 2 ^ 28 - 1

/-- A[63:55] all copies of A[54] (R202). -/
def canonical (a : Word) : Bool := a.toNat / 2 ^ 54 = 0 || a.toNat / 2 ^ 54 = 1023

/-- The device addresses of a partition: [lo, hi) (R196). -/
def State.partRange (s : State) (l : Nat) : Nat × Nat := (l * dieBytes, (l + (s.part l).dies) * dieBytes)

/-- A page of `n` bytes that lies in device memory and not wholly in that of the partition (R205). -/
def State.badFrame (s : State) (l pa n : Nat) : Bool :=
  pa < 2 ^ 47 && (pa < (s.partRange l).1 || (s.partRange l).2 < pa + n)

/-- A page-table entry by its physical address, as a plain load (R203). -/
def State.pteAt (s : State) (pa : Nat) : Nat := ofLe (readTab s.mem pa 8)

/-- Res0 bits of a leaf entry (Table 11.2), of a 512 MiB page's when `big`. -/
def leafRes0 (e : Nat) (big : Bool) : Bool :=
  bits e 56 8 ≠ 0 || (bitOf e 7 = false && bits e 48 8 ≠ 0) || bits e 9 7 ≠ 0 || bits e 5 2 ≠ 0 ||
    (big && bits e 16 13 ≠ 0)

/-- Res0 bits of an entry with leaf = 0. -/
def tableRes0 (e : Nat) : Bool := bits e 56 8 ≠ 0 || bits e 48 8 ≠ 0 || bits e 2 14 ≠ 0

/-- Checks of a leaf entry found by a walk (R205). -/
def State.leafCheck (s : State) (l ctx va e : Nat) (big : Bool) : Except (BitVec 8) Trans :=
  if leafRes0 e big then .error fltPageFault
  else if bitOf e 7 && bitOf e 47 then .error fltPageFault
  else if s.badFrame l (bits e 16 32 * 65536) (if big then 2 ^ 29 else 65536) then .error fltProtection
  else .ok ⟨ctx, big, if big then va / 2 ^ 29 else va / 2 ^ 16, BitVec.ofNat 64 e⟩

/-- A walk of the context's table for a 55-bit virtual address (R203, R205). -/
def State.walk (s : State) (ctx va : Nat) : Except (BitVec 8) Trans :=
  match s.ctx ctx with
  | none => .error fltPageFault
  | some x =>
    let e1 := s.pteAt (x.root + 8 * bits va 42 13)
    if bitOf e1 0 = false || bitOf e1 1 || tableRes0 e1 then .error fltPageFault
    else if bitOf e1 47 || s.badFrame x.part (bits e1 16 32 * 65536) 65536 then .error fltProtection
    else
      let e2 := s.pteAt (bits e1 16 32 * 65536 + 8 * bits va 29 13)
      if bitOf e2 0 = false then .error fltPageFault
      else if bitOf e2 1 then s.leafCheck x.part ctx va e2 true
      else if tableRes0 e2 then .error fltPageFault
      else if bitOf e2 47 || s.badFrame x.part (bits e2 16 32 * 65536) 65536 then .error fltProtection
      else
        let e3 := s.pteAt (bits e2 16 32 * 65536 + 8 * bits va 16 13)
        if bitOf e3 0 = false || bitOf e3 1 = false then .error fltPageFault
        else s.leafCheck x.part ctx va e3 false

/-- A translation covers a virtual address of a context. -/
def Trans.covers (t : Trans) (ctx va : Nat) : Bool :=
  t.ctx = ctx && (if t.big then va / 2 ^ 29 = t.vpage else va / 2 ^ 16 = t.vpage)

/-- The physical address of a virtual one by its translation (R203). -/
def Trans.pa (t : Trans) (va : Nat) : Nat :=
  if t.big then bits t.pte.toNat 29 19 * 2 ^ 29 + va % 2 ^ 29 else bits t.pte.toNat 16 32 * 2 ^ 16 + va % 2 ^ 16

/-- The key slot of a translation (R220). -/
def Trans.key (t : Trans) : Option Nat := if t.pte.getLsbD 7 then some (bits t.pte.toNat 48 8) else none

/-- What an access needs of its page (R205). -/
inductive Need where
  | read
  | write
  | both
  | exec
deriving DecidableEq, Repr

/-- The permissions of a translation. -/
def Trans.allows (t : Trans) : Need → Bool
  | .read => t.pte.getLsbD 2
  | .write => t.pte.getLsbD 3
  | .both => t.pte.getLsbD 2 && t.pte.getLsbD 3
  | .exec => t.pte.getLsbD 4

/-- The encrypted page of a translation gets its integrity tag, if it has none yet (R221, log 23). -/
def State.tagPage (s : State) (t : Trans) : State :=
  match t.key with
  | none => s
  | some k =>
    let page := t.pa 0 / 65536
    let n := if t.big then 8388608 else 1024
    if 2 ^ 47 ≤ t.pa 0 || ((s.tags.find page).map (fun x => decide (x.key = k ∧ x.lines = n))).getD false then s
    else { s with tags := s.tags.set page ⟨k, n, s.tagNow page n k⟩ }

/-- The cached translation of a hearth: its TLB, then its die's (R206). -/
def State.cached (s : State) (h ctx va : Nat) : Option Trans :=
  match (s.hearth h).tlb.find? (fun t => t.covers ctx va) with
  | some t => some t
  | none => (s.dtlb.get [] (dieOf h)).find? (fun t => t.covers ctx va)

/-- Fills the TLBs of a hearth and its die; which entry a full one gives up is a free value (R206, log 12). An encrypted page has its tag
from then on (R221). -/
def State.fillTlb (s : State) (h : Nat) (t : Trans) : State :=
  let put (n v : Nat) (l : List Trans) : List Trans :=
    if l.contains t then l else if l.length < n then t :: l else t :: l.eraseIdx (v % n)
  let v (i : Nat) : Nat := (Config.freeValue (s.free + i)).toNat
  { (s.tagPage t).modHearth h (fun x => { x with tlb := put 1024 (v 0) x.tlb }) with
    dtlb := s.dtlb.put [] (dieOf h) (put 32768 (v 1) (s.dtlb.get [] (dieOf h)))
    free := s.free + 2 }

/-- A translation by the device itself or of a command at issue: cached in hearth `h`, or walked at once (log 72). -/
def State.translate (s : State) (h ctx va : Nat) (need : Need) : Except (BitVec 8) Trans :=
  match s.cached h ctx va with
  | some t => if t.allows need then .ok t else .error fltProtection
  | none =>
    match s.walk ctx va with
    | .error e => .error e
    | .ok t => if t.allows need then .ok t else .error fltProtection

/-- A translation of the device's own accesses, walked afresh (log 72). -/
def State.translateDev (s : State) (ctx : Nat) (a : Word) (need : Need) : Except (BitVec 8) Trans :=
  if canonical a = false then .error fltPageFault
  else
    match s.walk ctx (bits a.toNat 0 55) with
    | .error e => .error e
    | .ok t => if t.allows need then .ok t else .error fltProtection

/-- Removes translations of a context whose pages meet [lo, hi) of its space (R333). -/
def State.dropTrans (s : State) (ctx lo hi : Nat) : State :=
  let keep (t : Trans) : Bool :=
    let (b, n) := if t.big then (t.vpage * 2 ^ 29, 2 ^ 29) else (t.vpage * 2 ^ 16, 2 ^ 16)
    !(t.ctx = ctx && b < hi && lo < b + n)
  { s with
    hearths := (s.hearths.map (fun p => (p.1, { p.2 with tlb := p.2.tlb.filter keep }))).filter (fun p => p.2 ≠ Hearth.reset)
    dtlb := (s.dtlb.map (fun p => (p.1, p.2.filter keep))).filter (fun p => p.2 ≠ []) }

/-! Slots (R146–R156). -/

/-- The place of a slot in the table. -/
def slotKey (owner ctx h : Nat) : Nat := owner * 2 ^ 26 + ctx * 2 ^ 20 + h

/-- The null handle (R147). -/
def nullHandle : Nat := 0xFFFFF

/-- The live slot that area `u` of a context names by a handle: a shadow's own first (R308). -/
def State.slotOf (s : State) (u ctx h : Nat) : Option (Nat × Slot) :=
  let own := slotKey u ctx h
  match s.slots.find own with
  | some x => if x.dying then none else some (own, x)
  | none =>
    let k := slotKey 0 ctx h
    match s.slots.find k with
    | some x => if x.dying then none else some (k, x)
    | none => none

/-- First byte of a slot in the table of tile-store bytes. -/
def Slot.base (x : Slot) : Nat := x.hid * tileBytes + x.unit * 1024

/-- The size of a slot in bytes. -/
def Slot.size (x : Slot) : Nat := x.units * 1024

/-- Units that slots or carve-outs occupy in a hearth; a shadow's and a migrating payload's slots count. -/
def State.unitsUsed (s : State) (h : Nat) (carved : Bool) : List Nat :=
  let own := s.slots.flatMap (fun p =>
    (if p.2.hid = h then (List.range p.2.units).map (· + p.2.unit) else []) ++
      (match p.2.moving with
        | some m => if m.hid = h then (List.range p.2.units).map (· + m.unit) else []
        | none => []))
  if carved then own ++ (s.carves.filter (fun p => p.1 / 64 = h)).flatMap (·.2) else own

/-- The lowest run of `u` units within one bank that avoids `used` (R146, R150). -/
def findRun (used : List Nat) (u : Nat) : Option Nat :=
  (List.range 1536).find? (fun i =>
    i / 64 = (i + u - 1) / 64 && (List.range u).all (fun j => !used.contains (i + j)))

/-- A run for `u` units in a hearth, from its free units or, for the storage manager, from the context's carve-out. -/
def State.freeRun (s : State) (h u : Nat) (carveOf : Option Nat) : Option Nat :=
  match findRun (s.unitsUsed h true) u with
  | some i => some i
  | none =>
    match carveOf with
    | none => none
    | some c =>
      findRun (s.unitsUsed h false ++ (s.carves.filter (fun p => p.1 / 64 = h && p.1 % 64 ≠ c)).flatMap (·.2)) u

/-- Puts a slot in transit to hearth `h`, where there is room: its free units, or the context's carve-out (R124, step 1); `mark` says
whether it is a displaced slot there. None where there is none, or while it is on its way to another hearth. -/
def State.sendSlot (s : State) (key h : Nat) (mark : Bool) : Option State :=
  match s.slots.find key with
  | none => some s
  | some x =>
    match x.moving with
    | some m => if m.hid = h then some s else none
    | none =>
      if x.hid = h then some s
      else
        (s.freeRun h x.units (some (key / 2 ^ 20 % 64))).map (fun i =>
          { s with slots := s.slots.set key { x with moving := some ⟨h, i, s.nextUid, mark⟩ } })

/-- As `sendSlot`; without room the slot stays for the next try. -/
def State.startMove (s : State) (key h : Nat) : State := (s.sendSlot key h false).getD s

/-- Slots go to one hearth together, or none of them does. -/
def State.sendSlots (s : State) (h : Nat) (mark : Bool) (keys : List Nat) : Option State :=
  keys.foldl (fun t k => t.bind (fun t => t.sendSlot k h mark)) (some s)

/-- Handles of a subscription's ring slots (Table 12.5). -/
def Sub.ring (x : Sub) : List Nat := (List.range (bits x.desc.toNat 176 4)).map (fun i => bits x.desc.toNat (512 + 64 * i) 20)

/-- The barrier of ring slot `i`, at s[b] + 8i: its slot and offset (R244). -/
def Sub.barrierOf (x : Sub) (i : Nat) : Nat × Nat :=
  let a := (x.bar + BitVec.ofNat 64 (8 * i)).toNat
  (slotKey 0 x.ctx (bits a 16 20), bits a 0 16)

/-- Handles of its ring slots and of its barriers' slots. -/
def Sub.handles (x : Sub) : List Nat :=
  x.ring ++ (if x.bar = 0 then [] else ((List.range x.ring.length).map (fun i => (x.barrierOf i).1 % 2 ^ 20)).eraseDups)

/-- A push into the slot is landing: it completes, though the slot is freed (R249). -/
def State.pushInto (s : State) (key : Nat) : Bool :=
  s.subs.any (fun q => q.2.ctx = key / 2 ^ 20 && q.2.push.any (fun p => q.2.ring.getD p.1 nullHandle = key % 2 ^ 20))

/-- A slot is reclaimed when no queued command of its hearth names it (R151) and no push lands in it, those of a context that is
gone when no command of the context is left (R149). -/
def State.reclaim (s : State) : State :=
  let gone (k : Nat) : Option Nat :=
    let c := k / 2 ^ 20 % 64
    if ((s.ctx c).map (fun x => decide (x.status = .dead))).getD true then some c else none
  { s with slots := s.slots.filter (fun p =>
      !(p.2.dying && !s.pushInto p.1 && !s.queues.any (fun q => q.2.any (fun c =>
        (q.1 / 4 = p.2.hid && c.names.contains p.1) || gone p.1 = some c.ctx)))) }

/-- The slots that move together with a displaced one: those of its subscription, unless that has ended (R126). -/
def State.groupOf (s : State) (key : Nat) : List Nat :=
  (key :: s.subs.flatMap (fun p =>
    if key / 2 ^ 20 = p.2.ctx && !p.2.dead && p.2.handles.contains (key % 2 ^ 20) then p.2.handles.map (slotKey 0 p.2.ctx) else [])).eraseDups

/-- The cell waits on a tile in transit while a displaced slot, with its whole subscription, comes to its hearth (R126). -/
def State.callTile (s : State) (k : Cell) (key handle : Nat) : State :=
  ((s.sendSlots k.hid false (s.groupOf key)).getD s).waitOn .tile 0 (BitVec.ofNat 64 handle)

/-- A byte range of a slot meets a tagged barrier word. -/
def Slot.meetsTag (x : Slot) (off n : Nat) : Bool := x.tags.any (fun t => off < t + 8 && t < off + n)

/-- Poison of the chunks that hold `n` bytes of the tile store (R193, R211). -/
def State.chunkPoison (s : State) (a n : Nat) : Bool :=
  let c0 := a / 16 * 16
  anyTab s.tilePoison (2 * c0) (2 * ((a + n - 1) / 16 * 16 + 16 - c0))

/-- The byte of the tile-store table at an offset of a slot. -/
def State.slotByte (s : State) (key off : Nat) : Nat :=
  match s.slots.find key with
  | some x => x.base + off
  | none => 0

/-- The slot and offset of a tile-window address, as area `u` names it. -/
def State.windowSlot (s : State) (u ctx : Nat) (a : Word) : Option (Nat × Nat) :=
  if inTileWindow a then (s.slotOf u ctx (bits a.toNat 16 20)).map (fun p => (p.1, bits a.toNat 0 16)) else none

/-- Releases each cell that waits at a barrier word, and for whose word and awaited value `f` answers the error bit that it
observes (log 79). -/
def State.grantBarrier (s : State) (f : Nat → Nat → Word → Option Bool) : State :=
  let look (u ctx : Nat) (w : Wait) : Wait :=
    if w.kind = .barrier && w.granted.isNone then
      (match (s.windowSlot u ctx w.waddr).bind (fun p => (f p.1 p.2 w.value).map (fun e => (p, e))) with
        | some (p, e) => { w with granted := some e, rels := s.released (.tile p.1 p.2 (s.slotByte p.1 p.2)) }
        | none => w)
    else w
  { s with areas := s.areas.map (fun p =>
      (p.1, { p.2 with cells := p.2.cells.map (fun q => (q.1, { q.2 with wait := q.2.wait.map (look p.1 p.2.ctx) })) })) }

/-- Releases the cells whose barrier word stands in a poisoned chunk: it acts as an error (R234, R238). -/
def State.wakeErrors (s : State) : State :=
  s.grantBarrier (fun key off _ => if s.chunkPoison (s.slotByte key off) 8 then some true else none)

/-- Sets the poison flags of both halves of `n` tile-store bytes. -/
def State.flagTile (s : State) (a : Nat) (v : Bool) (n : Nat) : State :=
  { s with tilePoison := flagTab s.tilePoison (2 * a) v (2 * n) }

/-- Writes tile-store bytes with their parity; `psn` as R211 for a cell's store. A chunk that cannot be corrected and is not
written whole stays one (log 11). -/
def State.writeTileCell (s : State) (a : Nat) (bs : List Byte) (psn : Bool) : State :=
  let n := bs.length
  let c0 := a / 16 * 16
  let len := (a + n - 1) / 16 * 16 + 16 - c0
  let lost := n ≠ len && (List.range (2 * len)).all (fun i => s.tilePoison.get false (2 * c0 + i) && s.badScale.get false (c0 + i / 2))
  let s := { s with tile := writeTab s.tile a bs, badScale := if lost then s.badScale else flagTab s.badScale a false n }
  if psn then (s.flagTile c0 true len).wakeErrors
  else if n = len then s.flagTile c0 false len
  else s

/-! Where an access goes. -/

/-- The location of a physical address. -/
def Loc.phys (t : Trans) (va : Nat) : Loc :=
  let pa := t.pa va
  if 2 ^ 47 ≤ pa then .host (pa - 2 ^ 47) else .dev pa t.key

/-- `n` bytes at a location and their poison. -/
def State.readLoc (s : State) : Loc → Nat → List Byte × Bool
  | .dev pa key, n => (s.readDev pa key n, s.devPoison pa n)
  | .host ha, n => (readTab s.hostMem ha n, false)
  | .tile _ _ a, n => (readTab s.tile a n, s.chunkPoison a n)

/-- Writes bytes at a location with a poison flag (log 30). -/
def State.writeLoc (s : State) (l : Loc) (bs : List Byte) (psn : Bool) : State :=
  match l with
  | .dev pa key => s.writeDev pa key psn (bs.length + 1) bs
  | .host ha => { s with hostMem := writeTab s.hostMem ha bs }
  | .tile _ _ a => s.writeTileCell a bs psn

end Sys2Proof.Machine
end

