-- ==== Sys2Proof/Machine/Operands.lean ====
section
/-!
DEFINITION. The operand forms: immediates (R46, R47), memory addresses (R48), the values MKSYM and EMIT form
(Table 5.9), tile descriptors and their element addresses (R152–R154, R228), and what an engine command captures.
-/

namespace Sys2Proof.Machine

/-- An 8-bit immediate, sign-extended (R46). -/
def imm8 (i : BitVec 8) : Word := i.signExtend 64

/-- A word offset as bytes (R47). -/
def wordOff (o : BitVec 18) : Word := (o.signExtend 64) <<< 2

/-- The address of an M-form (R48). -/
def Cell.addr (c : Cell) (a : SReg) (m : MWord) : Word := c.sreg a + m.offset.signExtend 64

/-- Bytes of an access type (R49). -/
def accWidth (t : BitVec 4) : Nat :=
  match t.toNat with
  | 0 | 1 => 1
  | 2 | 3 => 2
  | 6 => 8
  | _ => 4

/-- A loaded or returned value in a register: sign-extended for the signed widths (R60, R209). -/
def accValue (t : BitVec 4) (bs : List Byte) : Word := extendT t.toNat (ofLe bs)

/-- The value field that a symbol of kind `k` carries (Table 5.9); kinds 12–15 carry the value as it stands (R118). -/
def symValue (k : BitVec 4) (v : Word) : Word :=
  match k.toNat with
  | 0 | 1 | 2 | 3 | 4 => 0
  | 5 => v &&& 0xFFF
  | 7 => v &&& 0xFFFFFFFF
  | 8 => v &&& ~~~(0x7#64 <<< 45)
  | 9 => (v.extractLsb' 0 55).signExtend 64
  | 11 => v &&& 0x3F
  | _ => v

/-- The kind word of a symbol (Table 5.2). -/
def Sym.kindWord (y : Sym) : Word := BitVec.ofNat 64 (y.kind.toNat + 16 * bit y.poison + 32 * bit y.transit)

/-! Tile descriptors. -/

/-- A descriptor's fields (Table 9.1). -/
structure Desc where
  handle : Nat
  type : Nat
  rows : Nat
  cols : Nat
  layout : Nat
  strict : Bool
  res : Nat
  stride : Nat
deriving DecidableEq, Repr

/-- A descriptor word by its fields: rows and columns as counts, the stride in bytes. -/
def descOf (w : Word) : Desc :=
  let x := w.toNat
  ⟨bits x 0 20, bits x 20 4, bits x 24 8 + 1, bits x 32 8 + 1, bits x 40 4, bitOf x 44, bits x 45 3, 16 * bits x 48 16⟩

/-- n elements of a type in bytes, rounded up for type 12 (R152, R153). -/
def elemBytes (t n : Nat) : Nat := if t = 12 then ceilDiv n 2 else n * (typeBits t / 8)

/-- The byte position of element n of a row, rounded down for type 12 (R154). -/
def elemPos (t n : Nat) : Nat := if t = 12 then n / 2 else n * (typeBits t / 8)

/-- A well-formed descriptor (R153). -/
def Desc.wf (d : Desc) : Bool :=
  d.type ≠ 15 && d.layout ≤ 4 && d.res = 0 && d.stride ≠ 0 &&
    (if d.layout = 1 then elemBytes d.type d.rows ≤ d.stride else elemBytes d.type d.cols ≤ d.stride) &&
    (d.layout ≠ 2 || d.stride % 64 = 0) && (d.layout ≠ 3 || d.stride % 128 = 0) &&
    (d.layout ≠ 4 || d.rows % 8 = 0) && (d.type ≠ 12 || d.cols % 32 = 0)

/-- The footprint F (R153). -/
def Desc.foot (d : Desc) : Nat :=
  match d.layout with
  | 1 => (d.cols - 1) * d.stride + elemBytes d.type d.rows
  | 4 => d.rows * d.stride
  | _ => (d.rows - 1) * d.stride + elemBytes d.type d.cols

/-- Off(r, c) (R154, Table 9.2). -/
def Desc.off (d : Desc) (r c : Nat) : Nat :=
  let b := elemPos d.type c
  let s := d.stride
  match d.layout with
  | 0 => r * s + b
  | 1 => c * s + elemPos d.type r
  | 2 => r * s + (b ^^^ (r % 4 * 16))
  | 3 => r * s + (b ^^^ (r % 8 * 16))
  | _ => r / 8 * (8 * s) + b / 16 * 128 + r % 8 * 16 + b % 16

/-- Whether element (r, c) of type 12 is the high nibble of its byte (R64, R154). -/
def Desc.high (d : Desc) (r c : Nat) : Bool := d.type = 12 && (if d.layout = 1 then r % 2 = 1 else c % 2 = 1)

/-- MemOff(r, c) with the row pitch `p` (R228). -/
def Desc.memOff (d : Desc) (p r c : Nat) : Nat :=
  if d.layout = 1 then c * p + elemPos d.type r else r * p + elemPos d.type c

/-- The footprint of the memory image with pitch `p` (R228). -/
def Desc.memFoot (d : Desc) (p : Nat) : Nat :=
  if d.layout = 1 then (d.cols - 1) * p + elemBytes d.type d.rows else (d.rows - 1) * p + elemBytes d.type d.cols

/-- The bytes of a memory image with pitch `p` that its elements occupy: offset and length of each row, for COL of each column; what
lies between them is neither read nor written (R228). -/
def Desc.memRuns (d : Desc) (p : Nat) : List (Nat × Nat) :=
  if d.layout = 1 then (List.range d.cols).map (fun i => (i * p, elemBytes d.type d.rows))
  else (List.range d.rows).map (fun i => (i * p, elemBytes d.type d.cols))

/-- The byte count R × C × z (R228). -/
def Desc.bytes (d : Desc) : Nat := elemBytes d.type (d.rows * d.cols)

/-- The code of element (r, c) of the slot that begins at byte `base`. -/
def State.elem (s : State) (base : Nat) (d : Desc) (r c : Nat) : Nat :=
  let a := base + d.off r c
  if d.type = 12 then
    let b := (s.tile.get 0 a).toNat
    if d.high r c then b / 16 else b % 16
  else ofLe (readTab s.tile a (typeBits d.type / 8))

/-- The first half byte of element (r, c) in a slot, and how many halves it has. -/
def Desc.half (d : Desc) (r c : Nat) : Nat := 2 * d.off r c + bit (d.high r c)
def Desc.halves (d : Desc) : Nat := if d.type = 12 then 1 else typeBits d.type / 4

/-- Bytes of an element in the tile store. -/
def Desc.width (d : Desc) : Nat := if d.type = 12 then 1 else typeBits d.type / 8

/-- Writes the code of element (r, c), its parity with it (R193). -/
def State.setElem (s : State) (base : Nat) (d : Desc) (r c v : Nat) : State :=
  let a := base + d.off r c
  let bs :=
    if d.type = 12 then
      let b := (s.tile.get 0 a).toNat
      [BitVec.ofNat 8 (if d.high r c then b % 16 + 16 * (v % 16) else b / 16 * 16 + v % 16)]
    else leBytes d.width v
  { s with tile := writeTab s.tile a bs, badScale := flagTab s.badScale a false bs.length }

/-- Poison of the 32-element block of element (r, c): that of each half byte of it (R173, R193). -/
def State.blockPoison (s : State) (base : Nat) (d : Desc) (r c : Nat) : Bool :=
  let j := c / 32
  (List.range (min 32 (d.cols - 32 * j))).any (fun i =>
    anyTab s.tilePoison (2 * base + d.half r (32 * j + i)) d.halves)

/-- Sets the poison of block j of row r (R173). -/
def State.setBlockPoison (s : State) (base : Nat) (d : Desc) (r j : Nat) (p : Bool) : State :=
  (List.range (min 32 (d.cols - 32 * j))).foldl (fun s i =>
    { s with tilePoison := flagTab s.tilePoison (2 * base + d.half r (32 * j + i)) p d.halves }) s

/-- The rows and block numbers of a tile. -/
def Desc.blocks (d : Desc) : List (Nat × Nat) :=
  (List.range d.rows).flatMap (fun r => (List.range (ceilDiv d.cols 32)).map (fun j => (r, j)))

/-- The elements of a tile in row-major order. -/
def Desc.elems (d : Desc) : List (Nat × Nat) :=
  (List.range d.rows).flatMap (fun r => (List.range d.cols).map (fun c => (r, c)))

/-- The units in which the elements of a tile land: single elements, and for type 12 the two that share a byte (R253). -/
def Desc.units (d : Desc) : List (List (Nat × Nat)) :=
  if d.type ≠ 12 then d.elems.map (fun p => [p])
  else if d.layout = 1 then
    (List.range (ceilDiv d.rows 2)).flatMap (fun i => (List.range d.cols).map (fun c =>
      if 2 * i + 1 < d.rows then [(2 * i, c), (2 * i + 1, c)] else [(2 * i, c)]))
  else (List.range d.rows).flatMap (fun r => (List.range (d.cols / 2)).map (fun j => [(r, 2 * j), (r, 2 * j + 1)]))

/-- A command's operand as captured at issue. -/
def Cell.opnd (c : Cell) (r : TReg) : Opnd := ⟨c.dreg r, c.dpsn r⟩

/-- No operand. -/
def Opnd.none : Opnd := ⟨0, false⟩

end Sys2Proof.Machine
end

