-- ==== Sys2Proof/Machine/Code.lean ====
section
/-!
DEFINITION. The error code of a line of device memory: a Reed-Solomon code over GF(2^8) with 24 check symbols, its decoder for
pin groups, and the poison pattern (R217, R218).
-/

namespace Sys2Proof.Machine

/-! The field, with polynomial x^8 + x^4 + x^3 + x^2 + 1 and root α = x. -/

/-- x · a. -/
def gfShift (a : Nat) : Nat := if a < 128 then 2 * a else 2 * a ^^^ 0x11D

/-- a · b, by the bits of b. -/
def gfMul (a b : Nat) : Nat :=
  ((List.range 8).foldl (fun p i => (if bitOf b i then p.1 ^^^ p.2 else p.1, gfShift p.2)) (0, a)).1

/-- α^i. -/
def gfAlpha (i : Nat) : Nat := Nat.rec 1 (fun _ a => gfShift a) (i % 255)

/-- 1 / a, for a ≠ 0. -/
def gfInv (a : Nat) : Nat :=
  let sq (x : Nat) : Nat := gfMul x x
  let a2 := sq a
  let a4 := sq a2
  let a8 := sq a4
  let a16 := sq a8
  let a32 := sq a16
  let a64 := sq a32
  gfMul (sq a64) (gfMul a64 (gfMul a32 (gfMul a16 (gfMul a8 (gfMul a4 a2)))))

/-- p · (r + x · q), for polynomials with the lowest degree first, q a constant. -/
def polyStep (p : List Nat) (r q : Nat) : List Nat :=
  (List.zip (p ++ [0]) (0 :: p)).map (fun c => gfMul r c.1 ^^^ gfMul q c.2)

/-- The value of a polynomial, its highest degree first. -/
def polyAt (p : List Nat) (x : Nat) : Nat := p.foldl (fun v c => gfMul v x ^^^ c) 0

/-- The generator without its leading 1, the highest degree first: the product of x − α^i for i from 0 to 23. -/
def generator : List Nat := (((List.range 24).foldl (fun p i => polyStep p (gfAlpha i) 1) [1]).reverse).drop 1

/-- The check symbols of 64 data bytes: the remainder of the data times x^24, divided by the generator. -/
def checkSyms (data : List Nat) : List Nat :=
  data.foldl (fun rem b =>
    let f := b ^^^ rem.headD 0
    (List.zip (rem.drop 1 ++ [0]) generator).map (fun c => c.1 ^^^ gfMul f c.2)) (List.replicate 24 0)

/-- The 88 symbols that a line is stored with; the poison pattern has each check symbol XORed with 0xA5 (log 69). -/
def lineCode (data : List Nat) (poison : Bool) : List Nat :=
  data ++ (checkSyms data).map (fun c => if poison then c ^^^ 0xA5 else c)

/-- The syndromes of a received word. -/
def syndromes (w : List Nat) : List Nat := (List.range 24).map (fun i => polyAt w (gfAlpha i))

/-- Locators of the eight symbols of a pin group: symbol j stands at degree 87 − j. -/
def groupLocs (k : Nat) : List Nat := (List.range 8).map (fun i => gfAlpha (87 - (8 * k + i)))

/-- Locator polynomial of a pin group, the lowest degree first. -/
def groupPoly (k : Nat) : List Nat := (groupLocs k).foldl (fun p x => polyStep p 1 x) [1]

/-- Some error confined to pin group `k` gives these syndromes: they follow the recurrence of its locator polynomial. -/
def fitsGroup (syn : List Nat) (k : Nat) : Bool :=
  let p := groupPoly k
  (List.range 16).all (fun i => ((List.range 9).foldl (fun v t => v ^^^ gfMul (p.getD t 0) (syn.getD (i + 8 - t) 0)) 0) = 0)

/-- That error: the values of the group's symbols. -/
def groupError (syn : List Nat) (k : Nat) : List Nat :=
  let p := groupPoly k
  let omega := (List.range 8).map (fun i => (List.range (i + 1)).foldl (fun v t => v ^^^ gfMul (p.getD t 0) (syn.getD (i - t) 0)) 0)
  let locs := groupLocs k
  locs.map (fun x =>
    let y := gfInv x
    let rest := (locs.filter (fun z => z ≠ x)).foldl (fun v z => gfMul v (1 ^^^ gfMul z y)) 1
    gfMul (polyAt omega.reverse y) (gfInv rest))

/-- What a reader of a stored line finds: its data, data after one correction, the poison pattern, or an error that it detects. -/
inductive LineRead where
  | clean (data : List Nat)
  | corrected (data : List Nat)
  | poison (data : List Nat)
  | lost (data : List Nat)
deriving DecidableEq, Repr

/-- The decoder (R217, R218): it corrects an error that fits one pin group, and detects the others (log 69). -/
def decodeLine (w : List Nat) : LineRead :=
  let data := w.take 64
  let syn := syndromes w
  if syn.all (· = 0) then .clean data
  else if w = lineCode data true then .poison data
  else
    match (List.range 11).find? (fitsGroup syn) with
    | some k =>
      let e := List.replicate (8 * k) 0 ++ groupError syn k ++ List.replicate (80 - 8 * k) 0
      .corrected (((List.zip w e).map (fun c => c.1 ^^^ c.2)).take 64)
    | none => .lost data

end Sys2Proof.Machine
end

