-- ==== Sys2Proof/Machine/Health.lean ====
section
/-!
DEFINITION. Unit ids and scores (R298, R299).
-/

namespace Sys2Proof.Machine

/-- Reference ticks of 24 hours. -/
def dayTicks : Nat := 24 * 3600 * 3600000000

/-- `n` halvings: every score halves so often, and is saved (R299). -/
def State.halve (s : State) (n : Nat) : State :=
  let us := (s.units.map (fun p => (p.1, { p.2 with score := p.2.score / 2 ^ n }))).filter (fun p => p.2 ≠ LUnit.reset)
  { s with
    halvings := s.halvings + n
    units := us
    savedScores := (us.map (fun p => (p.1, p.2.score))).filter (fun p => p.2 ≠ 0) }

/-- Halvings that are due. -/
def State.halvesDue (s : State) : Nat := s.ref / dayTicks - s.halvings

/-- Adds to a unit's score, after the halvings that are due; from 512 on its next lease is an early one. -/
def State.score (s : State) (u inc : Nat) : State :=
  let s := if s.halvesDue = 0 then s else s.halve s.halvesDue
  s.modUnit u (fun x =>
    let n := min (x.score + inc) 65535
    { x with score := n, early := x.early || (x.health = .inService && 512 ≤ n) })

/-- Unit id of a hearth (Table 17.1). -/
def hearthUnit (h : Nat) : Nat := h

/-- Unit id of a pseudo-channel. -/
def chanUnit (c : Nat) : Nat := 4096 + c

end Sys2Proof.Machine
end

