-- ==== Sys2Proof/Machine/Mesh.lean ====
section
/-!
DEFINITION. The mesh: packets, their path through the routers, the arbitration of a router's output and the order of arrival
(R222–R227). How long a packet takes is open (log 48).
-/

namespace Sys2Proof.Machine

/-! Classes (Table 11.6). -/

def clsRequest : Nat := 0
def clsReply : Nat := 1
def clsPush : Nat := 2
def clsNotice : Nat := 3
def clsEvent : Nat := 4
def clsControl : Nat := 5

/-- Weight of a class. -/
def clsWeight (c : Nat) : Nat := [4, 8, 8, 2, 4, 2].getD c 1

/-- A packet leaves router `src` for router `dst`, behind what stands there (log 17). -/
def State.send (s : State) (cls src dst : Nat) (b : Body) : State :=
  { s.fresh with msgs := s.msgs ++ [⟨s.nextUid, cls, 0, 0, src, dst, src, 0, false, b⟩] }

/-- Control traffic (Table 11.6); where it starts and ends is open (log 17). -/
def State.sendControl (s : State) : State :=
  let (a, b) := Config.control s.nextUid
  s.send clsControl (a % 1024) (b % 1024) .plain

/-! The edges of a die (R222). -/

/-- Router `k` of an edge: 0 and 1 the first and the last row, 2 and 3 the first and the last column; ids run row-major (R7). -/
def edgeRouter (die e k : Nat) : Nat :=
  256 * die + (if e = 0 then k else if e = 1 then 240 + k else if e = 2 then 16 * k else 16 * k + 15)

/-- The fourth edge: a row, for its die links lie in different columns (log 48). -/
def fourthEdge (die : Nat) : Nat := if Config.lastRow die then 1 else 0

/-- The edge of a die's stack `j` of 3. -/
def stackEdge (die j : Nat) : Nat :=
  let order := [[0, 1, 2], [0, 2, 1], [1, 0, 2], [1, 2, 0], [2, 0, 1], [2, 1, 0]].getD (Config.stackOrder die % 6) []
  ([0, 1, 2, 3].filter (fun e => e ≠ fourthEdge die)).getD (order.getD j 0) 0

/-- The router of a pseudo-channel's slice: four to each router of its stack's edge. Its stack's chimneys attach at that of its first. -/
def sliceRouter (c : Nat) : Nat := edgeRouter (c / 192) (stackEdge (c / 192) (c / 64 % 3)) (c % 64 / 4)

/-- The router of a fabric port, or, for 128, of FVL. -/
def portRouter (p : Nat) : Nat :=
  let die := if p < 128 then p / 32 else Config.fvlDie % 4
  edgeRouter die (fourthEdge die) (Config.column p % 16)

/-- The column at which a lane group attaches to a die: `up` at the first die of its link. -/
def groupColumn (g : Nat) (up : Bool) : Nat := Config.column (129 + 2 * g + (if up then 0 else 1)) % 16

/-- Unit id of a lane group (Table 17.1). -/
def laneUnit (g : Nat) : Nat := 3 * 4096 + g

/-- The lane groups on which a die link runs: those that are neither retired nor on a lease (R293, R301). -/
def State.lanesOf (s : State) (k : Nat) : List Nat :=
  ((List.range 8).map (fun i => 8 * k + i)).filter (fun g =>
    (s.unit (laneUnit g)).health = .inService && !s.leases.any (fun l => l.unit = laneUnit g))

/-- The links of `n` steps up the ring from a die all run. -/
def State.ringRuns (s : State) (die n : Nat) : Bool := (List.range n).all (fun i => s.lanesOf ((die + i) % 4) ≠ [])

/-- Whether traffic from die `a` to die `b` goes up the ring of links: by the shorter way, while its links run (R289, R301). -/
def State.goesUp (s : State) (a b : Nat) : Option Bool :=
  let n := (b + 4 - a) % 4
  let up := s.ringRuns a n
  let down := s.ringRuns b (4 - n)
  let first := if n = 2 then Config.ringUp a b else n = 1
  if (if first then up else down) then some first else if (if first then down else up) then some (!first) else none

/-- The distance of two columns. -/
def apart (x y : Nat) : Nat := max x y - min x y

/-- Of lane groups, the one whose column on this side is nearest to `x`, of those equally near the first (log 48). -/
def nearest (up : Bool) (x : Nat) : List Nat → Option Nat
  | [] => none
  | g :: r => some ((nearest up x r).elim g (fun y => if apart (groupColumn y up) x < apart (groupColumn g up) x then y else g))

/-! Routers. -/

/-- Within a die, X first and then Y (R222): the next router on the way to `goal`; router ids run row-major (R7). -/
def towards (at_ goal : Nat) : Nat :=
  let (x, y) := (at_ % 16, at_ / 16 % 16)
  let (gx, gy) := (goal % 16, goal / 16 % 16)
  if x < gx then at_ + 1 else if gx < x then at_ - 1
  else if y < gy then at_ + 16 else if gy < y then at_ - 16 else at_

/-- The router that a packet goes to next, the one it stands at when it leaves the mesh there: between dies it takes the die link
nearest to its source's column. None while no link runs (R222, R301). -/
def State.hop (s : State) (m : Msg) : Option Nat :=
  let a := dieOf m.at_
  if a = dieOf m.dst then some (towards m.at_ m.dst)
  else
    (s.goesUp a (dieOf m.dst)).bind (fun up =>
      let b := if up then (a + 1) % 4 else (a + 3) % 4
      (nearest up (m.src % 16) (s.lanesOf (if up then a else b))).map (fun g =>
        let out := edgeRouter a (fourthEdge a) (groupColumn g up)
        if m.at_ = out then edgeRouter b (fourthEdge b) (groupColumn g (!up)) else towards m.at_ out))

/-- The input port of router `r` that a packet from router `p` enters by, 0 for the hearth's own (log 48). -/
def portFrom (p r : Nat) : Nat :=
  if dieOf p ≠ dieOf r then 5 else if p + 1 = r then 1 else if p = r + 1 then 2 else if p + 16 = r then 3 else if p = r + 16 then 4 else 5

/-- Two packets stand in one input queue: at one port of one router, in one class and virtual channel. -/
def Msg.behind (m x : Msg) : Bool :=
  x.at_ = m.at_ && x.port = m.port && x.cls = m.cls && x.vc = m.vc && !x.here && !m.here

/-- The packets at the heads of a router's input queues that ask for output `out`. -/
def State.heads (s : State) (r out : Nat) : List Msg :=
  s.msgs.filter (fun m =>
    m.at_ = r && !m.here && s.hop m = some out && ((s.msgs.find? (fun x => m.behind x)).map (·.id)) = some m.id)

/-- The packet on the lowest-numbered input port, of those on one port the first in the queues: R225 says so for saturated packets, and
the model does so for all (log 48). -/
def lowestPort : List Msg → Option Msg
  | [] => none
  | m :: r => some ((lowestPort r).elim m (fun x => if x.port < m.port then x else m))

/-- The class that a weighted round robin serves: the one in its turn while it has a packet and may still send, otherwise the next
class that has one; and what it may send after this packet. -/
def Arbiter.choose (a : Arbiter) (l : List Msg) : Nat × Nat :=
  let waits (c : Nat) : Bool := l.any (fun m => m.cls = c)
  if waits a.cls && 0 < a.credit then (a.cls, a.credit - 1)
  else
    let c := (((List.range 6).map (fun i => (a.cls + 1 + i) % 6)).find? waits).getD a.cls
    (c, clsWeight c - 1)

/-- An arbiter before its first packet (log 66). -/
def Arbiter.start : Arbiter := ⟨5, 0, []⟩

/-- The packet that an output picks, and the arbiter behind it (R225): one of age 63 on the lowest-numbered port, otherwise that of the
class in its turn, whose two virtual channels alternate, on the lowest-numbered port too (log 48). -/
def pickPacket (a : Arbiter) (l : List Msg) : Option (Msg × Arbiter) :=
  match lowestPort (l.filter (fun m => m.age = 63)) with
  | some m => some (m, a)
  | none =>
    let (c, credit) := a.choose l
    let mine := l.filter (fun m => m.cls = c)
    let other := 1 - a.last.get 0 c
    (lowestPort (if mine.any (fun m => m.vc = other) then mine.filter (fun m => m.vc = other) else mine)).map (fun m =>
      (m, ⟨c, credit, a.last.put 0 c m.vc⟩))

/-- Flits of a packet: a line reply has two, the others are open (R222, log 48). -/
def Msg.flits (m : Msg) : Nat := match m.body with | .reply _ _ _ => 2 | _ => Config.flits m.id

/-- A packet goes on to `out`, whole, or leaves the mesh at `r`; it stands last there, and in VC1 once it has crossed a die link. -/
def Msg.move (m : Msg) (r out : Nat) : Msg :=
  if out = r then { m with here := true, age := 0 }
  else { m with at_ := out, port := portFrom r out, age := 0, vc := if dieOf r = dieOf out then m.vc else 1 }

/-- Output `out` of router `r` picks a packet (R225); one that carries nothing ends where it leaves the mesh (log 17). -/
def State.route (s : State) (r out : Nat) : State :=
  let key := r * 2048 + out
  match pickPacket ((s.arbiters.find key).getD Arbiter.start) (s.heads r out) with
  | none => s
  | some (m, a) =>
    let s := if m.age = 63 then s.count r 0x11 m.flits else s
    { s with
      arbiters := s.arbiters.set key a
      msgs := s.msgs.filter (fun x => x.id ≠ m.id) ++ (if out = r && m.body = .plain then [] else [m.move r out]) }

/-- ROUTER_PACKET_AGING (R225): a packet at the head of an input queue has waited 16 cycles more (log 48). -/
def execRouterPacketAging (id : Nat) (s : State) : Host.Outcome State Fault Refusal :=
  .next { s with msgs := s.msgs.map (fun m =>
    if m.id = id && !m.here && ((s.msgs.find? (fun x => m.behind x)).map (·.id)) = some m.id then { m with age := min 63 (m.age + 1) }
    else m) }

/-! Arrival. -/

/-- Two packets share class, path, source and destination, and both are there. -/
def Msg.mates (m x : Msg) : Bool := x.here && x.cls = m.cls && x.vc = m.vc && x.src = m.src && x.dst = m.dst

/-- A packet is at its destination, and none that keeps its order with it is to be taken before it (R226). -/
def State.inOrder (s : State) (m : Msg) : Bool := m.here && ((s.msgs.find? m.mates).map (·.id)) = some m.id

/-- The packet that carries `b`, once it may be taken. -/
def State.arrival (s : State) (b : Body) : Option Msg := (s.msgs.find? (fun m => m.body = b)).filter s.inOrder

/-- The packet of a name, once it may be taken. -/
def State.arrived (s : State) (id : Nat) : Option Msg := (s.msgs.find? (fun m => m.id = id)).filter s.inOrder

/-- Takes the packet of a name off the mesh. -/
def State.dropMsg (s : State) (id : Nat) : State := { s with msgs := s.msgs.filter (fun m => m.id ≠ id) }

/-- Takes packets off the mesh. -/
def State.dropMsgs (s : State) (p : Body → Bool) : State := { s with msgs := s.msgs.filter (fun m => !p m.body) }

end Sys2Proof.Machine
end

