-- ==== Sys2Proof/Machine/Slices.lean ====
section
/-!
DEFINITION. The L2 slices and their channels: lines, stream detectors and staging buffers, the error code of a line, the
scrubber (R195–R200, R217–R221, R298).
-/

namespace Sys2Proof.Machine

/-- The spare channel of a stack; 64 when it has none (R195). -/
def State.spareOf (s : State) (stack : Nat) : Nat := s.spare.get 63 stack

/-- The channel that serves an interleave slot of a stack (R197). -/
def State.chan (s : State) (stack slot : Nat) : Nat := s.chanMap.get (stack * 64 + slot) (stack * 64 + slot)

/-- Where a line of device memory lives: stack, interleave slot, granule of the slot, line of the slot (R197). -/
structure Home where
  stack : Nat
  slot : Nat
  granule : Nat
  line : Nat
deriving DecidableEq, Repr

/-- Active channels of a partition. -/
def State.activeCount (s : State) (l : Nat) : Nat := 189 * (s.part l).dies

/-- The home of a device address (R197). -/
def State.homeOf (s : State) (pa : Nat) : Home :=
  let l := s.lead (pa / dieBytes)
  let n := (s.part l).dies
  let g := (pa - l * dieBytes) / 512
  let k := g % s.activeCount l
  ⟨3 * l + k % (3 * n), k / (3 * n), g / s.activeCount l, g / s.activeCount l * 8 + pa % 512 / 64⟩

/-- The channel that serves a home: while its channel migrates, the spare has the granules already moved. -/
def State.chanOf (s : State) (x : Home) : Nat :=
  let c := s.chan x.stack x.slot
  match s.leases.find? (fun l => l.unit = chanUnit c && l.cause ≠ 3 && l.stage = .evacuation) with
  | some l => if x.granule < l.granules then x.stack * 64 + s.spareOf x.stack else c
  | none => c

/-- The router of the slice that is the home of a device address. -/
def State.homeRouter (s : State) (pa : Nat) : Nat := sliceRouter (s.chanOf (s.homeOf pa))

/-- The router of the home of a physical address: its slice's, or the host link's (R212, log 48). -/
def State.routerOf (s : State) (pa : Nat) : Nat := if 2 ^ 47 ≤ pa then portRouter 128 else s.homeRouter pa

/-- A device address that some partition owns (R196). -/
def backed (pa : Nat) : Bool := pa < 4 * dieBytes

/-- An empty slice (log 66). -/
def Slice.empty : Slice := ⟨[], [], []⟩

def State.slice (s : State) (ch : Nat) : Slice := s.slices.get Slice.empty ch

def State.modSlice (s : State) (ch : Nat) (f : Slice → Slice) : State :=
  { s with slices := s.slices.put Slice.empty ch (f (s.slice ch)) }

/-- The set of a line, by its number in the channel (log 18). -/
def setOf (x : Home) : Nat := x.line % 256

/-! Lines of a slice (R198). `set` gives the set of a line number of the device. -/

/-- The victim of a full set, of lines with their priorities: the highest priority, of those the line used longest ago; `l` has the
latest use first. -/
def victim (l : List (Nat × Nat)) : Option Nat :=
  let top := l.foldl (fun m p => max m p.2) 0
  (l.filter (fun p => p.2 = top)).getLast?.map (·.1)

/-- Brings a line in with its priority; a dirty victim is written back to its channel, whose data nothing else reads. -/
def Slice.allocate (x : Slice) (set : Nat → Nat) (y : SliceLine) : Slice :=
  let mine := x.lines.filter (fun p => set p.line = set y.line)
  let rest :=
    if mine.length < 16 then x.lines
    else
      match victim (mine.map (fun p => (p.line, p.prio))) with
      | some v => x.lines.filter (fun p => p.line ≠ v)
      | none => x.lines
  { x with lines := y :: rest }

/-- A hit: the line becomes the one used last, takes the access's priority unless that is 7, and is dirty after a write. -/
def Slice.hit (x : Slice) (y : SliceLine) (prio : Nat) (write : Bool) : Slice :=
  { x with lines := { y with prio := if prio = 7 then y.prio else prio, dirty := y.dirty || write } ::
      x.lines.filter (fun p => p.line ≠ y.line) }

/-- Whether a miss continues the run of a requester's misses, `n` being the active channels (R199). -/
def inStream (d : Option Detector) (n line : Nat) : Bool :=
  match d with
  | none => false
  | some d => line = d.last + 1 || (d.last % 8 = 7 && line = d.last + 8 * n - 7)

/-- All bytes of a line. -/
def wholeLine : BitVec 64 := BitVec.ofNat 64 (2 ^ 64 - 1)

/-- The bytes [off, off + n) of a line. -/
def lineBytes (off n : Nat) : BitVec 64 := BitVec.ofNat 64 ((2 ^ n - 1) * 2 ^ off)

/-- The staging buffer takes the bytes `w` of a line: they are merged with those it has, a line that is then complete leaves, and the
oldest line leaves when a new one finds it full; the slice, and the line that leaves with parts not written (R199, log 18). -/
def Slice.stage (x : Slice) (line : Nat) (w : BitVec 64) : Slice × Option Nat :=
  let w := w ||| ((x.staged.find? (fun p => p.1 = line)).map (·.2)).getD 0
  let rest := x.staged.filter (fun p => p.1 ≠ line)
  if w = wholeLine then ({ x with staged := rest }, none)
  else if rest.length < 64 then ({ x with staged := rest ++ [(line, w)] }, none)
  else ({ x with staged := rest.drop 1 ++ [(line, w)] }, rest.head?.map (·.1))

/-- An access to a line, which reads it or writes the bytes `w` of it, by requester `req`, none for one that has no stream detector: the
slice after it, whether the access is one that the stream detector made no-allocate, and the line that the channel is read for: the
one accessed, or one that leaves the staging buffer with parts not written (log 18). -/
def Slice.access (x : Slice) (set : Nat → Nat) (n line : Nat) (req : Option Nat) (prio : Nat) (w : Option (BitVec 64)) :
    Slice × Bool × Option Nat :=
  match x.lines.find? (fun p => p.line = line) with
  | some y => (x.hit y prio w.isSome, false, none)
  | none =>
    let part := if w = some wholeLine then none else some line
    match x.staged.any (fun p => p.1 = line), w with
    | true, some w => let (x, r) := x.stage line w; (x, false, r)
    | true, none => (x, false, some line)
    | false, _ =>
      let d := req.bind x.dets.find
      let run := inStream d n line
      let before : Nat := (d.map (fun y => y.run)).getD 0
      let x :=
        match req with
        | some r => { x with dets := x.dets.set r ⟨line, if run then before + 1 else 0⟩ }
        | none => x
      if run && decide (16 ≤ before) && prio ≠ 0 then
        (match w with | some w => (let (x, r) := x.stage line w; (x, true, r)) | none => (x, true, some line))
      else if prio = 7 then (x, false, part)
      else (x.allocate set ⟨line, prio, w.isSome⟩, false, part)

/-! Reading a line from its channel (R217, R218, R298). -/

/-- The symbols of an error pattern. -/
def errSyms (err : BitVec 704) : List Nat := (List.range 88).map (fun i => bits err.toNat (8 * i) 8)

/-- Gives a line the data and the poison that a reader found, and writes them back. -/
def State.keepRead (s : State) (line : Nat) (data : List Nat) (psn : Bool) : State :=
  { s with
    mem := writeTab s.mem (64 * line) (data.map (BitVec.ofNat 8))
    linePoison := s.linePoison.put false line psn }

/-- A line is read from its channel with the error pattern `err`: an error that the decoder corrects or detects is scored, and a line
that it cannot correct takes the poison pattern over its bytes as read (log 69). -/
def State.readChannel (s : State) (ch line : Nat) (err : BitVec 704) : State :=
  if err = 0 then s
  else
    let w := lineCode ((s.lineRaw line).map (·.toNat)) (s.linePoison.get false line)
    match decodeLine ((List.zip w (errSyms err)).map (fun c => c.1 ^^^ c.2)) with
    | .clean data => s.keepRead line data false
    | .poison data => s.keepRead line data true
    | .corrected data => (s.keepRead line data false).score (chanUnit ch) 1
    | .lost data => (s.keepRead line data true).score (chanUnit ch) 256

/-- The slice's part of an access to bytes of one line of device memory, by a requester or, with none, by the device itself, with the
errors `err` if its channel is read (R198–R200, R217, R227). -/
def State.touchBy (s : State) (pa : Nat) (req : Option Nat) (prio : Nat) (w : Option (BitVec 64)) (err : BitVec 704) : State :=
  if !backed pa || s.stage ≠ 7 then s
  else
    let ch := s.chanOf (s.homeOf pa)
    let n := s.activeCount (s.lead (pa / dieBytes))
    let (x, passed, read) := (s.slice ch).access (fun i => setOf (s.homeOf (64 * i))) n (pa / 64) req prio w
    let s := s.modSlice ch (fun _ => x)
    let s :=
      match req with
      | some r => if passed && decide (r < 1024) then s.count r 0x10 1 else s
      | none => s
    match read with
    | some line => s.readChannel ch line err
    | none => s

/-- An access by a hearth or, from 1,024 on, a chimney. -/
def State.touch (s : State) (pa req prio : Nat) (w : Option (BitVec 64)) (err : BitVec 704) : State := s.touchBy pa (some req) prio w err

/-- The bytes of a line that an access to `n` bytes at `pa` takes in. -/
def linePart (pa n line : Nat) : BitVec 64 :=
  let a := max pa (64 * line)
  lineBytes (a % 64) (min (pa + n) (64 * line + 64) - a)

/-- The slices' part of an access to `n` bytes of device memory that no hearth and no chimney makes: of a walker, the host, a peer, or the
device itself (log 18). -/
def State.touchPlain (s : State) (l : Loc) (n : Nat) (write : Bool) : State :=
  match l with
  | .dev pa _ => (linesOf pa n).foldl (fun s i => s.touchBy (64 * i) none 3 (if write then some (linePart pa n i) else none) 0) s
  | _ => s

/-- STAGING_LINE_TIMEOUT (R199): the line is written to its channel, which is read, with the errors `err`, for the parts not written. -/
def execStagingLineTimeout (channel line : Nat) (err : BitVec 704) (s : State) : Host.Outcome State Fault Refusal :=
  .next (
    if (s.slice channel).staged.any (fun p => p.1 = line) then
      (s.modSlice channel (fun x => { x with staged := x.staged.filter (fun p => p.1 ≠ line) })).readChannel channel line err
    else s)

/-! The scrubber (R219, R221). -/

/-- The tag of the page at `page` is recomputed; where it differs, the failure is logged apart from the errors of lines and every line of
the page takes the poison pattern. -/
def State.checkPage (s : State) (ch page : Nat) (t : PageTag) : State :=
  if s.tagNow page t.lines t.key = t.tag then s
  else
    let s := s.score (chanUnit ch) 256
    { s with linePoison := flagTab s.linePoison (page * 1024) true t.lines, integrity := page :: s.integrity }

/-- SCRUB_LINE_READ (R219, R221): one line is read and corrected; with the last line of an encrypted page the page's tag is
checked (log 18). -/
def execScrubLineRead (line : Nat) (err : BitVec 704) (s : State) : Host.Outcome State Fault Refusal :=
  .next (
    if !backed (64 * line) || s.stage ≠ 7 then s
    else
      let ch := s.chanOf (s.homeOf (64 * line))
      let s := s.readChannel ch line err
      let page := s.tagKey line
      match s.tags.find page with
      | some t => if line + 1 = page * 1024 + t.lines then s.checkPage ch page t else s
      | none => s)

end Sys2Proof.Machine
end

