-- ==== Sys2Proof/Machine/Virt.lean ====
section
/-!
DEFINITION. Accesses of the device itself at virtual addresses, its counter signals, and the context log (R231, R239, R330).
-/

namespace Sys2Proof.Machine

/-! The walkers of a die (R203, R207). -/

/-- What a wait for a free walker holds as its value. -/
def walkersBusy : Word := BitVec.ofNat 64 (2 ^ 64 - 1)

/-- The entries that the walk of a virtual address reads, the root's first. -/
def State.walkReads (s : State) (ctx va : Nat) : List Nat :=
  match s.ctx ctx with
  | none => []
  | some x =>
    let next (a i : Nat) : Option Nat :=
      let e := s.pteAt a
      if bitOf e 0 = false || bitOf e 1 then none else some (bits e 16 32 * 65536 + 8 * bits va i 13)
    let a1 := x.root + 8 * bits va 42 13
    match next a1 29 with
    | none => [a1]
    | some a2 => match next a2 16 with | none => [a1, a2] | some a3 => [a1, a2, a3]

/-- The router of the slice at which the walk of a page begins. -/
def State.walkRouter (s : State) (ctx page : Nat) : Nat := s.homeRouter ((s.walkReads ctx (page * 65536)).headD 0)

/-- A hearth needs the walk of a page: it joins the one that runs or starts one, unless all 64 walkers of the die are busy (R207);
the walk's name. A walk goes to its table as a request (Table 11.6) (log 17). -/
def State.joinWalk (s : State) (ctx hid page : Nat) : Option Nat × State :=
  match s.walks.find? (fun w => w.die = dieOf hid && w.ctx = ctx && w.vpage = page) with
  | some w =>
    let hs := if w.hids.contains hid then w.hids else w.hids ++ [hid]
    (some w.id, { s with walks := s.walks.map (fun (x : Walk) => if x.id = w.id then { x with hids := hs } else x) })
  | none =>
    if 64 ≤ (s.walks.filter (fun w => w.die = dieOf hid)).length then (none, s)
    else
      let s := s.count hid 0x0F 1
      let id := s.nextUid
      let s : State := { s.fresh with walks := s.walks ++ [⟨id, dieOf hid, ctx, page, [hid]⟩] }
      (some id, s.send clsRequest hid (s.walkRouter ctx page) (.walk id))

/-- A translation for the device's work in a hearth, which a fire, a delivery, ACCFL or an operator's fetch needs: one that no TLB holds
and a walk gives is noted as missed, and its step begins again behind that walk (log 72). -/
def State.need (s : State) (h ctx : Nat) (a : Word) (need : Need) : Except (BitVec 8) Trans × State :=
  if canonical a = false then (.error fltPageFault, s)
  else
    let va := bits a.toNat 0 55
    let r := s.translate h ctx va need
    match s.cached h ctx va, r with
    | none, .ok _ => (r, { s with missed := s.missed ++ [(h, ctx, va / 65536)] })
    | _, _ => (r, s)

/-- A step that ended as `t`: where it looked for pages in no TLB, only their walks have begun. -/
def State.behindWalks (s t : State) : State :=
  t.missed.foldl (fun s p =>
    if s.walks.any (fun w => w.die = dieOf p.1 && w.ctx = p.2.1 && w.vpage = p.2.2 && w.hids.contains p.1) then s
    else
      match s.joinWalk p.2.1 p.1 p.2.2 with
      | (some _, s) => s.count p.1 0x0E 1
      | (none, s) => s) (if t.missed = [] then t else s)

/-! Accesses at virtual addresses. -/

/-- The partition of a context. -/
def State.partOfCtx (s : State) (c : Nat) : Option Nat := (s.ctx c).map (·.part)

/-- The latest write time of the lines of `n` bytes at a location. -/
def State.locTime (s : State) (l : Loc) (n : Nat) : Nat :=
  match l with
  | .dev pa _ => s.linesTime (linesOf pa n)
  | _ => 0

/-- The latest write time of the lines of `n` bytes at a virtual address, in one page; 0 where it does not translate. -/
def State.virtTime (s : State) (ctx : Nat) (a : Word) (n : Nat) : Nat :=
  match s.translateDev ctx a .read with
  | .error _ => 0
  | .ok t => s.locTime (Loc.phys t (bits a.toNat 0 55)) n

/-- The bytes and poison that a read by the device itself at a virtual address, in one page, would find. -/
def State.peekVirt (s : State) (ctx : Nat) (a : Word) (n : Nat) : Except (BitVec 8) (List Byte × Bool) :=
  match s.translateDev ctx a .read with
  | .error e => .error e
  | .ok t => .ok (s.readLoc (Loc.phys t (bits a.toNat 0 55)) n)

/-- A read by the device itself of bytes at a virtual address, in one page. -/
def State.loadVirt (s : State) (ctx : Nat) (a : Word) (n : Nat) : Except (BitVec 8) ((List Byte × Bool) × State) :=
  match s.translateDev ctx a .read with
  | .error e => .error e
  | .ok t =>
    let l := Loc.phys t (bits a.toNat 0 55)
    .ok (s.readLoc l n, s.touchPlain l n false)

/-- A write of the device itself at a virtual address, in one page; the state after it, and the logical time of the write. -/
def State.storeVirt (s : State) (ctx : Nat) (a : Word) (bs : List Byte) : Except (BitVec 8) (State × Nat) :=
  match s.translateDev ctx a .write with
  | .error e => .error e
  | .ok t =>
    let l := Loc.phys t (bits a.toNat 0 55)
    let s := ((s.tagPage t).touchPlain l bs.length true).writeLoc l bs false
    .ok (s, s.locTime l bs.length)

/-- Addition to a counter word, saturating at 2^64 − 1 (R239, R240). -/
def State.addCounter (s : State) (l : Loc) (amount : Nat) (psn : Bool) : State :=
  let (bs, p) := s.readLoc l 8
  s.writeLoc l (leBytes 8 (min (ofLe bs + amount) (2 ^ 64 - 1))) (psn || p)

/-- A counter signal of the device itself in partition `l` at a location: it adds, and releases at device scope the writes up to the
logical time `t` (R231, R257). -/
def State.signalLoc (s : State) (l : Nat) (loc : Loc) (amount t : Nat) : State :=
  let s := (s.touchPlain loc 8 true).addCounter loc amount false
  s.release_ loc [⟨max t (s.locTime loc 8), [scopeDev], deviceAgent l, 0, 0⟩]

/-- A counter signal of the device itself at a virtual address: needs read and write (R242). -/
def State.signalVirt (s : State) (ctx : Nat) (a : Word) (amount t : Nat) : Except (BitVec 8) State :=
  if inTileWindow a then .error fltTileBounds
  else
    match s.translateDev ctx a .both with
    | .error e => .error e
    | .ok p => .ok ((s.tagPage p).signalLoc ((s.partOfCtx ctx).getD 0) (Loc.phys p (bits a.toNat 0 55)) amount t)

/-- Appends an entry with a sweep number to a context's log: entry k, with k the count word, and then the count, which releases the entry;
what faults is dropped (R330, log 13). -/
def State.logAt (s : State) (sweep ctx kind code op : Nat) (area a b : Nat) : State :=
  match s.ctx ctx with
  | none => s
  | some x =>
    if x.logbase = 0 || x.logsize = 0 then s
    else
      match s.loadVirt ctx x.logbase 8 with
      | .error _ => s
      | .ok ((n, _), s) =>
        let w0 := packFields [(36, sweep), (12, op), (8, code), (8, kind)]
        let bs := leBytes 8 w0 ++ leBytes 8 area ++ leBytes 8 a ++ leBytes 8 b
        match s.storeVirt ctx (x.logbase + BitVec.ofNat 64 (64 + 32 * (ofLe n % x.logsize))) bs with
        | .error _ => s
        | .ok (s, t) =>
          match s.signalVirt ctx x.logbase 1 t with
          | .error _ => s
          | .ok s => s

/-- As `logAt`, with the context's sweep. -/
def State.log (s : State) (ctx kind code op : Nat) (area a b : Nat) : State := s.logAt (s.ctxSweep ctx) ctx kind code op area a b

end Sys2Proof.Machine
end

