-- ==== Sys2Proof/Machine/Barrier.lean ====
section
/-!
DEFINITION. Barrier words in the tile store: their fields, landings, the release of waiting cells, and BINIT, BARV,
BEXP, BWAIT and BTRY (R234–R238).
-/

namespace Sys2Proof.Machine

/-- The fields of a barrier word (Table 12.3). -/
structure Barrier where
  phase : Bool
  error : Bool
  pending : Nat
  expected : Nat
  remaining : Nat
deriving DecidableEq, Repr

def barrierOf (w : Nat) : Barrier := ⟨bitOf w 63, bitOf w 62, bits w 24 24, bits w 12 12, bits w 0 12⟩

def Barrier.word (b : Barrier) : Nat :=
  packFields [(12, b.remaining), (12, b.expected), (24, b.pending), (14, 0), (1, bit b.error), (1, bit b.phase)]

/-- The barrier word at an offset of a slot; a poisoned chunk reads as an error (R234). -/
def State.barrier (s : State) (key off : Nat) : Barrier :=
  let a := s.slotByte key off
  let b := barrierOf (ofLe (readTab s.tile a 8))
  { b with error := b.error || s.chunkPoison a 8 }

/-- The word itself, as its fields stand. -/
def State.barrierRaw (s : State) (key off : Nat) : Barrier := barrierOf (ofLe (readTab s.tile (s.slotByte key off) 8))

/-- Releases each cell that waits on the word and whose condition now holds, with the error bit that it observes (log 79). -/
def State.wakeBarrier (s : State) (key off : Nat) : State :=
  let b := s.barrier key off
  s.grantBarrier (fun k o v => if k = key && o = off && (b.phase = v.getLsbD 0 || b.error) then some b.error else none)

/-- Writes a barrier word and releases its waiters; a slot that is gone takes no landing. -/
def State.setBarrier (s : State) (key off : Nat) (b : Barrier) : State :=
  let a := s.slotByte key off
  if (s.slots.find key).isNone then s
  else ({ s with tile := writeTab s.tile a (leBytes 8 b.word), badScale := flagTab s.badScale a false 8 }).wakeBarrier key off

/-- The check of R237: a completion flips the phase and reloads the arrivals. -/
def Barrier.check (b : Barrier) : Barrier :=
  if b.remaining = 0 ∧ b.pending = 0 then { b with phase := !b.phase, remaining := b.expected } else b

/-- A landing of `k` bytes (R237). -/
def State.landing (s : State) (key off k : Nat) : State :=
  let b := s.barrierRaw key off
  let b := if b.pending < k then { b with pending := 0, error := true } else { b with pending := b.pending - k }
  s.setBarrier key off b.check

/-- Sets the error bit and flips the phase, remaining reloaded (R248, R249). -/
def State.failBarrier (s : State) (key off : Nat) : State :=
  let b := s.barrierRaw key off
  s.setBarrier key off { b with error := true, phase := !b.phase, remaining := b.expected }

/-- The location of a barrier word. -/
def State.barrierLoc (s : State) (key off : Nat) : Loc := .tile key off (s.slotByte key off)

/-- The cell acquires at device scope what the barrier's completions and arrivals released (R238, R257). -/
def State.acquireBarrier (s : State) (k : Cell) (rels : List Release) : State := s.acquire rels scopeDev k.hid s.cur.1 s.cur.2

/-- The checks on s[a] of a barrier instruction (R234); `tagged` asks for a tag (log 47). The access comes behind the cell's earlier
ones (R252). -/
def State.barrierAt (s : State) (ar : Area) (k : Cell) (a : SReg) (tagged : Bool) (body : Nat → Nat → State → State) : State :=
  let addr := k.sreg a
  s.consume ar (k.spsn a) addr (fun s =>
    match s.windowSlot s.cur.1 ar.ctx addr with
    | none => s.raise fltTileBounds addr
    | some (key, off) =>
      match s.slots.find key with
      | none => s.raise fltTileBounds addr
      | some x =>
        let h := bits addr.toNat 16 20
        if x.moving.isSome then s.waitOn .tile 0 (BitVec.ofNat 64 h)
        else if x.hid ≠ k.hid && !x.displaced then s.raise fltTileBounds addr
        else if x.size < off + 8 && off % 8 = 0 then s.raise fltTileBounds addr
        else if off % 8 ≠ 0 then s.raise fltMisaligned addr
        else if tagged && !x.tags.contains off then s.raise fltTileFormat addr
        else if x.hid ≠ k.hid then s.callTile k key h
        else if !k.settled then s.waitOn .port addr 0
        else body key off s)

/-- BINIT (R235, R236): what was released at the word before is no part of it any longer. -/
def execBinit (c : Cond) (a b : SReg) (s : State) : Host.Outcome State Fault Refusal :=
  s.gate c 1 [a, b] (fun ar k s =>
    s.barrierAt ar k a false (fun key off s =>
      let n := (k.sreg b).toNat
      if n = 0 || 4095 < n then s.raise fltBarrierOverflow (k.sreg a)
      else
        let s := { s with slots := s.slots.upd key (fun x => { x with tags := if x.tags.contains off then x.tags else x.tags ++ [off] }) }
        let p := s.slotByte key off
        let s := if k.spsn b then (s.flagTile (p / 16 * 16) true 16).wakeErrors else s
        ((s.clearReleases (s.barrierLoc key off)).setBarrier key off ⟨false, false, 0, n, n⟩).finish k 1 id))

def execBexp (c : Cond) (a b : SReg) (s : State) : Host.Outcome State Fault Refusal :=
  s.gate c 1 [a, b] (fun ar k s =>
    s.barrierAt ar k a true (fun key off s =>
      let x := s.barrierRaw key off
      let n := (k.sreg b).toNat
      if 2 ^ 24 - 1 < x.pending + n then s.raise fltBarrierOverflow (k.sreg a)
      else
        let p := s.slotByte key off
        let s := if k.spsn b then (s.flagTile (p / 16 * 16) true 16).wakeErrors else s
        (s.setBarrier key off { x with pending := x.pending + n }).finish k 1 id))

def execBarv (c : Cond) (a : SReg) (s : State) : Host.Outcome State Fault Refusal :=
  s.gate c 1 [a] (fun ar k s =>
    s.barrierAt ar k a true (fun key off s =>
      let x := s.barrierRaw key off
      if x.remaining = 0 then s.raise fltBarrierOverflow (k.sreg a)
      else
        let s := s.release_ (s.barrierLoc key off) [⟨s.now k.hid, [scopeDev], k.hid, s.cur.1, s.cur.2⟩]
        (s.setBarrier key off ({ x with remaining := x.remaining - 1 } : Barrier).check).finish k 1 id))

/-- BWAIT (R238): a wait that was released completes with the error bit and the releases that it observed. -/
def execBwait (c : Cond) (d : QReg) (a b : SReg) (s : State) : Host.Outcome State Fault Refusal :=
  s.gate c 1 [a, b] (fun ar k s =>
    match k.seen .barrier with
    | some (w, e) => (s.acquireBarrier k w.rels).finish k 1 (fun k => k.setQ d e false)
    | none =>
      s.barrierAt ar k a true (fun key off s =>
        s.consume ar (k.spsn b) 0 (fun s =>
          let x := s.barrier key off
          if x.phase = (k.sreg b).getLsbD 0 || x.error then
            (s.acquireBarrier k (s.released (s.barrierLoc key off))).finish k 1 (fun k => k.setQ d x.error false)
          else s.waitOn .barrier (k.sreg a) ((k.sreg b) &&& 1))))

def execBtry (c : Cond) (d : QReg) (a b : SReg) (s : State) : Host.Outcome State Fault Refusal :=
  s.gate c 1 [a, b] (fun ar k s =>
    s.barrierAt ar k a true (fun key off s =>
      s.consume ar (k.spsn b) 0 (fun s =>
        let x := s.barrier key off
        let holds := x.phase = (k.sreg b).getLsbD 0 || x.error
        (if holds then s.acquireBarrier k (s.released (s.barrierLoc key off)) else s).finish k 1 (fun k => k.setQ d holds false))))

end Sys2Proof.Machine
end

