-- ==== Sys2Proof/Machine/Integer.lean ====
section
/-!
DEFINITION. The predicate and integer instructions of a cell (R93–R101, R52).
-/

namespace Sys2Proof.Machine

/-- Writes q[d] from two scalar values. -/
def predOp (d : QReg) (v : Bool) (p : Bool) : Area → Cell → State → State :=
  fun _ k s => s.finish k 1 (fun k => k.setQ d v p)

/-- Writes s[d], an instruction of `n` words. -/
def wordOp (n : Nat) (d : SReg) (v : Cell → Word) (p : Cell → Bool) : Area → Cell → State → State :=
  fun _ k s => s.finish k n (fun k' => k'.setS d (v k) (p k))

/-- s[d] := f s[a] s[b], poisoned when either was (R80). -/
def alu2 (d a b : SReg) (f : Word → Word → Word) : Area → Cell → State → State :=
  wordOp 1 d (fun k => f (k.sreg a) (k.sreg b)) (fun k => k.spsn a || k.spsn b)

/-- s[d] := f s[a], poisoned when s[a] was (R80). -/
def alu1 (d a : SReg) (f : Word → Word) : Area → Cell → State → State :=
  wordOp 1 d (fun k => f (k.sreg a)) (fun k => k.spsn a)

def execCmp (c : Cond) (f : BitVec 3) (d : QReg) (a b : SReg) (s : State) : Host.Outcome State Fault Refusal :=
  s.gate c 1 [a, b] (fun x k s => predOp d (compare f.toNat (k.sreg a) (k.sreg b)) (k.spsn a || k.spsn b) x k s)

def execFcmp (c : Cond) (f : BitVec 3) (d : QReg) (a b : SReg) (s : State) : Host.Outcome State Fault Refusal :=
  s.gate c 1 [a, b] (fun x k s => predOp d (fcompare f.toNat (k.sreg a) (k.sreg b)) (k.spsn a || k.spsn b) x k s)

def execPand (c : Cond) (d a b : QReg) (s : State) : Host.Outcome State Fault Refusal :=
  s.gate c 1 [] (fun x k s => predOp d (k.qreg a && k.qreg b) (k.qpsn a || k.qpsn b) x k s)

def execPor (c : Cond) (d a b : QReg) (s : State) : Host.Outcome State Fault Refusal :=
  s.gate c 1 [] (fun x k s => predOp d (k.qreg a || k.qreg b) (k.qpsn a || k.qpsn b) x k s)

def execPxor (c : Cond) (d a b : QReg) (s : State) : Host.Outcome State Fault Refusal :=
  s.gate c 1 [] (fun x k s => predOp d (k.qreg a != k.qreg b) (k.qpsn a || k.qpsn b) x k s)

def execPnot (c : Cond) (d a : QReg) (s : State) : Host.Outcome State Fault Refusal :=
  s.gate c 1 [] (fun x k s => predOp d (!k.qreg a) (k.qpsn a) x k s)

def execPmov (c : Cond) (d a : QReg) (s : State) : Host.Outcome State Fault Refusal :=
  s.gate c 1 [] (fun x k s => predOp d (k.qreg a) (k.qpsn a) x k s)

/-- SEL: the registers read are the predicate and the selected source (R80, R96). -/
def execSel (c : Cond) (f : QReg) (d a b : SReg) (s : State) : Host.Outcome State Fault Refusal :=
  s.gate c 1 [d, a, b] (wordOp 1 d (fun k => if k.qreg f then k.sreg a else k.sreg b)
    (fun k => k.qpsn f || (if k.qreg f then k.spsn a else k.spsn b)))

/-- CMPI with condition `f`. -/
def cmpi (f : Nat) (c : Cond) (d : QReg) (a : SReg) (i : BitVec 8) (s : State) : Host.Outcome State Fault Refusal :=
  s.gate c 1 [a] (fun x k s => predOp d (compare f (k.sreg a) (imm8 i)) (k.spsn a) x k s)

def execCmpiEq (c : Cond) (d : QReg) (a : SReg) (i : BitVec 8) (s : State) : Host.Outcome State Fault Refusal := cmpi 0 c d a i s
def execCmpiNe (c : Cond) (d : QReg) (a : SReg) (i : BitVec 8) (s : State) : Host.Outcome State Fault Refusal := cmpi 1 c d a i s
def execCmpiLt (c : Cond) (d : QReg) (a : SReg) (i : BitVec 8) (s : State) : Host.Outcome State Fault Refusal := cmpi 2 c d a i s
def execCmpiLe (c : Cond) (d : QReg) (a : SReg) (i : BitVec 8) (s : State) : Host.Outcome State Fault Refusal := cmpi 3 c d a i s
def execCmpiGt (c : Cond) (d : QReg) (a : SReg) (i : BitVec 8) (s : State) : Host.Outcome State Fault Refusal := cmpi 4 c d a i s
def execCmpiGe (c : Cond) (d : QReg) (a : SReg) (i : BitVec 8) (s : State) : Host.Outcome State Fault Refusal := cmpi 5 c d a i s
def execCmpiLtu (c : Cond) (d : QReg) (a : SReg) (i : BitVec 8) (s : State) : Host.Outcome State Fault Refusal := cmpi 6 c d a i s
def execCmpiGeu (c : Cond) (d : QReg) (a : SReg) (i : BitVec 8) (s : State) : Host.Outcome State Fault Refusal := cmpi 7 c d a i s

/-- Bits [127:64] of the signed product (R97). -/
def mulhi (x y : Word) : Word := BitVec.ofInt 64 (x.toInt * y.toInt / 2 ^ 64)

/-- Bits [127:64] of the unsigned product (R97). -/
def mulhiu (x y : Word) : Word := BitVec.ofNat 64 (x.toNat * y.toNat / 2 ^ 64)

/-- DIV (R98). -/
def divS (x y : Word) : Word :=
  if y = 0 then BitVec.allOnes 64
  else if x = 0x8000000000000000#64 ∧ y = BitVec.allOnes 64 then x
  else BitVec.ofInt 64 (x.toInt.tdiv y.toInt)

/-- REM (R98). -/
def remS (x y : Word) : Word :=
  if y = 0 then x
  else if x = 0x8000000000000000#64 ∧ y = BitVec.allOnes 64 then 0
  else BitVec.ofInt 64 (x.toInt - y.toInt * x.toInt.tdiv y.toInt)

/-- DIVU (R98). -/
def divU (x y : Word) : Word := if y = 0 then BitVec.allOnes 64 else BitVec.ofNat 64 (x.toNat / y.toNat)

/-- REMU (R98). -/
def remU (x y : Word) : Word := if y = 0 then x else BitVec.ofNat 64 (x.toNat % y.toNat)

/-- The shift count of the register forms: s[b][5:0] (R97). -/
def shiftCount (y : Word) : Nat := y.toNat % 64

/-- Zero bits above the highest 1 bit, 64 for 0 (R99). -/
def clz64 (x : Word) : Nat := if x = 0 then 64 else 63 - Nat.log2 x.toNat

/-- Zero bits below the lowest 1 bit, 64 for 0 (R99). -/
def ctz64 (x : Word) : Nat := ((List.range 64).find? (fun i => x.getLsbD i)).getD 64

/-- 1 bits (R99). -/
def popc64 (x : Word) : Nat := ((List.range 64).filter (fun i => x.getLsbD i)).length

/-- Width of SEXT and ZEXT (R99). -/
def extWidth (f : BitVec 3) : Nat := 8 * 2 ^ f.toNat

def execAdd (c : Cond) (d a b : SReg) (s : State) : Host.Outcome State Fault Refusal := s.gate c 1 [d, a, b] (alu2 d a b (fun x y => x + y))
def execSub (c : Cond) (d a b : SReg) (s : State) : Host.Outcome State Fault Refusal := s.gate c 1 [d, a, b] (alu2 d a b (fun x y => x - y))
def execMul (c : Cond) (d a b : SReg) (s : State) : Host.Outcome State Fault Refusal := s.gate c 1 [d, a, b] (alu2 d a b (fun x y => x * y))
def execMulhi (c : Cond) (d a b : SReg) (s : State) : Host.Outcome State Fault Refusal := s.gate c 1 [d, a, b] (alu2 d a b mulhi)
def execMulhiu (c : Cond) (d a b : SReg) (s : State) : Host.Outcome State Fault Refusal := s.gate c 1 [d, a, b] (alu2 d a b mulhiu)
def execDiv (c : Cond) (d a b : SReg) (s : State) : Host.Outcome State Fault Refusal := s.gate c 1 [d, a, b] (alu2 d a b divS)
def execDivu (c : Cond) (d a b : SReg) (s : State) : Host.Outcome State Fault Refusal := s.gate c 1 [d, a, b] (alu2 d a b divU)
def execRem (c : Cond) (d a b : SReg) (s : State) : Host.Outcome State Fault Refusal := s.gate c 1 [d, a, b] (alu2 d a b remS)
def execRemu (c : Cond) (d a b : SReg) (s : State) : Host.Outcome State Fault Refusal := s.gate c 1 [d, a, b] (alu2 d a b remU)
def execAnd (c : Cond) (d a b : SReg) (s : State) : Host.Outcome State Fault Refusal := s.gate c 1 [d, a, b] (alu2 d a b (fun x y => x &&& y))
def execOr (c : Cond) (d a b : SReg) (s : State) : Host.Outcome State Fault Refusal := s.gate c 1 [d, a, b] (alu2 d a b (fun x y => x ||| y))
def execXor (c : Cond) (d a b : SReg) (s : State) : Host.Outcome State Fault Refusal := s.gate c 1 [d, a, b] (alu2 d a b (fun x y => x ^^^ y))
def execShl (c : Cond) (d a b : SReg) (s : State) : Host.Outcome State Fault Refusal := s.gate c 1 [d, a, b] (alu2 d a b (fun x y => x <<< shiftCount y))
def execShr (c : Cond) (d a b : SReg) (s : State) : Host.Outcome State Fault Refusal := s.gate c 1 [d, a, b] (alu2 d a b (fun x y => x >>> shiftCount y))
def execSra (c : Cond) (d a b : SReg) (s : State) : Host.Outcome State Fault Refusal := s.gate c 1 [d, a, b] (alu2 d a b (fun x y => x.sshiftRight (shiftCount y)))
def execRol (c : Cond) (d a b : SReg) (s : State) : Host.Outcome State Fault Refusal := s.gate c 1 [d, a, b] (alu2 d a b (fun x y => x.rotateLeft (shiftCount y)))
def execMin (c : Cond) (d a b : SReg) (s : State) : Host.Outcome State Fault Refusal := s.gate c 1 [d, a, b] (alu2 d a b (fun x y => if x.slt y then x else y))
def execMax (c : Cond) (d a b : SReg) (s : State) : Host.Outcome State Fault Refusal := s.gate c 1 [d, a, b] (alu2 d a b (fun x y => if x.slt y then y else x))
def execMinu (c : Cond) (d a b : SReg) (s : State) : Host.Outcome State Fault Refusal := s.gate c 1 [d, a, b] (alu2 d a b (fun x y => if x.ult y then x else y))
def execMaxu (c : Cond) (d a b : SReg) (s : State) : Host.Outcome State Fault Refusal := s.gate c 1 [d, a, b] (alu2 d a b (fun x y => if x.ult y then y else x))

def execAbs (c : Cond) (d a : SReg) (s : State) : Host.Outcome State Fault Refusal := s.gate c 1 [d, a] (alu1 d a (fun x => if x.getLsbD 63 then -x else x))
def execNeg (c : Cond) (d a : SReg) (s : State) : Host.Outcome State Fault Refusal := s.gate c 1 [d, a] (alu1 d a (fun x => -x))
def execClz (c : Cond) (d a : SReg) (s : State) : Host.Outcome State Fault Refusal := s.gate c 1 [d, a] (alu1 d a (fun x => BitVec.ofNat 64 (clz64 x)))
def execCtz (c : Cond) (d a : SReg) (s : State) : Host.Outcome State Fault Refusal := s.gate c 1 [d, a] (alu1 d a (fun x => BitVec.ofNat 64 (ctz64 x)))
def execPopc (c : Cond) (d a : SReg) (s : State) : Host.Outcome State Fault Refusal := s.gate c 1 [d, a] (alu1 d a (fun x => BitVec.ofNat 64 (popc64 x)))
def execSext (c : Cond) (f : BitVec 3) (d a : SReg) (s : State) : Host.Outcome State Fault Refusal := s.gate c 1 [d, a] (alu1 d a (fun x => BitVec.ofInt 64 (sInt (extWidth f) x.toNat)))
def execZext (c : Cond) (f : BitVec 3) (d a : SReg) (s : State) : Host.Outcome State Fault Refusal := s.gate c 1 [d, a] (alu1 d a (fun x => BitVec.ofNat 64 (bits x.toNat 0 (extWidth f))))
def execMov (c : Cond) (d a : SReg) (s : State) : Host.Outcome State Fault Refusal := s.gate c 1 [d, a] (alu1 d a (fun x => x))

def execAddi (c : Cond) (d a : SReg) (i : BitVec 8) (s : State) : Host.Outcome State Fault Refusal := s.gate c 1 [d, a] (alu1 d a (fun x => x + imm8 i))
def execAndi (c : Cond) (d a : SReg) (i : BitVec 8) (s : State) : Host.Outcome State Fault Refusal := s.gate c 1 [d, a] (alu1 d a (fun x => x &&& imm8 i))
def execOri (c : Cond) (d a : SReg) (i : BitVec 8) (s : State) : Host.Outcome State Fault Refusal := s.gate c 1 [d, a] (alu1 d a (fun x => x ||| imm8 i))
def execXori (c : Cond) (d a : SReg) (i : BitVec 8) (s : State) : Host.Outcome State Fault Refusal := s.gate c 1 [d, a] (alu1 d a (fun x => x ^^^ imm8 i))
def execShli (c : Cond) (d a : SReg) (n : BitVec 6) (s : State) : Host.Outcome State Fault Refusal := s.gate c 1 [d, a] (alu1 d a (fun x => x <<< n.toNat))
def execShri (c : Cond) (d a : SReg) (n : BitVec 6) (s : State) : Host.Outcome State Fault Refusal := s.gate c 1 [d, a] (alu1 d a (fun x => x >>> n.toNat))
def execSrai (c : Cond) (d a : SReg) (n : BitVec 6) (s : State) : Host.Outcome State Fault Refusal := s.gate c 1 [d, a] (alu1 d a (fun x => x.sshiftRight n.toNat))
def execRoli (c : Cond) (d a : SReg) (n : BitVec 6) (s : State) : Host.Outcome State Fault Refusal := s.gate c 1 [d, a] (alu1 d a (fun x => x.rotateLeft n.toNat))
def execMovi (c : Cond) (d : SReg) (i : BitVec 8) (s : State) : Host.Outcome State Fault Refusal := s.gate c 1 [d] (wordOp 1 d (fun _ => imm8 i) (fun _ => false))

/-- BEXT (R101): w holds the width less 1; bits above bit 63 read as 0. -/
def execBext (c : Cond) (d a : SReg) (w lo : BitVec 6) (s : State) : Host.Outcome State Fault Refusal :=
  s.gate c 2 [d, a] (wordOp 2 d (fun k => BitVec.ofNat 64 (bits (k.sreg a).toNat lo.toNat (w.toNat + 1))) (fun k => k.spsn a))

/-- BINS (R101): bits above bit 63 are dropped, the others of s[d] kept. -/
def bins (old v : Word) (w lo : Nat) : Word :=
  let mask := BitVec.ofNat 64 ((2 ^ (w + 1) - 1) * 2 ^ lo)
  (old &&& ~~~mask) ||| ((v <<< lo) &&& mask)

def execBins (c : Cond) (d a : SReg) (w lo : BitVec 6) (s : State) : Host.Outcome State Fault Refusal :=
  s.gate c 2 [d, a] (wordOp 2 d (fun k => bins (k.sreg d) (k.sreg a) w.toNat lo.toNat) (fun k => k.spsn a || k.spsn d))

def execLit (c : Cond) (f : BitVec 3) (d : SReg) (lit : Word32) (s : State) : Host.Outcome State Fault Refusal :=
  s.gate c 3 [d] (wordOp 3 d (fun _ => if f = 1 then lit.zeroExtend 64 else lit.signExtend 64) (fun _ => false))

/-- LITH keeps s[d][31:0] and the poison of s[d] (R52, R80). -/
def execLith (c : Cond) (d : SReg) (lit : Word32) (s : State) : Host.Outcome State Fault Refusal :=
  s.gate c 3 [d] (wordOp 3 d (fun k => lit ++ (k.sreg d).extractLsb' 0 32) (fun k => k.spsn d))

end Sys2Proof.Machine
end

