-- ==== Sys2Proof/Machine/FloatScalar.lean ====
section
/-!
DEFINITION. The scalar floating-point instructions and FCVT (R102–R104): FP32 in the low halves of scalar registers.
-/

namespace Sys2Proof.Machine

/-- The FP32 value in a register. -/
def f32 (x : Word) : Val := decodeT 9 (bits x.toNat 0 32)

/-- s[d] := RoundFP32 of a value, with one draw under SR (R68, R102), an instruction of `n` words. -/
def roundOp (n : Nat) (rnd : BitVec 3) (d : SReg) (v : Cell → Val) (p : Cell → Bool) : Area → Cell → State → State :=
  fun _ k s =>
    let (r, s) := s.draw k.hid rnd.toNat
    s.finish k n (fun k' => k'.setS d (BitVec.ofNat 64 (roundFP32 rnd.toNat r (v k))) (p k))

def execFadd (c : Cond) (rnd : BitVec 3) (d a b : SReg) (s : State) : Host.Outcome State Fault Refusal :=
  s.gate c 1 [d, a, b] (roundOp 1 rnd d (fun k => Val.add rnd.toNat (f32 (k.sreg a)) (f32 (k.sreg b))) (fun k => k.spsn a || k.spsn b))

def execFsub (c : Cond) (rnd : BitVec 3) (d a b : SReg) (s : State) : Host.Outcome State Fault Refusal :=
  s.gate c 1 [d, a, b] (roundOp 1 rnd d (fun k => Val.add rnd.toNat (f32 (k.sreg a)) (f32 (k.sreg b)).negate) (fun k => k.spsn a || k.spsn b))

def execFmul (c : Cond) (rnd : BitVec 3) (d a b : SReg) (s : State) : Host.Outcome State Fault Refusal :=
  s.gate c 1 [d, a, b] (roundOp 1 rnd d (fun k => Val.mul (f32 (k.sreg a)) (f32 (k.sreg b))) (fun k => k.spsn a || k.spsn b))

def execFdiv (c : Cond) (rnd : BitVec 3) (d a b : SReg) (s : State) : Host.Outcome State Fault Refusal :=
  s.gate c 1 [d, a, b] (roundOp 1 rnd d (fun k => Val.div (f32 (k.sreg a)) (f32 (k.sreg b))) (fun k => k.spsn a || k.spsn b))

def execFsqrt (c : Cond) (f : BitVec 3) (d a : SReg) (s : State) : Host.Outcome State Fault Refusal :=
  s.gate c 1 [d, a] (roundOp 1 f d (fun k => Val.sqrt (f32 (k.sreg a))) (fun k => k.spsn a))

def execFfma (c : Cond) (rnd : BitVec 3) (d a b e : SReg) (s : State) : Host.Outcome State Fault Refusal :=
  s.gate c 2 [d, a, b, e] (roundOp 2 rnd d (fun k => Val.fma rnd.toNat (f32 (k.sreg a)) (f32 (k.sreg b)) (f32 (k.sreg e)))
    (fun k => k.spsn a || k.spsn b || k.spsn e))

def execFmin (c : Cond) (d a b : SReg) (s : State) : Host.Outcome State Fault Refusal :=
  s.gate c 1 [d, a, b] (alu2 d a b (fun x y => BitVec.ofNat 64 (fminT 9 false (bits x.toNat 0 32) (bits y.toNat 0 32))))

def execFmax (c : Cond) (d a b : SReg) (s : State) : Host.Outcome State Fault Refusal :=
  s.gate c 1 [d, a, b] (alu2 d a b (fun x y => BitVec.ofNat 64 (fminT 9 true (bits x.toNat 0 32) (bits y.toNat 0 32))))

def execFabs (c : Cond) (d a : SReg) (s : State) : Host.Outcome State Fault Refusal :=
  s.gate c 1 [d, a] (alu1 d a (fun x => x &&& 0x7FFFFFFF#64))

def execFneg (c : Cond) (d a : SReg) (s : State) : Host.Outcome State Fault Refusal :=
  s.gate c 1 [d, a] (alu1 d a (fun x => (x &&& 0xFFFFFFFF#64) ^^^ 0x80000000#64))

def execFclass (c : Cond) (d a : SReg) (s : State) : Host.Outcome State Fault Refusal :=
  s.gate c 1 [d, a] (alu1 d a (fun x => BitVec.ofNat 64 (2 ^ fclassBit (bits x.toNat 0 32))))

/-- The code that FCVT writes: between equal floating types the code itself (R104) (log 28). -/
def fcvtCode (st dt mode : Nat) (sat : Bool) (r c : Nat) : Nat :=
  if st = dt && (fmtOf st).isSome then c else convert st dt mode sat r c

/-- FCVT (R104): one draw under SR whatever the types (R68). -/
def execFcvt (c : Cond) (d a : SReg) (sat : Bool) (rnd : BitVec 3) (dt st : BitVec 4) (s : State) :
    Host.Outcome State Fault Refusal :=
  s.gate c 2 [d, a] (fun _ k s =>
    let (r, s) := s.draw k.hid rnd.toNat
    let v := fcvtCode st.toNat dt.toNat rnd.toNat sat r (bits (k.sreg a).toNat 0 (typeBits st.toNat))
    s.finish k 2 (fun k' => k'.setS d (extendT dt.toNat v) (k.spsn a)))

end Sys2Proof.Machine
end

