-- ==== Sys2Proof/Machine/Symbol.lean ====
section
/-!
DEFINITION. Reading symbols and special registers, stating the rewrite, and moving descriptors between registers
(R79, R105–R107, R112, R118, R157).
-/

namespace Sys2Proof.Machine

/-- Sym(i): the symbol of cell i of an area as claimed; a shadow holds its original's symbols (R307), a supervisor
cell none (R316). -/
def State.symAt (s : State) (a : Area) (i : Nat) : Option Sym :=
  match a.kind with
  | .user => (a.cells.find i).map (fun k => s.sym k.phys)
  | .shadow _ o => (s.area o).bind (fun x => (x.cells.find i).map (fun k => s.sym k.phys))
  | _ => none

/-- The issuing cell's own symbol; a supervisor cell reads as EMPTY (R105). -/
def State.ownSym (s : State) (a : Area) : Sym := (s.symAt a s.cur.2).getD Sym.empty

def execSymrd (c : Cond) (d : SReg) (s : State) : Host.Outcome State Fault Refusal :=
  s.gate c 1 [d] (fun a x s =>
    let y := s.ownSym a
    s.finish x 1 (fun k => k.setS d y.value y.poison))

def execSymkd (c : Cond) (d : SReg) (s : State) : Host.Outcome State Fault Refusal :=
  s.gate c 1 [d] (fun a x s =>
    let y := s.ownSym a
    s.finish x 1 (fun k => k.setS d (y.kind.zeroExtend 64) false))

def execMksym (c : Cond) (k : BitVec 4) (d a : SReg) (s : State) : Host.Outcome State Fault Refusal :=
  s.gate c 1 [d, a] (alu1 d a (fun x => symValue k x))

/-- SYMGET (R112): in a supervisor cell 0 for every index (R317); a poisoned s[a] poisons s[d]. -/
def execSymget (c : Cond) (f : BitVec 3) (d a : SReg) (s : State) : Host.Outcome State Fault Refusal :=
  s.gate c 1 [d, a] (fun x k s =>
    let (v, p) :=
      match s.symAt x (k.sreg a).toNat with
      | none => ((0 : Word), false)
      | some y => if f = 0 then (y.value, y.poison) else (y.kindWord, false)
    s.finish k 1 (fun k' => k'.setS d v (p || k.spsn a)))

/-- The special registers of Table 5.3, with the values of R317 in a supervisor cell. -/
def State.special (s : State) (a : Area) (k : Cell) (x : Nat) : Word :=
  let n : Nat :=
    match x with
    | 0x00 => s.cur.2
    | 0x01 => a.cells.length
    | 0x02 => k.hid
    | 0x03 => k.phys
    | 0x04 => a.ctx
    | 0x05 => (match a.kind with | .save => s.ctxSweep a.ctx | .restore => s.ctxSweep a.ctx | _ => a.stamp)
    | 0x06 => (s.part (s.leadOf k.hid)).horizon
    | 0x07 => (((s.ctx a.ctx).map (fun x => x.lb.toNat)).getD 0) % 2 ^ 55
    | 0x08 => (match a.kind with | .save => 0 | .restore => 0 | _ => areaAddr a.ctx a.pos)
    | 0x09 => a.op
    | 0x0A => k.lane
    | _ => (s.part (s.leadOf k.hid)).cyc
  BitVec.ofNat 64 n

def execMovs (c : Cond) (d : SReg) (x : BitVec 5) (s : State) : Host.Outcome State Fault Refusal :=
  s.gate c 1 [d] (fun a k s =>
    let v := s.special a k x.toNat
    s.finish k 1 (fun k => k.setS d v false))

/-- A symbol formed from a register for a rewrite (R118). -/
def Cell.form (c : Cell) (k : BitVec 4) (a : SReg) : Sym := ⟨k, c.spsn a, false, symValue k (c.sreg a)⟩

/-- A rewrite instruction: in a supervisor cell OPERATOR_INVALID (R118, R320). -/
def rewriteOp (body : Area → Cell → State → State) : Area → Cell → State → State :=
  fun a k s => if a.kind.supervisor then s.raise fltOperatorInvalid 0 else body a k s

def execEmit (c : Cond) (k : BitVec 4) (a : SReg) (s : State) : Host.Outcome State Fault Refusal :=
  s.gate c 1 [a] (rewriteOp (fun _ x s =>
    let own := if k = 0 then Own.delete else Own.replace (x.form k a)
    s.finish x 1 (fun x => { x with rw := { x.rw with own := own } })))

def execEmitn (c : Cond) (k : BitVec 4) (a b : SReg) (s : State) : Host.Outcome State Fault Refusal :=
  s.gate c 1 [a, b] (rewriteOp (fun ar x s =>
    s.consume ar (x.spsn b) 0 (fun s =>
      let i := (x.sreg b).toNat
      if x.rw.n ≤ i then s.raise fltOperatorInvalid 0
      else
        let ins := if k = 0 then x.rw.ins.erase i else x.rw.ins.set i (x.form k a)
        s.finish x 1 (fun x => { x with rw := { x.rw with ins := ins } }))))

def execInsert (c : Cond) (a : SReg) (s : State) : Host.Outcome State Fault Refusal :=
  s.gate c 1 [a] (rewriteOp (fun ar x s =>
    s.consume ar (x.spsn a) 0 (fun s =>
      let n := (x.sreg a).toNat
      if 65535 < n then s.raise fltOperatorInvalid 0
      else s.finish x 1 (fun x => { x with rw := { x.rw with n := n, ins := x.rw.ins.filter (fun p => p.1 < n) } }))))

def execDelete (c : Cond) (s : State) : Host.Outcome State Fault Refusal :=
  s.gate c 1 [] (rewriteOp (fun _ x s => s.finish x 1 (fun x => { x with rw := { x.rw with own := .delete } })))

/-- Writes d[d] from values of the cell. -/
def descOp (d : TReg) (v : Cell → Word) (p : Cell → Bool) : Area → Cell → State → State :=
  fun _ k s => s.finish k 1 (fun k' => k'.setD d (v k) (p k))

def execMovd (c : Cond) (d : TReg) (a : SReg) (s : State) : Host.Outcome State Fault Refusal :=
  s.gate c 1 [a] (descOp d (fun k => k.sreg a) (fun k => k.spsn a))

def execMovds (c : Cond) (d : SReg) (a : TReg) (s : State) : Host.Outcome State Fault Refusal :=
  s.gate c 1 [d] (wordOp 1 d (fun k => k.dreg a) (fun k => k.dpsn a))

/-- A descriptor with one field replaced: lowest bit and width (Table 9.1, R54). -/
def dsetField (f : Nat) : Nat × Nat :=
  match f with
  | 0 => (0, 20)
  | 1 => (20, 4)
  | 2 => (24, 8)
  | 3 => (32, 8)
  | 4 => (40, 4)
  | 5 => (44, 1)
  | 6 => (48, 16)
  | _ => (0, 64)

def execDset (c : Cond) (f : BitVec 3) (d : TReg) (a : SReg) (s : State) : Host.Outcome State Fault Refusal :=
  s.gate c 1 [a] (descOp d
    (fun k => bins (k.dreg d) (k.sreg a) ((dsetField f.toNat).2 - 1) (dsetField f.toNat).1)
    (fun k => k.dpsn d || k.spsn a))

end Sys2Proof.Machine
end

