-- ==== Sys2Proof/Machine/Control.lean ====
section
/-!
DEFINITION. The control instructions that do not stop the cell (R85–R89, R91, R92) and the outcome of words that are
no instruction (R57, R58).
-/

namespace Sys2Proof.Machine

/-- NOP has no effect (R89). -/
def execNop (c : Cond) (s : State) : Host.Outcome State Fault Refusal :=
  s.gate c 1 [] (fun _ k s => s.finish k 1 id)

/-- The cell's place in its lane's order: its number in the hearth, or 256 + k of a supervisor cell. -/
def Cell.place (c : Cell) : Nat := match c.sup with | some k => 256 + k | none => c.phys % 256

/-- YIELD: not the next choice of its lane (R89) (log 80). -/
def execYield (c : Cond) (s : State) : Host.Outcome State Fault Refusal :=
  s.gate c 1 [] (fun _ k s =>
    (s.finish k 1 id).modHearth k.hid (fun h => { h with yielded := h.yielded.set k.lane k.place }))

/-- TRAP holds the area with fault code 0x00 and the software code (R91). -/
def execTrap (c : Cond) (code : BitVec 8) (s : State) : Host.Outcome State Fault Refusal :=
  s.gate c 1 [] (fun _ _ s => s.raiseWith 0 code 0)

/-- BRKPT: with breakpoints enabled a log entry, whose sweep number is the area's stamp, and the area's mark (R92, R330 kind 2)
(log 87). -/
def execBrkpt (c : Cond) (s : State) : Host.Outcome State Fault Refusal :=
  s.gate c 1 [] (fun a k s =>
    if ((s.ctx a.ctx).map (·.brk)).getD false then
      let s := s.logAt a.stamp a.ctx 2 0 a.op (areaAddr a.ctx a.pos) s.cur.2 k.pc.toNat
      (s.modArea s.cur.1 (fun a => { a with brk := true })).finish k 1 id
    else s.finish k 1 id)

/-- BR (R85). -/
def execBr (c : Cond) (off : BitVec 18) (s : State) : Host.Outcome State Fault Refusal :=
  s.gate c 1 [] (fun _ k s => s.jump k (k.pc + wordOff off) id)

/-- CALL writes the return address to s31, unpoisoned (R85). -/
def execCall (c : Cond) (off : BitVec 18) (s : State) : Host.Outcome State Fault Refusal :=
  s.gate c 1 [31] (fun _ k s => s.jump k (k.pc + wordOff off) (fun x => x.setS 31 (k.pc + 4) false))

/-- BRX and RETN, which differ in the kind of their trace record (R86, R330) (log 50). -/
def branchReg (kind : Nat) (a : SReg) : Area → Cell → State → State :=
  fun ar k s =>
    s.consume ar (k.spsn a) 0 (fun s =>
      let t := k.sreg a
      if t.extractLsb' 0 2 ≠ 0 then s.raise fltMisaligned 0
      else
        let s :=
          if ((s.ctx ar.ctx).map (fun x => x.trace.getLsbD 1)).getD false then
            s.log ar.ctx kind 0 ar.op (areaAddr ar.ctx ar.pos) k.pc.toNat t.toNat
          else s
        s.jump k t id)

def execBrx (c : Cond) (a : SReg) (s : State) : Host.Outcome State Fault Refusal := s.gate c 1 [a] (branchReg 4 a)

def execRetn (c : Cond) (a : SReg) (s : State) : Host.Outcome State Fault Refusal := s.gate c 1 [a] (branchReg 5 a)

/-- BRC (R87): its sources are consumed when poisoned (R81). -/
def execBrc (c : Cond) (f : BitVec 3) (a b : SReg) (off : BitVec 18) (s : State) : Host.Outcome State Fault Refusal :=
  s.gate c 2 [a, b] (fun ar k s =>
    s.consume ar (k.spsn a || k.spsn b) 0 (fun s =>
      if compare f.toNat (k.sreg a) (k.sreg b) then s.jump k (k.pc + wordOff off) id else s.finish k 2 id))

/-- LOOP (R88): on s0 it reads 0, writes nothing and always branches. -/
def execLoop (c : Cond) (d : SReg) (off : BitVec 18) (s : State) : Host.Outcome State Fault Refusal :=
  s.gate c 2 [d] (fun ar k s =>
    s.consume ar (k.spsn d) 0 (fun s =>
      let v := k.sreg d - 1
      let w (x : Cell) : Cell := x.setS d v (k.spsn d)
      if d = 0 ∨ v ≠ 0 then s.jump k (k.pc + wordOff off) w else s.finish k 2 w))

/-- A cell at words that are no instruction: the faults of R57, PRIV before RESERVED_FIELD. A cell of a trap operator that passes its
end raises OPERATOR_INVALID (R320). -/
def execEncodingNotInstruction (why : NotInstr) (s : State) : Host.Outcome State Fault Refusal :=
  match s.area s.cur.1 with
  | none => .fault .noIssuingCell
  | some a =>
    match a.cells.find s.cur.2 with
    | none => .fault .noIssuingCell
    | some _ =>
      .next (s.raise (match why with
        | .noExit => (match a.kind with | .trap _ => fltOperatorInvalid | _ => fltNoExit)
        | .illegalLength => fltIllegalLength
        | .illegalOpcode => fltIllegalOpcode
        | .reservedField priv => if priv && !a.privileged then fltPriv else fltReservedField) 0)

end Sys2Proof.Machine
end

