-- ==== Sys2Proof/Machine/Row.lean ====
section
/-!
DEFINITION. A context's run in the row, in expression order with its swept-out segments and the positions that a
pre-emption released, and logical positions (R8–R13, R22, R129, R324).
-/

namespace Sys2Proof.Machine

/-- A symbol as 72 bits (Table 1.1). -/
def Sym.code (y : Sym) : Nat := packFields [(64, y.value.toNat), (2, 0), (1, bit y.transit), (1, bit y.poison), (4, y.kind.toNat)]

/-- The symbol of 72 bits. -/
def symOfCode (x : Nat) : Sym := ⟨BitVec.ofNat 4 (bits x 68 4), bitOf x 67, bitOf x 66, BitVec.ofNat 64 (bits x 0 64)⟩

def isOpen (y : Sym) : Bool := y.kind = 1 || y.kind = 3
def isClose (y : Sym) : Bool := y.kind = 2 || y.kind = 4

/-- Depth summary of symbols: net change, lowest running depth (R13). -/
def depths (l : List Sym) : Int × Int :=
  l.foldl (fun d y =>
    let n := if isOpen y then d.1 + 1 else if isClose y then d.1 - 1 else d.1
    (n, min d.2 n)) (0, 0)

/-- What stands at logical positions of a context: a resident symbol at a physical cell, or a swept-out segment. -/
inductive Item where
  | sym (phys : Nat) (y : Sym)
  | seg (g : Seg)
deriving DecidableEq, Repr, Inhabited

/-- The non-EMPTY cells of a partition in physical order. -/
def State.rowOf (s : State) (l : Nat) : List (Nat × Sym) :=
  s.row.filter (fun p => l * 65536 ≤ p.1 && p.1 < (l + (s.part l).dies) * 65536 && p.2.kind ≠ 0)

/-- The symbols of a context's run in a list of cells, its MARK left out (R22). -/
def runOf (ctx : Nat) (l : List (Nat × Sym)) : List (Nat × Sym) :=
  ((l.dropWhile (fun p => !(p.2.kind = 11 && p.2.value.toNat = ctx))).drop 1).takeWhile (fun p => p.2.kind ≠ 11)

/-- Merges resident symbols with the segments and released positions around them, each with its logical position. -/
def mergeRun : Nat → Nat → List Seg → List Nat → List (Nat × Sym) → List (Nat × Item)
  | 0, _, _, _, _ => []
  | fuel + 1, pos, segs, holes, syms =>
    match segs.find? (fun g => g.lpos = pos) with
    | some g => (pos, .seg g) :: mergeRun fuel (pos + g.count) segs holes syms
    | none =>
      if holes.contains pos then mergeRun fuel (pos + 1) segs holes syms
      else
        match syms with
        | [] => []
        | (p, y) :: r => (pos, .sym p y) :: mergeRun fuel (pos + 1) segs holes r

/-- The segments of a context. -/
def State.segsOf (s : State) (ctx : Nat) : List Seg :=
  match s.ctx ctx with
  | none => []
  | some x => (s.part x.part).dir.filter (fun g => g.ctx = ctx)

/-- The cells of a context's run. -/
def State.run (s : State) (ctx : Nat) : List (Nat × Sym) :=
  match s.ctx ctx with
  | none => []
  | some x => runOf ctx (s.rowOf x.part)

/-- A context's expression with its logical positions. -/
def State.items (s : State) (ctx : Nat) : List (Nat × Item) :=
  let segs := s.segsOf ctx
  let holes := ((s.ctx ctx).map (·.holes)).getD []
  let syms := s.run ctx
  mergeRun (syms.length + segs.length + holes.length + 1) 0 segs holes syms

/-- The logical position of a cell's symbol in its context. -/
def State.lposOf (s : State) (ctx phys : Nat) : Nat :=
  match (s.items ctx).find? (fun p => match p.2 with | .sym q _ => q = phys | .seg _ => false) with
  | some (n, _) => n
  | none => 0

/-- Moves by `d` the logical positions of the segments of a context behind position `p` (R12). -/
def State.shiftSegs (s : State) (ctx p : Nat) (d : Int) : State :=
  match s.ctx ctx with
  | none => s
  | some x => s.modPart x.part (fun q => { q with dir := q.dir.map (fun g =>
      if g.ctx = ctx && p < g.lpos then { g with lpos := ((g.lpos : Int) + d).toNat } else g) })

end Sys2Proof.Machine
end

