-- ==== Sys2Proof/Machine/Area.lean ====
section
/-!
DEFINITION. How an area ends: its result, the well-formedness check, growth and segment records, the vote of a voted
area, re-reduction, draining and retirement (R11, R16–R19, R119, R120, R128, R309–R311, R321).
-/

namespace Sys2Proof.Machine

/-! Well-formedness (R11). -/

/-- A value that obeys Table 1.2; brackets carry what the next sweep replaces (log 34). -/
def Sym.valueOk (y : Sym) : Bool :=
  let v := y.value.toNat
  match y.kind.toNat with
  | 5 => v < 2 ^ 12
  | 7 => v < 2 ^ 32
  | 8 => bits v 45 3 = 0
  | 9 => canonical y.value
  | 1 | 2 | 3 | 4 => v < 2 ^ 40
  | 10 => v < 5 * 2 ^ 60
  | 0 | 6 => true
  | _ => false

/-- Brackets of a list matched against a stack of open kinds, `(` as 1 and `<` as 3; a `(` needs an OPER behind it. -/
def balanced : List Nat → List Sym → Bool
  | st, [] => st.isEmpty
  | st, y :: r =>
    match y.kind.toNat with
    | 1 => (match r with | z :: _ => z.kind = 5 && balanced (1 :: st) r | [] => false)
    | 3 => balanced (3 :: st) r
    | 2 => (match st with | 1 :: t => balanced t r | _ => false)
    | 4 => (match st with | 3 :: t => balanced t r | _ => false)
    | _ => balanced st r

/-- A list of symbols that may stand in an expression (R11): no MARK, no reserved kind, no EMPTY (log 34). -/
def wfExpr (l : List Sym) : Bool := l.all (fun y => y.kind ≠ 0 && y.valueOk) && balanced [] l

/-! The overflow region's records (R127, R128). -/

/-- Number of records of a context's region. -/
def Launch.records (l : Launch) : Nat := min (2 ^ 28) (l.ovfsize / 4096)

/-- Virtual address of record `r`. -/
def Launch.recAddr (l : Launch) (r : Nat) : Word := BitVec.ofNat 64 (l.ovfbase + 4096 * r)

/-- Writes the overflow pointer (Table 6.7). -/
def State.putOvfptr (s : State) (ctx : Nat) : State :=
  match s.ctx ctx with
  | none => s
  | some x =>
    match s.storeVirt ctx (x.lb + 0x30) (leBytes 8 (packFields [(28, x.cursor), (28, x.inuse)])) with
    | .error _ => s
    | .ok (s, _) => s

/-- The used bit of a record; a region that cannot be read has none free. -/
def State.recUsed (s : State) (ctx : Nat) (l : Launch) (r : Nat) : Bool :=
  match s.peekVirt ctx (l.recAddr r) 8 with
  | .error _ => true
  | .ok (bs, _) => bitOf (ofLe bs) 22

/-- Writes the used bit of a record. -/
def State.setUsed (s : State) (ctx : Nat) (l : Launch) (r : Nat) (b : Bool) : State :=
  match s.loadVirt ctx (l.recAddr r) 8 with
  | .error _ => s
  | .ok ((bs, _), s) =>
    let v := BitVec.ofNat 64 (ofLe bs)
    match s.storeVirt ctx (l.recAddr r) (leBytes 8 (setBit v 22 b).toNat) with
    | .error _ => s
    | .ok (s, _) => s

/-- Allocates a record: the first from cursor, wrapping, with used = 0 (R128). `fuel` bounds the scan. -/
def State.allocRec (s : State) (ctx : Nat) (l : Launch) : Nat → Nat → Option (Nat × State)
  | 0, _ => none
  | fuel + 1, r =>
    let r := r % l.records
    if s.recUsed ctx l r then s.allocRec ctx l fuel (r + 1)
    else
      let s := s.setUsed ctx l r true
      let s := s.modCtx ctx (fun x => { x with cursor := (r + 1) % l.records, inuse := x.inuse + 1 })
      some (r, s.putOvfptr ctx)

/-- Releases a record. -/
def State.freeRec (s : State) (ctx r : Nat) : State :=
  match s.launch ctx with
  | none => s
  | some l =>
    ((s.setUsed ctx l r false).modCtx ctx (fun x => { x with inuse := x.inuse - 1 })).putOvfptr ctx

/-- Among the first records of the region, `n` or more have used = 0 (log 82). -/
def State.enoughRecs (s : State) (ctx : Nat) (l : Launch) : Nat → Nat → Bool
  | _, 0 => true
  | 0, _ + 1 => false
  | r + 1, n + 1 => if s.recUsed ctx l r then s.enoughRecs ctx l r (n + 1) else s.enoughRecs ctx l r n

/-- `n` records are free beside those that the context's growing areas have reserved (R120) (log 82). -/
def State.recsFree (s : State) (ctx n : Nat) : Bool :=
  match s.launch ctx with
  | none => false
  | some l => s.enoughRecs ctx l l.records (s.areas.foldl (fun m p => if p.2.ctx = ctx then m + p.2.recs else m) n)

/-- What the record of a segment holds, after the checks of R131: symbols and whether some were replaced; none when the
context's expression cannot be placed any longer. The transit bit of a symbol is taken as it stands in memory, and an EMPTY symbol is
replaced as a reserved kind is: the model's choices (log 86). -/
def State.loadSegment (s : State) (g : Seg) : Option (List Sym × Bool) :=
  let lost : Option (List Sym × Bool) :=
    if !g.hasopen && !g.hasclose && g.net = 0 && g.low = 0 then some (List.replicate g.count ⟨6, true, false, 0⟩, true) else none
  match s.launch g.ctx with
  | none => lost
  | some b =>
    match s.peekVirt g.ctx (b.recAddr g.record) 4096 with
    | .error _ => lost
    | .ok (bs, _) =>
      let h := ofLe (bs.take 64)
      if bits h 0 16 ≠ 1 || bits h 16 6 ≠ g.ctx || bits h 64 40 ≠ g.wrote || bits h 32 9 ≠ g.count then lost
      else
        let ys := (List.range g.count).map (fun i => symOfCode (ofLe ((bs.drop (64 + 9 * i)).take 9)))
        let bad (y : Sym) : Bool := y.kind = 0 || (!y.valueOk && !isOpen y && !isClose y)
        let zs := ys.map (fun y => if bad y then ⟨6, true, false, 0⟩ else y)
        let inner := (zs.zip (zs.drop 1)).all (fun p => p.1.kind ≠ 1 || p.2.kind = 5)
        if depths zs = (g.net, g.low) && zs.any (fun y => y.kind = 1) = g.hasopen && zs.any (fun y => y.kind = 2) = g.hasclose && inner then
          some (zs, ys.any bad)
        else none

/-- The slices' part in reading the record of a segment. -/
def State.touchRec (s : State) (g : Seg) : State :=
  match s.launch g.ctx with
  | none => s
  | some b => match s.loadVirt g.ctx (b.recAddr g.record) 4096 with | .ok (_, s) => s | .error _ => s

/-- Directory entries of a partition in use or reserved by its growing areas (R129). -/
def State.dirUsed (s : State) (l : Nat) : Nat :=
  (s.part l).dir.length + s.areas.foldl (fun n p => if s.partOfCtx p.2.ctx = some l then n + p.2.recs else n) 0

/-! The result of an area. -/

/-- What a cell contributes to the result (R119). -/
def Cell.result (c : Cell) (y : Sym) : List Sym :=
  (match c.rw.own with
    | .keep => [y]
    | .replace z => [z]
    | .delete => []) ++ c.rw.ins.map (·.2)

/-- The result of an area's commit, in cix order (R119). -/
def State.result (s : State) (a : Area) : List Sym :=
  a.cells.flatMap (fun p => p.2.result ((s.symAt a p.1).getD Sym.empty))

/-- Writes symbols into the given cells, EMPTY into those left over. -/
def State.placeSyms (s : State) : List Nat → List Sym → State
  | [], _ => s
  | p :: ps, [] => (s.setSym p Sym.empty).placeSyms ps []
  | p :: ps, y :: ys => (s.setSym p y).placeSyms ps ys

/-- Something an area issued is not acknowledged: posted stores, engine commands, counter signals (Table 1.3). -/
def State.outstanding (s : State) (u : Nat) (a : Area) : Bool :=
  a.cells.any (fun p => !p.2.cmds.isEmpty || p.2.posted) ||
    s.msgs.any (fun m => match m.body with | .signal _ _ _ v _ => v = u | .remoteAdd _ _ _ _ _ v => v = u | _ => false)

/-- The shadows of a voted area. -/
def State.shadows (s : State) (u : Nat) : List (Nat × Area) :=
  s.areas.filter (fun p => match p.2.kind with | .shadow _ o => o = u | _ => false)

/-- Areas cease to be listed; requests and replies of their cells that are still on the mesh have nobody to reach. -/
def State.eraseAreas (s : State) (us : List Nat) : State :=
  { s with
    areas := s.areas.filter (fun p => !us.contains p.1)
    msgs := s.msgs.filter (fun m => match m.body with | .request u _ _ | .reply u _ _ => !us.contains u | _ => true) }

/-- Frees the slots that meet `p`: each is reclaimed when no queued command names it any longer (R151). -/
def State.freeWhere (s : State) (p : Nat → Bool) : State :=
  ({ s with slots := s.slots.map (fun x => if p x.1 then (x.1, { x.2 with dying := true }) else x) } : State).reclaim

/-- Removes the shadows of an area with their held writes, and frees their slots; what their commands do to these goes on to its
end (R309, R310, Table 1.5). -/
def State.dropShadows (s : State) (u : Nat) : State :=
  let vs := (s.shadows u).map (·.1)
  if vs.isEmpty then s
  else
    (s.eraseAreas vs).freeWhere (fun k => k / 2 ^ 26 ≠ 0 && vs.contains (k / 2 ^ 26))

/-- An area whose rewrite is done drains, or retires when nothing is outstanding (Table 1.4). -/
def State.drain (s : State) (u : Nat) : State :=
  match s.area u with
  | none => s
  | some a =>
    let s := s.dropShadows u
    if s.outstanding u a then s.modArea u (fun a => { a with phase := .draining, heldw := [], round := a.round + 1 })
    else s.eraseAreas [u]

/-- The log entries of an area's end: an overrun is logged once, when its last cell has stopped for good, at the latest at its end (R331)
(log 58), the end with trace[0] (R330). -/
def State.logOverrun (s : State) (u : Nat) : State :=
  match s.area u with
  | none => s
  | some a =>
    let expect := (a.entry.map (·.expect)).getD 0
    if a.kind = .user && a.entry.isSome && !a.logged && expect < a.time then
      let best := (List.range 7).foldl (fun b i => if a.sums.getD b 0 < a.sums.getD i 0 then i else b) 0
      (s.log a.ctx 1 best a.op (areaAddr a.ctx a.pos) a.time expect).modArea u (fun a => { a with logged := true })
    else s

def State.logEnd (s : State) (a : Area) (code : Nat) : State :=
  if ((s.ctx a.ctx).map (fun x => x.trace.getLsbD 0)).getD false then
    s.log a.ctx 3 code a.op (areaAddr a.ctx a.pos) a.time a.stamp
  else s

/-- The hearths an area touches, once each. -/
def Area.hids (a : Area) : List Nat := (a.cells.map (fun p => p.2.hid)).eraseDups

/-- The hearth of an area's `(` cell (log 33). -/
def Area.home (a : Area) : Nat := match a.cells with | p :: _ => p.2.hid | [] => 0

/-- The area ends as a discard: the expression stays as it was (R19). -/
def State.discardArea (s : State) (u : Nat) : State :=
  match s.area u with
  | none => s
  | some a => ((((s.logOverrun u).logEnd a 1).count a.home 5 1).drain u)

/-- Applies a result that needs no growth (R119). -/
def State.applyResult (s : State) (u : Nat) (a : Area) (ys : List Sym) : State :=
  let s :=
    match a.cells with
    | p :: _ =>
      if (s.segsOf a.ctx).isEmpty then s
      else s.shiftSegs a.ctx (s.lposOf a.ctx p.2.phys) ((ys.length : Int) - (a.cells.length : Int))
    | [] => s
  let s := s.placeSyms (a.cells.map (fun p => p.2.phys)) ys
  let s := ((s.logOverrun u).modCtx a.ctx (fun x => { x with moved := true })).logEnd a 0
  (s.count a.home 4 1).drain u

/-- Keeps a result whose growth waits for the move pass: the rewrite of the first cell holds it whole (R119, R120). -/
def stateResult (a : Area) (ys : List Sym) : Area :=
  { a with cells := a.cells.map (fun p =>
      (p.1, if p.1 = 0 then { p.2 with rw := ⟨.delete, ys.length, (List.range ys.length).zip ys⟩ }
            else { p.2 with rw := ⟨.delete, 0, []⟩ })) }

/-- Holds an area at the COMMIT of cell `cix`, whose stop state returns to running (R11, R120). A combining form has
no COMMIT and is held without an instruction (R140) (log 32). -/
def State.holdAtCommit (s : State) (u cix : Nat) (fault : BitVec 8) : State :=
  match s.area u with
  | none => s
  | some a =>
    match a.cells.find cix with
    | none => s
    | some c =>
      if 0xF00 ≤ a.op then s.holdNoInstr u fault cix
      else
        let s := s.modCell u cix (fun c => { c with stop := .running })
        s.hold u ⟨fault, 0, 0, false, false, cix, c.pc, 0, a.word c 0, a.word1 c⟩ c.phys

/-- Cells and records that a result of `a` needs beyond the area's own. -/
def growthOf (a : Area) (ys : List Sym) : Nat × Nat :=
  let g := ys.length - a.cells.length
  (g, ceilDiv g 448)

/-- What refuses a result: it is malformed, or its growth finds no records (R11, R119, R120). -/
def State.refusal (s : State) (a : Area) (ys : List Sym) : Option (BitVec 8) :=
  let k := (growthOf a ys).2
  if wfExpr ys = false then some fltOperatorInvalid
  else if 0 < k && (65536 < s.dirUsed (s.leadOf a.home) + k || !s.recsFree a.ctx k) then some fltExprFull
  else none

/-- Commits a result, or holds the area when it is refused; `eff` is what else the commit does (log 82, 85). The time of a form takes in
its wait for the move pass (R140). -/
def State.commitArea (s : State) (u cix : Nat) (ys : List Sym) (eff : State → State) : State :=
  match s.area u with
  | none => s
  | some a =>
    match s.refusal a ys with
    | some f => s.holdAtCommit u cix f
    | none =>
      let s := eff (if 0xF00 ≤ a.op then s else s.logOverrun u)
      match s.area u with
      | none => s
      | some a =>
        let (g, k) := growthOf a ys
        if g = 0 then s.applyResult u a ys
        else s.modArea u (fun a => { stateResult a ys with phase := .committing, growth := g, recs := k })

/-- Every cell of an area has stopped. -/
def Area.allStopped (a : Area) : Bool := a.cells.all (fun p => p.2.stop ≠ .running)

/-- Every cell stopped by COMMIT. -/
def Area.allCommit (a : Area) : Bool := a.cells.all (fun p => p.2.stop = .commit)

/-- The ending that the cells chose (R18) (log 33). -/
def State.applyEnding (s : State) (u cix : Nat) : State :=
  match s.area u with
  | none => s
  | some a => if a.allCommit then s.commitArea u cix (s.result a) id else s.discardArea u

/-- Restarts every cell of an area at pc 0 on the symbols as claimed; what it issued goes on (R309, R311). -/
def State.restart (s : State) (u : Nat) : State :=
  s.modArea u (fun a => { a with
    phase := .active
    done := 0
    heldw := []
    round := a.round + 1
    cells := a.cells.map (fun p => (p.1, p.2.again)) })

/-! The vote (R309). -/

/-- What a held write releases, with the writes performed before it, at a location. -/
def State.releaseFor (s : State) (src : Origin) (l : Loc) : State :=
  s.release_ l (src.rels.map (fun r => { r with time := max r.time (s.now src.hid) }))

/-- A held write to device memory is performed at its slices, as a write of a cell of the hearth that it comes from (R200, R201). -/
def State.releaseAt (s : State) (pa n : Nat) (src : Origin) (write : State → State) : State :=
  let s := (linesOf pa n).foldl (fun s i => s.touch (64 * i) src.hid src.prio (some (linePart pa n i)) 0) s
  ((write s).wroteLines src.hid (linesOf pa n)).releaseFor src (.dev pa none)

/-- Performs the held writes of a copy in its order (R261). -/
def State.release (s : State) : List HeldWrite → State
  | [] => s
  | .bytes pa key bs psn src :: r => (s.releaseAt pa bs.length src (fun s => s.writeDev pa key psn (bs.length + 1) bs)).release r
  | .cadd pa key n psn src :: r => (s.releaseAt pa 8 src (fun s => s.addCounter (.dev pa key) n psn)).release r
  | .landing slot off k src :: r => ((s.releaseFor src (s.barrierLoc slot off)).landing slot off k).release r

/-- The logical time of partition `l`'s commits takes in that of a hearth (R21, R257). -/
def State.reach (s : State) (h : Nat) : State := s.reachTo (s.leadOf h) (s.now h)

/-- Releases the held writes of copy `a`, which every area found after the commit sees (R21, R309); its poison stores are reported
(R210). -/
def State.releaseCopy (s : State) (a : Area) : State :=
  let s := s.release a.heldw
  let s := a.hids.foldl (fun s h => s.reach h) s
  a.heldw.foldl (fun s w =>
    match w with
    | .bytes _ _ _ true ⟨_, _, some va, _⟩ => s.log a.ctx 8 0 a.op (areaAddr a.ctx a.pos) va.toNat 0
    | _ => s) s

/-- What the voter compares of a result symbol of area `u`: the symbol, for a TILE without its handle and with its
payload's bytes. -/
def State.voteSym (s : State) (u : Nat) (a : Area) (y : Sym) : Sym × List Byte :=
  if y.kind = 8 then
    let d := descOf y.value
    match s.slotOf u a.ctx d.handle with
    | some (_, x) => ({ y with value := y.value &&& ~~~(0xFFFFF#64) }, readTab s.tile x.base (min d.foot x.size))
    | none => ({ y with value := y.value &&& ~~~(0xFFFFF#64) }, [])
  else (y, [])

/-- A copy's ballot: its ending and its result. -/
def State.ballot (s : State) (u : Nat) (a : Area) : Bool × List (Sym × List Byte) :=
  if a.allCommit then (true, (s.result a).map (s.voteSym u a)) else (false, [])

/-- Copies `n` bytes of the tile store with their poison. -/
def State.copyTile (s : State) (x y n : Nat) : State :=
  { s with
    tile := writeTab s.tile y (readTab s.tile x n)
    tilePoison := (List.range (2 * n)).foldl (fun t i => t.put false (2 * y + i) (s.tilePoison.get false (2 * x + i))) s.tilePoison
    badScale := flagTab s.badScale y false n }

/-- Copies the payload of a tile of copy `u` into the slot that copy 0 names by a handle. -/
def State.copyPayload (s : State) (u ctx : Nat) (src dst : Nat) : State :=
  match s.slotOf u ctx src, s.slotOf 0 ctx dst with
  | some (_, x), some (_, y) => s.copyTile x.base y.base (min x.size y.size)
  | _, _ => s

/-- Copies a tile operand of a voted area afresh into the slot that shadow `v` has for it. -/
def State.copyOperand (s : State) (v ctx h : Nat) : State :=
  match s.slots.find (slotKey v ctx h), s.slotOf 0 ctx h with
  | some y, some (_, x) =>
    if y.dying then s
    else
      { s.copyTile x.base y.base (min x.size y.size) with
        slots := s.slots.set (slotKey v ctx h) { y with layout := x.layout, tags := [] } }
  | _, _ => s

/-- Handles of the tile operands of an area. -/
def State.tileHandles (s : State) (a : Area) : List Nat :=
  (a.cells.filterMap (fun p => let y := s.sym p.2.phys; if y.kind = 8 then some (bits y.value.toNat 0 20) else none)).eraseDups

/-- Copy 1's result in copy 0's cells: each TILE symbol takes the handle of copy 0's TILE symbol in the same place
among the TILE symbols, and its payload is copied there. -/
def State.adopt (s : State) (u ctx : Nat) : List Sym → List Sym → State × List Sym
  | [], _ => (s, [])
  | y :: r, hs =>
    if y.kind = 8 then
      match hs with
      | h :: hs =>
        let dst := bits h.value.toNat 0 20
        let s := s.copyPayload u ctx (bits y.value.toNat 0 20) dst
        let (s, l) := s.adopt u ctx r hs
        (s, { y with value := (y.value &&& ~~~(0xFFFFF#64)) ||| BitVec.ofNat 64 dst } :: l)
      | [] =>
        let (s, l) := s.adopt u ctx r []
        (s, y :: l)
    else
      let (s, l) := s.adopt u ctx r hs
      (s, y :: l)

/-- The slots of a shadow for a fresh copy: those of its operands, as the area has them now; what the copy allocated is freed. -/
def State.freshSlots (s : State) (v ctx : Nat) (hs : List Nat) : State :=
  let s := s.freeWhere (fun k => k / 2 ^ 26 = v && !hs.contains (k % 2 ^ 20))
  hs.foldl (fun s h => s.copyOperand v ctx h) s

/-- Fresh copies of a voted area: every copy restarts at pc 0 on the operands as they are, and its held writes are dropped
(R309, R310) (log 32). Each copy runs on the microprogram that it captured at its start, though its operator may no longer be resident:
the model's choice (log 37). -/
def State.freshCopies (s : State) (u dissent : Nat) : State :=
  match s.area u with
  | none => s
  | some a =>
    let hs := s.tileHandles a
    let s := ((s.shadows u).map (·.1)).foldl (fun s v => (s.restart v).freshSlots v a.ctx hs) (s.restart u)
    s.modArea u (fun a => { a with dissent := dissent, trap := none })

/-- The ending that the vote chose, with the writes of copy `c` (R309): a commit releases them once its result is accepted, a discard
drops them (Table 1.5) (log 85). -/
def State.voted (s : State) (u cix : Nat) (c : Area) (ys : List Sym) : State :=
  let s := s.modArea u (fun a => { a with phase := .active })
  if c.allCommit then
    s.commitArea u cix ys (fun s =>
      ((s.releaseCopy c).modArea u (fun a => { a with heldw := [], round := a.round + 1 })).dropShadows u)
  else s.discardArea u

/-- The vote, when every cell of all three copies has stopped and their commands have completed (log 45, 85). The cell that a record
names is the one that stopped last (R11). -/
def State.vote (s : State) (u : Nat) : State :=
  match s.area u with
  | none => s
  | some a =>
    match s.shadows u with
    | [(v1, a1), (v2, a2)] =>
      let busy := [a, a1, a2].any (fun x => x.cells.any (fun p => !p.2.cmds.isEmpty))
      if !(a.allStopped && a1.allStopped && a2.allStopped) || busy || a.phase ≠ .committing then s
      else
        let b0 := s.ballot u a
        let b1 := s.ballot v1 a1
        let b2 := s.ballot v2 a2
        let cix := a.lastStop
        if b0 = b1 || b0 = b2 then
          let s := if b0 ≠ b1 then s.score (hearthUnit a1.home) 64 else if b0 ≠ b2 then s.score (hearthUnit a2.home) 64 else s
          s.voted u cix a (s.result a)
        else if b1 = b2 then
          let (t, ys) := (s.score (hearthUnit a.home) 64).adopt v1 a.ctx (s.result a1) ((s.result a).filter (fun y => y.kind = 8))
          if a1.allCommit && (s.refusal a ys).isNone then t.voted u cix a1 ys
          else (s.score (hearthUnit a.home) 64).voted u cix a1 ys
        else if a.dissent = 0 then s.freshCopies u 1
        else
          match a.cells.find cix with
          | none => s
          | some c =>
            s.hold u ⟨fltVoteFailed, 0, 0, false, false, cix, c.pc, 0, a.word c 0, a.word1 c⟩ c.phys
    | _ => s

/-- R311 sends the area round again: a pure operator's first attempt that consumed poison or whose result carries it. -/
def State.goesRound (s : State) (a : Area) : Bool :=
  (a.entry.map (·.pure)).getD false && !a.isVoted && !a.retried &&
    (a.consumed || (a.allCommit && (s.result a).any (·.poison)))

/-- The rows of Table 1.4 for the last stop of an area, the breakpoint mark aside. -/
def State.endRows (s : State) (u cix : Nat) : State :=
  match s.area u with
  | none => s
  | some a =>
    if a.isVoted then (s.modArea u (fun a => { a with phase := .committing })).vote u
    else if s.goesRound a then
      let s := s.log a.ctx 9 0 a.op (areaAddr a.ctx a.pos) 0 a.stamp
      (s.restart u).modArea u (fun a => { a with retried := true, consumed := false })
    else s.applyEnding u cix

/-- The last cell of an area has stopped: the rows of Table 1.4 in their order (R17, R92, R331) (log 58). A voted area that another
copy's fault holds stays held (R310). -/
def State.ended (s : State) (u cix : Nat) : State :=
  match s.area u with
  | none => s
  | some a =>
    match a.kind with
    | .shadow _ o => s.vote o
    | .user =>
      if a.phase = .held then s
      else if a.brk then
        match a.cells.find cix with
        | none => s
        | some c =>
          (if s.goesRound a || a.isVoted then s else s.logOverrun u).hold u ⟨0, 0, 0, false, true, cix, c.pc, 0, a.word c 0, a.word1 c⟩ c.phys
      else s.endRows u cix
    | _ => s

/-- An operation of area `u` was acknowledged: a draining area retires with its last one, and a copy may be voted on (log 45). -/
def State.acknowledged (s : State) (u : Nat) : State :=
  match s.area u with
  | none => s
  | some a =>
    match a.kind with
    | .shadow _ o => s.vote o
    | _ =>
      if a.phase = .draining then (if s.outstanding u a then s else s.eraseAreas [u])
      else if a.phase = .committing && a.isVoted && a.growth = 0 then s.vote u
      else s

/-- Ends the stop for the debugger: the ending that the cells chose, the mark ignored (R321). -/
def State.endBreak (s : State) (u cix : Nat) : State :=
  (s.modArea u (fun a => { a with brk := false, phase := .active, trap := none })).endRows u cix

end Sys2Proof.Machine
end

