-- ==== Sys2Proof/Machine/Memory.lean ====
section
/-!
DEFINITION. The memory instructions of a cell: LD, ST, PREF, the atomics, WAITA, CADD, CWAIT and FENCE, the L1 of a hearth, and the
steps that perform and answer them (R200, R201, R207–R216, R239–R242, R252, R261, R262).
-/

namespace Sys2Proof.Machine

/-! Where a cell's access goes. -/

/-- The order bits of an access: acquire and release. -/
def isAcq (m : MWord) : Bool := m.ord.getLsbD 0
def isRel (m : MWord) : Bool := m.ord.getLsbD 1

/-- What the checks of R208 and R211 find. -/
inductive Res where
  | loc (l : Loc) (t : Option Trans)
  | fault (f : BitVec 8)
  /-- The handle is in transit, or a displaced slot must come to the cell's hearth. -/
  | transit (handle : Nat)
  | call (key handle : Nat)
  /-- No TLB holds the page. -/
  | miss
deriving DecidableEq, Repr

/-- Steps 2 to 4 of R208 for an access of `w` bytes. -/
def State.resolve (s : State) (u ctx hid : Nat) (a : Word) (w : Nat) (need : Need) : Res :=
  if a.toNat % w ≠ 0 then .fault fltMisaligned
  else if inTileWindow a then
    match s.slotOf u ctx (bits a.toNat 16 20) with
    | none => .fault fltTileBounds
    | some (key, x) =>
      let off := bits a.toNat 0 16
      let h := bits a.toNat 16 20
      if x.moving.isSome then .transit h
      else if x.hid ≠ hid && !x.displaced then .fault fltTileBounds
      else if x.size < off + w then .fault fltTileBounds
      else if need ≠ .read && x.meetsTag off w then .fault fltBarrierClobber
      else if x.hid ≠ hid then .call key h
      else .loc (.tile key off (x.base + off)) none
  else if canonical a = false then .fault fltPageFault
  else
    let va := bits a.toNat 0 55
    match s.cached hid ctx va with
    | none => .miss
    | some t => if t.allows need then .loc (Loc.phys t va) (some t) else .fault fltProtection

/-- The issuing cell waits for a walker, and has missed already. -/
def State.atWalkers (s : State) (a : Word) : Bool :=
  match ((s.area s.cur.1).bind (fun x => x.cells.find s.cur.2)).bind (·.wait) with
  | some w => w.kind = .port && w.waddr = a && w.value = walkersBusy
  | none => false

/-- A cell's TLB miss at `va`: it waits on the memory port with the address `a` that a fault names, for the walk of its page or for a
walker (R207). A wait with a nonzero value is for that walk (log 72). -/
def State.tlbMiss (s : State) (ctx hid : Nat) (va a : Word) : State :=
  let s := if s.atWalkers a then s else s.count hid 0x0E 1
  match s.joinWalk ctx hid (bits va.toNat 0 55 / 65536) with
  | (some id, s) => s.waitOn .port a (BitVec.ofNat 64 id)
  | (none, s) => s.waitOn .port a walkersBusy

/-- A translation that only the die TLB held enters the hearth's (R206). -/
def State.noteTrans (s : State) (hid : Nat) (t : Option Trans) : State :=
  match t with
  | none => s
  | some t => if (s.hearth hid).tlb.contains t then s else (s.count hid 0x0E 1).fillTlb hid t

/-- An access of the issuing cell through s[a] (R208): the checks in their order, then a free memory slot. One to the tile store comes
behind the cell's earlier accesses, which it waits for on the memory port, and so does a release to host memory (R252, R257, log 30). -/
def State.access (s : State) (ar : Area) (k : Cell) (sa : SReg) (m : MWord) (w : Nat) (need : Need)
    (body : Loc → Option Trans → State → State) : State :=
  let a := k.addr sa m
  s.consume ar (k.spsn sa) a (fun s =>
    match s.resolve s.cur.1 ar.ctx k.hid a w need with
    | .fault f => s.raise f a
    | .transit h => s.waitOn .tile 0 (BitVec.ofNat 64 h)
    | .call key h => s.callTile k key h
    | .miss => s.tlbMiss ar.ctx k.hid a a
    | .loc l t =>
      let behind := match l with | .tile _ _ _ => !k.settled | .host _ => isRel m && !k.settled | .dev _ _ => false
      if decide (16 ≤ k.ops.length) || behind then s.waitOn .port a 0 else body l t (s.noteTrans k.hid t))

/-! Voted areas (R261, R308). -/

/-- What an access of the area reads: a copy sees its own held writes, the first `n` of them (log 30). -/
def State.readHeld (s : State) (ws : List HeldWrite) (l : Loc) (n : Nat) : List Byte × Bool :=
  match l with
  | .dev _ _ => if ws.isEmpty then s.readLoc l n else (s.release ws).readLoc l n
  | _ => s.readLoc l n

/-- Lines that a held write touches. -/
def HeldWrite.lines : HeldWrite → List Nat
  | .bytes pa _ bs _ _ => linesOf pa bs.length
  | .cadd pa _ _ _ _ => [pa / 64]
  | .landing _ _ _ _ => []

/-- The memory bytes at which an element of a command's image begins. -/
def Cmd.elemVa (c : Cmd) (d : Desc) (r j : Nat) : Nat :=
  if c.rows.isEmpty then (c.addr.toNat + d.memOff c.pitch r j) % 2 ^ 64
  else wrap 64 (c.addr.toNat + c.rows.getD r 0 + elemPos d.type j)

/-- The home of a byte by the translations obtained at issue. -/
def Cmd.loc (c : Cmd) (va : Nat) : Option Loc :=
  (c.pages.find? (fun t => t.covers c.ctx (va % 2 ^ 55))).map (fun t => Loc.phys t (va % 2 ^ 55))

/-- The line of device memory at a byte of a command's image. -/
def Cmd.lineAt (c : Cmd) (va : Nat) : List Nat := match c.loc va with | some (.dev pa _) => [pa / 64] | _ => []

/-- Lines that a copy to memory writes: those of its bytes, and that of a counter it signals. -/
def Cmd.lines (c : Cmd) : List Nat :=
  let d := descOf c.d.desc
  (match c.instr with
    | .tst _ _ _ _ _ => (List.range d.foot).flatMap (fun i => c.lineAt ((c.addr.toNat + i) % 2 ^ 64))
    | .cpyout _ _ _ _ _ _ _ | .cpyx _ _ _ _ _ _ _ | .scatter _ _ _ _ _ _ | .scatadd _ _ _ _ _ _ | .slotwb _ _ _ _ _ =>
      d.elems.flatMap (fun p => c.lineAt (c.elemVa d p.1 p.2))
    | _ => []) ++
  (match c.instr, c.sig with
    | .cpyout _ _ _ _ _ _ _, .counter pa _ _ => [pa / 64]
    | _, _ => [])

/-- With `ls` the lines that a copy holds and that its commands have still to write pass 1,024 (R308). -/
def State.tooManyLines (s : State) (u : Nat) (a : Area) (ls : List Nat) : Bool :=
  let queued := s.queues.flatMap (fun q => (q.2.filter (fun x => x.uid = u && x.round = some a.round)).flatMap Cmd.lines)
  1024 < ((a.heldw.flatMap HeldWrite.lines ++ queued ++ ls).eraseDups).length

/-- The held writes of copy `u` with more behind them, unless they would pass 1,024 lines. -/
def State.holdWrites (s : State) (u : Nat) (a : Area) (l : List HeldWrite) : Option (List HeldWrite) :=
  if s.tooManyLines u a (l.flatMap HeldWrite.lines) then none else some (a.heldw ++ l)

/-- In a voted area the instruction raises OPERATOR_INVALID (R308). -/
def notVoted (body : Area → Cell → State → State) : Area → Cell → State → State :=
  fun a k s => if a.isVoted then s.raise fltOperatorInvalid 0 else body a k s

/-! The L1 of a hearth (R201). -/

/-- The set of a line (log 18). -/
def l1Set (line : Nat) : Nat := line % 512

/-- The line that the L1 holds and whose lease the hearth's clock has not passed (log 36). -/
def State.l1Find (s : State) (h pa : Nat) (key : Option Nat) : Option L1Line :=
  (s.hearth h).l1.find? (fun x => x.line = pa / 64 && x.key = key && s.now h ≤ x.lease)

/-- Puts a line in, as the one used last; a full set of 8 gives up its victim (R198). -/
def State.l1Put (s : State) (h : Nat) (y : L1Line) : State :=
  s.modHearth h (fun x =>
    let others := x.l1.filter (fun z => z.line ≠ y.line)
    let mine := others.filter (fun z => l1Set z.line = l1Set y.line)
    let rest :=
      if mine.length < 8 then others
      else
        match victim (mine.map (fun z => (z.line, z.prio))) with
        | some v => others.filter (fun z => z.line ≠ v)
        | none => others
    { x with l1 := y :: rest })

/-- A load hits: its bytes of the line, and the line is the one used last, with the access's priority (log 36). -/
def State.l1Hit (s : State) (h : Nat) (y : L1Line) (pa n prio : Nat) : List Byte × State :=
  ((y.data.drop (pa % 64)).take n, (s.l1Put h { y with prio := prio }).count h 0x0B 1)

/-- The releases that the words of a line carry. -/
def State.lineRels (s : State) (line : Nat) : Tab (List Release) := s.releases.filter (fun p => p.1 / 8 = line)

/-- The home answers hearth `h` for a line that its L1 may keep: a lease whose length is open, and data unless the line that the L1 has
was not written since, as a renewal (R201). A line with an error is not kept (log 36). -/
def State.keepLine (s : State) (h pa : Nat) (key : Option Nat) (prio : Nat) : State :=
  let line := pa / 64
  let t := s.lineTime.get (0, 0) line
  let lease := max t.2 (s.now h + s.freeVal.toNat)
  let s := if (s.hearth h).l1.any (fun x => x.line = line && x.key = key) then s.count h 0x0D 1 else s
  if s.linePoison.get false line then s.l1Drop h line
  else
    ({ s with lineTime := s.lineTime.put (0, 0) line (t.1, lease), free := s.free + 1 } : State).l1Put h
      ⟨line, key, prio, s.readDev (64 * line) key 64, t.1, lease, s.lineRels line⟩

/-- A load that its home serves: a hit, too, when a renewal returns no data, otherwise a miss (Table 11.7) (log 36). -/
def State.countLoad (s : State) (h : Nat) (o : MemOp) : State :=
  match o.home with
  | .dev pa key =>
    let wt := ((s.hearth h).l1.find? (fun x => x.line = pa / 64 && x.key = key)).map (·.wt)
    s.count h (if o.cached && wt = some (s.lineTime.get (0, 0) (pa / 64)).1 then 0x0B else 0x0C) 1
  | _ => s.count h 0x0C 1

/-! Operations in flight. -/

/-- The width of an operation's access. -/
def MemOp.width (o : MemOp) : Nat := accWidth o.m.type

/-- What an atomic writes over the code `old` with poison `p`, none to write nothing (R213, R214). -/
def MemOp.combine (o : MemOp) (old : Nat) (p : Bool) : Option (Nat × Bool) :=
  let n := 8 * o.width
  let x := bits o.x.toNat 0 n
  let int (z : Nat) : Int := (extendT o.m.type.toNat z).toInt
  let rmw (v : Nat) : Option (Nat × Bool) := some (v, o.xp || p)
  match o.instr with
  | .aadd _ _ _ _ _ => rmw (old + x)
  | .afadd _ _ _ _ _ => rmw (roundFP32 0 0 (Val.add 0 (decodeT 9 old) (decodeT 9 x)))
  | .amin _ _ _ _ _ => rmw (if int x < int old then x else old)
  | .amax _ _ _ _ _ => rmw (if int old < int x then x else old)
  | .aand _ _ _ _ _ => rmw (old &&& x)
  | .aor _ _ _ _ _ => rmw (old ||| x)
  | .axor _ _ _ _ _ => rmw (old ^^^ x)
  | .aswp _ _ _ _ _ => rmw x
  | .acas _ _ _ _ _ => if old = x then some (bits o.y.toNat 0 n, o.yp || o.xp) else none
  | _ => none

/-- The operation is performed at its home: its effect, and the value and poison that it brings (R209–R215, R240, R252). An atomic
drops the hearth's copy of its line, whether it writes or not (R200). -/
def State.perform1 (s : State) (u i h : Nat) (o : MemOp) : (Word × Bool) × State :=
  let n := o.width
  let ws := (((s.area u).map (·.heldw)).getD []).take o.held
  let (bs, p) := s.readHeld ws o.home n
  let read (s : State) : State :=
    let s := match o.home with | .dev pa _ => s.meetLine h (pa / 64) | _ => s
    s.readWord o.home (isAcq o.m) o.m.scope h u i
  let wrote (s : State) : State :=
    let s := match o.home with | .dev pa _ => s.wroteLines h [pa / 64] | _ => s
    if isRel o.m then s.release_ o.home [⟨s.now h, [o.m.scope], h, u, i⟩] else s
  match o.kind with
  | .load =>
    let s := read (s.countLoad h o)
    let s := match o.home with | .dev pa key => if o.cached then s.keepLine h pa key o.m.evict.toNat else s | _ => s
    ((accValue o.m.type bs, p), s)
  | .pref =>
    (match o.home with
      | .dev pa key => ((0, false), if o.cached then (s.meetLine h (pa / 64)).keepLine h pa key o.m.evict.toNat else s)
      | _ => ((0, false), s))
  | .store => ((0, false), wrote (s.writeLoc o.home (leBytes n o.x.toNat) o.xp))
  | .cadd => ((0, false), wrote (s.addCounter o.home o.x.toNat o.xp))
  | .atomic =>
    let s := read s
    let s := match o.home with | .dev pa _ => s.l1Drop h (pa / 64) | _ => s
    let s := match o.combine (ofLe bs) p with | some (v, q) => wrote (s.writeLoc o.home (leBytes n v) q) | none => s
    ((accValue o.m.type bs, p), s)

/-- Marks an operation of a cell as performed. -/
def State.setDone (s : State) (u i id : Nat) (v : Word × Bool) : State :=
  s.modCell u i (fun k => { k with ops := k.ops.map (fun o => if o.id = id then { o with done := some v } else o) })

/-- The bytes of a line that an operation writes; none for one that only reads. -/
def MemOp.bytes (o : MemOp) (pa : Nat) : Option (BitVec 64) := if o.posted then some (lineBytes (pa % 64) o.width) else none

/-- The home serves operation `o` of a cell in hearth `h`: it is performed and its answer leaves. -/
def State.serve (s : State) (u i h : Nat) (o : MemOp) (err : BitVec 704) : State :=
  let s := match o.home with
    | .dev pa _ => s.touch pa h o.m.evict.toNat (o.bytes pa) err
    | _ => s
  let (v, s) := s.perform1 u i h o
  let s := s.setDone u i o.id v
  match o.home with
  | .dev pa _ => s.send clsReply (s.homeRouter pa) h (.reply u i o.id)
  | _ => s

/-- The cell's first operation that is not performed, prefetches aside, and its hearth. -/
def State.nextOp (s : State) (u i : Nat) : Option (Nat × MemOp) :=
  ((s.area u).bind (fun a => a.cells.find i)).bind (fun k =>
    (k.ops.find? (fun o => o.done.isNone && o.kind ≠ .pref)).map (fun o => (k.hid, o)))

/-- A prefetch of the cell that is not performed, and its hearth. -/
def State.prefOp (s : State) (u i op : Nat) : Option (Nat × MemOp) :=
  ((s.area u).bind (fun a => a.cells.find i)).bind (fun k =>
    (k.ops.find? (fun o => o.id = op && o.done.isNone && o.kind = .pref)).map (fun o => (k.hid, o)))

/-- The request of an operation leaves for its home. -/
def State.request (s : State) (u i h : Nat) (o : MemOp) : State :=
  match o.home with
  | .dev pa _ =>
    (s.send clsRequest h (s.homeRouter pa) (.request u i o.id)).modCell u i (fun k =>
      { k with ops := k.ops.map (fun x => if x.id = o.id then { x with sent := true } else x) })
  | _ => s

/-- Once the operations before them are performed, loads look into the L1, each until one misses and asks its home (R201, R252); a hit
meets the releases that its word carried when the line was read. -/
def State.lookUp (s : State) (u i : Nat) : Nat → State
  | 0 => s
  | fuel + 1 =>
    match s.nextOp u i with
    | none => s
    | some (h, o) =>
      if o.sent then s
      else
        match o.home with
        | .dev pa key =>
          (match s.l1Find h pa key with
            | some y =>
              let (bs, s) := s.l1Hit h y pa o.width o.m.evict.toNat
              let s := s.metReleases ((y.rels.find o.home.word).getD []) (isAcq o.m) o.m.scope h u i
              (s.setDone u i o.id (accValue o.m.type bs, false)).lookUp u i fuel
            | none => s.request u i h o)
        | _ => s

/-- Performs what a cell has in flight, in its order, whether its requests have arrived or not (R21, R90, log 30). -/
def State.settle (s : State) (u i : Nat) : Nat → State
  | 0 => s
  | fuel + 1 =>
    match s.nextOp u i with
    | none => s
    | some (h, o) => ((s.dropMsgs (fun b => b = .request u i o.id)).serve u i h o 0).settle u i fuel

/-- An operation as it leaves the issuing cell `k`. -/
def State.newOp (s : State) (kind : MemKind) (i : Instr) (m : MWord) (k : Cell) (a : Word) (l : Loc) (t : Option Trans) (dst b : SReg) : MemOp :=
  { id := s.nextUid, kind := kind, instr := i, m := m, va := a, home := l
    cached := (kind = .load || kind = .pref) && m.evict ≠ 7 && (match t with | some t => !t.pte.getLsbD 8 | none => false)
    dst := dst, x := k.sreg b, xp := k.spsn b, y := k.sreg dst, yp := k.spsn dst
    held := (((s.area s.cur.1).map (·.heldw)).getD []).length, sent := false, done := none }

/-- The issuing cell goes on with operation `o` in flight: one to device memory asks its home, unless the L1 may have its line, and
others are performed at once (log 30). -/
def State.post (s : State) (k : Cell) (o : MemOp) : State :=
  let (u, i) := s.cur
  let s := s.fresh.finish k 2 (fun k => { k with ops := k.ops ++ [o] })
  match o.home with
  | .dev _ _ => if o.kind = .load && o.cached && o.held = 0 then s.lookUp u i 17 else s.request u i k.hid o
  | _ => let (v, s) := s.perform1 u i k.hid o
         s.setDone u i o.id v

/-! The instructions. -/

/-- LD (R209). -/
def execLd (c : Cond) (d a : SReg) (m : MWord) (s : State) : Host.Outcome State Fault Refusal :=
  s.gate c 2 [d, a] (fun ar k s =>
    s.access ar k a m (accWidth m.type) .read (fun l t s =>
      s.post k (s.newOp .load (.ld c d a m) m k (k.addr a m) l t d 0)))

/-- The origin of a cell's own write, which releases when its order says so. -/
def State.origin (s : State) (k : Cell) (m : MWord) (a : Word) : Origin :=
  ⟨k.hid, m.evict.toNat, some a, if isRel m then [⟨0, [m.scope], k.hid, s.cur.1, s.cur.2⟩] else []⟩

/-- A write of a voted copy is held until the vote, unless it would pass the limit (R308). -/
def State.holdOr (s : State) (ar : Area) (k : Cell) (a : Word) (w : HeldWrite) : State :=
  match s.holdWrites s.cur.1 ar [w] with
  | none => s.raise fltOperatorInvalid a
  | some ws => (s.modArea s.cur.1 (fun x => { x with heldw := ws })).finish k 2 id

/-- A poisoned store or addition to device memory is reported (R210, R330). -/
def State.logPoison (s : State) (ar : Area) (a : Word) (p : Bool) : State :=
  if p then s.log ar.ctx 8 0 ar.op (areaAddr ar.ctx ar.pos) a.toNat 0 else s

/-- ST (R210): held in a voted area, where a host page is refused (R308). -/
def execSt (c : Cond) (a b : SReg) (m : MWord) (s : State) : Host.Outcome State Fault Refusal :=
  s.gate c 2 [a, b] (fun ar k s =>
    s.access ar k a m (accWidth m.type) .write (fun l t s =>
      let addr := k.addr a m
      match l, ar.isVoted with
      | .dev pa key, true => s.holdOr ar k addr (.bytes pa key (leBytes (accWidth m.type) (k.sreg b).toNat) (k.spsn b) (s.origin k m addr))
      | .host _, true => s.raise fltOperatorInvalid addr
      | .dev _ _, false => (s.logPoison ar addr (k.spsn b)).post k (s.newOp .store (.st c a b m) m k addr l t 0 b)
      | _, _ => s.post k (s.newOp .store (.st c a b m) m k addr l t 0 b)))

/-- A prefetch of the issuing cell that waits for the walk of its page: it has no home yet. -/
def State.newPref (s : State) (i : Instr) (m : MWord) (k : Cell) (a : Word) : MemOp := s.newOp .pref i m k a (.dev 0 none) none 0 0

/-- PREF (R215): it does nothing at an address that cannot be read or that is no device memory. One that misses has its walk like any
other, for a free walker its cell waits, and then the cell goes on (R207) (log 80, 72). -/
def execPref (c : Cond) (a : SReg) (m : MWord) (s : State) : Host.Outcome State Fault Refusal :=
  s.gate c 2 [a] (fun ar k s =>
    let addr := k.addr a m
    s.consume ar (k.spsn a) addr (fun s =>
      if inTileWindow addr || addr.toNat % accWidth m.type ≠ 0 then s.finish k 2 id
      else
        match s.resolve s.cur.1 ar.ctx k.hid addr 1 .read with
        | .loc (.dev pa key) t =>
          if 16 ≤ k.ops.length then s.waitOn .port addr 0
          else (s.noteTrans k.hid t).post k (s.newOp .pref (.pref c a m) m k addr (.dev pa key) t 0 0)
        | .miss =>
          if 16 ≤ k.ops.length then s.waitOn .port addr 0
          else
            (match (if s.atWalkers addr then s else s.count k.hid 0x0E 1).joinWalk ar.ctx k.hid (bits addr.toNat 0 55 / 65536) with
              | (none, s) => s.waitOn .port addr walkersBusy
              | (some _, s) => s.fresh.finish k 2 (fun x => { x with ops := x.ops ++ [s.newPref (.pref c a m) m k addr] }))
        | _ => s.finish k 2 id))

/-- The walk of a page has ended with `t`: each prefetch of the hearth that waited for it leaves for its home, or is over. -/
def State.wakePrefs (s : State) (ctx h page : Nat) (t : Option Trans) : State :=
  let mine (k : Cell) (o : MemOp) : Bool :=
    k.hid = h && o.kind = .pref && o.done.isNone && !o.sent && bits o.va.toNat 0 55 / 65536 = page
  let loc (o : MemOp) : Option (Loc × Trans) :=
    (t.filter (fun t => t.allows .read)).bind (fun t =>
      match Loc.phys t (bits o.va.toNat 0 55) with
      | .dev pa key => some (.dev pa key, t)
      | _ => none)
  (s.areasOf ctx).foldl (fun s p => p.2.cells.foldl (fun s q => (q.2.ops.filter (mine q.2)).foldl (fun s o =>
    match loc o with
    | none => s.modCell p.1 q.1 (fun k => { k with ops := k.ops.filter (fun x => x.id ≠ o.id) })
    | some (l, t) =>
      let o := { o with home := l, cached := o.m.evict ≠ 7 && !t.pte.getLsbD 8 }
      (s.modCell p.1 q.1 (fun k => { k with ops := k.ops.map (fun x => if x.id = o.id then o else x) })).request p.1 q.1 h o) s) s) s

/-- An atomic (R213, R214). -/
def atomicOp (i : Instr) (d a b : SReg) (m : MWord) : Area → Cell → State → State :=
  notVoted (fun ar k s =>
    s.access ar k a m (accWidth m.type) .both (fun l t s => s.post k (s.newOp .atomic i m k (k.addr a m) l t d b)))

def execAadd (c : Cond) (d a b : SReg) (m : MWord) (s : State) : Host.Outcome State Fault Refusal :=
  s.gate c 2 [d, a, b] (atomicOp (.aadd c d a b m) d a b m)

def execAfadd (c : Cond) (d a b : SReg) (m : MWord) (s : State) : Host.Outcome State Fault Refusal :=
  s.gate c 2 [d, a, b] (atomicOp (.afadd c d a b m) d a b m)

def execAmin (c : Cond) (d a b : SReg) (m : MWord) (s : State) : Host.Outcome State Fault Refusal :=
  s.gate c 2 [d, a, b] (atomicOp (.amin c d a b m) d a b m)

def execAmax (c : Cond) (d a b : SReg) (m : MWord) (s : State) : Host.Outcome State Fault Refusal :=
  s.gate c 2 [d, a, b] (atomicOp (.amax c d a b m) d a b m)

def execAand (c : Cond) (d a b : SReg) (m : MWord) (s : State) : Host.Outcome State Fault Refusal :=
  s.gate c 2 [d, a, b] (atomicOp (.aand c d a b m) d a b m)

def execAor (c : Cond) (d a b : SReg) (m : MWord) (s : State) : Host.Outcome State Fault Refusal :=
  s.gate c 2 [d, a, b] (atomicOp (.aor c d a b m) d a b m)

def execAxor (c : Cond) (d a b : SReg) (m : MWord) (s : State) : Host.Outcome State Fault Refusal :=
  s.gate c 2 [d, a, b] (atomicOp (.axor c d a b m) d a b m)

def execAswp (c : Cond) (d a b : SReg) (m : MWord) (s : State) : Host.Outcome State Fault Refusal :=
  s.gate c 2 [d, a, b] (atomicOp (.aswp c d a b m) d a b m)

def execAcas (c : Cond) (d a b : SReg) (m : MWord) (s : State) : Host.Outcome State Fault Refusal :=
  s.gate c 2 [d, a, b] (atomicOp (.acas c d a b m) d a b m)

/-! Waits on memory words (R216, R241). -/

/-- A read of a watched word satisfies its WAITA; a poisoned word satisfies nothing. -/
def State.watchHolds (s : State) (ws : List HeldWrite) (l : Loc) (t : BitVec 4) (cond : Nat) (x : Word) : Bool :=
  let (bs, p) := s.readHeld ws l (accWidth t)
  !p && compare cond (accValue t bs) x

/-- The home reads a watched word for a cell: an access like a load's, which the L1 has no part in. -/
def State.readWatched (s : State) (h : Nat) (m : MWord) (l : Loc) : State :=
  match l with
  | .dev pa _ => (s.touch pa h m.evict.toNat none 0).meetLine h (pa / 64)
  | _ => s

/-- A WAITA or CWAIT of the issuing cell is satisfied by a read that met the releases `rels`: an acquire when its order says so
(R241, R257). -/
def State.satisfied (s : State) (k : Cell) (m : MWord) (rels : List Release) : State :=
  (s.metReleases rels (isAcq m) m.scope k.hid s.cur.1 s.cur.2).finish k 2 id

/-- A wait on the word at `l`: the home reads it when the instruction arrives, behind the cell's earlier accesses, and again in
WAITA_PERIODIC_READ. -/
def State.watch (s : State) (ar : Area) (k : Cell) (kind : WaitKind) (a : Word) (l : Loc) (m : MWord) (t : BitVec 4) (cond : Nat) (x : Word) : State :=
  if !k.settled then s.waitOn .port a 0
  else
    let s := s.readWatched k.hid m l
    if s.watchHolds ar.heldw l t cond x then s.satisfied k m (s.released l)
    else s.modCur (fun c => { c with wait := some ⟨kind, a, x, some l, none, [], []⟩ })

/-- WAITA. -/
def execWaita (c : Cond) (f : BitVec 3) (a b : SReg) (m : MWord) (s : State) : Host.Outcome State Fault Refusal :=
  s.gate c 2 [a, b] (fun ar k s =>
    match k.seen .address with
    | some (w, _) => s.satisfied k m w.rels
    | none =>
      s.access ar k a m (accWidth m.type) .read (fun l _ s =>
        s.watch ar k .address (k.addr a m) l m m.type f.toNat (k.sreg b)))

/-- CADD (R240, R242): posted as ST is, held in a voted area. -/
def execCadd (c : Cond) (a b : SReg) (m : MWord) (s : State) : Host.Outcome State Fault Refusal :=
  s.gate c 2 [a, b] (fun ar k s =>
    let addr := k.addr a m
    s.consume ar (k.spsn a) addr (fun s =>
      if addr.toNat % 8 ≠ 0 then s.raise fltMisaligned addr
      else if inTileWindow addr then s.raise fltTileBounds addr
      else
        s.access ar k a m 8 .both (fun l t s =>
          match l, ar.isVoted with
          | .dev pa key, true => s.holdOr ar k addr (.cadd pa key (k.sreg b).toNat (k.spsn b) (s.origin k m addr))
          | .host _, true => s.raise fltOperatorInvalid addr
          | l, _ => (s.logPoison ar addr (k.spsn b)).post k (s.newOp .cadd (.cadd c a b m) { m with type := 6 } k addr l t 0 b))))

/-- CWAIT (R241, R242): a poisoned target is consumed, a poisoned counter satisfies nothing. -/
def execCwait (c : Cond) (a b : SReg) (m : MWord) (s : State) : Host.Outcome State Fault Refusal :=
  s.gate c 2 [a, b] (fun ar k s =>
    match k.seen .counter with
    | some (w, _) => s.satisfied k m w.rels
    | none =>
      let addr := k.addr a m
      s.consume ar (k.spsn a || k.spsn b) addr (fun s =>
        if addr.toNat % 8 ≠ 0 then s.raise fltMisaligned addr
        else if inTileWindow addr then s.raise fltTileBounds addr
        else
          s.access ar k a m 8 .read (fun l _ s => s.watch ar k .counter addr l m 6 7 (k.sreg b))))

/-- FENCE (R262): with release it waits for the acknowledgements of the cell's stores, atomics and CADDs, and its later commands
release what came before; with acquire it waits for the values of its loads and atomics, and the reads that met a release at a
matching scope are acquires. -/
def execFence (c : Cond) (scope : BitVec 3) (ord : BitVec 2) (s : State) : Host.Outcome State Fault Refusal :=
  s.gate c 1 [] (fun _ k s =>
    let loads := k.ops.any (fun o => o.kind = .load || o.kind = .atomic)
    if (ord.getLsbD 1 && k.posted) || (ord.getLsbD 0 && loads) then s.waitOn .port 0 0
    else
      let (u, i) := s.cur
      let s := if ord.getLsbD 0 then s.acquire k.met scope k.hid u i else s
      let mine : Release := ⟨s.now k.hid, [scope], k.hid, u, i⟩
      s.finish k 1 (fun k => { k with
        met := if ord.getLsbD 0 then [] else k.met
        fenced := if ord.getLsbD 1 then mine :: k.fenced.filter (fun r => r.scopes ≠ [scope]) else k.fenced }))

/-! The steps that perform and answer. -/

/-- A line that an engine of hearth `req`, or a chimney from 1,024 on, reads or writes for a command or a push that is in progress. -/
def State.engineLine (s : State) (pa req : Nat) : Bool :=
  let meets (ts : List Trans) : Bool := ts.any (fun t => t.pa 0 ≤ pa && pa < t.pa 0 + (if t.big then 2 ^ 29 else 65536))
  if req < 1024 then s.queues.any (fun q => q.1 / 4 = req && q.2.any (fun c => c.started && meets c.pages))
  else s.subs.any (fun p => p.1 / 64 = req - 1024 && p.2.push.any (fun q => meets q.2.pages))

/-- The packets of a line that an engine or a chimney reads or writes: its request and what comes back (Table 11.6) (log 17). -/
def State.carryLine (s : State) (pa req : Nat) : State :=
  let at_ := if req < 1024 then req else sliceRouter ((req - 1024) * 64)
  (s.send clsRequest at_ (s.homeRouter pa) .plain).send clsReply (s.homeRouter pa) at_ .plain

/-- SLICE_ACCESS (R198–R200, R216, R217): the request of a cell's next operation, or of a prefetch, once it has arrived, is performed at
its home slice with the errors `err` of the line; or the home slice reads or writes a line for an engine or a chimney. -/
def execSliceAccess (r : SliceReq) (err : BitVec 704) (s : State) : Host.Outcome State Fault Refusal :=
  .next (
    match r with
    | .cell u i =>
      (match s.nextOp u i with
        | none => s
        | some (h, o) =>
          let b := Body.request u i o.id
          if (s.arrival b).isSome then ((s.dropMsgs (fun x => x = b)).serve u i h o err).lookUp u i 16 else s)
    | .pref u i op =>
      (match s.prefOp u i op with
        | none => s
        | some (h, o) =>
          let b := Body.request u i op
          if (s.arrival b).isSome then (s.dropMsgs (fun x => x = b)).serve u i h o err else s)
    | .line pa req evict write =>
      if s.engineLine pa req then
        (s.carryLine pa req).touch pa req evict.toNat (if write then some wholeLine else none) err
      else s)

/-- The answer of an operation has come: one that its home sent waits for its packet. -/
def State.answered (s : State) (u i : Nat) (o : MemOp) : Bool :=
  o.done.isSome && (!s.msgs.any (fun m => m.body = .reply u i o.id) || (s.arrival (.reply u i o.id)).isSome)

/-- The operation of a name of a cell, once it is answered. -/
def State.answer (s : State) (u i op : Nat) : Option (MemOp × Word × Bool) :=
  match ((s.area u).bind (fun a => a.cells.find i)).bind (fun k => k.ops.find? (fun o => o.id = op)) with
  | none => none
  | some o => if s.answered u i o then o.done.map (fun v => (o, v)) else none

/-- The answer of an operation reaches its cell: the register, and a free memory slot. -/
def State.deliver (s : State) (u i : Nat) (o : MemOp) (v : Word × Bool) : State :=
  (s.dropMsgs (fun b => b = .reply u i o.id)).modCell u i (fun k =>
    { k.setS o.dst v.1 v.2 with ops := k.ops.filter (fun x => x.id ≠ o.id) })

/-- What an area's cells have in flight is performed and answered; its prefetches are dropped (R21, R28, R322, log 30) (log 89). -/
def State.finishOps (s : State) (u : Nat) : State :=
  match s.area u with
  | none => s
  | some a =>
    a.cells.foldl (fun s p =>
      p.2.ops.foldl (fun s o =>
        match ((s.area u).bind (fun a => a.cells.find p.1)).bind (fun k => k.ops.find? (fun x => x.id = o.id)) with
        | some o =>
          (match o.done with
            | some v => s.deliver u p.1 o v
            | none => (s.dropMsgs (fun b => b = .request u p.1 o.id)).deliver u p.1 o (0, false))
        | none => s) (s.settle u p.1 17)) s

/-- LOAD_REPLY (R208, R209): a load's value arrives, or a prefetch is over. -/
def execLoadReply (u cix op : Nat) (s : State) : Host.Outcome State Fault Refusal :=
  .next (
    match s.answer u cix op with
    | none => s
    | some (o, v) => if o.posted then s else s.deliver u cix o v)

/-- STORE_ACKNOWLEDGED (R16, R210): a posted operation of the cell is acknowledged, an atomic with its old value; a draining area may
retire. -/
def execStoreAcknowledged (u cix op : Nat) (s : State) : Host.Outcome State Fault Refusal :=
  .next (
    match s.answer u cix op with
    | none => s
    | some (o, v) => if o.posted then (s.deliver u cix o v).acknowledged u else s)

/-- The instruction at a cell's pc. -/
def Area.instrAt (a : Area) (c : Cell) : Except NotInstr Instr :=
  if c.pc.toNat < (a.codeOf c).length then decodeBytes ((a.codeOf c).drop c.pc.toNat) else .error .noExit

/-- What a waiting WAITA or CWAIT watches, at the home that its wait names: place, access, type, condition and operand. -/
def Area.watches (a : Area) (k : Cell) (w : Wait) : Option (Loc × MWord × BitVec 4 × Nat × Word) :=
  match w.home, a.instrAt k with
  | some l, .ok (.waita _ f _ sb m) => some (l, m, m.type, f.toNat, k.sreg sb)
  | some l, .ok (.cwait _ _ sb m) => some (l, m, 6, 7, k.sreg sb)
  | _, _ => none

/-- WAITA_PERIODIC_READ (R216, R241): the home reads a watched word; a satisfying value releases the cell, with what the read met. -/
def execWaitaPeriodicRead (u cix : Nat) (s : State) : Host.Outcome State Fault Refusal :=
  .next (
    match s.area u with
    | none => s
    | some a =>
      match a.cells.find cix with
      | none => s
      | some k =>
        match k.wait with
        | none => s
        | some w =>
          if (w.kind = .address || w.kind = .counter) && w.granted.isNone then
            (match a.watches k w with
              | none => s
              | some (l, m, t, cond, x) =>
                let s := s.readWatched k.hid m l
                if s.watchHolds a.heldw l t cond x then
                  s.modCell u cix (fun k => { k with wait := some { w with granted := some false, rels := s.released l } })
                else s)
          else s)

end Sys2Proof.Machine
end

