-- ==== Sys2Proof/Machine/Collective.lean ====
section
/-!
DEFINITION. The collectives of an area over the flue tree (R109–R117).
-/

namespace Sys2Proof.Machine

/-! Combining (R114, R115). -/

/-- A combination of two integers by its op code (R54, R114). -/
def combineInt (f : Nat) (x y : Word) : Word :=
  match f with
  | 0 => x + y
  | 1 => if y.slt x then y else x
  | 2 => if x.slt y then y else x
  | 3 => if y.ult x then y else x
  | 4 => if x.ult y then y else x
  | 5 => x &&& y
  | 6 => x ||| y
  | _ => x ^^^ y

/-- Table 6.2 for the integer operations. -/
def identInt (f : Nat) : Word :=
  match f with
  | 1 => 0x7FFFFFFFFFFFFFFF#64
  | 2 => 0x8000000000000000#64
  | 3 => 0xFFFFFFFFFFFFFFFF#64
  | 5 => 0xFFFFFFFFFFFFFFFF#64
  | _ => 0

/-- Table 6.2 for the FP32 operations: fadd, fmin, fmax. -/
def identFloat (f : Nat) : Nat :=
  match f with
  | 0 => 0
  | 1 => 0x7F800000
  | _ => 0xFF800000

/-- L + Rt at a node of the flue tree. -/
def treeNode (x y : Nat) : Nat := roundFP32 0 0 (Val.add 0 (decodeT 9 x) (decodeT 9 y))

/-- A leaf of the tree: a NaN becomes 0x7FC0_0000. -/
def treeLeaf (c : Nat) : Nat := if (decodeT 9 c).isNan then 0x7FC00000 else c

/-- The two sides of a node. -/
def treeJoin : Option Nat → Option Nat → Option Nat
  | some x, some y => some (treeNode x y)
  | some x, none => some x
  | none, y => y

/-- The result of the subtree of `2^n` cells, over the contributions (physical id, code) that lie in it. -/
def treeSum : Nat → List (Nat × Nat) → Option Nat
  | 0, l => (match l with | p :: _ => some (treeLeaf p.2) | [] => none)
  | n + 1, l => treeJoin (treeSum n (l.filter (fun p => p.1 / 2 ^ n % 2 = 0))) (treeSum n (l.filter (fun p => p.1 / 2 ^ n % 2 = 1)))

/-- The sums of the largest subtrees wholly below the cell at `p`, from the lowest upward (R115). -/
def treeBelow (p : Nat) : Nat → List (Nat × Nat) → List Nat
  | 0, _ => []
  | n + 1, l =>
    let here :=
      if p / 2 ^ n % 2 = 1 then
        (treeSum n (l.filter (fun q => q.1 / 2 ^ (n + 1) = p / 2 ^ (n + 1) && q.1 / 2 ^ n % 2 = 0))).toList
      else []
    here ++ treeBelow p n l

/-- A contribution: physical id, cix, value, poison. -/
structure Contrib where
  phys : Nat
  cix : Nat
  val : Word
  psn : Bool
deriving DecidableEq, Repr

/-- The low 32 bits of each contribution, by physical id. -/
def codesOf (l : List Contrib) : List (Nat × Nat) := l.map (fun x => (x.phys, bits x.val.toNat 0 32))

/-- FMIN or FMAX over contributions; a sole one is returned as it was, a NaN with its own code (log 93). -/
def foldMin (f : Nat) : List Contrib → Nat
  | [] => identFloat f
  | x :: r => r.foldl (fun acc y => fminT 9 (f = 2) acc (bits y.val.toNat 0 32)) (bits x.val.toNat 0 32)

/-- The combination of the contributions `l`, all below `below` for a scan (R114, R115). -/
def combine (float : Bool) (f : Nat) (below : Option Nat) (l : List Contrib) : Word :=
  if float = false then l.foldl (fun acc x => combineInt f acc x.val) (identInt f)
  else if f ≠ 0 then BitVec.ofNat 64 (foldMin f l)
  else
    match below with
    | none => BitVec.ofNat 64 ((treeSum 18 (codesOf l)).getD (identFloat 0))
    | some p =>
      match treeBelow p 18 (codesOf l) with
      | [] => BitVec.ofNat 64 (identFloat 0)
      | x :: r => BitVec.ofNat 64 (r.foldl treeNode x)

/-! Arrival (R109). -/

/-- Opcodes of the collectives. -/
def opBcast : BitVec 8 := 0x65
def opReduceInt : BitVec 8 := 0x66
def opReduceFloat : BitVec 8 := 0x67
def opScanInt : BitVec 8 := 0x68
def opScanFloat : BitVec 8 := 0x69
def opCount : BitVec 8 := 0x6A
def opFirst : BitVec 8 := 0x6B
def opAreabar : BitVec 8 := 0x6C

/-- What a cell brings to a collective. -/
def arrival (op : BitVec 8) (f : BitVec 3) (c : Cond) (d : SReg) (val : Cell → Word) (psn : Cell → Bool)
    (idx : Cell → Word) (k : Cell) : Arrival :=
  ⟨op, f, k.cond c, op ≠ opAreabar || k.cond c, d, val k, psn k, idx k⟩

/-- A cell arrives: it counts the collective whatever its condition, and waits at it unless it is an AREABAR with a
false condition; what it issued before is performed (R109, R117) (log 30). -/
def State.collGate (s : State) (c : Cond) (regs : List SReg) (arr : Cell → Arrival) : Host.Outcome State Fault Refusal :=
  match s.area s.cur.1 with
  | none => .fault .noIssuingCell
  | some a =>
    match a.cells.find s.cur.2 with
    | none => .fault .noIssuingCell
    | some k =>
      .next (
        if k.qpsn c.q && s.strict a.ctx then s.raise fltPoisonConsumed 0
        else
          let s := if k.qpsn c.q then s.markConsumed else s
          if k.cond c && k.pend.any (fun p => regs.contains p.1) then s.waitPend k regs
          else if k.cond c && k.awaitsMem regs then s.waitOn .port 0 0
          else
            let x := arr k
            ((s.settle s.cur.1 s.cur.2 17).count k.hid 1 1).modCur (fun k =>
              { k with coll := k.coll + 1, arrs := k.arrs ++ [x], wait := none,
                       pc := if x.waits then k.pc else k.pc + 4 }))

def execBcast (c : Cond) (d a b : SReg) (s : State) : Host.Outcome State Fault Refusal :=
  s.collGate c [d, a, b] (arrival opBcast 0 c d (fun k => k.sreg a) (fun k => k.spsn a) (fun k => k.sreg b))

def execReduceInt (c : Cond) (f : BitVec 3) (d a : SReg) (s : State) : Host.Outcome State Fault Refusal :=
  s.collGate c [d, a] (arrival opReduceInt f c d (fun k => k.sreg a) (fun k => k.spsn a) (fun _ => 0))

def execReduceFp32 (c : Cond) (f : BitVec 3) (d a : SReg) (s : State) : Host.Outcome State Fault Refusal :=
  s.collGate c [d, a] (arrival opReduceFloat f c d (fun k => k.sreg a) (fun k => k.spsn a) (fun _ => 0))

def execScanInt (c : Cond) (f : BitVec 3) (d a : SReg) (s : State) : Host.Outcome State Fault Refusal :=
  s.collGate c [d, a] (arrival opScanInt f c d (fun k => k.sreg a) (fun k => k.spsn a) (fun _ => 0))

def execScanFp32 (c : Cond) (f : BitVec 3) (d a : SReg) (s : State) : Host.Outcome State Fault Refusal :=
  s.collGate c [d, a] (arrival opScanFloat f c d (fun k => k.sreg a) (fun k => k.spsn a) (fun _ => 0))

def execCount (c : Cond) (d : SReg) (a : QReg) (s : State) : Host.Outcome State Fault Refusal :=
  s.collGate c [d] (arrival opCount 0 c d (fun k => if k.qreg a then 1 else 0) (fun k => k.qpsn a) (fun _ => 0))

def execFirst (c : Cond) (d : SReg) (a : QReg) (s : State) : Host.Outcome State Fault Refusal :=
  s.collGate c [d] (arrival opFirst 0 c d (fun k => if k.qreg a then 1 else 0) (fun k => k.qpsn a) (fun _ => 0))

def execAreabar (c : Cond) (s : State) : Host.Outcome State Fault Refusal :=
  s.collGate c [] (arrival opAreabar 0 c 0 (fun _ => 0) (fun _ => false) (fun _ => 0))

/-! Completion. -/

/-- The arrivals of the area's next instance, in cix order. -/
def Area.inst1 (a : Area) : List (Nat × Arrival) :=
  a.cells.filterMap (fun p => match p.2.arrs with | x :: _ => some (p.1, x) | [] => none)

/-- Every cell has arrived at the next instance or has stopped, and one has arrived (R109). -/
def Area.complete1 (a : Area) : Bool :=
  !a.inst1.isEmpty && a.cells.all (fun p => p.2.stop ≠ .running || !p.2.arrs.isEmpty)

/-- The contributions at an instance: the cells with a true condition that have not stopped. -/
def Area.contribs (a : Area) : List Contrib :=
  a.cells.filterMap (fun p =>
    match p.2.arrs with
    | x :: _ => if x.active && p.2.stop = .running then some ⟨p.2.phys, p.1, x.val, x.psn⟩ else none
    | [] => none)

/-- The value and poison that the receiving cell `cix` gets (R113–R117); `x0` is the reference arrival. -/
def Area.collResult (a : Area) (l : List Contrib) (op : BitVec 8) (f : Nat) (cix : Nat) (phys : Nat) : Word × Bool :=
  if op = opBcast then
    let src :=
      match a.cells.find? (fun p => match p.2.arrs with | x :: _ => x.active && p.2.stop = .running | [] => false) with
      | some (_, k) => (match k.arrs with | x :: _ => x.idx.toNat | [] => 0)
      | none => 0
    match l.find? (fun x => x.cix = src) with
    | some x => (x.val, x.psn)
    | none => (0, false)
  else if op = opReduceInt then (combine false f none l, l.any (·.psn))
  else if op = opReduceFloat then (combine true f none l, l.any (·.psn))
  else if op = opScanInt then
    let l := l.filter (fun x => x.cix < cix)
    (combine false f none l, l.any (·.psn))
  else if op = opScanFloat then
    let l := l.filter (fun x => x.cix < cix)
    (combine true f (some phys) l, l.any (·.psn))
  else if op = opCount then (BitVec.ofNat 64 (l.filter (fun x => x.val ≠ 0)).length, l.any (·.psn))
  else if op = opFirst then
    (BitVec.ofNat 64 (match l.find? (fun x => x.val ≠ 0) with | some x => x.cix | none => a.cells.length), l.any (·.psn))
  else (0, false)

/-- Delivers an instance: each receiving cell gets its result, each waiting cell goes on. -/
def Area.deliver (a : Area) (op : BitVec 8) (f : Nat) : Area :=
  let l := a.contribs
  { a with
    done := a.done + 1
    cells := a.cells.map (fun p =>
      match p.2.arrs with
      | [] => p
      | x :: r =>
        let k := { p.2 with arrs := r }
        if k.stop ≠ .running then (p.1, k)
        else
          let k := if x.waits then { k with pc := k.pc + 4 } else k
          let v := a.collResult l op f p.1 k.phys
          (p.1, if x.active && op ≠ opAreabar then k.setS x.dst v.1 v.2 else k)) }

/-- Every hearth with a cell of an area meets a logical time. -/
def State.meetArea (s : State) (a : Area) (t : Nat) : State := a.hids.foldl (fun s h => s.meet h t) s

/-- What the cells of an area do from now on lies behind what they have done (R117). -/
def State.meetAll (s : State) (a : Area) : State := s.meetArea a (a.hids.foldl (fun t h => max t (s.now h)) 0)

/-- COLLECTIVE_COMPLETE (R109, R110): delivers the area's next instance once every cell has arrived or stopped; on a
mismatch the area is held at the named cell, whose arrival is withdrawn. -/
def execCollectiveComplete (u : Nat) (s : State) : Host.Outcome State Fault Refusal :=
  .next (
    match s.area u with
    | none => s
    | some a =>
      if a.phase ≠ .active || !a.complete1 || !(((s.ctx a.ctx).map Ctx.live).getD false) then s
      else
        match a.inst1 with
        | [] => s
        | (i0, x0) :: r =>
          let bad := r.filter (fun p => p.2.opcode ≠ x0.opcode || p.2.f ≠ x0.f)
          if bad.isEmpty then (s.meetAll a).modArea u (fun a => a.deliver x0.opcode x0.f.toNat)
          else
            let named := match bad.find? (fun p => p.2.waits) with | some p => p.1 | none => i0
            match a.cells.find named with
            | none => s
            | some k =>
              let s := s.modCell u named (fun k => { k with arrs := k.arrs.drop 1, coll := k.coll - 1 })
              s.hold u ⟨fltOperatorInvalid, 0, 0, false, false, named, k.pc, 0, a.word k 0, a.word1 k⟩ k.phys)

end Sys2Proof.Machine
end

