-- ==== Sys2Proof/Machine/Operators.lean ====
section
/-!
DEFINITION. The operator table, the microprogram caches, load scheduling, the placement of voted copies, the start and
resumption of areas, and the combining forms (R132–R141, R307, R308).
-/

namespace Sys2Proof.Machine

/-! The operator table (R132–R134). -/

/-- Expected cycles of the combining forms (Table 7.2). -/
def romExpect (op : Nat) : Option Nat :=
  if op < 0xF00 || 0xF0D < op then none
  else some (match op - 0xF00 with | 1 => 256 | 11 => 256 | 6 => 64 | 7 => 64 | 8 => 64 | 12 => 64 | 13 => 64 | _ => 128)

/-- The fields of a table entry, and whether they obey R133. -/
def parseEntry (x : Nat) (privOk : Bool) : Option OpEntry :=
  let e : OpEntry := ⟨bits x 96 32, bits x 64 16, bitOf x 62, bitOf x 61, bitOf x 60, bits x 0 55⟩
  if bitOf x 63 && e.expect ≠ 0 && e.len % 4 = 0 && 4 ≤ e.len && e.len ≤ 16384 && e.addr % 4 = 0 &&
      bits x 80 16 = 0 && bits x 55 5 = 0 && (privOk || !e.priv) && !(e.priv && e.voted) then some e
  else none

/-- The valid entry of an operator id; none when the id is unused, the entry invalid or its read faults (R134). -/
def State.readEntry (s : State) (ctx op : Nat) : Option OpEntry :=
  match romExpect op with
  | some n => some ⟨n, 4, false, true, false, 0⟩
  | none =>
    match s.ctx ctx, s.launch ctx with
    | some x, some l =>
      if op < l.nops then
        match s.peekVirt ctx (BitVec.ofNat 64 (l.optable + 16 * op)) 16 with
        | .error _ => none
        | .ok (bs, _) => parseEntry (ofLe bs) x.privOk
      else none
    | _, _ => none

/-! Residence (R135, R136). -/

/-- A resident operator serves a context's operator: a ROM form serves every context. -/
def Resident.serves (r : Resident) (ctx op : Nat) : Bool :=
  r.op = op && (match r.ctx with | none => true | some c => c = ctx)

/-- The area's state pins its operator. -/
def Phase.pins : Phase → Bool
  | .loading => true
  | .active => true
  | .held => true
  | _ => false

/-- An invalidated copy serves only the areas that were found before (R137). -/
def Resident.servesArea (r : Resident) (u : Nat) : Bool := match r.stale with | none => true | some m => u < m

/-- A resident operator is pinned in hearth `h`. -/
def State.pinned (s : State) (h : Nat) (r : Resident) : Bool :=
  s.areas.any (fun p => p.2.phase.pins && r.serves p.2.ctx p.2.op && r.servesArea p.1 && p.2.cells.any (fun q => q.2.hid = h))

/-- The copy of an operator in a hearth that area `u` may run: the fresh one, or an invalidated one that is still pinned and that an
area found since may not have (R137). -/
def State.copyFor (s : State) (h u ctx op : Nat) : Option Resident :=
  match (s.hearth h).residents.find? (fun r => r.serves ctx op && r.stale.isNone) with
  | some r => some r
  | none => (s.hearth h).residents.find? (fun r => r.serves ctx op && r.servesArea u && s.pinned h r)

/-- The copy of an operator in a hearth, whomever it serves. -/
def State.resident (s : State) (h ctx op : Nat) : Option Resident := s.copyFor h 0 ctx op

/-- Whether an operator is resident in a hearth. -/
def State.isResident (s : State) (h ctx op : Nat) : Bool := (s.resident h ctx op).isSome

/-- Whether area `u` has its operator in a hearth. -/
def State.hasCopy (s : State) (h u : Nat) (a : Area) : Bool := (s.copyFor h u a.ctx a.op).isSome

/-- Invalidated copies that nothing pins any longer are gone (R137). -/
def State.dropStale (s : State) : State :=
  { s with hearths := (s.hearths.map (fun p =>
      (p.1, { p.2 with residents := p.2.residents.filter (fun r => r.stale.isNone || s.pinned p.1 r) }))).filter (fun p => p.2 ≠ Hearth.reset) }

/-- The hearths that an area and its shadows touch. -/
def State.groupHids (s : State) (u : Nat) (a : Area) : List Nat :=
  (a.hids ++ (s.shadows u).flatMap (fun p => p.2.hids)).eraseDups

/-- Records that a cell of the hearth issued from an operator's copy (log 40). -/
def State.noteRun (s : State) (h ctx op : Nat) : State :=
  s.modHearth h (fun x =>
    { x with residents := x.residents.map (fun r =>
        if r.serves ctx op then { r with lastRun := (s.part (s.leadOf h)).sweep } else r) })

/-- Invalidates every resident operator of a context in its partition; loads in progress are given up (R137) (log 41). -/
def State.invalidate (s : State) (ctx : Nat) : State :=
  { s with hearths := (s.hearths.map (fun p =>
      (p.1, { p.2 with
        residents := p.2.residents.filterMap (fun r =>
          if r.ctx = some ctx then
            (if s.pinned p.1 r then some { r with stale := some (r.stale.getD s.nextUid) } else none)
          else some r)
        load := match p.2.load with
          | some l => if l.ctx = some ctx then none else some l
          | none => none }))).filter (fun p => p.2 ≠ Hearth.reset) }

/-! Units in service. -/

def State.leased (s : State) (u : Nat) : Bool := s.leases.any (fun l => l.unit = u)

/-- Neither leased, nor out for heat, nor retired. -/
def State.inService (s : State) (u : Nat) : Bool :=
  (s.unit u).health = .inService && !s.leased u && !(s.unit u).hot

/-- A lease or a thermal evacuation empties the hearth (R121, R291). -/
def State.evacuating (s : State) (h : Nat) : Bool :=
  s.leases.any (fun l => l.unit = hearthUnit h && l.stage = .evacuation)

/-- No area that touches the hearth is claimed (R13, R291). -/
def State.withdrawn (s : State) (h : Nat) : Bool :=
  (s.unit (hearthUnit h)).health = .retired || s.leases.any (fun l => l.unit = hearthUnit h) || (s.unit (hearthUnit h)).hot

/-- The hearth has usable cells (R121): it is neither retired nor evacuating, in test, or out for heat. -/
def State.usable (s : State) (h : Nat) : Bool :=
  (s.unit (hearthUnit h)).health = .inService && !s.leases.any (fun l => l.unit = hearthUnit h && l.stage ≠ .withdrawal) &&
    !((s.unit (hearthUnit h)).hot && !s.leases.any (fun l => l.unit = hearthUnit h))

/-! Voted copies (R307, R308). -/

/-- Cells that shadows hold (log 31). -/
def State.shadowCells (s : State) : List Nat :=
  s.areas.flatMap (fun p => match p.2.kind with | .shadow _ _ => p.2.cells.map (fun q => q.2.phys) | _ => [])

/-- The EMPTY cells of a hearth that no shadow holds. -/
def State.emptyCells (s : State) (h : Nat) : List Nat :=
  ((List.range 256).map (· + 256 * h)).filter (fun p => (s.sym p).kind = 0 && !s.shadowCells.contains p)

/-- A run in the part of a hearth reserved for a context. -/
def State.carveRun (s : State) (h ctx u : Nat) : Option Nat :=
  let mine := s.carves.get [] (h * 64 + ctx)
  findRun ((List.range 1536).filter (fun i => !mine.contains i) ++ s.unitsUsed h false) u

/-- Slots for a shadow's tile operands in hearth `h`, from the carve-out; none when there is no room. -/
def State.shadowSlots (s : State) (v ctx h : Nat) : List Nat → Option State
  | [] => some s
  | x :: r =>
    match s.slots.find (slotKey v ctx x), s.slotOf 0 ctx x with
    | none, some (_, sl) =>
      match s.carveRun h ctx sl.units with
      | none => none
      | some i =>
        let y : Slot := { sl with hid := h, unit := i, tags := [], moving := none, displaced := false, dying := false }
        let s := s.copyTile sl.base y.base sl.size
        { s with slots := s.slots.set (slotKey v ctx x) y }.shadowSlots v ctx h r
    | _, _ => s.shadowSlots v ctx h r

/-- The candidate hearths for shadow `n` of an area in hearth `h0`, in the order of R307 (log 49). -/
def State.shadowOrder (s : State) (h0 n : Nat) : List Nat :=
  let l := s.leadOf h0
  let dies := (s.part l).dies
  if dies < 3 then s.partHearths l
  else
    let d := l + (dieOf h0 - l + n) % dies
    let p := d * 256 + h0 % 256
    let near := (List.range 256).flatMap (fun k =>
      (if d * 256 ≤ p - (k + 1) && k + 1 ≤ p then [p - (k + 1)] else []) ++ (if p + (k + 1) < (d + 1) * 256 then [p + (k + 1)] else []))
    p :: near ++ s.partHearths l

/-- Places one shadow in the first hearth of the list that takes it. -/
def State.placeShadow (s : State) (u : Nat) (a : Area) (n : Nat) (avoid : List Nat) : List Nat → Option (Nat × State)
  | [] => none
  | h :: r =>
    let free := s.emptyCells h
    if avoid.contains h || !s.usable h || s.withdrawn h || free.length < a.cells.length then s.placeShadow u a n avoid r
    else
      match s.shadowSlots s.nextUid a.ctx h (s.tileHandles a) with
      | none => s.placeShadow u a n avoid r
      | some t =>
        let b : Area := { a with
          kind := .shadow n u
          phase := .found
          cells := (a.cells.zip free).map (fun p => (p.1.1, Cell.start p.2)) }
        some (h, { t.fresh with areas := t.areas.set t.nextUid b })

/-- Places both shadows of a voted area, or none. -/
def State.placeShadows (s : State) (u : Nat) (a : Area) : Option State :=
  let h0 := a.home
  match s.placeShadow u a 1 [h0] (s.shadowOrder h0 1) with
  | none => none
  | some (h1, t) => (t.placeShadow u a 2 [h0, h1] (t.shadowOrder h0 2)).map (·.2)

/-! Start and resumption of areas. -/

/-- An area begins to run: each hearth's resident copy is what its cells run (log 37). -/
def State.captureCode (s : State) (u : Nat) : State :=
  s.modArea u (fun a => { a with
    phase := .active
    code := a.hids.foldl (fun t h => match s.copyFor h u a.ctx a.op with | some r => t.put [] h r.code | none => t) a.code
    entry := (s.copyFor a.home u a.ctx a.op).map (·.entry) })

/-- The contexts whose areas may be claimed (R322). -/
def Ctx.claims (x : Ctx) : Bool := x.status = .running || x.status = .preempting

/-- A found or loading area whose operator is resident in every hearth it touches begins to run (Table 1.4). A voted area needs its
shadows placed first, and stays found without a placement (R307). -/
def State.tryStart (s : State) (u : Nat) : State :=
  match s.area u with
  | none => s
  | some a =>
    let live := ((s.ctx a.ctx).map Ctx.claims).getD false
    if a.kind ≠ .user || !(a.phase = .found || a.phase = .loading) || !live || !a.hids.all (fun h => s.hasCopy h u a) then s
    else
      let voted := ((s.copyFor a.home u a.ctx a.op).map (·.entry.voted)).getD false
      if !voted then (s.dropShadows u).captureCode u
      else if 256 < a.cells.length || 1 < a.hids.length then s.holdNoInstr u fltOperatorInvalid 0
      else
        let s? := if (s.shadows u).isEmpty then s.placeShadows u a else some s
        match s? with
        | none => s.modArea u (fun a => { a with phase := .found })
        | some s =>
          if ((u, a) :: s.shadows u).all (fun p => p.2.hids.all (fun h => s.hasCopy h p.1 p.2)) then
            ((s.shadows u).map (·.1)).foldl (fun s v => s.captureCode v) (s.captureCode u)
          else s

/-- What a sweep does with an area that it has found: it reads the entry once where the operator is not resident, and holds the
area when there is no valid one, or when a voted area breaks the limits; a voted area without shadows gets them where there is a
placement (R134, R307) (log 39). -/
def State.checkFound (s : State) (u : Nat) : State :=
  match s.area u with
  | none => s
  | some a =>
    let live := ((s.ctx a.ctx).map Ctx.claims).getD false
    if a.kind ≠ .user || a.phase ≠ .found || !live then s
    else
      let here := a.hids.all (fun h => s.hasCopy h u a)
      let e? := match a.entry with
        | some e => some e
        | none => if here then (s.copyFor a.home u a.ctx a.op).map (·.entry) else s.readEntry a.ctx a.op
      match e? with
      | none => s.holdNoInstr u fltOperatorInvalid 0
      | some e =>
        let s := s.modArea u (fun a => { a with entry := some e })
        if !e.voted then s
        else if 256 < a.cells.length || 1 < a.hids.length then s.holdNoInstr u fltOperatorInvalid 0
        else if (s.shadows u).isEmpty then (s.placeShadows u { a with entry := some e }).getD s
        else s

/-- A suspended area that nothing suspends any longer goes on when its operator is resident: the evacuations that suspended it are
complete (R17, R136, R291). -/
def State.tryResume (s : State) (u : Nat) : State :=
  match s.area u with
  | none => s
  | some a =>
    let live := ((s.ctx a.ctx).map Ctx.claims).getD false
    if a.kind = .user && a.phase = .suspended && live && a.evac = [] && a.hids.all (fun h => !s.withdrawn h && s.hasCopy h u a) then
      -- an area that a restore brought back waiting has no wait of a cell to show for it
      (s.captureCode u).modArea u (fun a => { a with left := if a.cells.all (fun p => p.2.wait.isNone) then a.left else 2 })
    else s

/-- Starts and resumes every area that can. -/
def State.startAreas (s : State) : State :=
  (s.areas.map (·.1)).foldl (fun s u => (s.tryStart u).tryResume u) s.dropStale

/-! Load scheduling (R138). -/

/-- A demand for an operator in a hearth: ROM forms have no context. -/
structure Demand where
  ctx : Option Nat
  op : Nat
  /-- A context that asked, for its table and its priority. -/
  by_ : Nat
  weight : Nat
  /-- Its area's age, stamp and address; an OPLD request never saturates. -/
  age : Nat
  stamp : Nat
  addr : Nat
deriving DecidableEq, Repr

/-- The key of an operator: ROM forms stand after every context. -/
def opKey (ctx : Option Nat) (op : Nat) : Nat := (ctx.getD 64) * 4096 + op

/-- The identity of an operator. -/
def opCtx (ctx op : Nat) : Option Nat := if (romExpect op).isSome then none else some ctx

/-- The demand in hearth `h` (R138) (log 38). -/
def State.demand (s : State) (h : Nat) : List Demand :=
  let prio (c : Nat) : Nat := ((s.launch c).map (·.prio)).getD 0
  let ofAreas := s.areas.filterMap (fun p =>
    let a := p.2
    let live := ((s.ctx a.ctx).map Ctx.claims).getD false
    let wants := a.phase = .found || a.phase = .loading || (a.phase = .suspended && a.hids.all (fun h => !s.withdrawn h))
    if !a.kind.supervisor && live && wants && a.hids.contains h && !s.hasCopy h p.1 a then
      let age := s.ctxSweep a.ctx - a.stamp
      some ⟨opCtx a.ctx a.op, a.op, a.ctx, (prio a.ctx + 1) * (16 + min age 255), age, a.stamp, areaAddr a.ctx a.pos⟩
    else none)
  let now := (s.part (s.leadOf h)).sweep
  let ofOplds := (s.hearth h).oplds.filterMap (fun o =>
    if s.isResident h o.ctx o.op || o.begun + 256 ≤ now then none else some ⟨opCtx o.ctx o.op, o.op, o.ctx, (prio o.ctx + 1) * 16, 0, 0, 0⟩)
  ofAreas ++ ofOplds

/-- The least element by a measure, the first of equals. -/
def leastBy {α : Type} (f : α → Nat) : List α → Option α
  | [] => none
  | x :: r =>
    match leastBy f r with
    | none => some x
    | some y => if f y < f x then some y else some x

/-- An invocation of the hearth waits for a supervisor cell (R316). -/
def Area.awaitsSup (a : Area) (h : Nat) : Bool := a.kind.supervisor && a.cells.any (fun q => q.2.hid = h && q.2.sup.isNone)

/-- The operator a hearth chooses: its identity, id, and the asking context. -/
def State.chooseLoad (s : State) (h : Nat) : Option (Option Nat × Nat × Nat) :=
  let sup := s.areas.filter (fun p =>
    p.2.awaitsSup h && ((s.ctx p.2.ctx).map Ctx.live).getD false && !s.hasCopy h p.1 p.2)
  match leastBy (·.1) sup with
  | some (_, a) => some (opCtx a.ctx a.op, a.op, a.ctx)
  | none =>
    let d := s.demand h
    match leastBy (fun x => x.stamp * 2 ^ 64 + x.addr) (d.filter (fun x => 256 ≤ x.age)) with
    | some x => some (x.ctx, x.op, x.by_)
    | none =>
      let w (x : Demand) : Nat := (d.filter (fun y => opKey y.ctx y.op = opKey x.ctx x.op)).foldl (fun n y => n + y.weight) 0
      let top := d.foldl (fun n x => max n (w x)) 0
      (leastBy (fun x => opKey x.ctx x.op) (d.filter (fun x => w x = top))).map (fun x => (x.ctx, x.op, x.by_))

/-- The entries of a hearth's cache that a load may take, the first to go first: free ones, then those of the least
recently run unpinned operators, ties to the lower number (R136) (log 40). -/
def State.evictable (s : State) (h : Nat) : List Nat :=
  let x := s.hearth h
  let owner (e : Nat) : Option Resident := x.residents.find? (fun r => r.ents.contains e)
  let rank (e : Nat) : Option Nat :=
    match owner e with
    | none => some 0
    | some r => if s.pinned h r then none else if r.stale.isSome then some 0 else some (r.lastRun + 1)
  let l := (List.range 16).filterMap (fun e => (rank e).map (fun k => k * 16 + e))
  (sortBy (fun x y => decide (x < y)) l).map (· % 16)

/-- Holds the areas that wait on an operator in a hearth, suspended ones that await it too (R138); a supervisor operator's failure is fatal (log 39). -/
def State.failLoad (s : State) (h : Nat) (ctx : Option Nat) (op : Nat) : State :=
  let us := s.areas.filterMap (fun p =>
    let found := p.2.phase = .found || p.2.phase = .loading ||
      (p.2.phase = .suspended && ((s.ctx p.2.ctx).map Ctx.claims).getD false && p.2.hids.all (fun h => !s.withdrawn h))
    let waits := if p.2.kind.supervisor then p.2.awaitsSup h else found && p.2.hids.contains h
    if opCtx p.2.ctx p.2.op = ctx && p.2.op = op && waits && !s.hasCopy h p.1 p.2 then
      (match p.2.kind with | .shadow _ o => some o | _ => some p.1) else none)
  us.eraseDups.foldl (fun s u => s.holdNoInstr u fltOperatorInvalid 0) s

/-- The end of a sweep: the hearth begins at most one load (R138) (log 39). -/
def State.beginLoad (s : State) (h : Nat) : State :=
  let s := s.dropStale
  if (s.hearth h).load.isSome then s
  else
    match s.chooseLoad h with
    | none => s
    | some (ctx, op, by_) =>
      match s.readEntry by_ op with
      | none => s.failLoad h ctx op
      | some e =>
        let k := if ctx.isNone then 1 else ceilDiv e.len 4096
        let es := s.evictable h
        if es.length < k then s
        else
          let take := es.take k
          let s := s.modHearth h (fun x => { x with
            residents := x.residents.filter (fun r => !r.ents.any (fun i => take.contains i))
            load := some ⟨ctx, op, e, take, (s.part (s.leadOf h)).sweep⟩ })
          { s with areas := s.areas.map (fun p =>
              if p.2.phase = .found && !p.2.kind.supervisor && opCtx p.2.ctx p.2.op = ctx && p.2.op = op && p.2.hids.contains h &&
                  !(p.2.isVoted && p.2.kind = .user && (s.shadows p.1).isEmpty) then
                (p.1, { p.2 with phase := .loading })
              else p) }

/-- `n` bytes of a microprogram, page by page, at a virtual address, for hearth `h`; none when a page faults. -/
def State.fetchBytes (s : State) (h ctx : Nat) : Nat → Nat → Nat → Option (List Byte) × State
  | 0, _, _ => (some [], s)
  | _, _, 0 => (some [], s)
  | fuel + 1, va, n =>
    match s.need h ctx ((BitVec.ofNat 55 va).signExtend 64) .exec with
    | (.error _, s) => (none, s)
    | (.ok t, s) =>
      let k := min n (65536 - va % 65536)
      let l := Loc.phys t va
      let (r, s) := (s.touchPlain l k false).fetchBytes h ctx fuel (va + k) (n - k)
      (r.map (fun r => (s.readLoc l k).1 ++ r), s)

/-- MICROPROGRAM_FETCH_COMPLETE (R138): the operator becomes resident and areas start, or its areas are held. It counts as run in the
sweep in which its load ends: the spec gives no rank to an operator from which no cell has issued (log 40). -/
def execMicroprogramFetchComplete (h : Nat) (s : State) : Host.Outcome State Fault Refusal :=
  .next (
    match (s.hearth h).load with
    | none => s
    | some l =>
      let t := s.modHearth h (fun x => { x with load := none })
      let (code, t) := match l.ctx with | none => (some [], t) | some c => t.fetchBytes h c 3 l.entry.addr l.entry.len
      s.behindWalks (
        match code with
        | none => t.failLoad h l.ctx l.op
        | some bs =>
          let t := t.modHearth h (fun x => { x with
            residents := x.residents ++ [⟨l.ctx, l.op, l.entry, bs, l.ents, (t.part (t.leadOf h)).sweep, none⟩]
            oplds := x.oplds.filter (fun o => !(opCtx o.ctx o.op = l.ctx && o.op = l.op)) })
          (t.count h 6 1).startAreas))

/-- OPLD (R139): it consumes no poison, and a poisoned register asks for nothing (log 80). -/
def execOpld (c : Cond) (a : SReg) (s : State) : Host.Outcome State Fault Refusal :=
  s.gate c 1 [a] (fun ar k s =>
    let op := bits (k.sreg a).toNat 0 12
    let h := k.hid
    let loading := match (s.hearth h).load with | some l => l.ctx = opCtx ar.ctx op && l.op = op | none => false
    let t :=
      if k.spsn a || s.isResident h ar.ctx op || loading || (s.readEntry ar.ctx op).isNone then s
      else
        s.modHearth h (fun x => { x with
          oplds := x.oplds.filter (fun o => !(opCtx o.ctx o.op = opCtx ar.ctx op && o.op = op)) ++ [⟨ar.ctx, op, (s.part (s.leadOf h)).sweep⟩] })
    t.finish k 1 id)

/-- OPLD_REQUEST_EXPIRY (R139): a request lapses after 256 sweeps. -/
def execOpldRequestExpiry (h ctx op : Nat) (s : State) : Host.Outcome State Fault Refusal :=
  .next (s.modHearth h (fun x => { x with
    oplds := x.oplds.filter (fun o => !(o.ctx = ctx && o.op = op && o.begun + 256 ≤ (s.part (s.leadOf h)).sweep)) }))

/-- VOTED_PLACEMENT_TIMEOUT (R307): a voted area without placement for 1,024 sweeps is held. -/
def execVotedPlacementTimeout (u : Nat) (s : State) : Host.Outcome State Fault Refusal :=
  .next (
    match s.area u with
    | none => s
    | some a =>
      if a.kind = .user && a.phase = .found && a.isVoted && (s.shadows u).isEmpty && a.since + 1024 ≤ s.ctxSweep a.ctx then
        s.holdNoInstr u fltOperatorInvalid 0
      else s)

/-! The combining forms (R140). -/

/-- Objects of a list of symbols: atoms, or whole sequences. -/
def splitObjs : List Sym → Nat → List Sym → List (List Sym)
  | [], _, _ => []
  | y :: r, depth, cur =>
    let cur := cur ++ [y]
    let d := if y.kind = 3 then depth + 1 else if y.kind = 4 then depth - 1 else depth
    if d = 0 then cur :: splitObjs r 0 [] else splitObjs r d cur

/-- The objects of a sequence. -/
def seqItems (o : List Sym) : Option (List (List Sym)) :=
  match o with
  | y :: r => if y.kind = 3 then some (splitObjs r.dropLast 0 []) else none
  | [] => none

/-- What an operand must be. -/
inductive Shape where
  | any
  | oper
  | int
  | seq
  /-- A sequence of sequences of one length. -/
  | rows
deriving DecidableEq, Repr

def Shape.ok (p : Shape) (o : List Sym) : Bool :=
  match p, o with
  | .any, _ => true
  | .oper, [y] => y.kind = 5
  | .int, [y] => y.kind = 6
  | .seq, o => (seqItems o).isSome
  | .rows, o =>
    (match seqItems o with
    | none => false
    | some l =>
      let ns := l.map (fun x => (seqItems x).map List.length)
      ns.all (fun n => n.isSome && n = ns.head?.getD none))
  | _, _ => false

/-- The first operand that does not match, as its index: the number of operands when one is missing (log 42). -/
def badOperand : List Shape → List (List Sym) → Nat → Option Nat
  | [], [], _ => none
  | [], _ :: _, i => some i
  | _ :: _, [], i => some i
  | p :: ps, o :: os, i => if p.ok o then badOperand ps os (i + 1) else some i

def symOpen : Sym := ⟨1, false, false, 0⟩
def symClose : Sym := ⟨2, false, false, 0⟩
def symLt : Sym := ⟨3, false, false, 0⟩
def symGt : Sym := ⟨4, false, false, 0⟩

/-- An application of `f` to objects, and a sequence of objects: new brackets, not poisoned, also where an operand's own brackets were
(log 42). -/
def mkApp (f : List Sym) (xs : List (List Sym)) : List Sym := symOpen :: f ++ xs.flatten ++ [symClose]
def mkSeq (xs : List (List Sym)) : List Sym := symLt :: xs.flatten ++ [symGt]

/-- T of fold, by halves. -/
def foldT (f : List Sym) : Nat → List (List Sym) → List Sym
  | 0, _ => mkSeq []
  | _, [] => mkSeq []
  | _, [x] => x
  | n + 1, xs =>
    let m := (xs.length + 1) / 2
    mkApp f [foldT f n (xs.take m), foldT f n (xs.drop m)]

/-- The columns of rows of length `m`. -/
def columns (m : Nat) (rows : List (List (List Sym))) : List (List Sym) :=
  (List.range m).map (fun j => mkSeq (rows.map (fun r => r.getD j [])))

/-- The operands that a form takes (log 42). -/
def formShape (op n : Nat) : List Shape :=
  match op - 0xF00 with
  | 0 => [.oper, .seq]
  | 1 => [.oper, .seq]
  | 2 => List.replicate (max (n - 1) 1) .oper ++ [.any]
  | 3 => List.replicate (max (n - 1) 1) .oper ++ [.any]
  | 4 => if n ≤ 3 then [.int, .any, .any] else [.int, .oper, .oper, .any]
  | 5 => [.int, .seq]
  | 6 => [.any]
  | 7 => [.any, .any]
  | 8 => [.seq]
  | 9 => [.any, .seq]
  | 10 => [.seq, .any]
  | 11 => [.rows]
  | 12 => [.any, .seq]
  | _ => [.seq, .any]

/-- The value of an INT operand. -/
def objInt (o : List Sym) : Int := match o with | y :: _ => y.value.toInt | [] => 0

/-- The rewrite of Table 7.2 for operands of the right shape; none for a pick index outside its sequence (log 42). -/
def formResult (op : Nat) (os : List (List Sym)) : Option (List Sym) :=
  let items (i : Nat) : List (List Sym) := (seqItems (os.getD i [])).getD []
  let o (i : Nat) : List Sym := os.getD i []
  match op - 0xF00 with
  | 0 => some (mkSeq ((items 1).map (fun x => mkApp (o 0) [x])))
  | 1 => some (foldT (o 0) (items 1).length (items 1))
  | 2 => some (os.dropLast.foldr (fun f x => mkApp f [x]) (os.getLast?.getD []))
  | 3 => some (mkSeq (os.dropLast.map (fun f => mkApp f [os.getLast?.getD []])))
  | 4 =>
    if os.length ≤ 3 then some (if objInt (o 0) ≠ 0 then o 1 else o 2)
    else some (mkApp (if objInt (o 0) ≠ 0 then o 1 else o 2) [o 3])
  | 5 => if 1 ≤ objInt (o 0) then (items 1)[(objInt (o 0)).toNat - 1]? else none
  | 6 => some (o 0)
  | 7 => some (o 0)
  | 8 => some [⟨6, false, false, BitVec.ofNat 64 (items 0).length⟩]
  | 9 => some (mkSeq ((items 1).map (fun x => mkSeq [o 0, x])))
  | 10 => some (mkSeq ((items 0).map (fun x => mkSeq [x, o 1])))
  | 11 =>
    let rows := (items 0).map (fun x => (seqItems x).getD [])
    some (mkSeq (columns ((rows.map List.length).headD 0) rows))
  | 12 => some (mkSeq (o 0 :: items 1))
  | _ => some (mkSeq (items 0 ++ [o 1]))

/-- The lowest cix of operand `i`: the `)` cell when it is missing. -/
def operandCix (os : List (List Sym)) (i : Nat) : Nat := (os.take i).foldl (fun n o => n + o.length) 2

/-- Every cell stops by COMMIT, with the result stated by the first. -/
def stateForm (a : Area) (ys : List Sym) : Area :=
  let a := stateResult a ys
  { a with cells := a.cells.map (fun p => (p.1, { p.2 with stop := .commit })) }

/-- COMBINING_FORM_APPLIED (R140): the form's rewrite ends its area, or its area is held. A poisoned selector in strict mode is consumed
before its range is looked at, and a refused commit names the last cell, the `)`: the model's choices (log 42). -/
def execCombiningFormApplied (u : Nat) (s : State) : Host.Outcome State Fault Refusal :=
  .next (
    match s.area u with
    | none => s
    | some a =>
      if a.kind ≠ .user || a.phase ≠ .active || (romExpect a.op).isNone || s.inTransit a ||
          !(((s.ctx a.ctx).map Ctx.live).getD false) then s
      else
        let syms := a.cells.map (fun p => s.sym p.2.phys)
        let os := splitObjs ((syms.drop 2).dropLast) 0 []
        match badOperand (formShape a.op os.length) os 0 with
        | some i => s.holdNoInstr u fltOperatorInvalid (operandCix os i)
        | none =>
          let selector := a.op = 0xF04 || a.op = 0xF05
          let bad := selector && (os.getD 0 []).any (·.poison)
          if bad && s.strict a.ctx then s.holdNoInstr u fltPoisonConsumed 2
          else
            match formResult a.op os with
            | none => s.holdNoInstr u fltOperatorInvalid 2
            | some ys =>
              let s := s.modArea u (fun a => { stateForm a ys with consumed := a.consumed || bad })
              s.ended u (a.cells.length - 1))

end Sys2Proof.Machine
end

