-- ==== Sys2Proof/Machine/Tiles.lean ====
section
/-!
DEFINITION. Slots and their handles, the checks of an engine command at its issue, the engine queues, and TALLOC,
TFREE, QFENCE and QWAIT (R146–R163, R173).
-/

namespace Sys2Proof.Machine

/-! Handles (R147). -/

/-- Handles of a context in use: of its slots, reclaimed or not, and those kept through a pre-emption. -/
def State.handlesUsed (s : State) (owner ctx : Nat) : List Nat :=
  s.slots.filterMap (fun p => if p.1 / 2 ^ 20 = owner * 64 + ctx then some (p.1 % 2 ^ 20) else none) ++
    (if owner = 0 then ((s.ctx ctx).map (·.keptHandles)).getD [] else [])

/-- A handle of the context not in use; the device chooses it (R147), so a free value says where the search begins (log 10). -/
def State.newHandle (s : State) (owner ctx : Nat) : Option Nat :=
  let used := s.handlesUsed owner ctx
  if 1048575 ≤ used.length then none
  else ((List.range (used.length + 1)).map (fun i => (s.freeVal.toNat + i) % 1048575)).find? (fun h => !used.contains h)

/-- The area's own slots: a shadow allocates its own (R308). -/
def ownerOf (a : Area) (u : Nat) : Nat := match a.kind with | .shadow _ _ => u | _ => 0

/-! The checks of an engine command (R155, R162). -/

/-- How a command uses a descriptor register. -/
structure Use where
  reg : TReg
  rd : Bool
  wr : Bool
deriving DecidableEq, Repr

def useSrc (r : TReg) : Use := ⟨r, true, false⟩
def useDst (r : TReg) : Use := ⟨r, false, true⟩
def useBoth (r : TReg) : Use := ⟨r, true, true⟩

/-- What the checks find. -/
inductive Check where
  | ok
  | fault (f : BitVec 8)
  /-- The cell waits on the tile in transit: a displaced slot is called to its hearth. -/
  | call (key handle : Nat)
deriving DecidableEq, Repr

/-- The first failure of a list of checks, faults before calls. -/
def Check.first : List Check → Check
  | [] => .ok
  | .fault f :: _ => .fault f
  | .call k h :: r => (match Check.first r with | .fault f => .fault f | _ => .call k h)
  | .ok :: r => Check.first r

/-- Check 4 for one operand: null, dead or foreign handles, and footprints beyond the slot. A slot on its way to the
hearth is the hearth's: the command waits for it in its queue (R124). -/
def State.checkSlot (s : State) (u : Nat) (a : Area) (hid : Nat) (d : Desc) (foot : Nat) : Check :=
  match s.slotOf u a.ctx d.handle with
  | none => .fault fltTileBounds
  | some (key, x) =>
    if x.size < foot then .fault fltTileBounds
    else if x.hid = hid || (x.moving.map (·.hid)) = some hid then .ok
    else if x.displaced then .call key d.handle
    else .fault fltTileBounds

/-- Checks 4 to 6. -/
def State.checkUses (s : State) (u : Nat) (a : Area) (k : Cell) (uses : List Use) (tags : Bool) : Check :=
  let ds := uses.map (fun x => (x, descOf (k.dreg x.reg)))
  match Check.first (ds.map (fun p => s.checkSlot u a k.hid p.2 p.2.foot)) with
  | .fault f => .fault f
  | c =>
    let slot (d : Desc) : Option Slot := (s.slotOf u a.ctx d.handle).map (·.2)
    if ds.any (fun p => p.1.rd && p.2.strict && ((slot p.2).map (fun x => decide (x.layout.toNat ≠ p.2.layout))).getD false) then
      .fault fltLayoutStrict
    else if tags && ds.any (fun p => p.1.wr && ((slot p.2).map (fun x => x.meetsTag 0 p.2.foot)).getD false) then
      .fault fltBarrierClobber
    else c

/-! The queues (R158–R162). -/

def State.queue (s : State) (h q : Nat) : List Cmd := s.queues.get [] (h * 4 + q)

/-- A new command enters behind every entry of equal or higher priority, every fence and every started entry (R158). -/
def insertCmd (l : List Cmd) (c : Cmd) : List Cmd :=
  let stops (x : Cmd) : Bool := c.pri ≤ x.pri || x.fence.isSome || x.started
  let after := (l.reverse.takeWhile (fun x => !stops x)).reverse
  l.take (l.length - after.length) ++ c :: after

/-- An empty entry of the issuing cell. -/
def State.newCmd (s : State) (a : Area) (k : Cell) (i : Instr) (pri : Nat) : Cmd :=
  { id := s.nextUid, fence := none, instr := i, hid := k.hid, ctx := a.ctx, uid := s.cur.1, cix := s.cur.2,
    round := if a.isVoted then some a.round else none, restoring := false, pri := pri, started := false, d := Opnd.none, a := Opnd.none, b := Opnd.none,
    c := Opnd.none, e := Opnd.none, scal := 0, addr := 0, pages := [], names := [], outs := [], pitch := 0, rows := [], sig := .none,
    landed := 0, got := [], key := 0, time := 0, fenced := k.fenced }

/-- Puts a command into its queue and among the issuing cell's outstanding commands. -/
def State.enqueue (s : State) (q : Nat) (c : Cmd) : State :=
  let s := { s.fresh with queues := s.queues.put [] (c.hid * 4 + q) (insertCmd (s.queue c.hid q) c) }
  s.modCell c.uid c.cix (fun k => { k with cmds := k.cmds ++ [(q, c.id)] })

/-- The keys of the slots that descriptor registers name. -/
def State.keysOf (s : State) (u : Nat) (a : Area) (k : Cell) (uses : List Use) : List Nat :=
  uses.filterMap (fun x => (s.slotOf u a.ctx (descOf (k.dreg x.reg)).handle).map (·.1))

/-- Records the layouts of the written slots (R156). -/
def State.setLayouts (s : State) (u : Nat) (a : Area) (k : Cell) (uses : List Use) : State :=
  uses.foldl (fun s x =>
    if x.wr then
      let d := descOf (k.dreg x.reg)
      match s.slotOf u a.ctx d.handle with
      | some (key, y) => { s with slots := s.slots.set key { y with layout := BitVec.ofNat 4 d.layout } }
      | none => s
    else s) s

/-- Puts a command into a queue and finishes its instruction of `n` words, or waits while the queue is full (R162, step 7). -/
def State.enter (s : State) (k : Cell) (q n : Nat) (c : Cmd) (accept : State → State) : State :=
  if 32 ≤ (s.queue k.hid q).length then s.waitQueue (BitVec.ofNat 64 (2 ^ q)) []
  else (accept (s.enqueue q c)).finish k n id

/-- Issues an engine command (R162): the checks in their order, then the queue. `fmt` holds the type and shape rules. -/
def State.issue (s : State) (a : Area) (k : Cell) (q : Nat) (i : Instr) (pri : Nat) (uses : List Use) (fmt : Bool)
    (fill : Cmd → Cmd) (accept : State → State) : State :=
  let u := s.cur.1
  s.consume a (uses.any (fun x => k.dpsn x.reg)) 0 (fun s =>
    if !(uses.all (fun x => (descOf (k.dreg x.reg)).wf)) || !fmt then s.raise fltTileFormat 0
    else
      let restoring := q = 2 && a.kind = .restore
      match s.checkUses u a k uses (!restoring) with
      | .fault f => s.raise f 0
      | .call key h => s.callTile k key h
      | .ok =>
        let c := fill { s.newCmd a k i pri with
          restoring := restoring, names := s.keysOf u a k uses, outs := s.keysOf u a k (uses.filter (·.wr)) }
        s.enter k q 2 c (fun s => accept (s.setLayouts u a k uses)))

/-- TALLOC (R150). -/
def execTalloc (c : Cond) (d : TReg) (a : SReg) (s : State) : Host.Outcome State Fault Refusal :=
  s.gate c 1 [a] (fun ar k s =>
    let n := (k.sreg a).toNat
    if n = 0 || 65536 < n then s.raise fltTileBounds 0
    else
      let u := ceilDiv n 1024
      let own := ownerOf ar s.cur.1
      let psn := k.dpsn d || k.spsn a
      let old := k.dreg d
      let put (h : Nat) (k : Cell) : Cell := k.setD d ((old &&& ~~~(0xFFFFF#64)) ||| BitVec.ofNat 64 h) psn
      match s.freeRun k.hid u none, s.newHandle own ar.ctx with
      | some i, some h =>
        let x : Slot := ⟨k.hid, i, u, old.extractLsb' 40 4, [], none, false, false⟩
        { s with slots := s.slots.set (slotKey own ar.ctx h) x, free := s.free + 1 }.finish k 1 (put h)
      | _, _ => s.finish k 1 (put nullHandle))

/-! Subscription faults (R249). -/

def State.modSub (s : State) (st : Nat) (f : Sub → Sub) : State := { s with subs := s.subs.upd st f }

/-- Sets the error bit of a ring slot's barrier and flips its phase. -/
def State.failRing (s : State) (x : Sub) (i : Nat) : State :=
  if x.bar = 0 then s else s.failBarrier (x.barrierOf i).1 (x.barrierOf i).2

/-- A subscription faults, once: no push starts any longer and every ring barrier fails. -/
def State.subFault (s : State) (st : Nat) (addr : Word) : State :=
  match s.subs.find st with
  | none => s
  | some x =>
    if x.faulted.isSome || x.dead then s
    else (List.range x.ring.length).foldl (fun s i => s.failRing x i) (s.modSub st (fun x => { x with faulted := some addr }))

/-- The subscriptions of which a slot is a ring slot. -/
def State.ringsOf (s : State) (ctx h : Nat) : List Nat :=
  s.subs.filterMap (fun p => if p.2.ctx = ctx && p.2.ring.contains h then some p.1 else none)

/-- TFREE (R151); a ring slot takes its subscription with it (R249). -/
def execTfree (c : Cond) (a : TReg) (s : State) : Host.Outcome State Fault Refusal :=
  s.gate c 1 [] (fun ar k s =>
    s.consume ar (k.dpsn a) 0 (fun s =>
      let h := (descOf (k.dreg a)).handle
      match s.slotOf s.cur.1 ar.ctx h with
      | none => s.raise fltTileBounds 0
      | some (key, x) =>
        if x.moving.isSome then s.waitOn .tile 0 (BitVec.ofNat 64 h)
        else
          let s := if key / 2 ^ 26 = 0 then (s.ringsOf ar.ctx h).foldl (fun s st => s.subFault st 0) s else s
          ({ s with slots := s.slots.upd key (fun x => { x with dying := true }) }.reclaim).finish k 1 id))

/-- The queues of a mask. -/
def queuesOf (m : BitVec 4) : List Nat := (List.range 4).filter (fun q => m.getLsbD q)

/-- QFENCE (R160). -/
def execQfence (c : Cond) (m : BitVec 4) (s : State) : Host.Outcome State Fault Refusal :=
  s.gate c 1 [] (fun ar k s =>
    if (queuesOf m).any (fun q => 32 ≤ (s.queue k.hid q).length) then s.waitQueue (m.zeroExtend 64) []
    else
      let f : Cmd := { s.newCmd ar k (.qfence c m) 0 with fence := some m }
      let s := (queuesOf m).foldl (fun s q =>
        { s with queues := s.queues.put [] (k.hid * 4 + q) (s.queue k.hid q ++ [f]) }) s.fresh
      s.finish k 1 id)

/-- QWAIT (R161). -/
def execQwait (c : Cond) (m : BitVec 4) (s : State) : Host.Outcome State Fault Refusal :=
  s.gate c 1 [] (fun _ k s =>
    if k.cmds.any (fun p => m.getLsbD p.1) then
      s.waitQueue (m.zeroExtend 64) ((k.cmds.filter (fun p => m.getLsbD p.1)).map (·.2))
    else ((queuesOf m).foldl (fun s q => s.meet k.hid (k.reached.get 0 q)) s).finish k 1 id)

/-! Performing a command on its tiles (R159, R163, R173). -/

/-- A tile as an engine sees it: its descriptor, the first byte of its slot, the poison of its descriptor register,
and the tagged words that no command writes. -/
structure Tv where
  d : Desc
  base : Nat
  psn : Bool
  tags : List Nat
deriving DecidableEq, Repr

/-- The slot that a command's operand names, a slot being freed included. -/
def State.slotFor (s : State) (c : Cmd) (h : Nat) : Option Slot :=
  match s.slots.find (slotKey c.uid c.ctx h) with
  | some x => some x
  | none => s.slots.find (slotKey 0 c.ctx h)

/-- The tile of a captured operand. -/
def State.tile1 (s : State) (c : Cmd) (o : Opnd) : Option Tv :=
  let d := descOf o.desc
  (s.slotFor c d.handle).map (fun x => ⟨d, x.base, o.psn, if c.restoring then [] else x.tags⟩)

/-- The code of an element. -/
def State.at (s : State) (t : Tv) (r c : Nat) : Nat := s.elem t.base t.d r c

/-- Poison that an element brings: its block's and its descriptor's. -/
def State.psnAt (s : State) (t : Tv) (r c : Nat) : Bool := t.psn || s.blockPoison t.base t.d r c

/-- Writes one element unless it lies in a tagged barrier word (R163). -/
def State.putElem (s : State) (t : Tv) (r c v : Nat) : State :=
  let off := t.d.off r c
  if t.tags.any (fun g => off < g + 8 && g < off + t.d.width) then s else s.setElem t.base t.d r c v

/-- Writes every element of a tile in row-major order, one draw each in mode SR; an output block is poisoned when one
of its elements is, or its descriptor register (R68, R173). `val` reads the state before the command. -/
def State.fillTile (s : State) (hid mode : Nat) (t : Tv) (val : Nat → Nat → Nat → Nat × Bool) : State :=
  t.d.blocks.foldl (fun s rj =>
    let (r, j) := rj
    let (s, p) := (List.range (min 32 (t.d.cols - 32 * j))).foldl (fun (sp : State × Bool) i =>
      let (x, s) := sp.1.draw hid mode
      let (v, q) := val r (32 * j + i) x
      (s.putElem t r (32 * j + i) v, sp.2 || q)) (s, t.psn)
    s.setBlockPoison t.base t.d r j p) s

/-- As `fillTile` into type 12: each block through EncodeMX, its scale into tile `e` (R74, R171). -/
def State.fillMX (s : State) (hid mode : Nat) (t e : Tv) (val : Nat → Nat → Val × Bool) : State :=
  t.d.blocks.foldl (fun s rj =>
    let (r, j) := rj
    let (s, xs) := (List.range (min 32 (t.d.cols - 32 * j))).foldl (fun (sx : State × List (Val × Nat)) i =>
      let (x, s) := sx.1.draw hid mode
      (s, sx.2 ++ [((val r (32 * j + i)).1, x)])) (s, [])
    let p := t.psn || e.psn || (List.range (min 32 (t.d.cols - 32 * j))).any (fun i => (val r (32 * j + i)).2)
    let (codes, scale) := encodeMX mode xs
    let s := (List.range codes.length).foldl (fun s i => s.putElem t r (32 * j + i) (codes.getD i 0)) s
    let s := s.setBlockPoison t.base t.d r j p
    let q := p || (j % 32 ≠ 0 && s.blockPoison e.base e.d r j)
    (s.putElem e r j scale).setBlockPoison e.base e.d r (j / 32) q) s

/-- A scale as DecodeMX, SCACC and TCVT read it: 0xFF when its parity fails, and whether it did (R194) (log 11). -/
def State.scaleAt (s : State) (t : Tv) (r j : Nat) : Nat × Bool :=
  if s.badScale.get false (t.base + t.d.off r j) then (255, true) else (s.at t r j, false)

/-- Reports the failing scale bytes among rows × columns of a scale tile (R194, R298) (log 11). -/
def State.reportScales (s : State) (hid : Nat) (t : Tv) (rows cols : Nat) (first : Nat) : State :=
  (List.range rows).foldl (fun s r => (List.range cols).foldl (fun s j =>
    if s.badScale.get false (t.base + t.d.off r (first + j)) then s.score (hearthUnit hid) 256 else s) s) s

end Sys2Proof.Machine
end

