-- ==== Sys2Proof/Machine/Copy.lean ====
section
/-!
DEFINITION. The copy queue: CPYIN, CPYOUT, CPYT, CPYX, GATHER, SCATTER, SCATADD, TLD and TST, what each checks at its
issue, how its elements land in parts, and its signals (R164, R228–R233, R237).
-/

namespace Sys2Proof.Machine

/-! Pages and signals at issue (R230, R231). -/

/-- The first address of each page of `n` bytes at `a`. -/
def rangePages (a : Word) (n : Nat) : List Word :=
  (List.range ((a.toNat + n - 1) / 65536 - a.toNat / 65536 + 1)).map (fun i =>
    if i = 0 then a else BitVec.ofNat 64 ((a.toNat / 65536 + i) * 65536))

/-- Translates and checks pages in order, each with the address that its fault names; a miss waits for its walk (log 47, 72). -/
def State.withPages (s : State) (ctx hid : Nat) (need : Need) :
    List (Word × Word) → List Trans → (List Trans → State → State) → State
  | [], got, body => body got s
  | (a, faddr) :: r, got, body =>
    if inTileWindow a then s.raise fltTileBounds faddr
    else if canonical a = false then s.raise fltPageFault faddr
    else
      match s.cached hid ctx (bits a.toNat 0 55) with
      | none => s.tlbMiss ctx hid a faddr
      | some t =>
        if t.allows need then
          (s.noteTrans hid (some t)).withPages ctx hid need r (if got.contains t then got else t :: got) body
        else s.raise fltProtection faddr

/-- The home of a physical address. -/
def Loc.ofPa (pa : Nat) (key : Option Nat) : Loc := if 2 ^ 47 ≤ pa then .host (pa - 2 ^ 47) else .dev pa key

/-- The amount that a counter signal adds, by bits [2:0] of its register (R231). -/
def signalAmount (d : Desc) (sel : Nat) : Option Nat :=
  match sel with
  | 0 => some 1
  | 1 => some d.bytes
  | 2 => some (d.rows * d.cols)
  | _ => none

/-- An access of the cell that is not performed yet meets the `n` bytes at the virtual address `a`, by the translations `ts` (R258). -/
def Cell.clashes (k : Cell) (ts : List Trans) (a n : Nat) : Bool :=
  k.ops.any (fun o =>
    o.done.isNone && o.kind ≠ .pref &&
      (match o.home with
        | .dev pa _ => ts.any (fun t =>
            let size := if t.big then 2 ^ 29 else 65536
            let va := t.vpage * size + (pa - t.pa 0)
            t.pa 0 ≤ pa && pa < t.pa 0 + size && va < a + n && a < va + o.width)
        | _ => false))

/-- The signal register s[b] of a copy (R231); a remote counter is translated at its device. The cell waits on the memory port until its
earlier accesses to the counter are performed (R254). -/
def State.withSignal (s : State) (ar : Area) (k : Cell) (b : SReg) (ctr remote : Bool) (d : Desc)
    (body : Signal → State → State) : State :=
  let a := k.sreg b
  if b = 0 then body .none s
  else if ctr then
    match signalAmount d (bits a.toNat 0 3) with
    | none => s.raise fltMisaligned a
    | some n =>
      let a := a &&& ~~~(7#64)
      if remote then body (.counter a.toNat none n) s
      else if inTileWindow a then s.raise fltTileBounds a
      else
        s.withPages ar.ctx k.hid .both [(a, a)] [] (fun ts s =>
          match ts with
          | t :: _ =>
            if k.clashes ts (bits a.toNat 0 55) 8 then s.waitOn .port a 0
            else body (.counter (t.pa (bits a.toNat 0 55)) t.key n) s
          | [] => s)
  else if a.toNat % 8 ≠ 0 then s.raise fltMisaligned a
  else
    match s.windowSlot s.cur.1 ar.ctx a with
    | none => s.raise fltTileBounds a
    | some (key, off) =>
      match s.slots.find key with
      | none => s.raise fltTileBounds a
      | some x =>
        if x.hid ≠ k.hid && (x.moving.map (·.hid)) ≠ some k.hid then
          (if x.displaced then s.callTile k key (bits a.toNat 16 20) else s.raise fltTileBounds a)
        else if !x.tags.contains off then s.raise fltTileFormat a
        else body (.barrier key off) s

/-- The slot that a signal names. -/
def Signal.slots : Signal → List Nat
  | .barrier key _ => [key]
  | _ => []

/-- A signal adds to a counter in host memory. -/
def Signal.inHost : Signal → Bool
  | .counter pa _ _ => decide (2 ^ 47 ≤ pa)
  | _ => false

/-- The address checks on A of a copy between a slot and memory (R164, R230): alignment, the tile window, the pages. A cell waits on the
memory port until its earlier accesses to the same bytes are performed (R258, log 30). -/
def State.withImage (s : State) (ar : Area) (k : Cell) (a : Word) (n : Nat) (need : Need)
    (body : List Trans → State → State) : State :=
  if a.toNat % 16 ≠ 0 then s.raise fltMisaligned a
  else if inTileWindow a then s.raise fltTileBounds a
  else
    s.withPages ar.ctx k.hid need ((rangePages a n).map (fun p => (p, a))) [] (fun ts s =>
      if k.clashes ts (bits a.toNat 0 55) n then s.waitOn .port a 0 else body ts s)

/-! What a voted copy may write (R308). -/

/-- A write command of a voted copy that touches a host page, or that would pass 1,024 held lines. -/
def State.notHeld (s : State) (ar : Area) (u : Nat) (c : Cmd) : Bool :=
  c.pages.any (fun t => 2 ^ 47 ≤ t.pa 0) || c.sig.inHost || s.tooManyLines u ar c.lines

/-- A copy to memory passes on unless its voted area may not hold it. -/
def State.heldCheck (s : State) (ar : Area) (a : Word) (c : Cmd) (body : State → State) : State :=
  if ar.isVoted && s.notHeld ar s.cur.1 c then s.raise fltOperatorInvalid a else body s

/-! Issue. -/

/-- CPYIN and CPYOUT (R229, R230). -/
def copyIssue (i : Instr) (inward : Bool) (pri : BitVec 2) (ctr : Bool) (d : TReg) (a b : SReg) (m : MWord) :
    Area → Cell → State → State :=
  fun ar k s =>
    let addr := k.addr a m
    let x := descOf (k.dreg d)
    s.consume ar (k.spsn a || k.spsn b) addr (fun s =>
      s.withImage ar k addr (x.memFoot x.stride) (if inward then .read else .write) (fun ts s =>
        s.withSignal ar k b ctr false x (fun g s =>
          let fill (c : Cmd) : Cmd :=
            { c with d := k.opnd d, addr := addr, pages := ts, pitch := x.stride, sig := g, names := c.names ++ g.slots }
          let go (s : State) : State := s.issue ar k 2 i pri.toNat [if inward then useDst d else useSrc d] true fill id
          if inward then (if ar.isVoted && g.inHost then s.raise fltOperatorInvalid addr else go s)
          else s.heldCheck ar addr (fill (s.newCmd ar k i pri.toNat)) go)))

def execCpyin (c : Cond) (pri : BitVec 2) (ctr : Bool) (d : TReg) (a b : SReg) (m : MWord) (s : State) :
    Host.Outcome State Fault Refusal :=
  s.gate c 2 [a, b] (copyIssue (.cpyin c pri ctr d a b m) true pri ctr d a b m)

def execCpyout (c : Cond) (pri : BitVec 2) (ctr : Bool) (d : TReg) (a b : SReg) (m : MWord) (s : State) :
    Host.Outcome State Fault Refusal :=
  s.gate c 2 [a, b] (copyIssue (.cpyout c pri ctr d a b m) false pri ctr d a b m)

/-- CPYT: equal types, rows and columns. -/
def execCpyt (c : Cond) (pri : BitVec 2) (ctr : Bool) (d a : TReg) (b : SReg) (m : MWord) (s : State) :
    Host.Outcome State Fault Refusal :=
  s.gate c 2 [b] (fun ar k s =>
    let x := descOf (k.dreg d)
    let y := descOf (k.dreg a)
    s.consume ar (k.spsn b) 0 (fun s =>
      s.withSignal ar k b ctr false x (fun g s =>
        if ar.isVoted && g.inHost then s.raise fltOperatorInvalid 0
        else
          s.issue ar k 2 (.cpyt c pri ctr d a b m) pri.toNat [useDst d, useSrc a]
            (x.type = y.type && x.rows = y.rows && x.cols = y.cols)
            (fun q => { q with d := k.opnd d, a := k.opnd a, sig := g, names := q.names ++ g.slots }) id)))

/-- The device that a CPYX names, in word 1. -/
def devOf (m : MWord) : Nat := bits m.offset.toNat 0 12

/-- CPYX: its address is translated at the device, not at issue; one to the issuer's own device waits until the cell's earlier accesses are
performed, which may be to the same bytes (R258, R346) (log 51). -/
def execCpyx (c : Cond) (pri : BitVec 2) (ctr : Bool) (d : TReg) (a b : SReg) (m : MWord) (s : State) :
    Host.Outcome State Fault Refusal :=
  s.gate c 2 [a, b] (notVoted (fun ar k s =>
    let addr := k.sreg a
    let x := descOf (k.dreg d)
    s.consume ar (k.spsn a || k.spsn b) addr (fun s =>
      if inTileWindow addr then s.raise fltTileBounds addr
      else if devOf m = s.fabdev && !k.settled then s.waitOn .port addr 0
      else
        s.withSignal ar k b ctr true x (fun g s =>
          s.issue ar k 2 (.cpyx c pri ctr d a b m) pri.toNat [useSrc d] true
            (fun q => { q with d := k.opnd d, addr := addr, pitch := x.stride, sig := g, names := q.names ++ g.slots }) id))))

/-- An indexed copy in the order of R233 (log 53). -/
def indexedIssue (i : Instr) (need : Need) (types : Nat → Bool) (dst : Bool) (pri : BitVec 2) (d : TReg) (a : SReg)
    (b : TReg) (m : MWord) : Area → Cell → State → State :=
  fun ar k s =>
    let addr := k.addr a m
    let x := descOf (k.dreg d)
    let y := descOf (k.dreg b)
    let u := s.cur.1
    let ud := if dst then useDst d else useSrc d
    let part (s : State) (r : TReg) (fmt : Bool) (use : Use) (go : State → State) : State :=
      s.consume ar (k.dpsn r) 0 (fun s =>
        if !(descOf (k.dreg r)).wf || !fmt then s.raise fltTileFormat 0
        else
          match s.checkUses u ar k [use] false with
          | .fault f => s.raise f 0
          | .call key h => s.callTile k key h
          | .ok => go s)
    s.consume ar (k.spsn a) addr (fun s =>
      if addr.toNat % 16 ≠ 0 then s.raise fltMisaligned addr
      else if inTileWindow addr then s.raise fltTileBounds addr
      else
        part s d (x.layout ≠ 1 && types x.type) ud (fun s =>
        part s b ((y.type = 4 || y.type = 6) && ((y.rows = x.rows && y.cols = 1) || (y.rows = 1 && y.cols = x.rows)))
          (useSrc b) (fun s =>
          match s.slotOf u ar.ctx y.handle with
          | none => s.raise fltTileBounds 0
          | some (key, sl) =>
            let busy := s.queues.flatMap (fun q =>
              (q.2.filter (fun c => k.cmds.any (fun p => p.2 = c.id) && c.outs.contains key)).map (·.id))
            if busy ≠ [] then s.waitQueue 0xF busy
            else if sl.moving.isSome then s.waitOn .tile 0 (BitVec.ofNat 64 y.handle)
            else
              let at_ (r : Nat) : Nat × Nat := if y.rows = 1 then (0, r) else (r, 0)
              let psn := y.elems.any (fun p => s.blockPoison sl.base y p.1 p.2)
              s.consume ar psn 0 (fun s =>
                let rows : List Int := (List.range x.rows).map (fun r =>
                  sInt (typeBits y.type) (s.elem sl.base y (at_ r).1 (at_ r).2) * x.stride)
                let starts : List Word := rows.map (fun o => addr + BitVec.ofInt 64 o)
                s.withPages ar.ctx k.hid need
                  (starts.flatMap (fun w => (rangePages w (elemBytes x.type x.cols)).map (fun p => (p, w)))) [] (fun ts s =>
                  let c : Cmd := { s.newCmd ar k i pri.toNat with
                    restoring := ar.kind = .restore
                    names := s.keysOf u ar k [ud, useSrc b]
                    outs := if dst then s.keysOf u ar k [ud] else []
                    d := k.opnd d, addr := addr, pages := ts, rows := rows }
                  match s.checkUses u ar k [ud] (decide (ar.kind ≠ .restore)) with
                  | .fault f => s.raise f 0
                  | .call key h => s.callTile k key h
                  | .ok =>
                    if starts.any (fun w => k.clashes ts (bits w.toNat 0 55) (elemBytes x.type x.cols)) then s.waitOn .port addr 0 else
                    let go (s : State) : State := s.enter k 2 2 c (fun s => s.setLayouts u ar k [ud])
                    if dst then go s else s.heldCheck ar addr c go)))))

def execGather (c : Cond) (pri : BitVec 2) (d : TReg) (a : SReg) (b : TReg) (m : MWord) (s : State) :
    Host.Outcome State Fault Refusal :=
  s.gate c 2 [a] (indexedIssue (.gather c pri d a b m) .read (fun _ => true) true pri d a b m)

def execScatter (c : Cond) (pri : BitVec 2) (d : TReg) (a : SReg) (b : TReg) (m : MWord) (s : State) :
    Host.Outcome State Fault Refusal :=
  s.gate c 2 [a] (indexedIssue (.scatter c pri d a b m) .both (fun _ => true) false pri d a b m)

def execScatadd (c : Cond) (pri : BitVec 2) (d : TReg) (a : SReg) (b : TReg) (m : MWord) (s : State) :
    Host.Outcome State Fault Refusal :=
  s.gate c 2 [a] (notVoted (indexedIssue (.scatadd c pri d a b m) .both
    (fun t => t = 4 || t = 5 || t = 6 || t = 9) false pri d a b m))

/-- TLD (R164). -/
def execTld (c : Cond) (pri : BitVec 2) (d : TReg) (a : SReg) (m : MWord) (s : State) : Host.Outcome State Fault Refusal :=
  s.gate c 2 [a] (fun ar k s =>
    let addr := k.addr a m
    s.consume ar (k.spsn a) addr (fun s =>
      s.withImage ar k addr (descOf (k.dreg d)).foot .read (fun ts s =>
        s.issue ar k 2 (.tld c pri d a m) pri.toNat [useDst d] true
          (fun q => { q with d := k.opnd d, addr := addr, pages := ts }) id)))

/-- TST (R164), held in a voted area as CPYOUT is. -/
def execTst (c : Cond) (pri : BitVec 2) (a : SReg) (b : TReg) (m : MWord) (s : State) : Host.Outcome State Fault Refusal :=
  s.gate c 2 [a] (fun ar k s =>
    let addr := k.addr a m
    s.consume ar (k.spsn a) addr (fun s =>
      s.withImage ar k addr (descOf (k.dreg b)).foot .write (fun ts s =>
        let fill (q : Cmd) : Cmd := { q with d := k.opnd b, addr := addr, pages := ts }
        s.heldCheck ar addr (fill (s.newCmd ar k (.tst c pri a b m) pri.toNat)) (fun s =>
          s.issue ar k 2 (.tst c pri a b m) pri.toNat [useSrc b] true fill id))))

/-! Elements between a slot and memory. -/

/-- The code of an element of the image in memory and the poison of its line. -/
def State.imageElem (s : State) (c : Cmd) (d : Desc) (r j : Nat) : Nat × Bool :=
  match c.loc (c.elemVa d r j) with
  | none => (0, false)
  | some l =>
    let (bs, p) := s.readLoc l d.width
    let v := ofLe bs
    (if d.type = 12 then (if d.high r j then v / 16 else v % 16) else v, p)

/-- An element lands in a slot: its block is poisoned by each poisoned element, and cleaned where the first lands (R173). -/
def State.landElem (s : State) (t : Tv) (r j v : Nat) (p : Bool) : State :=
  let s := s.putElem t r j v
  if j % 32 = 0 then s.setBlockPoison t.base t.d r (j / 32) (t.psn || p)
  else if p then s.setBlockPoison t.base t.d r (j / 32) true
  else s

/-- Bytes to be written to memory, by address, and the addresses of the poisoned ones. -/
structure Image where
  bytes : Tab Byte
  bad : List Nat
deriving DecidableEq, Repr

/-- Consecutive bytes of one page. -/
def runs : List (Nat × Byte) → List (Nat × List Byte)
  | [] => []
  | (a, b) :: r =>
    match runs r with
    | (e, bs) :: t => if e = a + 1 && e % 65536 ≠ 0 then (a, b :: bs) :: t else (a, [b]) :: (e, bs) :: t
    | [] => [(a, [b])]

/-- The writes of an image: its runs, and then its poisoned bytes as poison. -/
def Image.writes (m : Image) : List (Nat × List Byte × Bool) :=
  (runs m.bytes).map (fun p => (p.1, p.2, false)) ++ (runs (m.bytes.filter (fun p => m.bad.contains p.1))).map (fun p => (p.1, p.2, true))

/-- The image of units of a tile; a byte of which one half is written keeps the other half. Where units overlap, the last one stands,
with its poison. -/
def State.imageOf (s : State) (c : Cmd) (t : Tv) (units : List (List (Nat × Nat))) : Image :=
  units.foldl (fun m unit =>
    let m := unit.foldl (fun m p =>
      let va := c.elemVa t.d p.1 p.2
      let v := s.at t p.1 p.2
      let bs : List Byte :=
        if t.d.type = 12 then
          let old := match m.bytes.find va, c.loc va with
            | some b, _ => b.toNat
            | none, some l => ofLe (s.readLoc l 1).1
            | none, none => 0
          [BitVec.ofNat 8 (if t.d.high p.1 p.2 then old % 16 + 16 * v else old / 16 * 16 + v)]
        else leBytes t.d.width v
      { m with bytes := (((List.range bs.length).map (· + va)).zip bs).foldl (fun b q => b.set q.1 q.2) m.bytes }) m
    let vas := unit.flatMap (fun p => (List.range t.d.width).map (· + c.elemVa t.d p.1 p.2))
    let clean := m.bad.filter (fun va => !vas.contains va)
    { m with bad := if unit.any (fun p => s.psnAt t p.1 p.2) then clean ++ vas else clean }) ⟨[], []⟩

/-- Whether the writes of a command are held, and where: by its voted copy, or nowhere any longer once they were dropped (R310). -/
def State.holder (s : State) (c : Cmd) : Option (Option Nat) :=
  c.round.map (fun n => if (s.area c.uid).map (·.round) = some n then some c.uid else none)

/-- Adds held writes to those of a copy; dropped ones go nowhere. -/
def State.holdMore (s : State) (u : Option Nat) (l : List HeldWrite) : State :=
  match u with
  | some u => s.modArea u (fun a => { a with heldw := a.heldw ++ l })
  | none => s

/-- Word 1 of a copy. -/
def Cmd.word1 (c : Cmd) : MWord :=
  match c.instr with
  | .cpyin _ _ _ _ _ _ m | .cpyout _ _ _ _ _ _ m | .cpyt _ _ _ _ _ _ m | .cpyx _ _ _ _ _ _ m => m
  | .gather _ _ _ _ _ m | .scatter _ _ _ _ _ m | .scatadd _ _ _ _ _ m => m
  | .tld _ _ _ _ m | .tst _ _ _ _ m | .slotwb _ _ _ _ m | .subscr _ _ _ _ _ m => m
  | _ => ⟨0, 0, 3, 4, 0⟩

/-- Writes an image to memory, or holds it for the vote. -/
def State.putImage (s : State) (c : Cmd) (m : Image) : State :=
  m.writes.foldl (fun s w =>
    match c.loc w.1, s.holder c with
    | some (.dev pa key), some u => s.holdMore u [.bytes pa key w.2.1 w.2.2 ⟨c.hid, c.word1.evict.toNat, none, []⟩]
    | some _, some none => s
    | some l, _ => s.writeLoc l w.2.1 w.2.2
    | none, _ => s) s

/-- The order in which a SCATADD adds: for FP32 the order is free (R233). -/
def addOrder (c : Cmd) (d : Desc) : List (Nat × Nat) :=
  if d.type = 9 then
    let key (p : Nat × Nat) : Nat := (Config.freeValue (2 ^ 80 + c.id * 2 ^ 32 + p.1 * 2 ^ 16 + p.2)).toNat
    (sortBy (fun x y => decide (x.1 < y.1)) (d.elems.map (fun p => (key p, p)))).map (·.2)
  else d.elems

/-- One addition of a SCATADD, an atomic at the home (R213, R233). -/
def State.addElem (s : State) (c : Cmd) (t : Tv) (r j : Nat) : State :=
  match c.loc (c.elemVa t.d r j) with
  | none => s
  | some l =>
    let s := match l with | .dev pa _ => s.l1Drop c.hid (pa / 64) | _ => s
    let (bs, p) := s.readLoc l t.d.width
    let v := if t.d.type = 9 then roundFP32 0 0 (Val.add 0 (decodeT 9 (ofLe bs)) (decodeT 9 (s.at t r j))) else ofLe bs + s.at t r j
    s.writeLoc l (leBytes t.d.width v) (p || s.psnAt t r j)

/-! Landing (R231, R237). -/

/-- What a copy counts as it lands: the units of its tile; for TLD and TST, pieces of a footprint as wide as an element (R253). -/
def Cmd.total (c : Cmd) : Nat :=
  let d := descOf c.d.desc
  match c.instr with
  | .tld _ _ _ _ _ => ceilDiv d.foot d.width
  | .tst _ _ _ _ _ => ceilDiv d.foot d.width
  | _ => d.units.length

/-- The part [x, y) of a list (log 46). -/
def partOf {α : Type} (l : List α) (x y : Nat) : List α := (l.take y).drop x

/-- The bytes that the first `n` units of a copy bring: a byte counts when both its halves have landed. -/
def unitBytes (d : Desc) (n : Nat) : Nat :=
  let k := ((d.units.take n).map (·.length)).sum
  if d.type = 12 then k / 2 else k * d.width

/-- The bytes of units [x, y) of a copy. -/
def partBytes (d : Desc) (x y : Nat) : Nat := unitBytes d y - unitBytes d x

/-- The logical time that a command's writes to device memory have reached (R257). -/
def State.wrote (s : State) (c : Cmd) : Nat := s.linesTime c.lines

/-- What the signal of a command releases at its scope: its writes, and what its issuer's FENCEs released toward it (R231, R257, R262). -/
def State.releasesOf (s : State) (c : Cmd) : List Release :=
  let scope := c.word1.scope
  (⟨s.wrote c, [scope], c.hid, c.uid, c.cix⟩ :: c.fenced.map (fun r => { r with scopes := r.scopes ++ [scope] })).filter (fun r => r.time ≠ 0)

/-- `k` bytes landed: they are subtracted from the signal's barrier, at the vote for a write that is held. -/
def State.signalLanding (s : State) (c : Cmd) (k : Nat) (outward : Bool) : State :=
  match c.sig with
  | .barrier key off =>
    (match outward, s.holder c with
      | true, some u => s.holdMore u [.landing key off k ⟨c.hid, 3, none, s.releasesOf c⟩]
      | _, _ => (s.release_ (s.barrierLoc key off) (s.releasesOf c)).landing key off k)
  | _ => s

/-- Units [x, y) of a memory image land in a tile. -/
def State.landIn (s : State) (c : Cmd) (t : Tv) (x y : Nat) : State :=
  (partOf t.d.units x y).flatten.foldl (fun s p =>
    let (v, q) := s.imageElem c t.d p.1 p.2
    s.landElem t p.1 p.2 v q) s

/-- Units [x, y) of a GATHER land: what one address holds is fetched once for every row that names it (R233). -/
def State.landGather (s : State) (c : Cmd) (t : Tv) (x y : Nat) : State × Tab (Nat × Bool) :=
  (partOf t.d.units x y).flatten.foldl (fun sg p =>
    let key := 2 * c.elemVa t.d p.1 p.2 + bit (t.d.high p.1 p.2)
    let e := (sg.2.find key).getD (sg.1.imageElem c t.d p.1 p.2)
    (sg.1.landElem t p.1 p.2 e.1 e.2, sg.2.set key e)) (s, c.got)

/-- Units [x, y) of tile `a` land in tile `d`, read before any is written. -/
def State.landTile (s : State) (d a : Tv) (x y : Nat) : State :=
  (partOf d.d.units x y).flatten.foldl (fun t p => t.landElem d p.1 p.2 (s.at a p.1 p.2) (s.psnAt a p.1 p.2)) s

/-- The bytes of a tile's poisoned blocks, as offsets in its slot. -/
def State.badBytes (s : State) (t : Tv) : List Nat :=
  t.d.blocks.flatMap (fun p =>
    if t.psn || s.blockPoison t.base t.d p.1 (32 * p.2) then
      (List.range (min 32 (t.d.cols - 32 * p.2))).flatMap (fun i =>
        (List.range t.d.width).map (· + t.d.off p.1 (32 * p.2 + i)))
    else [])

/-- Pieces [x, y) of a TLD: a tagged word keeps its bytes; with the last byte a block that met a poisoned line is poisoned whole. -/
def State.landBytesIn (s : State) (c : Cmd) (t : Tv) (x y : Nat) : State :=
  let w := t.d.width
  let s := (partOf (List.range t.d.foot) (x * w) (y * w)).foldl (fun s i =>
    match c.loc ((c.addr.toNat + i) % 2 ^ 64) with
    | none => s
    | some l =>
      let (bs, p) := s.readLoc l 1
      let s := s.flagTile (t.base + i) p 1
      if t.tags.any (fun g => i < g + 8 && g ≤ i) then s
      else { s with tile := writeTab s.tile (t.base + i) bs, badScale := s.badScale.put false (t.base + i) false }) s
  if y * w < t.d.foot then s
  else
    let bad := t.d.blocks.map (fun p => (p, t.psn || s.blockPoison t.base t.d p.1 (32 * p.2)))
    bad.foldl (fun s p => s.setBlockPoison t.base t.d p.1.1 p.1.2 p.2)
      (s.flagTile t.base false t.d.foot)

/-- Pieces [x, y) of a TST. -/
def State.landBytesOut (s : State) (c : Cmd) (t : Tv) (x y : Nat) : State :=
  let va (i : Nat) : Nat := (c.addr.toNat + i) % 2 ^ 64
  let w := t.d.width
  let is := partOf (List.range t.d.foot) (x * w) (y * w)
  s.putImage c ⟨is.foldl (fun b i => b.set (va i) (s.tile.get 0 (t.base + i))) [], ((s.badBytes t).filter (fun i => x * w ≤ i && i < y * w)).map va⟩

/-- The pieces of device memory, address and length, that units [x, y) of a copy read or write. -/
def Cmd.pieces (c : Cmd) (d : Desc) (x y : Nat) : List (Nat × Nat) :=
  let at_ (va n : Nat) : List (Nat × Nat) := match c.loc va with | some (.dev pa _) => [(pa, n)] | _ => []
  match c.instr with
  | .tld _ _ _ _ _ | .tst _ _ _ _ _ =>
    (partOf (List.range d.foot) (x * d.width) (y * d.width)).flatMap (fun i => at_ ((c.addr.toNat + i) % 2 ^ 64) 1)
  | .cpyt _ _ _ _ _ _ _ => []
  | _ => (partOf d.units x y).flatten.flatMap (fun p => at_ (c.elemVa d p.1 p.2) d.width)

/-- A copy into a tile reads memory; one out of a tile writes it. -/
def Cmd.writes (c : Cmd) : Bool :=
  match c.instr with
  | .cpyout _ _ _ _ _ _ _ | .cpyx _ _ _ _ _ _ _ | .scatter _ _ _ _ _ _ | .scatadd _ _ _ _ _ _ | .tst _ _ _ _ _ | .slotwb _ _ _ _ _ => true
  | _ => false

/-- Requester `req` accesses the lines of pieces of device memory, each once, at their slices (R198, R199); a slot write-back carries them
there as pushes (Table 11.6) (log 17). -/
def State.touchPieces (s : State) (req prio : Nat) (write back : Bool) (l : List (Nat × Nat)) : State :=
  let masks : Tab (BitVec 64) := l.foldl (fun t p => t.set (p.1 / 64) ((t.find (p.1 / 64)).getD 0 ||| lineBytes (p.1 % 64) p.2)) []
  masks.foldl (fun s p =>
    let s := if back then s.send clsPush req (s.homeRouter (64 * p.1)) .plain else s.carryLine (64 * p.1) req
    s.touch (64 * p.1) req prio (if write then some p.2 else none) 0) s

/-- A slot write-back. -/
def Cmd.isBack (c : Cmd) : Bool := match c.instr with | .slotwb _ _ _ _ _ => true | _ => false

/-- `n` more of a command's units land. A CPYT within one slot lands whole (R159) (log 30, 46). -/
def State.landPart (s : State) (c : Cmd) (n : Nat) : State × Nat :=
  let x := c.landed
  match s.tile1 c c.d with
  | none => (s, c.total)
  | some t =>
    let y := min c.total (x + n)
    let s := s.touchPieces c.hid c.word1.evict.toNat c.writes c.isBack (if (s.holder c).isSome && c.writes then [] else c.pieces t.d x y)
    match c.instr with
    | .cpyin _ _ _ _ _ _ _ => ((s.landIn c t x y).signalLanding c (partBytes t.d x y) false, y)
    | .cpyout _ _ _ _ _ _ _ => ((s.putImage c (s.imageOf c t (partOf t.d.units x y))).signalLanding c (partBytes t.d x y) true, y)
    | .cpyx _ _ _ _ _ _ _ => ((s.putImage c (s.imageOf c t (partOf t.d.units x y))).signalLanding c (partBytes t.d x y) true, y)
    | .slotwb _ _ _ _ _ => (s.putImage c (s.imageOf c t (partOf t.d.units x y)), y)
    | .cpyt _ _ _ _ _ _ _ =>
      (match s.tile1 c c.a with
        | none => (s, c.total)
        | some a =>
          let y := if (descOf c.a.desc).handle = t.d.handle then c.total else y
          ((s.landTile t a x y).signalLanding c (partBytes t.d x y) false, y))
    | .gather _ _ _ _ _ _ =>
      let (s, got) := s.landGather c t x y
      ({ s with queues := s.queues.map (fun q => (q.1, q.2.map (fun e => if e.id = c.id then { e with got := got } else e))) }, y)
    | .scatter _ _ _ _ _ _ => (s.putImage c (s.imageOf c t (partOf t.d.units x y)), y)
    | .scatadd _ _ _ _ _ _ => ((partOf (addOrder c t.d) x y).foldl (fun s p => s.addElem c t p.1 p.2) s, y)
    | .tld _ _ _ _ _ => (s.landBytesIn c t x y, y)
    | .tst _ _ _ _ _ => (s.landBytesOut c t x y, y)
    | _ => (s, y)

end Sys2Proof.Machine
end

