-- ==== Sys2Proof/Machine/Stream.lean ====
section
/-!
DEFINITION. Chimney streams: SUBSCR, SLOTREL, SLOTWB and UNSUBS, the pushes that fill a ring, and freed-slot notices
(R243–R249).
-/

namespace Sys2Proof.Machine

/-! The stream descriptor (Table 12.5). -/

/-- The template with the handle of ring slot `i`. -/
def streamDesc (x : BitVec 1024) (i : Nat) : Word :=
  (x.extractLsb' 64 64 &&& ~~~(0xFFFFF#64)) ||| BitVec.ofNat 64 (bits x.toNat (512 + 64 * i) 20)

/-- Table 12.5 and R153 on the template and fields; base is checked apart. -/
def streamOk (x : BitVec 1024) : Bool :=
  let n := x.toNat
  let d := descOf (x.extractLsb' 64 64)
  let p := bits n 128 32
  d.wf && p % 16 = 0 && (if d.layout = 1 then elemBytes d.type d.rows ≤ p else elemBytes d.type d.cols ≤ p) &&
    1 ≤ bits n 160 16 && 1 ≤ bits n 176 4 && bits n 176 4 ≤ 8 && bits n 180 12 = 0 && bits n 192 4 = 0 &&
    bits n 256 4 = 0 && 1 ≤ bits n 320 32 && bits n 352 160 = 0 &&
    (List.range 8).all (fun i => bits n (532 + 64 * i) 44 = 0)

/-- Src(j) (R243). -/
def streamSrc (x : BitVec 1024) (j : Nat) : Word :=
  let nx := bits x.toNat 160 16
  x.extractLsb' 0 64 + BitVec.ofNat 64 (j % nx) * x.extractLsb' 192 64 + BitVec.ofNat 64 (j / nx) * x.extractLsb' 256 64

/-- A subscription of its descriptor, before any tile. -/
def Sub.start (ctx hid : Nat) (desc : BitVec 1024) (bar : Word) (scope : BitVec 3) (fenced : List Release) : Sub :=
  ⟨ctx, hid, desc, bar, scope, List.range (bits desc.toNat 176 4), [], [], [], none, false, false, fenced⟩

/-- A stream handle (Table 12.6). -/
def streamHandle (st : Nat) : Word := BitVec.ofNat 64 (3 * 2 ^ 60 + st)

/-- The stream that a register names, and its slot index; none when it is no stream handle (log 54). -/
def streamOf (w : Word) : Option (Nat × Nat) :=
  if bits w.toNat 19 45 = 3 * 2 ^ 41 then some (bits w.toNat 0 16, bits w.toNat 16 3) else none

/-! Pushes (R245). -/

/-- A push as a copy into its slot. -/
def pushCmd (x : Sub) (i : Nat) (p : Push) : Cmd :=
  { id := 0, fence := none, instr := .nop ⟨false, 0⟩, hid := x.hid, ctx := x.ctx, uid := 0, cix := 0, round := none, restoring := false,
    pri := 0, started := true, d := ⟨streamDesc x.desc i, false⟩, a := Opnd.none, b := Opnd.none, c := Opnd.none,
    e := Opnd.none, scal := 0, addr := streamSrc x.desc p.tile, pages := p.pages, names := [], outs := [],
    pitch := bits x.desc.toNat 128 32, rows := [], sig := .none, landed := p.landed, got := [], key := 0, time := 0, fenced := x.fenced }

/-- What the translation of a push's source gives: its pages, the first address that fails, or that a page is being walked. -/
inductive Pages where
  | ok (ts : List Trans)
  | fault (a : Word)
  | walking
deriving DecidableEq, Repr

/-- The translations of a push's source, in the TLBs of the hearth's die; a page that they lack is walked (R207, R245). -/
def State.pushPages (s : State) (ctx hid : Nat) : List Word → List Trans → Pages × State
  | [], got => (.ok got, s)
  | a :: r, got =>
    let va := bits a.toNat 0 55
    if canonical a = false || inTileWindow a then (.fault a, s)
    else
      match s.cached hid ctx va with
      | none => (.walking, ((s.count hid 0x0E 1).joinWalk ctx hid (va / 65536)).2)
      | some t =>
        if t.allows .read then (s.noteTrans hid (some t)).pushPages ctx hid r (if got.contains t then got else t :: got)
        else (.fault a, s)

/-- Pushes of a context may start: not while it is pre-empted or frozen (R322, R328). -/
def Ctx.pushes (x : Ctx) : Bool := x.status = .running || x.status = .preempting || x.status = .restoring

/-- The bytes that tile `j` is read from: address and length of each run. -/
def Sub.runs (x : Sub) (j : Nat) : List (Word × Nat) :=
  ((descOf (x.desc.extractLsb' 64 64)).memRuns (bits x.desc.toNat 128 32)).map (fun r => (streamSrc x.desc j + BitVec.ofNat 64 r.1, r.2))

/-- First addresses of the pages of tile `j`'s source. -/
def Sub.pages (x : Sub) (j : Nat) : List Word :=
  (x.runs j).foldl (fun ps r => ps ++ (rangePages r.1 r.2).filter (fun a => !ps.any (fun b => a.toNat / 65536 = b.toNat / 65536))) []

/-- Starts the push that ring slot `i` awaits, if one may start; a push whose source is being walked starts when the walk is over. -/
def State.startPush (s : State) (st i : Nat) : State :=
  match s.subs.find st with
  | none => s
  | some x =>
    let j := x.next.getD i 0
    if x.dead || x.faulted.isSome || x.full.contains i || (x.push.find i).isSome || x.wb.any (fun p => p.1 = i) ||
        bits x.desc.toNat 320 32 ≤ j || !(((s.ctx x.ctx).map Ctx.pushes).getD false) then s
    else
      let d := descOf (streamDesc x.desc i)
      match s.pushPages x.ctx x.hid (x.pages j) [] with
      | (.fault a, s) => s.subFault st a
      | (.walking, s) => s
      | (.ok ts, s) =>
        let id := s.nextUid
        let s := (s.send clsPush (sliceRouter (st / 64 * 64)) x.hid (.push st i id)).modSub st (fun x =>
          { x with push := x.push.set i ⟨j, 0, ts, id⟩ })
        { s with slots := s.slots.upd (slotKey 0 x.ctx d.handle) (fun y => { y with layout := BitVec.ofNat 4 d.layout }) }

/-- Starts every push of a subscription that may start. -/
def State.startPushes (s : State) (st : Nat) : State :=
  match s.subs.find st with
  | none => s
  | some x => (List.range x.ring.length).foldl (fun s i => s.startPush st i) s

/-- A dead subscription whose started operations are done leaves its table. -/
def State.sweepSub (s : State) (st : Nat) : State :=
  match s.subs.find st with
  | none => s
  | some x => if x.dead && x.push.isEmpty && x.wb.isEmpty then { s with subs := s.subs.erase st } else s

/-- `n` more units of a push land once its packet has come; none land while the slot is in transit, unless the push had begun to
(R124). -/
def State.landPush (s : State) (st i n : Nat) : State :=
  match s.subs.find st with
  | none => s
  | some x =>
    match x.push.find i with
    | none => s
    | some p =>
      let c := pushCmd x i p
      let d := descOf c.d.desc
      match s.slots.find (slotKey 0 x.ctx d.handle) with
      | none => ((s.dropMsgs (fun b => b = .push st i p.id)).modSub st (fun x => { x with push := x.push.erase i })).sweepSub st
      | some y =>
        if (y.moving.isSome && p.landed = 0) || (s.arrival (.push st i p.id)).isNone then s
        else
          let e := min d.units.length (p.landed + n)
          let s := s.touchPieces (1024 + st / 64) 3 false false (c.pieces d p.landed e)
          let s := (s.landIn c ⟨d, y.base, false, y.tags⟩ p.landed e).wakeErrors
          let s := if x.bar = 0 then s else
            (s.release_ (s.barrierLoc (x.barrierOf i).1 (x.barrierOf i).2)
              (x.fenced.map (fun r => { r with scopes := r.scopes ++ [x.scope] }))).landing (x.barrierOf i).1 (x.barrierOf i).2 (partBytes d p.landed e)
          if e < d.units.length then s.modSub st (fun x => { x with push := x.push.set i { p with landed := e } })
          else
            ((s.dropMsgs (fun b => b = .push st i p.id)).modSub st (fun x => { x with
              push := x.push.erase i
              full := x.full ++ [i]
              next := x.next.set i (p.tile + x.ring.length) })).reclaim.sweepSub st

/-- Sends a freed-slot notice from a hearth to its chimney. -/
def State.sendNotice (s : State) (hid st i : Nat) : State :=
  s.send clsNotice hid (sliceRouter (st / 64 * 64)) (.notice st i)

/-- FREED_SLOT_NOTICE (R245): the chimney receives a notice and starts the slot's next push; one for a slot that is
free or being filled is ignored. A notice names a table entry and a slot: one that is still on its way when its subscription has ended
counts for the subscription that has the entry then, where the spec is silent (log 54). -/
def execFreedSlotNotice (id : Nat) (s : State) : Host.Outcome State Fault Refusal :=
  .next (
    match s.arrived id with
    | none => s
    | some m =>
      match m.body with
      | .notice st i =>
        let s := s.dropMsg id
        (s.modSub st (fun x => { x with full := x.full.filter (· ≠ i) })).startPush st i
      | _ => s)

/-! The instructions. -/

/-- A load of 64 bytes of a descriptor at an address, after R208's checks, behind the cell's earlier accesses (log 53). -/
def State.loadDesc (s : State) (ar : Area) (k : Cell) (a : Word) (body : Nat → State → State) : State :=
  match s.resolve s.cur.1 ar.ctx k.hid a 64 .read with
  | .fault f => s.raise f a
  | .transit h => s.waitOn .tile 0 (BitVec.ofNat 64 h)
  | .call key h => s.callTile k key h
  | .miss => s.tlbMiss ar.ctx k.hid a a
  | .loc l t =>
    if !k.settled then s.waitOn .port a 0 else
    let s := s.noteTrans k.hid t
    let s := match l with | .dev pa _ => (s.touch pa k.hid 3 none 0).meetLine k.hid (pa / 64) | _ => s
    let (bs, p) := s.readLoc l 64
    s.consume ar p a (body (ofLe bs))

/-- Checks of R234 on the barrier of a ring slot, and that it lies in no ring slot (R244, step 5). -/
def State.ringBarrier (s : State) (u : Nat) (ar : Area) (k : Cell) (ring : List Nat) (a : Word) : Check :=
  match s.windowSlot u ar.ctx a with
  | none => .fault fltTileBounds
  | some (key, off) =>
    match s.slots.find key with
    | none => .fault fltTileBounds
    | some x =>
      if x.hid ≠ k.hid && !x.displaced then .fault fltTileBounds
      else if x.size < off + 8 && off % 8 = 0 then .fault fltTileBounds
      else if off % 8 ≠ 0 then .fault fltMisaligned
      else if !x.tags.contains off then .fault fltTileFormat
      else if ring.contains (key % 2 ^ 20) then .fault fltBarrierClobber
      else if x.hid ≠ k.hid then .call key (key % 2 ^ 20)
      else .ok

/-- SUBSCR (R244): the checks in their order; the handle comes when the command is performed. -/
def execSubscr (c : Cond) (pri : BitVec 2) (d a b : SReg) (m : MWord) (s : State) : Host.Outcome State Fault Refusal :=
  s.gate c 2 [d, a, b] (notVoted (fun ar k s =>
    let addr := k.addr a m
    let u := s.cur.1
    s.consume ar (k.spsn a || k.spsn b) addr (fun s =>
    s.loadDesc ar k addr (fun lo s =>
    s.loadDesc ar k (addr + 64) (fun hi s =>
      let x : BitVec 1024 := BitVec.ofNat 1024 (lo + 2 ^ 512 * hi)
      if streamOk x = false then s.raise fltTileFormat 0
      else if bits x.toNat 0 4 ≠ 0 then s.raise fltMisaligned addr
      else
        let n := bits x.toNat 176 4
        let ds := (List.range n).map (fun i => descOf (streamDesc x i))
        let bar := k.sreg b
        let ring := ds.map (·.handle)
        let slots := Check.first (ds.map (fun y => s.checkSlot u ar k.hid y y.foot))
        let bars := if bar = 0 then .ok
          else Check.first ((List.range n).map (fun i => s.ringBarrier u ar k ring (bar + BitVec.ofNat 64 (8 * i))))
        match slots, bars with
        | .fault f, _ => s.raise f 0
        | _, .fault f => s.raise f bar
        | .call key h, _ => s.callTile k key h
        | _, .call key h => s.callTile k key h
        | .ok, .ok =>
          let keys := ds.filterMap (fun y => (s.slotOf u ar.ctx y.handle).map (·.1))
          let tagged := ds.any (fun y => ((s.slotOf u ar.ctx y.handle).map (fun p => p.2.meetsTag 0 y.foot)).getD false)
          if tagged then s.raise fltBarrierClobber 0
          else
            let q : Cmd := { s.newCmd ar k (.subscr c pri d a b m) pri.toNat with
              names := keys ++ (if bar = 0 then [] else ((List.range n).filterMap (fun i =>
                (s.windowSlot u ar.ctx (bar + BitVec.ofNat 64 (8 * i))).map (·.1))).eraseDups)
              outs := keys, scal := bar, key := x.toNat }
            s.enter k 2 2 q (fun s => s.modCur (fun k => k.await d q.id)))))))

/-- The chimney tables in the order that a hearth tries them (R244). -/
def State.chimneys (s : State) (hid : Nat) : List Nat :=
  let l := s.leadOf hid
  let n := 3 * (s.part l).dies
  let first := 3 * dieOf hid + hid % 3 - 3 * l
  (List.range n).map (fun i => 3 * l + (first + i) % n)

/-- A free entry of the first chimney's table that has one; which one is open, so a free value says where the search begins (log 10). -/
def State.freeStream (s : State) (hid : Nat) : Option Nat :=
  ((s.chimneys hid).flatMap (fun st => (List.range 64).map (fun i => 64 * st + (s.freeVal.toNat + i) % 64))).find?
    (fun e => (s.subs.find e).isNone)

/-- A SUBSCR is performed: it takes an entry, delivers its handle and starts its first pushes; none while every table
is full. -/
def State.performSubscr (s : State) (c : Cmd) (d : SReg) (scope : BitVec 3) : Option State :=
  (s.freeStream c.hid).map (fun e =>
    let s : State := { s with subs := s.subs.set e (Sub.start c.ctx c.hid (BitVec.ofNat 1024 c.key) c.scal scope c.fenced), free := s.free + 1 }
    (s.modCell c.uid c.cix (fun k => k.receive d c.id (streamHandle e) false)).startPushes e)

/-- A live stream of the context in the cell's hearth (log 54). -/
def State.liveStream (s : State) (ar : Area) (k : Cell) (w : Word) (i : Nat) : Option (Nat × Sub) :=
  match streamOf w with
  | none => none
  | some (st, _) =>
    match s.subs.find st with
    | none => none
    | some x => if x.ctx = ar.ctx && x.hid = k.hid && !x.dead && i < x.ring.length then some (st, x) else none

/-- The first instruction that names a faulted stream raises STREAM_FAULT; a later one does `after` (R249) (log 54). -/
def State.faulted (s : State) (st : Nat) (x : Sub) (after live : State → State) : State :=
  match x.faulted with
  | none => live s
  | some a => if x.reported then after s else (s.modSub st (fun x => { x with reported := true })).raise fltStreamFault a

/-- SLOTREL (R246) (log 54). -/
def execSlotrel (c : Cond) (a b : SReg) (s : State) : Host.Outcome State Fault Refusal :=
  s.gate c 1 [a, b] (notVoted (fun ar k s =>
    s.consume ar (k.spsn a || k.spsn b) 0 (fun s =>
      let i := (k.sreg b).toNat
      match s.liveStream ar k (k.sreg a) i with
      | none => s.raise fltTileBounds 0
      | some (st, x) =>
        s.faulted st x (fun s => s.finish k 1 id) (fun s => (s.sendNotice k.hid st i).finish k 1 id))))

/-- Ring slot `i` awaits a push: none is in progress, one is left to come, and the slot is free, or a notice or a write-back that frees
it is on its way (R248) (log 54). -/
def State.awaitsPush (s : State) (st : Nat) (x : Sub) (i : Nat) : Bool :=
  let freed := s.msgs.any (fun m => m.body = .notice st i) || x.wb.any (fun p => p.1 = i)
  (!x.full.contains i || freed) && (x.push.find i).isNone && x.next.getD i 0 < bits x.desc.toNat 320 32

/-- UNSUBS (R248): the barriers of slots that await a push fail; after a reported fault it frees the entry (log 54). -/
def execUnsubs (c : Cond) (a : SReg) (s : State) : Host.Outcome State Fault Refusal :=
  s.gate c 1 [a] (notVoted (fun ar k s =>
    s.consume ar (k.spsn a) 0 (fun s =>
      match s.liveStream ar k (k.sreg a) 0 with
      | none => s.raise fltTileBounds 0
      | some (st, x) =>
        let kill (s : State) : State := ((s.modSub st (fun x => { x with dead := true })).sweepSub st).finish k 1 id
        s.faulted st x kill (fun s =>
          kill (((List.range x.ring.length).filter (s.awaitsPush st x)).foldl (fun s i => s.failRing x i) s)))))

/-- SLOTWB (R247) (log 54). -/
def execSlotwb (c : Cond) (pri : BitVec 2) (a b : SReg) (m : MWord) (s : State) : Host.Outcome State Fault Refusal :=
  s.gate c 2 [a, b] (notVoted (fun ar k s =>
    let addr := k.addr a m
    let u := s.cur.1
    s.consume ar (k.spsn a || k.spsn b) addr (fun s =>
      let i := bits (k.sreg b).toNat 16 3
      match s.liveStream ar k (k.sreg b) i with
      | none => s.raise fltTileBounds 0
      | some (st, x) =>
        s.faulted st x (fun s => s.finish k 2 id) (fun s =>
          let w := streamDesc x.desc i
          let d := descOf w
          let p := bits x.desc.toNat 128 32
          s.withImage ar k addr (d.memFoot p) .write (fun ts s =>
            match s.checkSlot u ar k.hid d d.foot with
            | .fault f => s.raise f 0
            | .call key h => s.callTile k key h
            | .ok =>
              match s.slotOf u ar.ctx d.handle with
              | none => s.raise fltTileBounds 0
              | some (key, y) =>
                if d.strict && y.layout.toNat ≠ d.layout then s.raise fltLayoutStrict 0
                else
                  let q : Cmd := { s.newCmd ar k (.slotwb c pri a b m) pri.toNat with
                    d := ⟨w, false⟩, addr := addr, pages := ts, pitch := p, names := [key], scal := k.sreg b }
                  s.enter k 2 2 q (fun s => s.modSub st (fun x => { x with wb := x.wb ++ [(i, q.id)] })))))))

/-- A write-back is done: its slot is freed as by SLOTREL, and a push that waited for it may start (R247). -/
def State.performSlotwb (s : State) (c : Cmd) : State :=
  match streamOf c.scal with
  | none => s
  | some (st, i) =>
    let s := s.modSub st (fun x => { x with wb := x.wb.filter (fun p => p.2 ≠ c.id) })
    (((s.sendNotice c.hid st i).startPush st i).sweepSub st)

/-! Page walks that end (R205, R207). -/

/-- Pushes of a die's hearths that a walk kept waiting try again. -/
def State.resumePushes (s : State) (die : Nat) : State :=
  (s.subs.filter (fun p => dieOf p.2.hid = die)).foldl (fun s p => s.startPushes p.1) s

/-- A walk that fails faults the streams whose next pushes wait for its page (R249). -/
def State.failPushes (s : State) (w : Walk) : State :=
  s.subs.foldl (fun s p =>
    let asks (i : Nat) : Option Word :=
      if p.2.full.contains i || (p.2.push.find i).isSome || bits p.2.desc.toNat 320 32 ≤ p.2.next.getD i 0 then none
      else (p.2.pages (p.2.next.getD i 0)).find? (fun a => bits a.toNat 0 55 / 65536 = w.vpage)
    if p.2.ctx = w.ctx && w.hids.contains p.2.hid then
      (match (List.range p.2.ring.length).findSome? asks with
        | some a => s.subFault p.1 a
        | none => s)
    else s) s

/-- The cells that wait for a page walk, with the address that a fault names. -/
def State.walkers (s : State) (id : Nat) : List (Nat × Nat × Word) :=
  s.areas.flatMap (fun p => p.2.cells.filterMap (fun q =>
    match q.2.wait with
    | some w => if w.kind = .port && w.value = BitVec.ofNat 64 id then some (p.1, q.1, w.waddr) else none
    | none => none))

/-- The first of each area, behind those of area `u`. -/
def firstOfArea : Option Nat → List (Nat × Nat × Word) → List (Nat × Nat × Word)
  | _, [] => []
  | u, p :: r => if u = some p.1 then firstOfArea u r else p :: firstOfArea (some p.1) r

/-- The walk of a page has come to its table: its packet has arrived, or is no longer on the mesh. -/
def State.walkArrived (s : State) (id : Nat) : Bool :=
  !s.msgs.any (fun m => m.body = .walk id) || (s.arrival (.walk id)).isSome

/-- The walk reads its entries at their slices, and its result goes to every hearth that waits for it (R198, Table 11.6). -/
def State.readTables (s : State) (w : Walk) : State :=
  let s := (s.walkReads w.ctx (w.vpage * 65536)).foldl (fun s a => s.touchPlain (.dev a none) 8 false) s
  w.hids.foldl (fun s h => s.send clsReply (s.walkRouter w.ctx w.vpage) h .plain) s

/-- PAGE_WALK_COMPLETE (R205, R207): the walk fills the TLBs of its die and its hearths and its cells execute their instructions again;
or the cell of the lowest `cix` of each active area that waits for it takes its fault, and the others will miss again (R28). Prefetches
that waited for it go on, or do nothing (R215). -/
def execPageWalkComplete (id : Nat) (s : State) : Host.Outcome State Fault Refusal :=
  .next (
    match s.walks.find? (fun w => w.id = id) with
    | none => s
    | some w =>
      if !s.walkArrived id then s
      else
        let cells := s.walkers id
        let s : State := { s.dropMsgs (fun b => b = .walk id) with walks := s.walks.filter (fun x => x.id ≠ id) }
        let s := s.readTables w
        let s := cells.foldl (fun s c => s.modCell c.1 c.2.1 (fun k => { k with wait := none })) s
        match s.walk w.ctx (w.vpage * 65536) with
        | .ok t =>
          (w.hids.foldl (fun s h => (s.fillTlb h t).wakePrefs w.ctx h w.vpage (some t)) s).resumePushes w.die
        | .error e =>
          let s := w.hids.foldl (fun s h => s.wakePrefs w.ctx h w.vpage none) s
          (firstOfArea none cells).foldl (fun s c =>
            match s.area c.1 with
            | some a => if a.phase = .active || s.heldNow a then ({ s with cur := (c.1, c.2.1) }).raise e c.2.2 else s
            | none => s) ((s.failPushes w).resumePushes w.die))

end Sys2Proof.Machine
end

