-- ==== Sys2Proof/Machine/Events.lean ====
section
/-!
DEFINITION. Events, populations and the accumulator banks: the event instructions, arrival, delivery with its
integration and fire, and the wait for the horizon (R267–R286).
-/

namespace Sys2Proof.Machine

/-! Populations (R269–R273). -/

def popKey (ctx pop : Nat) : Nat := ctx * 256 + pop

def accKey (ctx pop n : Nat) : Nat := popKey ctx pop * 2 ^ 24 + n

/-- Fields of a dynamics descriptor (Table 15.4). -/
def Pop.fld (x : Pop) (lo n : Nat) : Nat := bits x.desc.toNat lo n

def Pop.stype (x : Pop) : Nat := x.fld 0 2

def Pop.act (x : Pop) (i : Nat) : Bool := bitOf x.desc.toNat i

/-- The entry that binding writes (R272). -/
def Pop.fresh (x : Pop) : Acc := ⟨0, false, false, 0, x.born, BitVec.ofNat 32 (x.fld 192 32)⟩

/-- The physical hearth of a neuron: set member n mod hn through the indirection table. -/
def Pop.home (x : Pop) (n : Nat) : Nat := x.members.getD (n % x.members.length) 0

/-- Entries that each member allots. -/
def Pop.allot (x : Pop) : Nat := ceilDiv (x.count + 1) x.members.length

/-- The population bound under an id. -/
def State.pop (s : State) (ctx pop : Nat) : Option Pop := (s.pops.find (popKey ctx pop)).filter (fun x => !x.gone)

def State.acc (s : State) (ctx pop n : Nat) (x : Pop) : Acc := s.accs.get x.fresh (accKey ctx pop n)

def State.setAcc (s : State) (ctx pop n : Nat) (x : Pop) (e : Acc) : State :=
  { s with accs := s.accs.put x.fresh (accKey ctx pop n) e }

/-- Errors of a hearth's own stores: a corrected one is counted and scored; a chunk that cannot be corrected poisons its
elements and reads as failing scales; a failing parity waits for a read as a scale; a bank's error poisons the entry
(R193, R194, R272, R298) (log 11). -/
def State.upset (s : State) (e : Upset) : State :=
  match e with
  | .tileCorrected h =>
    if s.powered && decide (h < 1024) then (s.score (hearthUnit h) 1).count h 0x12 1 else s
  | .tileChunk h c =>
    if s.powered && decide (h < 1024) && decide (c < 98304) then
      let s := s.score (hearthUnit h) 256
      let a := h * 1572864 + 16 * c
      ({ s with badScale := flagTab s.badScale a true 16 }.flagTile a true 16).wakeErrors
    else s
  | .tileParity h b =>
    if s.powered && decide (h < 1024) && decide (b < 1572864) then
      { s with badScale := s.badScale.put false (h * 1572864 + b) true }
    else s
  | .entry c p n =>
    match s.pop c p with
    | some x =>
      if s.powered && decide (n ≤ x.count) then
        let t := s.score (hearthUnit (x.home n)) 256
        if x.installed then t.setAcc c p n x { s.acc c p n x with poison := true } else t
      else s
    | none => s

/-- Entries of a hearth that populations hold. -/
def State.entriesUsed (s : State) (h : Nat) : Nat :=
  s.pops.foldl (fun n p => n + (p.2.members.filter (· = h)).length * p.2.allot) 0

/-- Where entries for hearth `h` go, `n` of them beside the `used g` that hearth `g` holds: the nearest hearth above it that has room
and is in use, otherwise the nearest below (R273) (log 78). -/
def State.bankFor (s : State) (used : Nat → Nat) (h n : Nat) : Option Nat :=
  let hs := s.partHearths (s.leadOf h)
  let ok (g : Nat) : Bool := s.usable g && used g + n ≤ 32768
  match (hs.filter (fun g => h < g)).find? ok with
  | some g => some g
  | none => ((hs.filter (fun g => g < h)).reverse).find? ok

/-- The hearth set: the first `n` hearths that are not retired, from `base` upward and wrapping (R273). -/
def State.hearthSet (s : State) (l base n : Nat) : List Nat :=
  let hs := (s.partHearths l).filter (fun h => (s.unit (hearthUnit h)).health = .inService)
  ((hs.filter (fun h => base ≤ h)) ++ hs.filter (fun h => h < base)).take n

/-- The physical hearths of a set, each with `n` entries more; none when one lacks them. -/
def State.placeSet (s : State) (n : Nat) : List Nat → List Nat → Option (List Nat)
  | [], got => some got.reverse
  | h :: r, got =>
    let used (g : Nat) : Nat := s.entriesUsed g + (got.filter (· = g)).length * n
    if s.usable h then (if used h + n ≤ 32768 then s.placeSet n r (h :: got) else none)
    else
      match s.bankFor used h n with
      | some g => s.placeSet n r (g :: got)
      | none => none

/-- A finite FP32 code. -/
def finite32 (c : Nat) : Bool := match decodeT 9 c with | .fin _ _ _ => true | _ => false

/-- An address that act uses: canonical, outside the tile window, aligned. -/
def actAddr (a : Word) (w : Nat) : Bool := canonical a && !inTileWindow a && a.toNat % w = 0

/-- R271. -/
def State.dynOk (s : State) (ctx l : Nat) (x : BitVec 512) : Bool :=
  let n := x.toNat
  let a (lo : Nat) : Word := BitVec.ofNat 64 (bits n lo 64)
  let st := bits n 0 2; let leak := bits n 4 2
  let alpha := bits n 128 32
  let hs := s.partHearths l
  st ≤ 1 && bits n 2 2 ≤ 2 && leak ≤ 2 && bits n 6 2 ≤ 2 &&
    bits n 13 3 = 0 && bits n 58 6 = 0 && bits n 75 5 = 0 && bits n 92 4 = 0 && bits n 126 2 = 0 &&
    bits n 32 16 ≠ 0 && hs.contains (bits n 48 10) && 1 ≤ bits n 64 11 &&
    bits n 64 11 ≤ (hs.filter (fun h => (s.unit (hearthUnit h)).health = .inService)).length &&
    (leak ≠ 1 || (st = 0 && finite32 alpha && !(decodeT 9 alpha).lt (.fin false 0 0) && !(Val.fin false 1 0).lt (decodeT 9 alpha))) &&
    (leak ≠ 2 || (if st = 0 then finite32 alpha && !(decodeT 9 alpha).lt (.fin false 0 0) else decide (0 ≤ sInt 32 alpha))) &&
    !(bitOf n 9 && bitOf n 12) &&
    (!bitOf n 8 || (actAddr (a 256) 8 && actAddr (a 320) 16)) && (!bitOf n 9 || actAddr (a 384) 64) &&
    (!bitOf n 12 || actAddr (a 384) 4) && (!bitOf n 10 || actAddr (a 448) 8) &&
    (!bitOf n 9 || (4 ≤ bits n 120 6 && bits n 120 6 ≤ 24)) && (bits n 6 2 ≠ 1 || bits n 96 24 ≠ 0) &&
    (!bitOf n 11 || (s.readEntry ctx (bits n 80 12)).isSome)

/-! Emitting (R268, R276, R284). -/

/-- The next key of a hearth. -/
def State.takeKey (s : State) (h : Nat) : Nat × State :=
  let q := (s.hearth h).eseq
  (h * 2 ^ 22 + q, s.modHearth h (fun x => { x with eseq := (q + 1) % 2 ^ 22 }))

/-- Logs a dropped event, as its 128 bits (R330, kind 7). -/
def State.logDrop (s : State) (ctx : Nat) (lo hi : Nat) : State := s.log ctx 7 0 0 0 lo hi

def Ev.lo (e : Ev) : Nat := e.key * 2 ^ 32 + e.value.toNat
def Ev.hi (e : Ev) : Nat := packFields [(32, e.time), (8, e.pop), (24, e.neuron)]

/-- The event of a sender in hearth `src`, pending at `place` under the name `id`; at tick 2^32 − 1 it is dropped. -/
def State.emit (s : State) (src id ctx pop n time : Nat) (v : BitVec 32) (place : Place) : State :=
  let (key, s) := s.takeKey src
  let dst := ((s.pop ctx pop).map (fun x => x.home n)).getD src
  let e : Ev := ⟨id, ctx, key, v, n, pop, time, dst, place, 0⟩
  if 2 ^ 32 - 1 ≤ time then s.logDrop ctx e.hi e.lo
  else
    let s : State := { s with events := s.events ++ [e] }
    if place = .mesh then s.send clsEvent src dst (.event id) else s

/-! Firing (R275–R277). -/

/-- A skipped access is logged (R330, kind 6). The entry's operator and area are those of no area: 0, the model's choice, as for a dropped
event (log 87). -/
def State.logSkip (s : State) (ctx : Nat) (f : BitVec 8) (a : Word) : State := s.log ctx 6 f.toNat 0 0 a.toNat 0

/-- The slices' part of an access by the event engine of a hearth (R198, log 18). -/
def State.fireTouch (s : State) (h : Nat) (l : Loc) (n : Nat) (write : Bool) : State :=
  match l with
  | .dev pa _ => (linesOf pa n).foldl (fun s i => s.touch (64 * i) h 3 (if write then some (linePart pa n i) else none) 0) s
  | _ => s

/-- A fire of hearth `h` has written `n` bytes: the hearth keeps no copy of their lines (R200). -/
def State.fireWrote (s : State) (h : Nat) (l : Loc) (n : Nat) : State :=
  match l with
  | .dev pa _ => s.wroteLines h (linesOf pa n)
  | _ => s

/-- An access of a fire in hearth `h` to `n` bytes (R275): one that faults is skipped and logged, and one that finds its page in no TLB
has its walk first (R207, log 72). -/
def State.fireAccess (s : State) (h ctx : Nat) (a : Word) (n : Nat) (need : Need) (body : Loc → State → State) : State :=
  if inTileWindow a then s.logSkip ctx fltTileBounds a
  else
    let va := bits a.toNat 0 55
    let miss := canonical a && (s.cached h ctx va).isNone
    match s.need h ctx a need with
    | (.error e, s) => (if miss then (s.count h 0x0E 1).count h 0x0F 1 else s).logSkip ctx e a
    | (.ok t, s) => let l := Loc.phys t va; body l ((s.noteTrans h (some t)).fireTouch h l n (need ≠ .read))

/-- 1 is added to a counter, as a counter signal at device scope of what the fire has written (R231, R239, R285). -/
def State.fireSignal (s : State) (h : Nat) (l : Loc) : State :=
  let s := (s.addCounter l 1 false).fireWrote h l 8
  s.release_ l [⟨s.now h, [scopeDev], h, 0, 0⟩]

/-- Flush: the state is added to the word of the neuron. -/
def State.fireFlush (s : State) (h ctx n : Nat) (x : Pop) (v : Nat) : State :=
  let a : Word := BitVec.ofNat 64 (x.fld 384 64 + 4 * n)
  s.fireAccess h ctx a 4 .both (fun l s =>
    let (bs, p) := s.readLoc l 4
    let r := if x.stype = 0 then roundFP32 0 0 (Val.add 0 (decodeT 9 (ofLe bs)) (decodeT 9 v)) else ofLe bs + v
    (s.writeLoc l (leBytes 4 r) p).fireWrote h l 4)

/-- One synapse record (R276). -/
def State.fireRecord (s : State) (h ctx t : Nat) (x : Pop) (j : Nat) : State :=
  let a : Word := BitVec.ofNat 64 (x.fld 320 64 + 16 * j)
  s.fireAccess h ctx a 16 .read (fun l s =>
    let r := ofLe (s.readLoc l 16).1
    let n := bits r 32 24
    let known := match s.pop ctx (bits r 56 8) with | some y => decide (n ≤ y.count) | none => false
    if bits r 80 48 ≠ 0 || !known then s.logDrop ctx (bits r 0 64) (bits r 64 64)
    else
      let time := min (t + max (bits r 64 16) (x.fld 32 16)) (2 ^ 32 - 1)
      s.fresh.emit h s.nextUid ctx (bits r 56 8) n time (BitVec.ofNat 32 r) .mesh)

/-- Fan-out: the records that the neuron's index entry names. -/
def State.fireFan (s : State) (h ctx n t : Nat) (x : Pop) : State :=
  let a : Word := BitVec.ofNat 64 (x.fld 256 64 + 8 * n)
  s.fireAccess h ctx a 8 .read (fun l s =>
    let i := ofLe (s.readLoc l 8).1
    if bits i 48 16 ≠ 0 then s.logDrop ctx i a.toNat
    else (List.range (bits i 32 16)).foldl (fun s j => s.fireRecord h ctx t x (bits i 0 32 + j)) s)

/-- Spike ring: reserve, write, publish (R277); both words are counters (R239). -/
def State.fireRing (s : State) (h ctx pop n t : Nat) (x : Pop) : State :=
  let a : Word := BitVec.ofNat 64 (x.fld 384 64)
  s.fireAccess h ctx a 8 .both (fun l s =>
    let r := ofLe (s.readLoc l 8).1
    let s := (s.addCounter l 1 false).fireWrote h l 8
    let b := a + BitVec.ofNat 64 (64 + 8 * (r % 2 ^ x.fld 120 6))
    s.fireAccess h ctx b 8 .write (fun l s =>
      let s := (s.writeLoc l (leBytes 8 (packFields [(32, t), (24, n), (8, pop)])) false).fireWrote h l 8
      s.fireAccess h ctx (a + 8) 8 .both (fun l s => s.fireSignal h l)))

/-- Requests the insertion of symbols directly after a context's MARK (R358); `tick` as in `Insertion`. -/
def State.insertion (s : State) (ctx : Nat) (syms : List Sym) (note : Bool) (tick : Option (Nat × Nat)) : State :=
  match s.ctx ctx with
  | none => s
  | some x => s.modPart x.part (fun p => { p with inserts := p.inserts ++ [⟨ctx, syms, note, p.sweep, tick⟩] })

def symInt (v : Nat) : Sym := ⟨6, false, false, BitVec.ofNat 64 v⟩

/-- `(f <h n t>)`. -/
def fireApp (f pop count n t : Nat) : List Sym :=
  [symOpen, ⟨5, false, false, BitVec.ofNat 64 f⟩, symLt,
    ⟨10, false, false, BitVec.ofNat 64 (packFields [(8, pop), (24, 0), (24, count), (4, 0), (4, 2)])⟩, symInt n, symInt t, symGt, symClose]

/-- Spike counter. -/
def State.fireCount (s : State) (h ctx : Nat) (x : Pop) : State :=
  let a : Word := BitVec.ofNat 64 (x.fld 448 64)
  s.fireAccess h ctx a 8 .both (fun l s => s.fireSignal h l)

/-- Fire(e, t) of a neuron (R275); `ev`: a delivery causes it. -/
def State.fire (s : State) (ctx pop n t : Nat) (x : Pop) (ev : Bool) : State :=
  let h := x.home n
  let e := s.acc ctx pop n x
  let s := if x.act 12 then s.fireFlush h ctx n x e.state.toNat else s
  let s := if x.act 8 then s.fireFan h ctx n t x else s
  let s := if x.act 9 then s.fireRing h ctx pop n t x else s
  let s := if x.act 11 then s.insertion ctx (fireApp (x.fld 80 12) pop x.count n t) false (if ev then some (t, pop) else none) else s
  let s := if x.act 10 then s.fireCount h ctx x else s
  s.setAcc ctx pop n x { e with
    state := BitVec.ofNat 32 (x.fld 192 32), arrivals := 0, rvalid := true, trefr := min (t + x.fld 16 16) (2 ^ 32 - 1) }

/-! Integration (R274). -/

/-- The exponential leak factor α^D, the lowest bit first; `fuel` bounds the bits. -/
def leakPow (d : Nat) : Nat → Nat → Val → Val → Val
  | 0, _, p, _ => p
  | fuel + 1, i, p, b =>
    if 2 ^ i ≤ d then
      let p := if bitOf d i then decodeT 9 (roundFP32 0 0 (Val.mul p b)) else p
      let b := if 2 ^ (i + 1) ≤ d then decodeT 9 (roundFP32 0 0 (Val.mul b b)) else b
      leakPow d fuel (i + 1) p b
    else p

/-- |v| − α·D, not below 0, with the sign of v (log 55). -/
def linearLeak (v alpha : Val) (d : Nat) : Val :=
  match v with
  | .fin n m e =>
    (match Val.add 0 (.fin false m e) (Val.mul alpha (.ofInt d)).negate with
      | .fin true _ _ => .fin n 0 0
      | .fin false m e => .fin n m e
      | _ => .fin n 0 0)
  | v => v

/-- The new state code of an FP32 neuron: leak over `d` ticks, then the input `w` (log 55). -/
def integFloat (x : Pop) (v d w : Nat) : Nat :=
  let y := decodeT 9 v
  let y :=
    match x.fld 4 2 with
    | 1 => decodeT 9 (roundFP32 0 0 (Val.mul y (leakPow d 33 0 (.fin false 1 0) (decodeT 9 (x.fld 128 32)))))
    | 2 => decodeT 9 (roundFP32 0 0 (linearLeak y (decodeT 9 (x.fld 128 32)) d))
    | _ => y
  match x.fld 2 2 with
  | 0 => roundFP32 0 0 (Val.add 0 y (decodeT 9 w))
  | 1 => roundFP32 0 0 (Val.add 0 y (Val.mul (decodeT 9 w) (decodeT 9 (x.fld 224 32))))
  | _ =>
    let z := if x.fld 4 2 = 0 then v else roundFP32 0 0 y
    if (decodeT 9 z).isNan || (decodeT 9 w).isNan then 0x7FC00000 else fminT 9 true z w

/-- The new state code of an INT32 neuron, exact and then clamped. -/
def integInt (x : Pop) (v d w : Nat) : Nat :=
  let y := sInt 32 v
  let y := if x.fld 4 2 = 2 then y.sign * max ((y.natAbs : Int) - sInt 32 (x.fld 128 32) * d) 0 else y
  let r :=
    match x.fld 2 2 with
    | 0 => y + sInt 32 w
    | 1 => y + sInt 32 w * sInt 32 (x.fld 224 32)
    | _ => max y (sInt 32 w)
  wrap 32 (clamp r (-(2 ^ 31)) (2 ^ 31 - 1))

/-- Whether a state meets the threshold. -/
def Pop.meets (x : Pop) (v : Nat) : Bool :=
  if x.stype = 0 then
    let a := decodeT 9 v; let b := decodeT 9 (x.fld 160 32)
    !a.isNan && !b.isNan && !a.lt b
  else decide (sInt 32 (x.fld 160 32) ≤ sInt 32 v)

/-- A delivered event acts on its neuron's entry. Fire rule 0 looks at the state as it is stored, rounded or clamped (Table 15.4), where the
pseudocode of R274 names the exact value: the model's choice (log 55). -/
def State.integrate (s : State) (v : Ev) (x : Pop) : State :=
  let e := s.acc v.ctx v.pop v.neuron x
  if e.rvalid && v.time ≤ e.trefr then s
  else
    let d := v.time - e.tlast
    let st := if x.stype = 0 then integFloat x e.state.toNat d v.value.toNat else integInt x e.state.toNat d v.value.toNat
    let e := { e with state := BitVec.ofNat 32 st, tlast := v.time, arrivals := min (e.arrivals + 1) (2 ^ 24 - 1) }
    let s := s.setAcc v.ctx v.pop v.neuron x e
    let fires := match x.fld 6 2 with | 0 => x.meets st | 1 => decide (x.fld 96 24 ≤ e.arrivals) | _ => false
    if !e.poison && fires then s.fire v.ctx v.pop v.neuron v.time x true else s

/-! Arrival and delivery (R278, R279). -/

/-- Events of a hearth at a place. -/
def State.evCount (s : State) (h : Nat) (p : Place) : Nat := (s.events.filter (fun e => e.hid = h && e.place = p)).length

/-- Where an event that arrives at a hearth goes: the ember queue up to its spill point, then the overflow ring, and the rest of the
queue once the ring is full; none while both are at capacity (R278, R354). -/
def State.room (s : State) (h : Nat) : Option Place :=
  let n := s.evCount h .queue
  if n < min 4096 (s.hearth h).spill then some .queue
  else if s.evCount h .ring < 65536 then some .ring
  else if n < 4096 then some .queue
  else none

/-- EVENT_ARRIVAL: the event's packet has come; one whose entries have moved meanwhile is sent on to their hearth (R273), and one that
finds no room waits. -/
def execEventArrival (id : Nat) (s : State) : Host.Outcome State Fault Refusal :=
  .next (
    match s.events.find? (fun e => e.id = id && e.place = .mesh), s.arrival (.event id) with
    | some e, some m =>
      if m.dst ≠ e.hid then (s.dropMsg m.id).send clsEvent m.dst e.hid (.event id)
      else
        match s.room e.hid with
        | none => s
        | some p =>
          let t := (s.dropMsg m.id).fresh
          { t with events := t.events.map (fun x => if x.id = id then { x with place := p, arrived := s.nextUid } else x) }
    | _, _ => s)

/-- The order of delivery. -/
def Ev.before (x y : Ev) : Bool :=
  x.time < y.time || (x.time = y.time && (x.key < y.key || (x.key = y.key && x.arrived < y.arrived)))

/-- The first of a hearth's pending events in the order of delivery. -/
def State.firstEvent (s : State) (h : Nat) : Option Ev :=
  (s.events.filter (fun e => e.hid = h)).foldl (fun b e =>
    match b with
    | none => some e
    | some x => if e.before x then some e else b) none

/-- EVENT_DELIVERY: the hearth's first event, once it has arrived and its time is below the horizon; for a population
that is not bound, or not installed in this hearth, it is dropped. Where a fire looks for pages in no TLB, their walks come first
(R207, log 72). -/
def execEventDelivery (h : Nat) (s : State) : Host.Outcome State Fault Refusal :=
  .next (
    match s.firstEvent h with
    | none => s
    | some e =>
      let full := (s.room h).isNone
      if (s.part (s.leadOf h)).horizon ≤ e.time || e.place = .sender || (e.place = .mesh && !full) then s
      else
        let drop (s : State) : State :=
          { s.dropMsgs (fun b => b = .event e.id) with events := s.events.filter (fun x => x.id ≠ e.id) }
        s.behindWalks (match s.pop e.ctx e.pop with
        | some x =>
          if x.installed && x.members.contains h && e.neuron ≤ x.count then drop ((s.integrate e x).count h 0x13 1)
          else drop (s.logDrop e.ctx e.hi e.lo)
        | none => drop (s.logDrop e.ctx e.hi e.lo)))

/-! The instructions (R281–R283). -/

/-- An event key or population handle of the right subtype, no Res0 field set. -/
def isEventKey (w : Word) : Bool := bits w.toNat 60 4 = 4 && bits w.toNat 32 28 = 0
def isPopHandle (w : Word) : Bool := bits w.toNat 60 4 = 2 && bits w.toNat 56 4 = 0 && bits w.toNat 8 24 = 0

/-- The neuron and population of an event key. -/
def keyNeuron (w : Word) : Nat := bits w.toNat 8 24
def keyPop (w : Word) : Nat := bits w.toNat 0 8

/-- Checks 1 to 3 of R281 for `n` neurons from the one that s[a] names (log 35). -/
def State.bankCheck (s : State) (ar : Area) (k : Cell) (a : SReg) (psn : Bool) (n : Nat) (body : Pop → State → State) : State :=
  s.consume ar (k.spsn a || psn) 0 (fun s =>
    let w := k.sreg a
    if !isEventKey w then s.raise fltTileFormat 0
    else
      match s.pop ar.ctx (keyPop w) with
      | none => s.raise fltTileBounds 0
      | some x => if x.count + 1 < keyNeuron w + n then s.raise fltTileBounds 0 else body x s)

/-- EVSEND and EVSENDT: the event is pending from its acceptance. -/
def sendIssue (i : Instr) (pri : BitVec 2) (words : Nat) (a b : SReg) (psn : Bool) (time : Option Nat) : Area → Cell → State → State :=
  notVoted (fun ar k s =>
    s.bankCheck ar k a (k.spsn b || psn) 1 (fun x s =>
      let h := (s.part (s.leadOf k.hid)).horizon
      let t := time.getD h
      let w := k.sreg a
      if t < h then s.raise fltEventLate 0
      else if (s.hearth (x.home (keyNeuron w))).full then s.raise fltEventOverflow 0
      else
        let c : Cmd := { s.newCmd ar k i pri.toNat with time := t }
        s.enter k 3 words c (fun s =>
          s.emit k.hid c.id ar.ctx (keyPop w) (keyNeuron w) t ((k.sreg b).extractLsb' 0 32) .sender)))

def execEvsend (c : Cond) (pri : BitVec 2) (a b : SReg) (s : State) : Host.Outcome State Fault Refusal :=
  s.gate c 1 [a, b] (sendIssue (.evsend c pri a b) pri 1 a b false none)

def execEvsendt (c : Cond) (pri : BitVec 2) (a b e : SReg) (s : State) : Host.Outcome State Fault Refusal :=
  s.gate c 2 [a, b, e] (fun ar k s =>
    sendIssue (.evsendt c pri a b e) pri 2 a b (k.spsn e) (some (bits (k.sreg e).toNat 0 32)) ar k s)

/-- POPSET (R282). -/
def execPopset (c : Cond) (pri : BitVec 2) (a b : SReg) (s : State) : Host.Outcome State Fault Refusal :=
  s.gate c 1 [a, b] (notVoted (fun ar k s =>
    s.consume ar (k.spsn a || k.spsn b) 0 (fun s =>
      let w := k.sreg a
      if !isPopHandle w then s.raise fltTileFormat 0
      else
        let q : Cmd := { s.newCmd ar k (.popset c pri a b) pri.toNat with scal := w, addr := k.sreg b }
        if k.sreg b = 0 then s.enter k 3 1 q id
        else
          s.loadDesc ar k (k.sreg b) (fun d s =>
            let l := s.leadOf k.hid
            let x : BitVec 512 := BitVec.ofNat 512 d
            if !s.dynOk ar.ctx l x then s.raise fltTileFormat 0
            else
              let set := s.hearthSet l (bits d 48 10) (bits d 64 11)
              let n := ceilDiv (bits w.toNat 32 24 + 1) set.length
              match s.pops.find (popKey ar.ctx (keyPop w)), s.placeSet n set [] with
              | none, some hs =>
                s.enter k 3 1 q (fun s =>
                  { s with pops := s.pops.set (popKey ar.ctx (keyPop w)) ⟨bits w.toNat 32 24, x, hs, false, q.id, 0, false⟩ })
              | _, _ => s.raise fltPopulationFull 0))))

/-- Populations that are unbound and to which no delivery remains give up their entries: a delivery remains until the insertion that its
fire asked for is placed (R280, R282) (log 56). -/
def State.freePops (s : State) : State :=
  let stays (k : Nat) : Bool := s.parts.any (fun p => p.2.inserts.any (fun v => (v.tick.map (fun t => popKey v.ctx t.2)) = some k))
  { s with pops := s.pops.filter (fun p => !p.2.gone || stays p.1) }

/-- A POPSET is performed: it installs its binding with fresh entries, or unbinds. -/
def performPopset (c : Cmd) (s : State) : State :=
  let key := popKey c.ctx (keyPop c.scal)
  let s : State := { s with accs := s.accs.filter (fun p => p.1 / 2 ^ 24 ≠ key) }
  if c.addr = 0 then ({ s with pops := s.pops.upd key (fun x => { x with gone := true }) } : State).freePops
  else
    { s with pops := s.pops.upd key (fun x =>
        if x.cmd = c.id then { x with installed := true, born := (s.part (s.leadOf c.hid)).horizon } else x) }

/-- An EVSEND is performed: its event leaves the sender's queue. -/
def performEvsend (c : Cmd) (s : State) : State :=
  match s.events.find? (fun e => e.id = c.id) with
  | none => s
  | some e =>
    ({ s with events := s.events.map (fun e => if e.id = c.id then { e with place := .mesh } else e) } : State).send
      clsEvent c.hid e.hid (.event e.id)

/-- ACCRD: its value comes when it is performed (R281). -/
def execAccrd (c : Cond) (pri : BitVec 2) (d a : SReg) (s : State) : Host.Outcome State Fault Refusal :=
  s.gate c 1 [d, a] (fun ar k s =>
    s.bankCheck ar k a false 1 (fun _ s =>
      let q : Cmd := { s.newCmd ar k (.accrd c pri d a) pri.toNat with scal := k.sreg a }
      s.enter k 3 1 q (fun s => s.modCur (fun k => k.await d q.id))))

/-- The installed population of a command's key (log 56). -/
def State.bankOf (s : State) (c : Cmd) : Option Pop := (s.pop c.ctx (keyPop c.scal)).filter (·.installed)

/-- An ACCRD is performed; without a binding it brings 0, unpoisoned (R282) (log 56). -/
def performAccrd (d : SReg) (c : Cmd) (s : State) : State :=
  let (v, p) : Word × Bool :=
    match s.bankOf c with
    | some x =>
      let e := s.acc c.ctx (keyPop c.scal) (keyNeuron c.scal) x
      (BitVec.ofNat 64 (e.tlast * 2 ^ 32 + e.state.toNat), e.poison)
    | none => (0, false)
  s.modCell c.uid c.cix (fun k => k.receive d c.id v p)

def execAccwr (c : Cond) (pri : BitVec 2) (a b : SReg) (s : State) : Host.Outcome State Fault Refusal :=
  s.gate c 1 [a, b] (notVoted (fun ar k s =>
    s.bankCheck ar k a (k.spsn b) 1 (fun _ s =>
      s.enter k 3 1 { s.newCmd ar k (.accwr c pri a b) pri.toNat with scal := k.sreg a, addr := k.sreg b } id)))

def performAccwr (c : Cmd) (s : State) : State :=
  match s.bankOf c with
  | none => s
  | some x =>
    let e := s.acc c.ctx (keyPop c.scal) (keyNeuron c.scal) x
    s.setAcc c.ctx (keyPop c.scal) (keyNeuron c.scal) x { e with state := c.addr.extractLsb' 0 32, poison := false }

def execAccfl (c : Cond) (pri : BitVec 2) (a b : SReg) (s : State) : Host.Outcome State Fault Refusal :=
  s.gate c 1 [a, b] (notVoted (fun ar k s =>
    let n := (k.sreg b).toNat
    s.bankCheck ar k a (k.spsn b) n (fun _ s =>
      s.enter k 3 1 { s.newCmd ar k (.accfl c pri a b) pri.toNat with scal := k.sreg a, addr := k.sreg b } id)))

/-- One neuron of an ACCFL: it fires at its own tick (log 56). -/
def performAccfl (c : Cmd) (s : State) : State :=
  match s.bankOf c with
  | none => s
  | some x =>
    let n := keyNeuron c.scal + c.landed
    let e := s.acc c.ctx (keyPop c.scal) n x
    if 0 < e.arrivals && !e.poison && c.landed < c.addr.toNat then s.fire c.ctx (keyPop c.scal) n e.tlast x false else s

/-- The times of a partition's pending events: those not delivered yet, and those whose fire's insertion is not placed yet
(R280). -/
def State.pending (s : State) (l : Nat) : List Nat :=
  (s.events.filter (fun e => s.leadOf e.hid = l)).map (·.time) ++ (s.part l).inserts.filterMap (fun v => v.tick.map (·.1))

/-- What EVWAIT waits for (R283, R284). -/
def State.tickDone (s : State) (l t : Nat) : Bool :=
  let h := (s.part l).horizon
  if 2 ^ 32 - 2 ≤ t then h = 2 ^ 32 - 1 && (s.pending l).isEmpty
  else decide (t < h) && (s.pending l).all (fun e => decide (t < e))

def execEvwait (c : Cond) (a : SReg) (s : State) : Host.Outcome State Fault Refusal :=
  s.gate c 1 [a] (fun ar k s =>
    s.consume ar (k.spsn a) 0 (fun s =>
      let t := bits (k.sreg a).toNat 0 32
      if s.tickDone (s.leadOf k.hid) t then s.finish k 1 id
      else s.waitOn .horizon 0 (BitVec.ofNat 64 t)))

end Sys2Proof.Machine
end

