-- ==== Sys2Proof/Machine/FunTables.lean ====
section
/-!
DEFINITION. The default function tables 0–5 of every hearth, built by R189 from the functions of Table 10.3. A table is
one number: entry i occupies bits [64i + 63 : 64i], the slope below the intercept, each an FP32 code.
-/

namespace Sys2Proof.Machine

/-- Table 0: 2^u. -/
def funTable0 : Nat :=
  0x3F1D96A33FB134A73F1E8B023FB0B9FD3F1F7DC23FB03FA83F206EE73FAFC5A83F215E713FAF4BFC3F224C633FAED2A43F2338BE3FAE59A13F2423843FADE0F13F250CB73FAD68953F25F4583FACF08C3F26DA6A3FAC78D63F27BEED3FAC01733F28A1E53FAB8A623F2983513FAB13A43F2A63353FAA9D393F2B41923FAA271F3F2C1E693FA9B1573F2CF9BC3FA93BE03F2DD38D3FA8C6BB3F2EABDE3FA851E73F2F82B03FA7DD643F3058053FA769313F312BDF3FA6F54F3F31FE3E3FA681BD3F32CF263FA60E7B3F339E973FA59B893F346C933FA528E63F35391C3FA4B6933F3604343FA4448F3F36CDDB3FA3D2DA3F3796143FA361733F385CE03FA2F05B3F3922413FA27F923F39E6383FA20F163F3AA8C83FA19EE83F3B69F13FA12F083F3C29B53FA0BF753F3CE8163FA050303F3DA5153F9FE1383F3E60B43F9F728C3F3F1AF43F9F042D3F3FD3D73F9E961A3F408B5F3F9E28543F41418D3F9DBADA3F41F6623F9D4DAB3F42A9E13F9CE0C83F435C093F9C74303F440CDE3F9C07E43F44BC613F9B9BE23F456A933F9B302B3F4617753F9AC4BF3F46C3093F9A599D3F476D513F99EEC63F48164E3F9984383F48BE013F9919F43F49646C3F98AFF93F4A09913F9846483F4AAD713F97DCE03F4B500D3F9773C13F4BF1663F970AEB3F4C917F3F96A25E3F4D30593F963A183F4DCDF43F95D21B3F4E6A533F956A663F4F05773F9502F93F4F9F623F949BD33F5038143F9434F53F50CF8F3F93CE5E3F5165D43F93680E3F51FAE63F9302053F528EC53F929C423F5321723F9236C63F53B2F03F91D1903F54433F3F916CA03F54D2613F9107F63F5560573F90A3923F55ED223F903F733F5678C43F8FDB993F57033F3F8F78053F578C933F8F14B53F5814C13F8EB1AA3F589BCC3F8E4EE43F5921B53F8DEC623F59A67C3F8D8A253F5A2A243F8D282B3F5AACAD3F8CC6753F5B2E183F8C65033F5BAE683F8C03D53F5C2D9D3F8BA2E93F5CABB93F8B42413F5D28BC3F8AE1DB3F5DA4A93F8A81B93F5E1F803F8A21D83F5E99433F89C23B3F5F11F33F8962DF3F5F89923F8903C53F60001F3F88A4EE3F60759E3F8846573F60EA0E3F87E8033F615D723F8789EF3F61CFCA3F872C1D3F6241183F86CE8C3F62B15D3F86713B3F63209A3F86142B3F638ED13F85B75C3F63FC023F855ACD3F64682F3F84FE7D3F64D3593F84A26E3F653D813F84469E3F65A6A83F83EB0E3F660ED03F838FBE3F6675FA3F8334AC3F66DC273F82D9DA3F6741583F827F463F67A58E3F8224F23F6808CA3F81CADB3F686B0F3F8171033F68CC5C3F81176A3F692CB23F80BE0E3F698C143F8064F03F69EA833F800C103F6A47FE3F7F66DA3F6AA4883F7EB6103F6B00223F7E05BF3F6B5ACD3F7D55E93F6BB4893F7CA68D3F6C0D583F7BF7A93F6C653C3F7B493F3F6CBC353F7A9B4E3F6D12443F79EDD53F6D676A3F7940D43F6DBBA93F78944B3F6E0F023F77E83A3F6E61753F773C9F3F6EB3043F76917B3F6F03B03F75E6CE3F6F537A3F753C973F6FA2633F7492D53F6FF06C3F73E98A3F703D963F7340B33F7089E23F7298513F70D5523F71F0643F711FE63F7148EB3F71699F3F70A1E63F71B27E3F6FFB553F71FA863F6F55363F7241B53F6EAF8B3F72880E3F6E0A533F72CD923F6D658D3F7312413F6CC1393F73561D3F6C1D563F7399263F6B79E63F73DB5E3F6AD6E63F741CC53F6A34573F745D5D3F6992393F749D273F68F08B3F74DC243F684F4C3F751A533F67AE7E3F7557B83F670E1E3F7594523F666E2E3F75D0233F65CEAD3F760B2B3F652F993F76456B3F6490F43F767EE63F63F2BD3F76B79A3F6354F33F76EF8A3F62B7973F7726B63F621AA73F775D203F617E243F7792C83F60E20E3F77C7AF3F6046633F77FBD63F5FAB243F782F3E3F5F10513F7861E83F5E75E93F7893D53F5DDBEC3F78C5063F5D42593F78F57C3F5CA9313F7925383F5C10723F79543A3F5B781E3F7982833F5AE0323F79B0153F5A48B03F79DCF13F59B1973F7A09173F591AE73F7A34883F58849E3F7A5F453F57EEBE3F7A894F3F5759463F7AB2A63F56C4353F7ADB4D3F562F8B3F7B03433F559B483F7B2A893F55076C3F7B51213F5473F63F7B770B3F53E0E63F7B9C493F534E3C3F7BC0DA3F52BBF73F7BE4C03F522A183F7C07FB3F51989E3F7C2A8D3F5107883F7C4C773F5076D73F7C6DB93F4FE68A3F7C8E543F4F56A13F7CAE483F4EC71B3F7CCD983F4E37F93F7CEC433F4DA93A3F7D0A4B3F4D1ADD3F7D27AF3F4C8CE43F7D44723F4BFF4C3F7D60943F4B72173F7D7C153F4AE5433F7D96F73F4A58D13F7DB13A3F49CCC03F7DCAE03F4941103F7DE3E83F48B5C03F7DFC543F482AD13F7E14243F47A0433F7E2B5A3F4716143F7E41F63F468C453F7E57F93F4602D53F7E6D643F4579C43F7E82373F44F1123F7E96733F4468BF3F7EAA1A3F43E0CA3F7EBD2B3F4359343F7ECFA83F42D1FB3F7EE1913F424B1F3F7EF2E73F41C4A23F7F03AB3F413E813F7F13DE3F40B8BD3F7F23803F4033553F7F32923F3FAE4A3F7F41163F3F299B3F7F4F0A3F3EA5483F7F5C723F3E21513F7F694C3F3D9DB53F7F759A3F3D1A743F7F815D3F3C978E3F7F8C953F3C15023F7F97433F3B92D13F7FA1683F3B10FA3F7FAB043F3A8F7C3F7FB4183F3A0E593F7FBCA63F398D8F3F7FC4AD3F390D1E3F7FCC2E3F388D063F7FD32B3F380D463F7FD9A33F378DDF3F7FDF983F370ED03F7FE50A3F3690193F7FE9F93F3611BA3F7FEE683F3593B23F7FF2553F3516023F7FF5C33F3498A83F7FF8B13F341BA63F7FFB203F339EFA3F7FFD123F3322A43F7FFE863F32A6A43F7FFF7D3F322AFA3F7FFFF83F31AFA6

/-- Table 1: log2(1 + u). -/
def funTable1 : Nat :=
  0x3E8E4F213F38D8753E8D96773F3935273E8CDDCE3F3992363E8C25253F39EFA23E8B6C7E3F3A4D6D3E8AB3D83F3AAB973E89FB343F3B0A203E8942933F3B69093E8889F53F3BC8533E87D15A3F3C27FD3E8718C23F3C88093E86602F3F3CE8783E85A7A03F3D49493E84EF153F3DAA7E3E8436913F3E0C173E837E113F3E6E143E82C5983F3ED0773E820D263F3F33403E8154BA3F3F966F3E809C563F3FFA053E7FC7F43F405E033E7E574C3F40C2693E7CE6B63F4127393E7B76333F418C723E7A05C33F41F2153E7895683F4258233E7725223F42BE9D3E75B4F23F4325833E7444DA3F438CD63E72D4DA3F43F4973E7164F43F445CC63E6FF5283F44C5643E6E85783F452E723E6D15E43F4597F13E6BA66E3F4601E03E6A37163F466C413E68C7DF3F46D7153E6758C83F47425C3E65E9D33F47AE173E647B013F481A473E630C543F4886EC3E619DCB3F48F4073E602F6A3F49619A3E5EC1303F49CFA43E5D531F3F4A3E273E5BE5393F4AAD233E5A777D3F4B1C993E5909EF3F4B8C8A3E579C8E3F4BFCF63E562F5C3F4C6DDF3E54C25B3F4CDF463E53558C3F4D512A3E51E8F03F4DC38D3E507C883F4E36703E4F10553F4EA9D43E4DA45A3F4F1DB93E4C38983F4F92203E4ACD0F3F50070A3E4961C13F507C793E47F6B13F50F26C3E468BDE3F5168E53E45214B3F51DFE53E43B6FA3F52576C3E424CEA3F52CF7C3E40E31F3F5348153E3F799A3F53C1383E3E105C3F543AE73E3CA7673F54B5213E3B3EBC3F552FE93E39D65D3F55AB3F3E386E4C3F5627243E37068A3F56A3993E359F193F57209F3E3437FB3F579E373E32D1313F581C623E316ABE3F589B203E3004A23F591A743E2E9EE03F599A5E3E2D39793F5A1ADF3E2BD4703F5A9BF83E2A6FC63F5B1DAB3E290B7D3F5B9FF73E27A7973F5C22DF3E2644153F5CA6633E24E0FA3F5D2A853E237E483F5DAF463E221C013F5E34A63E20BA273F5EBAA73E1F58BB3F5F414A3E1DF7C03F5FC8903E1C97383F60507A3E1B37253F60D90A3E19D7893F6162413E1878663F61EC203E1719BF3F6276A73E15BB963F6301D93E145DEC3F638DB73E1300C53F641A413E11A4223F64A7793E1048073F6535613E0EEC743F65C3F93E0D916D3F6653433E0C36F43F66E3403E0ADD0C3F6773F13E0983B73F6805593E082AF73F6897773E06D2D03F692A4E3E057B423F69BDDF3E0424533F6A522B3E02CE033F6AE7343E0178563F6B7CFA3E00234E3F6C13813DFD9DDB3F6CAAC83DFAF6713F6D42D13DF850623F6DDB9F3DF5ABB43F6E75313DF3086D3F6F0F8B3DF066923F6FAAAD3DEDC62B3F7046983DEB273B3F70E3503DE889CB3F7180D43DE5EDDF3F721F263DE3537E3F72BE493DE0BAAF3F735E3D3DDE23773F73FF053DDB8DDE3F74A0A13DD8F9EA3F7543153DD667A23F75E6613DD3D70B3F768A863DD1482E3F772F883DCEBB113F77D5663DCC2FBB3F787C253DC9A6333F7923C43DC71E813F79CC453DC498AC3F7A75AC3DC214BA3F7B1FF83DBF92B43F7BCB2D3DBD12A23F7C774C3DBA948A3F7D24573DB818753F7DD2503DB59E6B3F7E81383DB326733F7F31123DB0B0963F7FE1E03DAE3CDC3F8049D23DABCB4E3F80A32F3DA95BF33F80FD0A3DA6EED43F8157623DA483FA3F81B2393DA21B6F3F820D913D9FB5393F8269693D9D51643F82C5C33D9AEFF73F8322A03D9890FD3F8380023D96347E3F83DDE93D93DA843F843C573D91831A3F849B4C3D8F2E473F84FACA3D8CDC173F855AD23D8A8C943F85BB643D883FC83F861C843D85F5BC3F867E303D83AE7C3F86E06C3D816A133F8743373D7E51153F87A6933D79D3DC3F880A823D755C923F886F043D70EB4C3F88D41C3D6C80213F8939CA3D681B293F89A00F3D63BC7C3F8A06ED3D5F64303F8A6E653D5B125E3F8AD6793D56C71E3F8B3F2A3D52828A3F8BA8793D4E44BA3F8C12683D4A0DC73F8C7CF83D45DDCD3F8CE82B3D41B4E53F8D54023D3D93293F8DC07E3D3978B53F8E2DA23D3565A43F8E9B6E3D315A123F8F09E43D2D561C3F8F79053D2959DC3F8FE8D43D2565723F9059523D2178FA3F90CA803D1D94913F913C603D19B8573F91AEF43D15E46A3F92223E3D1218EA3F92963E3D0E55F53F930AF73D0A9BAD3F93806A3D06EA313F93F69A3D0341A33F946D883CFF44493F94E5353CF817AF3F955DA43CF0FDBD3F95D6D63CE9F6B93F9650CE3CE302EB3F96CB8D3CDC229B3F9747153CD556133F97C3683CCE9D9C3F9840893CC7F9833F98BE783CC16A143F993D383CBAEF9E3F99BCCB3CB48A703F9A3D333CAE3ADA3F9ABE733CA8012D3F9B408C3CA1DDBD3F9BC3803C9BD0DE3F9C47523C95DAE53F9CCC043C8FFC293F9D51973C8A35023F9DD8103C8485C93F9E5F6F3C7DDDB53F9EE7B63C72E1233F9F70EA3C6816983F9FFB0B3C5D7ED33FA0861C3C531A953FA1121F3C48EAA33FA19F183C3EEFC53FA22D083C352AC53FA2BBF33C2B9C713FA34BDA3C22459B3FA3DCC13C1927183FA46EAA3C1041C03FA501973C07966E3FA5958C3BFE4C033FA62A8B3BEDE2BB3FA6C0973BDDF2D23FA757B43BCE7E1A3FA7EFE33BBF86723FA889283BB10DBC3FA923853BA315E43FA9BEFF3B95A0E03FAA5B973B88B0AA3FAAF9513B788E923FAB98313B60CD913FAC38383B4A22803FACD96C3B34919B3FAD7BCE3B201F343FAE1F623B0CCFAE3FAEC42C3AF54EFC3FAF6A303AD3565C3FB0116F3AB3BEB73FB0B9EF3A96916D3FB163B33A77B0173FB20EBD3A47388E3FB2BB133A1BCFFF3FB368B839EB15063FB417B039A8F9133FB4C7FE3962EB793FB579A739096AA53FB62CAE388B8B8A3FB6E11837C2A3BC3FB796E835B7F2373FB84E23

/-- Table 2: 0.5 × u^(−1/2), entries 64–255. -/
def funTable2 : Nat :=
  0x3F403022BE8060503F4090B3BE8122343F40F1D6BE81E6023F41538DBE82ABC13F41B5D8BE8373773F4218BBBE843D2C3F427C35BE8508E73F42E049BE85D6AF3F4344F8BE86A68C3F43AA43BE8778853F44102DBE884CA23F4476B7BE8922EB3F44DDE2BE89FB683F4545B1BE8AD6213F45AE24BE8BB31E3F46173EBE8C92673F468101BE8D74063F46EB6DBE8E58033F475686BE8F3E673F47C24CBE90273B3F482EC1BE9112883F489BE8BE9200593F4909C3BE92F0B63F497852BE93E3A93F49E799BE94D93C3F4A5799BE95D17B3F4AC854BE96CC6E3F4B39CDBE97CA213F4BAC05BE98CA9E3F4C1EFEBE99CDF13F4C92BABE9AD4253F4D073DBE9BDD453F4D7C87BE9CE95D3F4DF29CBE9DF8793F4E697DBE9F0AA63F4EE12DBEA01FEF3F4F59AEBEA138613F4FD303BEA2540A3F504D2DBEA372F63F50C831BEA495343F51440EBEA5BAD13F51C0CABEA6E3DA3F523E65BEA810603F52BCE4BEA9406F3F533C47BEAA74173F53BC93BEABAB683F543DCABEACE6723F54BFEEBEAE25433F554303BEAF67ED3F55C70BBEB0AE803F564C0ABEB1F90E3F56D202BEB347A73F5758F7BEB49A5E3F57E0ECBEB5F1443F5869E3BEB74C6D3F58F3E0BEB8ABEC3F597EE6BEBA0FD43F5A0AF9BEBB78383F5A981CBEBCE52E3F5B2652BEBE56CA3F5BB5A0BEBFCD223F5C4608BEC1484B3F5CD78EBEC2C85C3F5D6A36BEC44D6B3F5DFE04BEC5D7913F5E92FBBEC766E43F5F2920BEC8FB7D3F5FC076BECA95763F605902BECC34E93F60F2C8BECDD9EF3F618DCBBECF84A33F622A11BED135223F62C79DBED2EB873F636674BED4A7F03F64069BBED66A7A3F64A816BED833443F654AEABEDA026C3F65EF1CBEDBD8143F6694B1BEDDB45B3F673BADBEDF97643F67E416BEE181513F688DF1BEE372453F693944BEE56A653F69E614BEE769D63F6A9466BEE970BF3F6B443FBEEB7F463F6BF5A7BEED95943F6CA8A3BEEFB3D33F6D5D38BEF1DA2D3F6E136DBEF408CD3F6ECB48BEF63FE13F6F84D0BEF87F963F70400BBEFAC81D3F70FCFFBEFD19A53F71BBB4BEFF74613F727C31BF00EC423F733E7CBF0223223F74029EBF035EEA3F74C89DBF049FB83F759081BF05E5A93F765A51BF0730D83F772617BF0881663F77F3DABF09D7723F78C3A1BF0B331B3F799577BF0C94833F7A6963BF0DFBCD3F7B3F6FBF0F691B3F7C17A3BF10DC933F7CF209BF1256593F7DCEAABF13D6943F7EAD91BF155D6C3F7F8EC7BF16EB0A3F80392CBF187F993F80AC26BF1A1B443F812057BF1BBE383F8195C6BF1D68A43F820C77BF1F1AB83F828470BF20D4A53F82FDB9BF22969F3F837855BF2460DB3F83F44DBF26338F3F8471A6BF280EF43F84F066BF29F3443F857096BF2BE0BC3F85F23BBF2DD79B3F86755DBF2FD8203F86FA03BF31E28F3F878034BF33F72D3F8807F9BF3616423F889159BF3840183F891C5DBF3A74FD3F89A90DBF3CB53E3F8A3771BF3F01313F8AC793BF4159293F8B597BBF43BD803F8BED34BF462E923F8C82C6BF48ACBF3F8D1A3CBF4B386A3F8DB39FBF4DD1FA3F8E4EFCBF5079DA3F8EEC5BBF53307A3F8F8BCABF55F64D3F902D52BF58CBCB3F90D101BF5BB1723F9176E2BF5EA7C33F921F03BF61AF473F92C970BF64C8893F937636BF67F41E3F942564BF6B329D3F94D709BF6E84A83F958B33BF71EAE33F9641F1BF7565FD3F96FB53BF78F6AA3F97B76BBF7C9DA83F987648BF802DDE3F9937FDBF8218DA3F99FC9BBF8410353F9AC436BF86145E3F9B8EE2BF8825CC3F9C5CB1BF8A44FB3F9D2DBBBF8C726B3F9E0213BF8EAEA53F9ED9D1BF90FA363F9FB50DBF9355B43FA093DEBF95C1BA3FA1765EBF983EED3FA25CA8BF9ACDFA3FA346D5BF9D6F953FA43504BFA0247D3FA52751BFA2ED7B3FA61DDBBFA5CB623FA718C3BFA8BF103FA81829BFABC9703FA91C30BFAEEB783FAA24FDBFB2262E3FAB32B5BFB57AA53FAC4580BFB8EA013FAD5D87BFBC75753FAE7AF5BFC01E473FAF9DF7BFC3E5D13FB0C6BDBFC7CD7F3FB1F577BFCBD6D73FB32A5ABFD003733FB4659CBFD4550A3FB5A775BFD8CD6C3FB6F021BFDD6E883FB83FDFBFE23A6C3FB996F0BFE7334C3FBAF59ABFEC5B7D3FBC5C26BFF1B5803FBDCAE0BFF744023FBF4219BFFD09DD0000000000000000000000000000000000000000000000000000000000000000000000000000000000000000000000000000000000000000000000000000000000000000000000000000000000000000000000000000000000000000000000000000000000000000000000000000000000000000000000000000000000000000000000000000000000000000000000000000000000000000000000000000000000000000000000000000000000000000000000000000000000000000000000000000000000000000000000000000000000000000000000000000000000000000000000000000000000000000000000000000000000000000000000000000000000000000000000000000000000000000000000000000000000000000000000000000000000000000000000000000000000000000000000000000000000000000000000000000000000000000000000000000000000000000000000000000000000000000000000000000000000000000000000000000000000000000000000000000000000000000000000000000000000000000000000000000000000000000000000000000000000000000000000000000000000000000000000000000000000000000000000000000000000000000000000000000000000000000000000000000000000000000000000000000000000000000000000000000000000000000

/-- Table 3: tanh(8u). -/
def funTable3 : Nat :=
  0x3F7FFFBE3679611B3F7FFFBA3684BB403F7FFFB6368D4AB93F7FFFB1369667893F7FFFAC36A01ACD3F7FFFA736AA6E383F7FFFA236B56C203F7FFF9C36C11F843F7FFF9636CD94163F7FFF9036DAD64E3F7FFF8936E8F36F3F7FFF8236F7F9963F7FFF7A3703FBE63F7FFF72370C7F073F7FFF6A37158EB33F7FFF60371F33FB3F7FFF57372978833F7FFF4D373466923F7FFF42374009173F7FFF36374C6BB43F7FFF2A37599ACF3F7FFF1D3767A3963F7FFF10377694133F7FFF0137833D9D3F7FFEF2378BB4783F7FFEE23794B7143F7FFED0379E4E733F7FFEBE37A8842D3F7FFEAB37B362793F7FFE9637BEF4373F7FFE8037CB44F93F7FFE6937D861103F7FFE5137E6559A3F7FFE3737F5308D3F7FFE1C380280623F7FFDFF380AEB093F7FFDE03813E0A63F7FFDBF381D6A303F7FFD9D382791303F7FFD7838325FD03F7FFD51383DE0DE3F7FFD28384A1FDC3F7FFCFC3857290B3F7FFCCE386509743F7FFC9D3873CEF83F7FFC693881C4303F7FFC33388A22B23F7FFBF838930B623F7FFBBB389C872A3F7FFB7938A69F853F7FFB3438B15E8C3F7FFAEB38BCCF013F7FFA9D38C8FC533F7FFA4B38D5F2B13F7FF9F438E3BF133F7FF99838F26F463F7FF936390108FD3F7FF8CF39095B6B3F7FF8613912373E3F7FF7ED391BA5543F7FF7723925AF1B3F7FF6F039305E9E3F7FF666393BBE8C3F7FF5D43947DA473F7FF5393954BDEC3F7FF4953962765D3F7FF3E8397111563F7FF33039804EB93F7FF26E3988951E3F7FF1A0399164233F7FF0C6399AC4963F7FEFDF39A4BFD83F7FEEEB39AF5FE53F7FEDE839BAAF5E3F7FECD639C6B9923F7FEBB439D38A8D3F7FEA8139E12F203F7FE93C39EFB4F13F7FE7E439FF2A853F7FE6783A07CFA93F7FE4F73A1091E83F7FE35F3A19E4C03F7FE1AF3A23D1863F7FDFE63A2E62263F7FDE033A39A1323F7FDC033A4599E73F7FD9E53A5258403F7FD7A83A5FE8FA3F7FD54A3A6E59A73F7FD2C83A7DB8B73F7FD0213A870AC53F7FCD523A8FC03D3F7FCA5A3A99057A3F7FC7363AA2E3C13F7FC3E33AAD64EF3F7FC05F3AB893853F7FBCA73AC47AB23F7FB8B73AD1265C3F7FB48E3ADEA32E3F7FB0273AECFEA33F7FAB7F3AFC47163F7FA6923B0645E73F7FA15D3B0EEE873F7F9BDB3B1826123F7F96073B21F5BF3F7F8FDE3B2C675C3F7F895B3B3785583F7F82783B435AD13F7F7B2F3B4FF3993F7F737C3B5D5C463F7F6B583B6BA23E3F7F62BD3B7AD3C33F7F59A53B8580013F7F50073B8E1B923F7F45DD3B97452C3F7F3B1E3BA105F73F7F2FC43BAB67AF3F7F23C43BB674B23F7F17153BC238083F7F09AE3BCEBD6E3F7EFB853BDC11653F7EEC8F3BEA41383F7EDCC03BF95B103F7ECC0D3C04B6FE3F7EBA683C0D45023F7EA7C43C16601D3F7E94153C2011623F7E7F493C2A627A3F7E69533C355DAE3F7E52213C410DEE3F7E39A33C4D7EDF3F7E1FC63C5ABCE43F7E04783C68D52B3F7DE7A33C77D5BC3F7DC9333C83E6C13F7DA9113C8C66313F7D87263C95719E3F7D635A3C9F12063F7D3D923CA950F93F7D15B43CB438A33F7CEBA23CBFD3D53F7CBF3E3CCC2E143F7C90683CD9539D3F7C5F003CE751763F7C2AE33CF6357A3F7BF3EB3D0307323F7BB9F23D0B75EF3F7B7CD03D146F4A3F7B3C5A3D1DFC1E3F7AF8633D2825D63F7AB0BE3D32F6753F7A65383D3E78A33F7A159F3D4AB7AE3F79C1BD3D57BFA03F7969593D659D413F790C383D745E273F78AA1D3D8208613F7842C63D8A62353F77D5F13D9344B53F7763563D9CB8893F76EAAB3DA6C6E13F766BA33DB179813F75E5ED3DBCDAC63F7559363DC8F5AF3F74C5253DD5D5EB3F74295E3DE387DD3F7385833DF218AA3F72D9303E00CB223F7223FD3E0907B93F71657F3E11C9F23F709D463E1B1A1B3F6FCADD3E2501003F6EEDCE3E2F87F63F6E059A3E3AB8DC3F6D11C13E469E243F6C11BC3E5342DF3F6B05023E60B2BE3F69EB033E6EFA1F3F68C32E3E7E26143F678CEA3E8722363F66479B3E8FB1DB3F64F2A33E98C9AB3F638D5C3EA271C13F6217203EACB2A83F608F443EB7955E3F5EF5193EC3235C3F5D47EE3ECF66953F5B87103EDC697D3F59B1C93EEA370E3F57C7633EF8DACA3F55C7263F04305E3F53B05A3F0C6AC13F51824A3F1523223F4F3C403F1E60603F4CDD8B3F2829A53F4A657B3F3286623F47D3693F3D7E513F4526B23F4919763F425EBC3F55601A3F3F7AF73F625AC73F3C7ADE3F70124A3F395DFB3F7E8FAB3F3623E63F86EE133F32CC4B3F8F00923F2F56E93F97841D3F2BC3973FA07D893F2812463FA9F1B63F2443023FB3E5823F2055F93FBE5DC73F1C4B7B3FC95F4E3F1823FD3FD4EEC73F13E0203FE110BB3F0F80AE3FEDC9833F0B06A43FFB1D353F067330400487CB3F01C7B6400BD2073EFA0BA940136EC53EF05EC5401B5F393EE68CEE4023A4483EDC9AD0402C3E793ED28D9540352DF03EC86AEC403E72593EBE390640480AE13EB3FE924051F6233EA9C2BD405C32213E9F8D274066BC2D3E9565DE407190E53E8B5553407CAC203E816449408404713E6F378B4089D0AA3E5C09FB408FB75B3E49527A4095B4B03E37239F409BC45A3E258FC040A1E18D3E14A8BB40A807073E047FAD40AE2F0C3DEA495D40B4536D3DCD4D1640BA6D8B3DB224EA40C076663D98E77B40C666A13D81A71940CC36963D58E26F40D1DE5F3D329BE940D755ED3D107F5940DC951B3CE50A7B40E193C43CB132BC40E649DB3C8534F540EAAF813C4168E840EEBD263C06755840F26B993BB0E05B40F5B42C3B582CA040F890C53AEE652B40FAFBF93A61466940FCF12139A427A240FE6C6B388BBFE940FF6AED36034F9540FFEAAD

/-- Table 4: 1 / (1 + e^(−16u)) − 0.5. -/
def funTable4 : Nat :=
  0x3EFFFFBE35F9611B3EFFFFBA3604BB403EFFFFB6360D4AB93EFFFFB1361667893EFFFFAC36201ACD3EFFFFA7362A6E383EFFFFA236356C203EFFFF9C36411F843EFFFF96364D94163EFFFF90365AD64E3EFFFF893668F36F3EFFFF823677F9963EFFFF7A3683FBE63EFFFF72368C7F073EFFFF6A36958EB33EFFFF60369F33FB3EFFFF5736A978833EFFFF4D36B466923EFFFF4236C009173EFFFF3636CC6BB43EFFFF2A36D99ACF3EFFFF1D36E7A3963EFFFF1036F694133EFFFF0137033D9D3EFFFEF2370BB4783EFFFEE23714B7143EFFFED0371E4E733EFFFEBE3728842D3EFFFEAB373362793EFFFE96373EF4373EFFFE80374B44F93EFFFE69375861103EFFFE513766559A3EFFFE373775308D3EFFFE1C378280623EFFFDFF378AEB093EFFFDE03793E0A63EFFFDBF379D6A303EFFFD9D37A791303EFFFD7837B25FD03EFFFD5137BDE0DE3EFFFD2837CA1FDC3EFFFCFC37D7290B3EFFFCCE37E509743EFFFC9D37F3CEF83EFFFC693801C4303EFFFC33380A22B23EFFFBF838130B623EFFFBBB381C872A3EFFFB7938269F853EFFFB3438315E8C3EFFFAEB383CCF013EFFFA9D3848FC533EFFFA4B3855F2B13EFFF9F43863BF133EFFF99838726F463EFFF936388108FD3EFFF8CF38895B6B3EFFF8613892373E3EFFF7ED389BA5543EFFF77238A5AF1B3EFFF6F038B05E9E3EFFF66638BBBE8C3EFFF5D438C7DA473EFFF53938D4BDEC3EFFF49538E2765D3EFFF3E838F111563EFFF33039004EB93EFFF26E3908951E3EFFF1A0391164233EFFF0C6391AC4963EFFEFDF3924BFD83EFFEEEB392F5FE53EFFEDE8393AAF5E3EFFECD63946B9923EFFEBB439538A8D3EFFEA8139612F203EFFE93C396FB4F13EFFE7E4397F2A853EFFE6783987CFA93EFFE4F7399091E83EFFE35F3999E4C03EFFE1AF39A3D1863EFFDFE639AE62263EFFDE0339B9A1323EFFDC0339C599E73EFFD9E539D258403EFFD7A839DFE8FA3EFFD54A39EE59A73EFFD2C839FDB8B73EFFD0213A070AC53EFFCD523A0FC03D3EFFCA5A3A19057A3EFFC7363A22E3C13EFFC3E33A2D64EF3EFFC05F3A3893853EFFBCA73A447AB23EFFB8B73A51265C3EFFB48E3A5EA32E3EFFB0273A6CFEA33EFFAB7F3A7C47163EFFA6923A8645E73EFFA15D3A8EEE873EFF9BDB3A9826123EFF96073AA1F5BF3EFF8FDE3AAC675C3EFF895B3AB785583EFF82783AC35AD13EFF7B2F3ACFF3993EFF737C3ADD5C463EFF6B583AEBA23E3EFF62BD3AFAD3C33EFF59A53B0580013EFF50073B0E1B923EFF45DD3B17452C3EFF3B1E3B2105F73EFF2FC43B2B67AF3EFF23C43B3674B23EFF17153B4238083EFF09AE3B4EBD6E3EFEFB853B5C11653EFEEC8F3B6A41383EFEDCC03B795B103EFECC0D3B84B6FE3EFEBA683B8D45023EFEA7C43B96601D3EFE94153BA011623EFE7F493BAA627A3EFE69533BB55DAE3EFE52213BC10DEE3EFE39A33BCD7EDF3EFE1FC63BDABCE43EFE04783BE8D52B3EFDE7A33BF7D5BC3EFDC9333C03E6C13EFDA9113C0C66313EFD87263C15719E3EFD635A3C1F12063EFD3D923C2950F93EFD15B43C3438A33EFCEBA23C3FD3D53EFCBF3E3C4C2E143EFC90683C59539D3EFC5F003C6751763EFC2AE33C76357A3EFBF3EB3C8307323EFBB9F23C8B75EF3EFB7CD03C946F4A3EFB3C5A3C9DFC1E3EFAF8633CA825D63EFAB0BE3CB2F6753EFA65383CBE78A33EFA159F3CCAB7AE3EF9C1BD3CD7BFA03EF969593CE59D413EF90C383CF45E273EF8AA1D3D0208613EF842C63D0A62353EF7D5F13D1344B53EF763563D1CB8893EF6EAAB3D26C6E13EF66BA33D3179813EF5E5ED3D3CDAC63EF559363D48F5AF3EF4C5253D55D5EB3EF4295E3D6387DD3EF385833D7218AA3EF2D9303D80CB223EF223FD3D8907B93EF1657F3D91C9F23EF09D463D9B1A1B3EEFCADD3DA501003EEEEDCE3DAF87F63EEE059A3DBAB8DC3EED11C13DC69E243EEC11BC3DD342DF3EEB05023DE0B2BE3EE9EB033DEEFA1F3EE8C32E3DFE26143EE78CEA3E0722363EE6479B3E0FB1DB3EE4F2A33E18C9AB3EE38D5C3E2271C13EE217203E2CB2A83EE08F443E37955E3EDEF5193E43235C3EDD47EE3E4F66953EDB87103E5C697D3ED9B1C93E6A370E3ED7C7633E78DACA3ED5C7263E84305E3ED3B05A3E8C6AC13ED1824A3E9523223ECF3C403E9E60603ECCDD8B3EA829A53ECA657B3EB286623EC7D3693EBD7E513EC526B23EC919763EC25EBC3ED5601A3EBF7AF73EE25AC73EBC7ADE3EF0124A3EB95DFB3EFE8FAB3EB623E63F06EE133EB2CC4B3F0F00923EAF56E93F17841D3EABC3973F207D893EA812463F29F1B63EA443023F33E5823EA055F93F3E5DC73E9C4B7B3F495F4E3E9823FD3F54EEC73E93E0203F6110BB3E8F80AE3F6DC9833E8B06A43F7B1D353E8673303F8487CB3E81C7B63F8BD2073E7A0BA93F936EC53E705EC53F9B5F393E668CEE3FA3A4483E5C9AD03FAC3E793E528D953FB52DF03E486AEC3FBE72593E3E39063FC80AE13E33FE923FD1F6233E29C2BD3FDC32213E1F8D273FE6BC2D3E1565DE3FF190E53E0B55533FFCAC203E016449400404713DEF378B4009D0AA3DDC09FB400FB75B3DC9527A4015B4B03DB7239F401BC45A3DA58FC04021E18D3D94A8BB402807073D847FAD402E2F0C3D6A495D4034536D3D4D4D16403A6D8B3D3224EA404076663D18E77B404666A13D01A719404C36963CD8E26F4051DE5F3CB29BE9405755ED3C907F59405C951B3C650A7B406193C43C3132BC406649DB3C0534F5406AAF813BC168E8406EBD263B86755840726B993B30E05B4075B42C3AD82CA0407890C53A6E652B407AFBF939E14669407CF121392427A2407E6C6B380BBFE9407F6AED35834F95407FEAAD

/-- Table 5: Φ(8u) − 0.5. -/
def funTable5 : Nat :=
  0x3F000000294EC4043F00000029849D2B3F00000029A9F1AA3F00000029D991D63F0000002A0B22993F0000002A31C7813F0000002A62EF5E3F0000002A90B3233F0000002AB859403F0000002AEAA1E53F0000002B152B903F0000002B3D7CF23F0000002B7077DD3F0000002B986EE33F0000002BC1110B3F0000002BF44AF43F0000002C1A67923F0000002C42FDCF3F0000002C7601B63F0000002C9B08733F0000002CC3365D3F0000002CF590A13F0000002D1A4D4D3F0000002D41B9383F0000002D72FAB03F0000002D983B083F0000002DBE905C3F0000002DEE512E3F0000002E14DF793F0000002E39D0CC3F0000002E67B2FF3F0000002E9050C13F0000002EB399AC3F0000002EDF4B463F0000002F0AAC643F0000002F2C12EE3F0000002F554F953F0000002F8416043F0000002FA36BA43F0000002FC9FDB53F0000002FF96BDE3F0000003019D81D3F000000303D992C3F00000030696F0F3F000000308F8FD53F00000030B068A43F00000030D88F3A3F0000003104CB663F0000003122B3583F000000314725A53F0000003173851E3F0000003194BE9F3F00000031B588433F00000031DD54BF3F0000003206CBC13F000000322407143F0000003247675B3F00000032722C403F0000003292EA043EFFFFFF32B213AE3EFFFFFF32D7A39A3EFFFFFF33026F4C3EFFFFFF331DA3B63EFFFFFF333E55183EFFFFFF336594CA3EFFFFFE338A539F3EFFFFFE33A686943EFFFFFE33C847183EFFFFFD33F0A2B73EFFFFFD34106C023EFFFFFC342D2F8E3EFFFFFB344F79C63EFFFFFA34784FF03EFFFFF9349472BF3EFFFFF834B151ED3EFFFFF634D399B43EFFFFF534FC42F73EFFFFF2351638AA3EFFFFF03532BD0E3EFFFFED3554762C3EFFFFEA357C4D073EFFFFE63595A8B83EFFFFE135B160133EFFFFDB35D204F03EFFFFD535F86DA83EFFFFCD3612C9993EFFFFC5362D4B313EFFFFBA364C62FC3EFFFFAE3670D2B93EFFFFA1368DBD383EFFFF9036A6AE733EFFFF7E36C3D2563EFFFF6836E5D4EB3EFFFF4F3706BE213EFFFF31371DD60B3EFFFF103738B5003EFFFEE83757F1103EFFFEBB377C36363EFFFE87379324A83EFFFE4C37AB85BE3EFFFE0737C7BEEB3EFFFDB837E862D83EFFFD5D38070C543EFFFCF5381CCF4D3EFFFC7E3835E67B3EFFFBF63852CCB03EFFFB5A38740D3E3EFFFAA8388D23003EFFF9DD38A314CC3EFFF8F538BC40FF3EFFF7EE38D919993EFFF6C338FA1F303EFFF56F390FF14D3EFFF3EE392583673EFFF239393E217B3EFFF04A395A32513EFFEE1B397A292A3EFFEBA3398F438A3EFFE8DA39A3EE353EFFE5B639BB65373EFFE22D39D6028A3EFFDE3439F42A733EFFD9BC3A0B26483EFFD4B93A1E727B3EFFCF1B3A343EBA3EFFC8D03A4CD76B3EFFC1C63A6891343EFFB9E83A83E4DB3EFFB1203A9574353EFFA7563AA92FBD3EFF9C703ABF56603EFF904F3AD82D623EFF82D53AF400E73EFF73DF3B0992463EFF63483B1AF9FF3EFF50E93B2E69D43EFF3C953B4418AC3EFF261E3B5C42823EFF0D523B7728C23EFEF1FB3B8A895A3EFED3DE3B9B26F23EFEB2BC3BAD97483EFE8E543BC208133EFE665D3BD8AAD93EFE3A8C3BF1B5303EFE0A8E3C06B0813EFDD60F3C15F6643EFD9CB23C26CDEB3EFD5E153C395B4D3EFD19D33C4DC5763EFCCF7F3C6436233EFC7EA63C7CDA0D3EFC26D13C8BF0863EFBC7803C9ABF1A3EFB60313CAAF4013EFAF0573CBCAC3C3EFA77643CD006A13EF9F4C13CE523E93EF967D13CFC26C33EF8CFF43D0A99EE3EF82C823D1838FB3EF77CCE3D2704F43EF6C0273D3713593EF5F5D83D487AC13EF51D263D5B52DA3EF435533D6FB4713EF33D9E3D82DCB83EF235443D8EBE6C3EF11B7E3D9B8D653EEFEF863DA9583D3EEEB0953DB82E173EED5DE33DC81E993EEBF6AA3DD939EB3EEA7A273DEB90AD3EE8E7993DFF33F43EE73E443E0A1AA03EE57D723E1553383EE3A4733E214CE03EE1B29E3E2E10DA3EDFA7563E3BA8863EDD82053E4A1D5E3EDB42233E5978EB3ED8E7353E69C4BE3ED670CF3E7B0A643ED3DE943E86A9B13ED130383E9054903ECE65853E9A8A743ECB7E553EA54FEB3EC87A9A3EB0A9643EC55A5C3EBC9B2C3EC21DBC3EC929613EBEC4F33ED657F43EBB50553EE42A983EB7C04F3EF2A4C03EB4156E3F00E4CC3EB050583F08CDFB3EAC71D33F110F2F3EA87AC13F19A9773EA46C233F229DAF3EA047193F2BEC783E9C0CE03F3596393E97BED33F3F9B193E935E6C3F49FAF93E8EED403F54B5743E8A6D033F5FC9D83E85DF803F6B37273E8146A13F76FC0F3E7948C63F818B763E6FF5BB3F87C2E03E6698773F8E231C3E5D35763F94AAD13E53D1543F9B58793E4A70C83FA22A603E4118A33FA91EA03E37CDC23FB033273E2E950F3FB765B13E25737A3FBEB3CC3E1C6DEE3FC61ADA3E13894D3FCD980B3E0ACA6C3FD528673E0236063FDCC8C83DF3A1713FE475E03DE33DFB3FEC2C3A3DD34A403FF3E8393DC3CE733FFBA6203DB4D24E4001B1083DA65D0D40058C063D987558400962003D8B213E400D30DE3D7CCC4A4010F6803D6491824014B0BF3D4D9A1040185D6B3D37EC55401BFA553D238D18401F85473D107F754022FC0F3CFD89A440265C7E3CDCB9B44029A4683CBE8AE8402CD1A93CA2F582402FE2283C89EE374032D3D73C66CC6D4035A4B53C3E9666403852D43C1B0EEC403ADC563BF807DA403D3F753BC279DD403F7A7E3B94F69F40418BDB3B5DEA6B4043720D3B1FC39040452BB43ADC794E4046B78F3A900E304048147A3A2F0E414049417439C01FDB404A3D9E3934D9B4404B083C3883666D404BA0B9375F4B5C404C06A034D19C2B404C39A7

/-- The entries of a default table. -/
def funTable (n : Nat) : Nat :=
  match n with
  | 0 => funTable0
  | 1 => funTable1
  | 2 => funTable2
  | 3 => funTable3
  | 4 => funTable4
  | _ => funTable5

/-- Slope and intercept of entry `i` of a default table. -/
def funEntry (n i : Nat) : Nat × Nat := (bits (funTable n) (64 * i) 32, bits (funTable n) (64 * i + 32) 32)

end Sys2Proof.Machine
end

