-- ==== Sys2Proof/Machine/Matrix.lean ====
section
/-!
DEFINITION. The matrix engine: MMA, MMAI, MMAX, SCACC, TTRN, TCVT, CXSORT and CXMERGE, what each checks at its issue
and what its performance writes (R166–R173).
-/

namespace Sys2Proof.Machine

/-! Issue. -/

/-- A descriptor register's fields. -/
def Cell.desc (k : Cell) (r : TReg) : Desc := descOf (k.dreg r)

/-- Type and size limits of one operand. -/
def Desc.is (d : Desc) (t : BitVec 4) (lim : Nat) : Bool := d.type = t.toNat && d.rows ≤ lim && d.cols ≤ lim

/-- The captured operands of an E-form with descriptor registers d, a, b, c and e. -/
def Cell.operands (k : Cell) (d a b c e : TReg) (x : Cmd) : Cmd :=
  { x with d := k.opnd d, a := k.opnd a, b := k.opnd b, c := k.opnd c, e := k.opnd e }

/-- An MMA-shaped command: a is M × K, b is K × N, d is M × N. -/
def mmaIssue (i : Instr) (d a b : TReg) (w : EWord) : Area → Cell → State → State :=
  fun ar k s =>
    let x := k.desc d; let y := k.desc a; let z := k.desc b
    let fmt := x.is w.tc 128 && y.is w.ta 128 && z.is w.tb 128 && y.rows = x.rows && z.cols = x.cols && y.cols = z.rows
    s.issue ar k 0 i w.pri.toNat [if w.acc then useBoth d else useDst d, useSrc a, useSrc b] fmt (k.operands d a b 0 0) id

def execMma (c : Cond) (f d a b : BitVec 3) (w : EWord) (s : State) : Host.Outcome State Fault Refusal :=
  s.gate c 2 [] (mmaIssue (.mma c f d a b w) d a b w)

def execMmai (c : Cond) (f d a b : BitVec 3) (w : EWord) (s : State) : Host.Outcome State Fault Refusal :=
  s.gate c 2 [] (mmaIssue (.mmai c f d a b w) d a b w)

def execMmax (c : Cond) (f d a b : BitVec 3) (w : EWord) (s : State) : Host.Outcome State Fault Refusal :=
  s.gate c 2 [] (fun ar k s =>
    let x := k.desc d; let y := k.desc a; let z := k.desc b
    let fmt := x.is w.tc 128 && y.is w.ta 128 && z.is w.tb 128 && y.rows = x.rows && z.rows = x.cols && y.cols = 32 && z.cols = 32
    s.issue ar k 0 (.mmax c f d a b w) w.pri.toNat [useDst d, useSrc a, useSrc b] fmt (k.operands d a b 0 0) id)

def execScacc (c : Cond) (f d a b : BitVec 3) (w : EWord) (s : State) : Host.Outcome State Fault Refusal :=
  s.gate c 2 [] (fun ar k s =>
    let x := k.desc d; let y := k.desc a; let z := k.desc b; let v := k.desc w.c
    let fmt := x.is w.tc 128 && y.is w.ta 128 && z.is w.tb 128 && v.is 13 128 && y.rows = x.rows && y.cols = x.cols &&
      z.rows = x.rows && v.rows = x.cols && f.toNat < z.cols && f.toNat < v.cols
    s.issue ar k 0 (.scacc c f d a b w) w.pri.toNat [useBoth d, useSrc a, useSrc b, useSrc w.c] fmt (k.operands d a b w.c 0) id)

def execTtrn (c : Cond) (f d a b : BitVec 3) (w : EWord) (s : State) : Host.Outcome State Fault Refusal :=
  s.gate c 2 [] (fun ar k s =>
    let x := k.desc d; let y := k.desc a
    let fmt := x.is w.tc 128 && y.is w.ta 128 && y.rows = x.cols && y.cols = x.rows
    s.issue ar k 0 (.ttrn c f d a b w) w.pri.toNat [useDst d, useSrc a] fmt (k.operands d a 0 0 0) id)

/-- The scale tiles that a conversion names: c for MXFP4 and MXFP6 sources, e for an MXFP4 destination (log 29). -/
def cvtUses (f : Nat) (d a : TReg) (w : EWord) : List Use :=
  [useDst d, useSrc a] ++ (if f = 4 || (f = 0 && w.ta = 12) then [useSrc w.c] else []) ++ (if w.tc = 12 then [useDst w.e] else [])

/-- Types and shapes of a conversion (R50, R171). A row of FP6 or MXFP6 elements holds a multiple of four (R65); the last block of an
MXFP6 row may be short, and its scale has a column of its own (the model's choice, log 92). -/
def cvtFmt (k : Cell) (f : Nat) (d a : TReg) (w : EWord) : Bool :=
  let x := k.desc d; let y := k.desc a
  let src :=
    match f with
    | 0 => y.type = w.ta.toNat && y.cols = x.cols
    | 1 => y.type = 1 && 2 * y.cols = x.cols
    | _ => y.type = 1 && 4 * y.cols = 3 * x.cols
  let scale (r : TReg) : Bool := (k.desc r).type = 13 && (k.desc r).rows = x.rows && (k.desc r).cols = ceilDiv x.cols 32
  x.type = w.tc.toNat && src && y.rows = x.rows && (!(f = 4 || (f = 0 && w.ta = 12)) || scale w.c) && (w.tc ≠ 12 || scale w.e)

def execTcvt (c : Cond) (f d a b : BitVec 3) (w : EWord) (s : State) : Host.Outcome State Fault Refusal :=
  s.gate c 2 [] (fun ar k s =>
    s.issue ar k 0 (.tcvt c f d a b w) w.pri.toNat (cvtUses f.toNat d a w) (cvtFmt k f.toNat d a w) (k.operands d a 0 w.c w.e) id)

def execCxsort (c : Cond) (f d a b : BitVec 3) (w : EWord) (s : State) : Host.Outcome State Fault Refusal :=
  s.gate c 2 [] (fun ar k s =>
    let x := k.desc d; let y := k.desc a; let z := k.desc w.c
    let fmt := x.is w.tc 128 && y.is w.ta 128 && z.is 4 128 && y.rows = x.rows && y.cols = x.cols && z.rows = x.rows && z.cols = x.cols
    s.issue ar k 0 (.cxsort c f d a b w) w.pri.toNat [useDst d, useSrc a, useDst w.c] fmt (k.operands d a 0 w.c 0) id)

def execCxmerge (c : Cond) (f d a b : BitVec 3) (w : EWord) (s : State) : Host.Outcome State Fault Refusal :=
  s.gate c 2 [] (fun ar k s =>
    let x := k.desc d; let y := k.desc a; let v := k.desc b; let z := k.desc w.c
    let fmt := x.type = w.tc.toNat && z.type = 4 && y.is w.ta 128 && v.is w.tb 128 && y.rows = x.rows && v.rows = x.rows &&
      z.rows = x.rows && x.cols = y.cols + v.cols && z.cols = x.cols
    s.issue ar k 0 (.cxmerge c f d a b w) w.pri.toNat [useDst d, useSrc a, useSrc b, useDst w.c] fmt (k.operands d a b w.c 0) id)

/-! Performance. -/

/-- One chunk of MMA: the accumulator and up to 32 products, summed with truncation below 2^(E − 34), rounded once. -/
def mmaChunk (sat : Bool) (acc : Val) (ts : List Val) : Val :=
  let l := acc :: ts
  let inf (n : Bool) : Bool := l.any (fun t => t = .inf n)
  if l.any Val.isNan || (inf true && inf false) then .qnan
  else if inf true then .inf true
  else if inf false then .inf false
  else if l.all Val.isZero then .fin (l.all Val.neg) 0 0
  else
    let exps := l.filterMap (fun t => match t with | .fin _ m e => if m = 0 then none else some (expOf m e) | _ => none)
    let q := exps.foldl max (exps.headD 0) - 34
    let sum := l.foldl (fun (x : Int) t => match t with | .fin n m e => x + truncUnits n m e q | _ => x) 0
    decodeT 9 (roundT 9 0 sat 0 (ofSigned false sum q))

/-- The chunks of 32 in increasing k. `fuel` bounds their number. -/
def mmaChunks (sat : Bool) : Nat → Val → List Val → Val
  | 0, acc, _ => acc
  | _, acc, [] => acc
  | n + 1, acc, l => mmaChunks sat n (mmaChunk sat acc (l.take 32)) (l.drop 32)

/-- The three tiles of a command. -/
def State.tiles3 (s : State) (c : Cmd) : Option (Tv × Tv × Tv) :=
  match s.tile1 c c.d, s.tile1 c c.a, s.tile1 c c.b with
  | some d, some a, some b => some (d, a, b)
  | _, _, _ => none

/-- The poison of row i of a and column j of b. -/
def State.dotPsn (s : State) (a b : Tv) (i j : Nat) : Bool :=
  (List.range a.d.cols).any (fun k => s.psnAt a i k || s.psnAt b k j)

def performMma (w : EWord) (c : Cmd) (s : State) : State :=
  match s.tiles3 c with
  | none => s
  | some (d, a, b) =>
    s.fillTile c.hid 0 d (fun i j _ =>
      let acc := if w.acc then decodeT 9 (s.at d i j) else .fin false 0 0
      let ts := (List.range a.d.cols).map (fun k =>
        Val.mul (decodeT w.ta.toNat (s.at a i k)) (decodeT w.tb.toNat (s.at b k j)))
      (arith 9 0 w.sat 0 (mmaChunks w.sat 8 acc ts), s.dotPsn a b i j || (w.acc && s.psnAt d i j)))

/-- The value of an integer code. -/
def intVal (t c : Nat) : Int :=
  match intOf t with
  | some (n, true) => sInt n c
  | some (n, false) => (bits c 0 n : Nat)
  | none => 0

/-- An exact integer as a code of an integer type (R178). -/
def intCode (t : Nat) (sat : Bool) (v : Int) : Nat :=
  match intOf t with
  | some (n, sg) => wrap n (if sat then clamp v (intMin n sg) (intMax n sg) else v)
  | none => 0

def performMmai (w : EWord) (c : Cmd) (s : State) : State :=
  match s.tiles3 c with
  | none => s
  | some (d, a, b) =>
    s.fillTile c.hid 0 d (fun i j _ =>
      let acc := if w.acc then sInt 32 (s.at d i j) else 0
      let t := (List.range a.d.cols).foldl (fun x k =>
        x + intVal w.ta.toNat (s.at a i k) * intVal w.tb.toNat (s.at b k j)) acc
      (intCode 4 w.sat t, s.dotPsn a b i j || (w.acc && s.psnAt d i j)))

/-- The exact sum of finite products (R169): an exact zero is +0. -/
def exactSum (l : List Val) : Val :=
  let e0 := l.foldl (fun (x : Int) t => match t with | .fin _ _ e => min x e | _ => x) 0
  ofSigned false (l.foldl (fun (x : Int) t => match t with | .fin n m e => x + signedAt n m e e0 | _ => x) 0) e0

def performMmax (c : Cmd) (s : State) : State :=
  match s.tiles3 c with
  | none => s
  | some (d, a, b) =>
    s.fillTile c.hid 0 d (fun i j _ =>
      let ts := (List.range 32).map (fun k => Val.mul (e2m1.decode (s.at a i k)) (e2m1.decode (s.at b j k)))
      (roundT 9 0 false 0 (exactSum ts), (List.range 32).any (fun k => s.psnAt a i k || s.psnAt b j k)))

def performScacc (f : Nat) (w : EWord) (c : Cmd) (s : State) : State :=
  match s.tiles3 c, s.tile1 c c.c with
  | some (d, a, b), some e =>
    let s' := s.fillTile c.hid 0 d (fun i n _ =>
      let (sa, xa) := s.scaleAt b i f
      let (sb, xb) := s.scaleAt e n f
      let v :=
        if sa = 255 || sb = 255 then fp32.defaultNaN
        else
          let t := (decodeT 9 (s.at a i n)).scale ((sa : Int) + sb - 254)
          arith 9 0 w.sat 0 (Val.add 0 (decodeT 9 (s.at d i n)) t)
      (v, xa || xb || s.psnAt d i n || s.psnAt a i n || s.psnAt b i f || s.psnAt e n f))
    (s'.reportScales c.hid b d.d.rows 1 f).reportScales c.hid e d.d.cols 1 f
  | _, _ => s

/-- A copy of codes: element (r, c) from `src r c`. -/
def State.moveTile (s : State) (hid : Nat) (d a : Tv) (src : Nat → Nat → Nat × Nat) : State :=
  s.fillTile hid 0 d (fun r c _ => let (i, j) := src r c; (s.at a i j, s.psnAt a i j))

def performTtrn (c : Cmd) (s : State) : State :=
  match s.tile1 c c.d, s.tile1 c c.a with
  | some d, some a => s.moveTile c.hid d a (fun r c => (c, r))
  | _, _ => s

/-- The value of a packed source element (R65) and the byte columns that hold it. -/
def State.packedAt (s : State) (f : Nat) (a : Tv) (r c : Nat) : Val × List Nat :=
  if f = 1 then (.ofInt (sInt 4 (s.at a r (c / 2) / 16 ^ (c % 2))), [c / 2])
  else
    let g := 3 * (c / 4)
    let x := s.at a r g + 256 * s.at a r (g + 1) + 65536 * s.at a r (g + 2)
    let code := x / 64 ^ (c % 4) % 64
    let lo := 6 * (c % 4) / 8
    let hi := (6 * (c % 4) + 5) / 8
    ((if f = 3 then e3m2 else e2m3).decode code, [g + lo, g + hi])

/-- TCVT and VCVT (R171, R186). -/
def performCvt (f : Nat) (w : EWord) (c : Cmd) (s : State) : State :=
  match s.tile1 c c.d, s.tile1 c c.a with
  | some d, some a =>
    let scaled := f = 4 || (f = 0 && w.ta = 12)
    let sc := if scaled then s.tile1 c c.c else none
    let scale (r j : Nat) : Nat × Bool :=
      match sc with
      | some t => let (v, x) := s.scaleAt t r j; (v, x || s.psnAt t r j)
      | none => (127, false)
    let value (r j : Nat) : Val × Bool :=
      if f = 0 then
        let p := s.psnAt a r j
        if w.ta = 12 then
          let (k, q) := scale r (j / 32)
          (decodeMX (s.at a r j) k, p || q)
        else (decodeT w.ta.toNat (s.at a r j), p)
      else
        let (v, cols) := s.packedAt f a r j
        let p := cols.any (fun b => s.psnAt a r b)
        if f = 4 then
          let (k, q) := scale r (j / 32)
          (if k = 255 then .nan false 0x400000 else v.scale ((k : Int) - 127), p || q)
        else (v, p)
    let t :=
      if w.tc = 12 then
        match s.tile1 c c.e with
        | some e => s.fillMX c.hid w.rnd.toNat d e value
        | none => s
      else
        s.fillTile c.hid w.rnd.toNat d (fun r j x =>
          let (v, p) := value r j
          if f = 0 && w.ta ≠ 12 then (convert w.ta.toNat w.tc.toNat w.rnd.toNat w.sat x (s.at a r j), p)
          else (roundT w.tc.toNat w.rnd.toNat w.sat x v, p))
    match sc with
    | some e => t.reportScales c.hid e e.d.rows e.d.cols 0
    | none => t
  | _, _ => s

/-- A key of CXSORT as an integer in the order of R172. -/
def sortKey (t c : Nat) : Int :=
  if t = 4 then sInt 32 c
  else if bitOf c 31 then -((bits c 0 31 : Nat) : Int) - 1 else (bits c 0 31 : Nat)

/-- Whether key `x` comes strictly before `y`: ascending for f = 0. -/
def keyBefore (f t x y : Nat) : Bool :=
  if f = 0 then decide (sortKey t x < sortKey t y) else decide (sortKey t y < sortKey t x)

/-- Writes keys and their source columns, a row at a time (log 43). -/
def State.putSorted (s : State) (hid : Nat) (d e : Tv) (row : Nat → List (Nat × Nat)) (psn : Nat → Bool) : State :=
  let t := s.fillTile hid 0 d (fun r c _ => (((row r).getD c (0, 0)).1, psn r))
  t.fillTile hid 0 e (fun r c _ => (((row r).getD c (0, 0)).2, psn r))

/-- The poison of a row (log 43). -/
def State.rowPsn (s : State) (a : Tv) (r : Nat) : Bool := (List.range a.d.cols).any (fun c => s.psnAt a r c)

def performCxsort (f : Nat) (w : EWord) (c : Cmd) (s : State) : State :=
  match s.tile1 c c.d, s.tile1 c c.a, s.tile1 c c.c with
  | some d, some a, some e =>
    s.putSorted c.hid d e
      (fun r => sortBy (fun x y => keyBefore f w.ta.toNat x.1 y.1) ((List.range a.d.cols).map (fun j => (s.at a r j, j))))
      (fun r => s.rowPsn a r)
  | _, _, _ => s

/-- The two-pointer merge: the head of a goes first unless the head of b comes strictly earlier (R172). -/
def merge2 (lt : Nat → Nat → Bool) : Nat → List (Nat × Nat) → List (Nat × Nat) → List (Nat × Nat)
  | 0, _, _ => []
  | _, [], l => l
  | _, l, [] => l
  | n + 1, x :: xs, y :: ys => if lt y.1 x.1 then y :: merge2 lt n (x :: xs) ys else x :: merge2 lt n xs (y :: ys)

def performCxmerge (f : Nat) (w : EWord) (c : Cmd) (s : State) : State :=
  match s.tiles3 c, s.tile1 c c.c with
  | some (d, a, b), some e =>
    s.putSorted c.hid d e
      (fun r => merge2 (keyBefore f w.ta.toNat) (a.d.cols + b.d.cols)
        ((List.range a.d.cols).map (fun j => (s.at a r j, j)))
        ((List.range b.d.cols).map (fun j => (s.at b r j, a.d.cols + j))))
      (fun r => s.rowPsn a r || s.rowPsn b r)
  | _, _ => s

end Sys2Proof.Machine
end

