-- ==== Sys2Proof/Machine/Vector.lean ====
section
/-!
DEFINITION. The vector engine: TZERO, TFILL and TLAY, the element-wise, scalar, broadcast, reducing, index, permuting
and function commands, what each checks at its issue and what its performance writes (R165, R174–R194).
-/

namespace Sys2Proof.Machine

/-! Issue. Queue 1 is the vector queue. -/

/-- Two descriptors of one shape. -/
def Desc.same (x y : Desc) : Bool := x.rows = y.rows && x.cols = y.cols

/-- The type of a register's descriptor. -/
def Cell.typed (k : Cell) (r : TReg) (t : BitVec 4) : Bool := (k.desc r).type = t.toNat

/-- An element-wise command on d, a and b. -/
def vec3 (i : Instr) (d a b : TReg) (w : EWord) : Area → Cell → State → State :=
  fun ar k s =>
    let fmt := k.typed d w.tc && k.typed a w.ta && k.typed b w.tb && (k.desc a).same (k.desc d) && (k.desc b).same (k.desc d)
    s.issue ar k 1 i w.pri.toNat [useDst d, useSrc a, useSrc b] fmt (k.operands d a b 0 0) id

/-- An element-wise command on d, a, b and c, where c has type `t`. -/
def vec4 (i : Instr) (d a b : TReg) (w : EWord) (t : BitVec 4) : Area → Cell → State → State :=
  fun ar k s =>
    let fmt := k.typed d w.tc && k.typed a w.ta && k.typed b w.tb && k.typed w.c t && (k.desc a).same (k.desc d) &&
      (k.desc b).same (k.desc d) && (k.desc w.c).same (k.desc d)
    s.issue ar k 1 i w.pri.toNat [useDst d, useSrc a, useSrc b, useSrc w.c] fmt (k.operands d a b w.c 0) id

/-- An element-wise command on d and a. -/
def vec2 (i : Instr) (d a : TReg) (w : EWord) : Area → Cell → State → State :=
  fun ar k s =>
    let fmt := k.typed d w.tc && k.typed a w.ta && (k.desc a).same (k.desc d)
    s.issue ar k 1 i w.pri.toNat [useDst d, useSrc a] fmt (k.operands d a 0 0 0) id

/-- The scalar operand of a command, captured with its poison. -/
def Cell.scalar (k : Cell) (b : SReg) (x : Cmd) : Cmd := { x with b := ⟨k.sreg b, k.spsn b⟩ }

def execTzero (c : Cond) (f d a b : BitVec 3) (w : EWord) (s : State) : Host.Outcome State Fault Refusal :=
  s.gate c 2 [] (fun ar k s =>
    s.issue ar k 1 (.tzero c f d a b w) w.pri.toNat [useDst d] (k.typed d w.tc) (k.operands d 0 0 0 0) id)

def execTfill (c : Cond) (f d a : BitVec 3) (b : SReg) (w : EWord) (s : State) : Host.Outcome State Fault Refusal :=
  s.gate c 2 [b] (fun ar k s =>
    s.issue ar k 1 (.tfill c f d a b w) w.pri.toNat [useDst d] (k.typed d w.tc) (fun x => k.scalar b (k.operands d 0 0 0 0 x)) id)

def execTlay (c : Cond) (f d a b : BitVec 3) (w : EWord) (s : State) : Host.Outcome State Fault Refusal :=
  s.gate c 2 [] (vec2 (.tlay c f d a b w) d a w)

def execVadd (c : Cond) (f d a b : BitVec 3) (w : EWord) (s : State) : Host.Outcome State Fault Refusal := s.gate c 2 [] (vec3 (.vadd c f d a b w) d a b w)
def execVsub (c : Cond) (f d a b : BitVec 3) (w : EWord) (s : State) : Host.Outcome State Fault Refusal := s.gate c 2 [] (vec3 (.vsub c f d a b w) d a b w)
def execVmul (c : Cond) (f d a b : BitVec 3) (w : EWord) (s : State) : Host.Outcome State Fault Refusal := s.gate c 2 [] (vec3 (.vmul c f d a b w) d a b w)
def execVfma (c : Cond) (f d a b : BitVec 3) (w : EWord) (s : State) : Host.Outcome State Fault Refusal := s.gate c 2 [] (vec4 (.vfma c f d a b w) d a b w w.tc)
def execVmin (c : Cond) (f d a b : BitVec 3) (w : EWord) (s : State) : Host.Outcome State Fault Refusal := s.gate c 2 [] (vec3 (.vmin c f d a b w) d a b w)
def execVmax (c : Cond) (f d a b : BitVec 3) (w : EWord) (s : State) : Host.Outcome State Fault Refusal := s.gate c 2 [] (vec3 (.vmax c f d a b w) d a b w)
def execVabs (c : Cond) (f d a b : BitVec 3) (w : EWord) (s : State) : Host.Outcome State Fault Refusal := s.gate c 2 [] (vec2 (.vabs c f d a b w) d a w)
def execVneg (c : Cond) (f d a b : BitVec 3) (w : EWord) (s : State) : Host.Outcome State Fault Refusal := s.gate c 2 [] (vec2 (.vneg c f d a b w) d a w)
def execVand (c : Cond) (f d a b : BitVec 3) (w : EWord) (s : State) : Host.Outcome State Fault Refusal := s.gate c 2 [] (vec3 (.vand c f d a b w) d a b w)
def execVor (c : Cond) (f d a b : BitVec 3) (w : EWord) (s : State) : Host.Outcome State Fault Refusal := s.gate c 2 [] (vec3 (.vor c f d a b w) d a b w)
def execVxor (c : Cond) (f d a b : BitVec 3) (w : EWord) (s : State) : Host.Outcome State Fault Refusal := s.gate c 2 [] (vec3 (.vxor c f d a b w) d a b w)
def execVshl (c : Cond) (f d a b : BitVec 3) (w : EWord) (s : State) : Host.Outcome State Fault Refusal := s.gate c 2 [] (vec3 (.vshl c f d a b w) d a b w)
def execVshr (c : Cond) (f d a b : BitVec 3) (w : EWord) (s : State) : Host.Outcome State Fault Refusal := s.gate c 2 [] (vec3 (.vshr c f d a b w) d a b w)
def execVcmp (c : Cond) (f d a b : BitVec 3) (w : EWord) (s : State) : Host.Outcome State Fault Refusal := s.gate c 2 [] (vec3 (.vcmp c f d a b w) d a b w)
def execVsel (c : Cond) (f d a b : BitVec 3) (w : EWord) (s : State) : Host.Outcome State Fault Refusal := s.gate c 2 [] (vec4 (.vsel c f d a b w) d a b w 14)

def execVcvt (c : Cond) (f d a b : BitVec 3) (w : EWord) (s : State) : Host.Outcome State Fault Refusal :=
  s.gate c 2 [] (fun ar k s =>
    s.issue ar k 1 (.vcvt c f d a b w) w.pri.toNat (cvtUses 0 d a w) (cvtFmt k 0 d a w) (k.operands d a 0 w.c w.e) id)

def execVscl (c : Cond) (f d a : BitVec 3) (b : SReg) (w : EWord) (s : State) : Host.Outcome State Fault Refusal :=
  s.gate c 2 [b] (fun ar k s =>
    let fmt := k.typed d w.tc && k.typed a w.ta && (k.desc a).same (k.desc d)
    s.issue ar k 1 (.vscl c f d a b w) w.pri.toNat [useDst d, useSrc a] fmt (fun x => k.scalar b (k.operands d a 0 0 0 x)) id)

def execVclmp (c : Cond) (f d a b : BitVec 3) (w : EWord) (s : State) : Host.Outcome State Fault Refusal :=
  s.gate c 2 [] (fun ar k s =>
    let y := k.desc b
    let fmt := k.typed d w.tc && k.typed a w.ta && k.typed b w.tb && (k.desc a).same (k.desc d) && y.rows = 1 && y.cols = 2
    s.issue ar k 1 (.vclmp c f d a b w) w.pri.toNat [useDst d, useSrc a, useSrc b] fmt (k.operands d a b 0 0) id)

def execVbcr (c : Cond) (f d a b : BitVec 3) (w : EWord) (s : State) : Host.Outcome State Fault Refusal :=
  s.gate c 2 [] (fun ar k s =>
    let x := k.desc d; let y := k.desc b
    let fmt := k.typed d w.tc && k.typed a w.ta && k.typed b w.tb && (k.desc a).same x && y.rows = 1 && y.cols = x.cols
    s.issue ar k 1 (.vbcr c f d a b w) w.pri.toNat [useDst d, useSrc a, useSrc b] fmt (k.operands d a b 0 0) id)

def execVbcc (c : Cond) (f d a b : BitVec 3) (w : EWord) (s : State) : Host.Outcome State Fault Refusal :=
  s.gate c 2 [] (fun ar k s =>
    let x := k.desc d; let y := k.desc b
    let fmt := k.typed d w.tc && k.typed a w.ta && k.typed b w.tb && (k.desc a).same x && y.rows = x.rows && y.cols = 1
    s.issue ar k 1 (.vbcc c f d a b w) w.pri.toNat [useDst d, useSrc a, useSrc b] fmt (k.operands d a b 0 0) id)

/-- VRSUM and VCSUM: with acc the destination is read too. -/
def sumIssue (i : Instr) (row : Bool) (d a : TReg) (w : EWord) : Area → Cell → State → State :=
  fun ar k s =>
    let x := k.desc d; let y := k.desc a
    let fmt := k.typed d w.tc && k.typed a w.ta && (if row then x.rows = y.rows && x.cols = 1 else x.rows = 1 && x.cols = y.cols)
    s.issue ar k 1 i w.pri.toNat [if w.acc then useBoth d else useDst d, useSrc a] fmt (k.operands d a 0 0 0) id

def execVrsum (c : Cond) (f d a b : BitVec 3) (w : EWord) (s : State) : Host.Outcome State Fault Refusal :=
  s.gate c 2 [] (sumIssue (.vrsum c f d a b w) true d a w)

def execVcsum (c : Cond) (f d a b : BitVec 3) (w : EWord) (s : State) : Host.Outcome State Fault Refusal :=
  s.gate c 2 [] (sumIssue (.vcsum c f d a b w) false d a w)

def execVrr (c : Cond) (f d a b : BitVec 3) (w : EWord) (s : State) : Host.Outcome State Fault Refusal :=
  s.gate c 2 [] (fun ar k s =>
    let x := k.desc d
    let fmt := k.typed d w.tc && k.typed a w.ta && k.typed w.c w.tb && (k.desc a).same x && (k.desc w.c).same x
    s.issue ar k 1 (.vrr c f d a b w) w.pri.toNat [useDst d, useSrc a, useDst w.c] fmt (k.operands d a 0 w.c 0) id)

/-- The user table 6 or 7 of a hearth. -/
def Hearth.ftab (h : Hearth) (n : Nat) : FTab := if n = 6 then h.ftab6 else h.ftab7

def Hearth.setFtab (h : Hearth) (n : Nat) (t : FTab) : Hearth := if n = 6 then { h with ftab6 := t } else { h with ftab7 := t }

def execVfn (c : Cond) (f d a b : BitVec 3) (w : EWord) (s : State) : Host.Outcome State Fault Refusal :=
  s.gate c 2 [] (fun ar k s =>
    let x := k.desc d
    let own := f.toNat < 6 || ((s.hearth k.hid).ftab f.toNat).owner = some ar.ctx
    let third := w.tb = 0 || (k.typed b w.tb && (k.desc b).same x)
    let fmt := k.typed d w.tc && k.typed a w.ta && (k.desc a).same x && third && own
    s.issue ar k 1 (.vfn c f d a b w) w.pri.toNat ([useDst d, useSrc a] ++ (if w.tb = 0 then [] else [useSrc b])) fmt
      (k.operands d a b 0 0) id)

def execVtbl (c : Cond) (f d a b : BitVec 3) (w : EWord) (s : State) : Host.Outcome State Fault Refusal :=
  s.gate c 2 [] (fun ar k s =>
    let y := k.desc a
    s.issue ar k 1 (.vtbl c f d a b w) w.pri.toNat [useSrc a] (y.type = 9 && y.rows = 2 && y.cols = 256) (k.operands 0 a 0 0 0)
      (fun s => s.modHearth k.hid (fun h => h.setFtab f.toNat { h.ftab f.toNat with owner := some ar.ctx })))

def execViota (c : Cond) (f d a b : BitVec 3) (w : EWord) (s : State) : Host.Outcome State Fault Refusal :=
  s.gate c 2 [] (fun ar k s =>
    s.issue ar k 1 (.viota c f d a b w) w.pri.toNat [useDst d] (k.typed d w.tc) (k.operands d 0 0 0 0) id)

def execVperm (c : Cond) (f d a b : BitVec 3) (w : EWord) (s : State) : Host.Outcome State Fault Refusal :=
  s.gate c 2 [] (fun ar k s =>
    let x := k.desc d; let y := k.desc a
    let fmt := k.typed d w.tc && k.typed a w.ta && k.typed b w.tb && (k.desc b).same x &&
      (if f = 0 then y.rows = x.rows else y.cols = x.cols)
    s.issue ar k 1 (.vperm c f d a b w) w.pri.toNat [useDst d, useSrc a, useSrc b] fmt (k.operands d a b 0 0) id)

/-! Element operations. -/

/-- An element or a scalar as an operand of arithmetic: a floating value, or an exact integer. -/
inductive Num where
  | flt (v : Val)
  | int (x : Int)
deriving DecidableEq, Repr

/-- The element of a code. -/
def numOf (t c : Nat) : Num := if t ≤ 6 then .int (intVal t c) else .flt (decodeT t c)

/-- R178: the code of a result, rounded once. -/
def Num.code (t mode : Nat) (sat : Bool) (r : Nat) : Num → Nat
  | .flt v => if t ≤ 6 then 0 else arith t mode sat r v
  | .int x => if t ≤ 6 then intCode t sat x else roundT t mode sat r (.ofInt x)

def Num.add (mode : Nat) : Num → Num → Num
  | .flt v, .flt w => .flt (Val.add mode v w)
  | .int x, .int y => .int (x + y)
  | v, _ => v

def Num.neg : Num → Num
  | .flt v => .flt v.negate
  | .int x => .int (-x)

def Num.mul : Num → Num → Num
  | .flt v, .flt w => .flt (Val.mul v w)
  | .int x, .int y => .int (x * y)
  | v, _ => v

/-- The smaller or larger value by R103, a NaN operand giving way to the other. -/
def Num.pick (max_ : Bool) : Num → Num → Num
  | .flt v, .flt w =>
    match v.isNan, w.isNan with
    | true, true => .flt .qnan
    | true, false => .flt w
    | false, true => .flt v
    | false, false => .flt (if (if max_ then v.ltZ w else w.ltZ v) then w else v)
  | .int x, .int y => .int (if max_ then max x y else min x y)
  | v, _ => v

/-- VMIN and VMAX on codes of one type (R179). -/
def pickCode (t : Nat) (max_ : Bool) (x y : Nat) : Nat :=
  if t ≤ 6 then (if (if max_ then intVal t x < intVal t y else intVal t y < intVal t x) then y else x)
  else fminT t max_ x y

/-- `op` of VSCL, VBCR and VBCC and of the rounding forms. -/
def numOp (mode op : Nat) (x y : Num) : Num :=
  match op with
  | 0 => x.mul y
  | 1 => x.add mode y
  | 2 => y.add mode x.neg
  | 3 => x.pick false y
  | _ => x.pick true y

/-- Writes d from a and b element by element, through values. -/
def State.zipNum (s : State) (c : Cmd) (w : EWord) (f : Num → Num → Num) : State :=
  match s.tiles3 c with
  | none => s
  | some (d, a, b) =>
    s.fillTile c.hid w.rnd.toNat d (fun r j x =>
      ((f (numOf w.ta.toNat (s.at a r j)) (numOf w.tb.toNat (s.at b r j))).code w.tc.toNat w.rnd.toNat w.sat x,
        s.psnAt a r j || s.psnAt b r j))

/-- Writes d from a and b element by element, through codes, without rounding. -/
def State.zipCode (s : State) (c : Cmd) (f : Nat → Nat → Nat) : State :=
  match s.tiles3 c with
  | none => s
  | some (d, a, b) => s.fillTile c.hid 0 d (fun r j _ => (f (s.at a r j) (s.at b r j), s.psnAt a r j || s.psnAt b r j))

/-- Writes d from a element by element, through codes. -/
def State.mapCode (s : State) (c : Cmd) (f : Nat → Nat) : State :=
  match s.tile1 c c.d, s.tile1 c c.a with
  | some d, some a => s.fillTile c.hid 0 d (fun r j _ => (f (s.at a r j), s.psnAt a r j))
  | _, _ => s

def performTzero (c : Cmd) (s : State) : State :=
  match s.tile1 c c.d with
  | some d => s.fillTile c.hid 0 d (fun _ _ _ => (0, false))
  | none => s

def performTfill (c : Cmd) (s : State) : State :=
  match s.tile1 c c.d with
  | some d => s.fillTile c.hid 0 d (fun _ _ _ => (bits c.b.desc.toNat 0 (typeBits d.d.type), c.b.psn))
  | none => s

def performTlay (c : Cmd) (s : State) : State := s.mapCode c id

def performVfma (w : EWord) (c : Cmd) (s : State) : State :=
  match s.tiles3 c, s.tile1 c c.c with
  | some (d, a, b), some e =>
    s.fillTile c.hid w.rnd.toNat d (fun r j x =>
      let p := (numOf w.ta.toNat (s.at a r j)).mul (numOf w.tb.toNat (s.at b r j))
      ((p.add w.rnd.toNat (numOf w.tc.toNat (s.at e r j))).code w.tc.toNat w.rnd.toNat w.sat x,
        s.psnAt a r j || s.psnAt b r j || s.psnAt e r j))
  | _, _ => s

/-- VABS on a code: the sign bit of a float cleared, the magnitude of a signed integer. -/
def absCode (t : Nat) (sat : Bool) (c : Nat) : Nat :=
  if t ≤ 6 then intCode t sat (intVal t c).natAbs else c % 2 ^ (typeBits t - 1)

/-- VNEG on a code. -/
def negCode (t : Nat) (sat : Bool) (c : Nat) : Nat :=
  if t ≤ 6 then intCode t sat (-(intVal t c)) else c ^^^ 2 ^ (typeBits t - 1)

/-- Bitwise operations; BOOL gives the logical result as 0 or 1 (R59, R179). -/
def bitCode (t op x y : Nat) : Nat :=
  let f (x y : Nat) : Nat := match op with | 0 => x &&& y | 1 => x ||| y | _ => x ^^^ y
  if t = 14 then f (bit (x ≠ 0)) (bit (y ≠ 0)) else f x y

/-- VSHL, VSHR (f = 0 lsr, 1 asr) by an unsigned count. -/
def shlCode (t x n : Nat) : Nat := let w := typeBits t; if w ≤ n then 0 else x * 2 ^ n % 2 ^ w

def shrCode (t f x n : Nat) : Nat :=
  let w := typeBits t
  if f = 0 then (if w ≤ n then 0 else x / 2 ^ n) else wrap w (sInt w x / (2 ^ min n w : Nat))

/-- VCMP: FCMP's conditions for floats, the signedness of the type for integers. -/
def cmpCode (t cond x y : Nat) : Nat :=
  if t ≤ 6 then
    let a := intVal t x
    let b := intVal t y
    bit (match cond with
      | 0 => decide (a = b)
      | 1 => decide (a ≠ b)
      | 2 => decide (a < b)
      | 3 => decide (a ≤ b)
      | 4 => decide (b < a)
      | _ => decide (b ≤ a))
  else bit (fcmpV cond (decodeT t x) (decodeT t y))

def performVsel (c : Cmd) (s : State) : State :=
  match s.tiles3 c, s.tile1 c c.c with
  | some (d, a, b), some e =>
    s.fillTile c.hid 0 d (fun r j _ =>
      let m := s.at e r j ≠ 0
      (if m then s.at a r j else s.at b r j, s.psnAt e r j || (if m then s.psnAt a r j else s.psnAt b r j)))
  | _, _ => s

def performVscl (f : Nat) (w : EWord) (c : Cmd) (s : State) : State :=
  match s.tile1 c c.d, s.tile1 c c.a with
  | some d, some a =>
    let k : Num := if w.ta.toNat ≤ 6 then .int c.b.desc.toInt else .flt (decodeT 9 (bits c.b.desc.toNat 0 32))
    s.fillTile c.hid w.rnd.toNat d (fun r j x =>
      ((numOp w.rnd.toNat f (numOf w.ta.toNat (s.at a r j)) k).code w.tc.toNat w.rnd.toNat w.sat x, s.psnAt a r j || c.b.psn))
  | _, _ => s

def performVclmp (w : EWord) (c : Cmd) (s : State) : State :=
  match s.tiles3 c with
  | none => s
  | some (d, a, b) =>
    let t := w.tc.toNat
    s.fillTile c.hid 0 d (fun r j _ =>
      (pickCode t false (pickCode t true (s.at a r j) (s.at b 0 0)) (s.at b 0 1), s.psnAt a r j || s.psnAt b 0 0))

/-- VBCR and VBCC: 0 add, 1 sub, 2 mul, 3 min, 4 max, each rounded by R178. -/
def performVbc (row : Bool) (f : Nat) (w : EWord) (c : Cmd) (s : State) : State :=
  match s.tiles3 c with
  | none => s
  | some (d, a, b) =>
    let m := w.rnd.toNat
    s.fillTile c.hid m d (fun r j x =>
      let (i, l) := if row then (0, j) else (r, 0)
      let p := s.psnAt a r j || s.psnAt b i l
      let y := numOf w.ta.toNat (s.at a r j)
      let z := numOf w.tb.toNat (s.at b i l)
      let v : Num :=
        match f with
        | 0 => y.add m z
        | 1 => y.add m z.neg
        | 2 => y.mul z
        | _ => y.pick (f = 4) z
      (v.code w.tc.toNat m w.sat x, p))

/-- One step of a reduction (R183). -/
def sumStep (f : Nat) : Num → Num → Num
  | .flt v, .flt w => if f = 0 then .flt (decodeT 9 (roundFP32 0 0 (Val.add 0 v w))) else (Num.flt v).pick (f = 1) (.flt w)
  | x, y => if f = 0 then x.add 0 y else x.pick (f = 1) y

def performVsum (row : Bool) (f : Nat) (w : EWord) (c : Cmd) (s : State) : State :=
  match s.tile1 c c.d, s.tile1 c c.a with
  | some d, some a =>
    s.fillTile c.hid w.rnd.toNat d (fun r j x =>
      let idx : List (Nat × Nat) := if row then (List.range a.d.cols).map (fun i => (r, i)) else (List.range a.d.rows).map (fun i => (i, j))
      let xs := idx.map (fun p => numOf w.ta.toNat (s.at a p.1 p.2))
      let p := idx.any (fun p => s.psnAt a p.1 p.2) || (w.acc && s.psnAt d r j)
      let v :=
        if w.acc then xs.foldl (sumStep f) (numOf w.tc.toNat (s.at d r j))
        else match xs with | y :: ys => ys.foldl (sumStep f) y | [] => .int 0
      (v.code w.tc.toNat w.rnd.toNat w.sat x, p))
  | _, _ => s

def performViota (f : Nat) (w : EWord) (c : Cmd) (s : State) : State :=
  match s.tile1 c c.d with
  | none => s
  | some d =>
    s.fillTile c.hid w.rnd.toNat d (fun r j x =>
      let n : Int := match f with | 0 => (r * d.d.cols + j : Nat) | 1 => (r : Nat) | _ => (j : Nat)
      ((Num.int n).code w.tc.toNat w.rnd.toNat w.sat x, false))

def performVperm (f : Nat) (c : Cmd) (s : State) : State :=
  match s.tiles3 c with
  | none => s
  | some (d, a, b) =>
    s.fillTile c.hid 0 d (fun r j _ =>
      let x := sInt 32 (s.at b r j)
      let p := s.psnAt b r j
      let n := if f = 0 then a.d.cols else a.d.rows
      if 0 ≤ x && x < n then
        let (i, l) := if f = 0 then (r, x.toNat) else (x.toNat, j)
        (s.at a i l, p || s.psnAt a i l)
      else (0, p))

/-! Function tables (R187–R191). -/

def performVtbl (n : Nat) (c : Cmd) (s : State) : State :=
  match s.tile1 c c.a with
  | none => s
  | some a =>
    let ent (i : Nat) : BitVec 64 := BitVec.ofNat 64 (s.at a 0 i + 2 ^ 32 * s.at a 1 i)
    s.modHearth c.hid (fun h => h.setFtab n { h.ftab n with
      entries := ((List.range 256).map (fun i => (i, ent i))).filter (fun p => p.2 ≠ 0)
      poison := (List.range 256).filter (fun i => s.psnAt a 0 i || s.psnAt a 1 i) })

/-- Entry `i` of table `n` of a hearth: slope, intercept, poison. -/
def State.funAt (s : State) (h n i : Nat) : Nat × Nat × Bool :=
  if n < 6 then let (x, y) := funEntry n i; (x, y, false)
  else
    let t := (s.hearth h).ftab n
    let e := (t.entries.get 0 i).toNat
    (bits e 0 32, bits e 32 32, t.poison.contains i)

/-- ⌊v⌋ of a finite value. -/
def floorVal (n : Bool) (m : Nat) (e : Int) : Int :=
  let x : Int := if n then -(m : Int) else m
  if 0 ≤ e then x * (2 ^ e.natAbs : Nat) else x / (2 ^ e.natAbs : Nat)

/-- VFN's element (R191): the value, and the poison of the entry used (log 44). -/
def State.funVal (s : State) (h n mode u : Nat) : Val × Bool :=
  match decodeT 9 u with
  | .nan a f => (.nan a f, false)
  | .inf a => (.inf a, false)
  | .fin a m e =>
    let v : Val := .fin a m e
    if (a && m ≠ 0) || !(v.lt (.fin false 1 0)) then (v, false)
    else
      let i := (floorVal false m (e + 8)).toNat
      let (k, l, p) := s.funAt h n i
      (Val.add mode (Val.mul (decodeT 9 k) (.fin false m e)) (decodeT 9 l), p)

def performVfn (n : Nat) (w : EWord) (c : Cmd) (s : State) : State :=
  match s.tile1 c c.d, s.tile1 c c.a with
  | some d, some a =>
    let third := if w.tb = 0 then none else s.tile1 c c.b
    s.fillTile c.hid w.rnd.toNat d (fun r j x =>
      let (y, p) := s.funVal c.hid n w.rnd.toNat (s.at a r j)
      let (y, q) :=
        match third with
        | none => (y, false)
        | some b =>
          if w.tb = 4 then (y.scale (sInt 32 (s.at b r j)), s.psnAt b r j)
          else (Val.mul y (decodeT 9 (s.at b r j)), s.psnAt b r j)
      (arith w.tc.toNat w.rnd.toNat w.sat x y, p || q || s.psnAt a r j))
  | _, _ => s

/-- 1 − 2^−24. -/
def belowOne : Val := .fin false (2 ^ 24 - 1) (-24)

/-- The span kinds of Table 10.4, dividing by 2^k. -/
def rangeSpan (k : Int) (v : Val) : Val × Val :=
  let sign (n : Bool) : Val := .fin n 1 0
  match v with
  | .nan _ _ => (.qnan, .fin false 1 0)
  | .inf n => (belowOne, sign n)
  | .fin n m e =>
    let q := decodeT 9 (roundFP32 0 0 (.fin false m (e - k)))
    (if belowOne.lt q then belowOne else q, sign n)

/-- x − t of `.exp2` as an FP32 value of [0, 1). Where it is no FP32 value, it is the FP32 value next below it or, where `up` says
so and it is below 1, the one next above (log 84). -/
def fraction (x t : Val) (up : Bool) : Val :=
  let y := Val.add 0 x t
  let lo := decodeT 9 (roundFP32 1 0 y)
  let hi := decodeT 9 (roundFP32 3 0 y)
  if up && hi.lt (.fin false 1 0) then hi else lo

/-- u and t of VRR (Table 10.4); `up` as in `fraction` (log 84). -/
def rangeReduce (up : Bool) (kind : Nat) (v : Val) : Val × Val :=
  let zero : Val := .fin false 0 0
  match kind with
  | 0 =>
    (match v with
    | .nan _ _ => (.qnan, zero)
    | v =>
      let lim : Val := .fin false 200 0
      let x : Val := if lim.lt v then lim else if v.lt lim.negate then lim.negate else v
      match x with
      | .fin n m e =>
        let t := floorVal n m e
        (fraction x (.ofInt (-t)) up, .ofInt t)
      | x => (x, zero))
  | 1 =>
    (match v with
    | .nan _ _ => (.qnan, zero)
    | .inf true => (.qnan, zero)
    | .inf false => (.inf false, zero)
    | .fin n m e =>
      if m = 0 then (.inf true, zero)
      else if n then (.qnan, zero)
      else
        let x := expOf m e
        (Val.add 0 (.fin false m (e - x)) (.fin true 1 0), .ofInt x))
  | 2 =>
    (match v with
    | .nan _ _ => (.qnan, zero)
    | .inf true => (.qnan, zero)
    | .inf false => (zero, zero)
    | .fin n m e =>
      if m = 0 then (.inf n, zero)
      else if n then (.qnan, zero)
      else
        let h := expOf m e / 2
        (.fin false m (e - 2 * h - 2), .ofInt (-h)))
  | 3 => rangeSpan 3 v
  | _ => rangeSpan 4 v

def performVrr (f : Nat) (w : EWord) (c : Cmd) (s : State) : State :=
  match s.tile1 c c.d, s.tile1 c c.a, s.tile1 c c.c with
  | some d, some a, some e =>
    let up (r j : Nat) : Bool := (Config.freeValue (s.free + r * d.d.cols + j)).getLsbD 0
    let t := s.fillTile c.hid 0 d (fun r j _ =>
      (arith 9 0 false 0 (rangeReduce (up r j) f (decodeT 9 (s.at a r j))).1, s.psnAt a r j))
    let t := t.fillTile c.hid 0 e (fun r j _ =>
      (roundT w.tb.toNat 0 false 0 (rangeReduce false f (decodeT 9 (s.at a r j))).2, s.psnAt a r j))
    { t with free := t.free + d.d.rows * d.d.cols }
  | _, _, _ => s

end Sys2Proof.Machine
end

