-- ==== Sys2Proof/Machine/Engine.lean ====
section
/-!
DEFINITION. The engine queues at work: the start, the landing and the completion of commands, fences, the signals of
copies, and copies over the fabric (R158–R163, R231, R237, R346).
-/

namespace Sys2Proof.Machine

/-! Commands by name. -/

/-- A command and its queue's key. -/
def State.cmdOf (s : State) (id : Nat) : Option (Nat × Cmd) :=
  s.queues.findSome? (fun q => (q.2.find? (fun c => c.id = id && c.fence.isNone)).map (fun c => (q.1, c)))

def State.modCmd (s : State) (id : Nat) (f : Cmd → Cmd) : State :=
  { s with queues := s.queues.map (fun q => (q.1, q.2.map (fun c => if c.id = id then f c else c))) }

/-- Removes a command or a fence from every queue. -/
def State.leaveQueues (s : State) (id : Nat) : State :=
  { s with queues := (s.queues.map (fun q => (q.1, q.2.filter (fun c => c.id ≠ id)))).filter (fun q => q.2 ≠ []) }

/-- The command names a slot in transit that it must wait for (R124, step 2). -/
def State.awaitsTile (s : State) (c : Cmd) : Bool :=
  c.names.any (fun key =>
    match (s.slots.find key).bind (·.moving) with
    | some m => decide (m.mark ≤ c.id)
    | none => false)

/-! Copies over the fabric (R231, R346). -/

/-- The log's operator and area for a command. -/
def State.logOf (s : State) (c : Cmd) : Nat × Nat :=
  match s.area c.uid with
  | some a => (a.op, areaAddr a.ctx a.pos)
  | none => (0, 0)

/-- A remote copy failed: its barrier loses the whole byte count and gets the error bit, a counter gets nothing (log 71). -/
def State.failCopy (s : State) (c : Cmd) (code : Nat) : State :=
  let d := descOf c.d.desc
  let s :=
    match c.sig with
    | .barrier key off =>
      let b := s.barrierRaw key off
      s.setBarrier key off ({ b with pending := b.pending - d.bytes, error := true } : Barrier).check
    | _ => s
  let s := s.modCmd c.id (fun c => { c with sig := .none, landed := c.total })
  s.log c.ctx 11 code (s.logOf c).1 (s.logOf c).2 c.addr.toNat 0

/-- The live context that traffic of a job reaches: the lowest (log 52). -/
def State.jobCtx (s : State) (job : Nat) : Option Nat :=
  (s.ctxs.find? (fun p => p.2.job = job && p.2.status ≠ .dead && p.2.status ≠ .frozen)).map (·.1)

/-- The translations of a device's own fabric write, for its context; the fault code otherwise. -/
def State.jobPages (s : State) (job : Nat) : List Word → List Trans → Except (BitVec 8) (List Trans)
  | [], got => .ok got
  | a :: r, got =>
    match s.jobCtx job with
    | none => .error fltPageFault
    | some x =>
      if inTileWindow a then .error fltTileBounds
      else
        match s.translateDev x a .write with
        | .error e => .error e
        | .ok t => s.jobPages job r (t :: got)

/-- The port that traffic of a die to a device takes: that of the route table, which names the ports in service when bring-up wrote it, or
the one to which it moved (R293, R346, R357) (log 16). -/
def State.fabPort (s : State) (die dev : Nat) : Nat :=
  let ps := ((List.range 32).map (· + 32 * die)).filter (fun p => !s.unrouted.contains p)
  let p := ps.getD (Config.routePort die dev % ps.length) (32 * die)
  s.portTo.get p p

/-- A packet that a port has accepted is not acknowledged. -/
def State.portBusy (s : State) (p : Nat) : Bool :=
  s.msgs.any (fun m => match m.body with | .remoteWrite q _ _ _ _ => q = p | .remoteAdd q _ _ _ _ _ => q = p | _ => false)

/-- The port of a CPYX accepts packets: one under lease does not (R293). -/
def State.portOpen (s : State) (c : Cmd) : Bool :=
  match c.instr with
  | .cpyx _ _ _ _ _ _ m => devOf m = s.fabdev || s.inService (2 * 4096 + s.fabPort (dieOf c.hid) (devOf m))
  | _ => true

/-- A CPYX starts: to its own device it is translated as a peer would, to another its writes are sent. -/
def State.startCpyx (s : State) (c : Cmd) (dev : Nat) : State :=
  let d := descOf c.d.desc
  let job := ((s.ctx c.ctx).map (·.job)).getD 0
  if dev = s.fabdev then
    match s.jobPages job (rangePages c.addr (d.memFoot c.pitch)) [] with
    | .error e => s.failCopy c e.toNat
    | .ok ts => s.modCmd c.id (fun c => { c with pages := ts.map (fun t => { t with ctx := c.ctx }) })
  else
    match s.tile1 c c.d with
    | none => s.modCmd c.id (fun c => { c with landed := c.total })
    | some t =>
      let p := s.fabPort (dieOf c.hid) dev
      s.send clsRequest c.hid (portRouter p) (.remoteWrite p dev job (s.imageOf c t t.d.units).bytes c.id)

/-! The steps. -/

/-- ENGINE_COMMAND_START (R159, R160): the head of a queue starts, or a fence at the head of all its queues leaves. -/
def execEngineCommandStart (h q : Nat) (s : State) : Host.Outcome State Fault Refusal :=
  .next (
    match s.queue h q with
    | [] => s
    | c :: _ =>
      match c.fence with
      | some m =>
        if (queuesOf m).all (fun i => match s.queue h i with | x :: _ => x.id = c.id | [] => false) then s.leaveQueues c.id
        else s
      | none =>
        if c.started || s.awaitsTile c || !s.portOpen c then s
        else
          let s := s.modCmd c.id (fun c => { c with started := true })
          match c.instr with
          | .cpyx _ _ _ _ _ _ m => s.startCpyx c (devOf m)
          | _ => s)

/-- A command that lands in parts. -/
def Cmd.lands (c : Cmd) : Bool :=
  match c.instr with
  | .cpyin _ _ _ _ _ _ _ | .cpyout _ _ _ _ _ _ _ | .cpyt _ _ _ _ _ _ _ | .cpyx _ _ _ _ _ _ _ => true
  | .gather _ _ _ _ _ _ | .scatter _ _ _ _ _ _ | .scatadd _ _ _ _ _ _ => true
  | .tld _ _ _ _ _ | .tst _ _ _ _ _ | .slotwb _ _ _ _ _ => true
  | _ => false

/-- A CPYX to another device lands with its acknowledgement. -/
def Cmd.remote (c : Cmd) : Bool :=
  match c.instr with
  | .cpyx _ _ _ _ _ _ _ => c.pages.isEmpty
  | _ => false

/-- COPY_PART_LANDED (R231, R237): `n` more units of a copy or a push. -/
def execCopyPartLanded (id n : Nat) (s : State) : Host.Outcome State Fault Refusal :=
  .next (
    if 2 ^ 64 ≤ id then s.landPush ((id - 2 ^ 64) / 8) ((id - 2 ^ 64) % 8) n
    else
      match s.cmdOf id with
      | none => s
      | some (_, c) =>
        if c.started && c.lands && !c.remote && c.landed < c.total then
          let (s, y) := s.landPart c n
          s.wakeErrors.modCmd id (fun c => { c with landed := y })
        else s)

/-- What a command that lands at once does: the matrix and vector commands and the commands of the banks (log 30). -/
def State.perform (s : State) (c : Cmd) : State :=
  match c.instr with
  | .mma _ _ _ _ _ w => performMma w c s
  | .mmai _ _ _ _ _ w => performMmai w c s
  | .mmax _ _ _ _ _ _ => performMmax c s
  | .scacc _ f _ _ _ w => performScacc f.toNat w c s
  | .ttrn _ _ _ _ _ _ => performTtrn c s
  | .tcvt _ f _ _ _ w => performCvt f.toNat w c s
  | .cxsort _ f _ _ _ w => performCxsort f.toNat w c s
  | .cxmerge _ f _ _ _ w => performCxmerge f.toNat w c s
  | .tzero _ _ _ _ _ _ => performTzero c s
  | .tfill _ _ _ _ _ _ => performTfill c s
  | .tlay _ _ _ _ _ _ => performTlay c s
  | .vadd _ _ _ _ _ w => s.zipNum c w (Num.add w.rnd.toNat)
  | .vsub _ _ _ _ _ w => s.zipNum c w (fun x y => Num.add w.rnd.toNat x y.neg)
  | .vmul _ _ _ _ _ w => s.zipNum c w Num.mul
  | .vfma _ _ _ _ _ w => performVfma w c s
  | .vmin _ _ _ _ _ w => s.zipCode c (pickCode w.tc.toNat false)
  | .vmax _ _ _ _ _ w => s.zipCode c (pickCode w.tc.toNat true)
  | .vabs _ _ _ _ _ w => s.mapCode c (absCode w.tc.toNat w.sat)
  | .vneg _ _ _ _ _ w => s.mapCode c (negCode w.tc.toNat w.sat)
  | .vand _ _ _ _ _ w => s.zipCode c (bitCode w.tc.toNat 0)
  | .vor _ _ _ _ _ w => s.zipCode c (bitCode w.tc.toNat 1)
  | .vxor _ _ _ _ _ w => s.zipCode c (bitCode w.tc.toNat 2)
  | .vshl _ _ _ _ _ w => s.zipCode c (shlCode w.tc.toNat)
  | .vshr _ f _ _ _ w => s.zipCode c (shrCode w.tc.toNat f.toNat)
  | .vcmp _ f _ _ _ w => s.zipCode c (cmpCode w.ta.toNat f.toNat)
  | .vsel _ _ _ _ _ _ => performVsel c s
  | .vcvt _ _ _ _ _ w => performCvt 0 w c s
  | .vscl _ f _ _ _ w => performVscl f.toNat w c s
  | .vclmp _ _ _ _ _ w => performVclmp w c s
  | .vbcr _ f _ _ _ w => performVbc true f.toNat w c s
  | .vbcc _ f _ _ _ w => performVbc false f.toNat w c s
  | .vrsum _ f _ _ _ w => performVsum true f.toNat w c s
  | .vcsum _ f _ _ _ w => performVsum false f.toNat w c s
  | .vrr _ f _ _ _ w => performVrr f.toNat w c s
  | .vfn _ f _ _ _ w => performVfn f.toNat w c s
  | .vtbl _ f _ _ _ _ => performVtbl f.toNat c s
  | .viota _ f _ _ _ w => performViota f.toNat w c s
  | .vperm _ f _ _ _ _ => performVperm f.toNat c s
  | .popset _ _ _ _ => performPopset c s
  | .evsend _ _ _ _ => performEvsend c s
  | .evsendt _ _ _ _ _ => performEvsend c s
  | .accrd _ _ d _ => performAccrd d c s
  | .accwr _ _ _ _ => performAccwr c s
  | .slotwb _ _ _ _ _ => s.performSlotwb c
  | _ => s

/-- A counter signal leaves for its home, with what it releases (R231, R257). -/
def State.sendSignal (s : State) (c : Cmd) (pa : Nat) (key : Option Nat) (n : Nat) : State :=
  s.send clsRequest c.hid (s.routerOf pa) (.signal pa key n c.uid (s.releasesOf c))

/-- Sends the counter signal of a finished copy, or holds it for the vote (R231, R308, R346). -/
def State.signalCounter (s : State) (c : Cmd) : State :=
  match c.sig with
  | .counter pa key n =>
    let job := ((s.ctx c.ctx).map (·.job)).getD 0
    (match c.instr with
      | .cpyx _ _ _ _ _ _ m =>
        if devOf m ≠ s.fabdev then
          let p := s.fabPort (dieOf c.hid) (devOf m)
          s.send clsRequest c.hid (portRouter p) (.remoteAdd p (devOf m) job (BitVec.ofNat 64 pa) n c.uid)
        else
          let a : Word := BitVec.ofNat 64 pa
          let t : Except (BitVec 8) Trans :=
            if inTileWindow a then .error fltTileBounds
            else match s.jobCtx job with | some x => s.translateDev x a .both | none => .error fltPageFault
          (match t with
            | .ok t => s.sendSignal c (t.pa (bits pa 0 55)) t.key n
            | .error e => s.log c.ctx 11 e.toNat (s.logOf c).1 (s.logOf c).2 pa 0)
      | .cpyout _ _ _ _ _ _ _ =>
        (match s.holder c with
          | some u => s.holdMore u [.cadd pa key n false ⟨c.hid, 3, none, s.releasesOf c⟩]
          | none => s.sendSignal c pa key n)
      | _ => s.sendSignal c pa key n)
  | _ => s

/-- The end of a command: its queue, its cell and the slots it kept are free of it (R151, R161, R162). -/
def State.finishCmd (s : State) (key : Nat) (c : Cmd) : State :=
  let s := (s.leaveQueues c.id).count (key / 4) (7 + key % 4) 1
  let t := s.wrote c
  let s := s.modCell c.uid c.cix (fun k => { k with
    cmds := k.cmds.filter (fun p => p.2 ≠ c.id)
    reached := k.reached.put 0 (key % 4) (max (k.reached.get 0 (key % 4)) t) })
  s.reclaim.acknowledged c.uid

/-- ENGINE_COMMAND_COMPLETE (R162): a started command whose elements have landed completes. An ACCFL takes one such
step for each neuron; a SUBSCR waits while every chimney table is full. -/
def execEngineCommandComplete (id : Nat) (s : State) : Host.Outcome State Fault Refusal :=
  .next (
    match s.cmdOf id with
    | none => s
    | some (key, c) =>
      if !c.started || ((c.lands || c.remote) && c.landed < c.total) || !s.portOpen c then s
      else
        match c.instr with
        | .subscr _ _ d _ _ m =>
          (match s.performSubscr c d m.scope with
            | some s => s.finishCmd key c
            | none => s)
        | .accfl _ _ _ _ =>
          let t := performAccfl c s
          s.behindWalks
            (if c.landed + 1 < c.addr.toNat then t.modCmd id (fun c => { c with landed := c.landed + 1 }) else t.finishCmd key c)
        | _ => ((s.perform c).wakeErrors.signalCounter c).finishCmd key c)

/-- COUNTER_SIGNAL (R231, R242): the counter is added at its home. -/
def execCounterSignal (id : Nat) (s : State) : Host.Outcome State Fault Refusal :=
  .next (
    match s.arrived id with
    | none => s
    | some m =>
      match m.body with
      | .signal pa key n uid rs =>
        let l := Loc.ofPa pa key
        let s := (s.dropMsg id).fireTouch m.src l 8 true
        (((s.l1Drop m.src (pa / 64)).addCounter l n false).release_ l rs).acknowledged uid
      | _ => s)

/-- REMOTE_ACKNOWLEDGEMENT (R231, R346): a device acknowledges the writes or the counter add of a CPYX, or refuses them with a code that
the manual leaves open (log 71); a failure is logged. -/
def execRemoteAcknowledgement (id : Nat) (ok : Bool) (s : State) : Host.Outcome State Fault Refusal :=
  .next (
    match s.arrived id with
    | none => s
    | some m =>
      match m.body with
      | .remoteWrite _ _ _ _ cmd =>
        let s := s.dropMsg id
        (match s.cmdOf cmd with
          | none => s
          | some (_, c) =>
            if ok then
              (s.signalLanding c (descOf c.d.desc).bytes true).modCmd cmd (fun c => { c with landed := c.total })
            else s.tickFree.failCopy c (s.freeVal.toNat % 256))
      | .remoteAdd _ _ _ va _ uid =>
        let s := s.dropMsg id
        let s := match s.area uid with
          | some a => if ok then s else s.tickFree.log a.ctx 11 (s.freeVal.toNat % 256) a.op (areaAddr a.ctx a.pos) va.toNat 0
          | none => s
        s.acknowledged uid
      | _ => s)

end Sys2Proof.Machine
end

