-- ==== Sys2Proof/Machine/Units.lean ====
section
/-!
DEFINITION. The units that take leases and their status (R289, R300–R302), capacity records and capacity changes
(R304–R306), and the journal (R343).
-/

namespace Sys2Proof.Machine

/-! Units (Table 17.1). -/

def unitClass (u : Nat) : Nat := u / 4096
def unitIndex (u : Nat) : Nat := u % 4096

/-- Units of a class. -/
def classSize (c : Nat) : Nat := match c with | 0 => 1024 | 1 => 768 | 2 => 128 | 3 => 32 | _ => 0

def unitOk (u : Nat) : Bool := unitIndex u < classSize (unitClass u)

/-- The dies that hold a unit; both dies of a link hold its lane groups (R304). -/
def unitDies (u : Nat) : List Nat :=
  let i := unitIndex u
  match unitClass u with
  | 0 => [i / 256]
  | 1 => [i / 192]
  | 2 => [i / 32]
  | _ => [i / 8, (i / 8 + 1) % 4]

/-- The units that stand for each other: the ports of a die, the groups of a link. -/
def unitPeers (u : Nat) : List Nat :=
  let i := unitIndex u
  match unitClass u with
  | 2 => (List.range 32).map (fun k => 2 * 4096 + i / 32 * 32 + k)
  | 3 => (List.range 8).map (fun k => 3 * 4096 + i / 8 * 8 + k)
  | _ => []

/-- A unit that cannot be leased (R300). -/
def State.nospare (s : State) (u : Nat) : Bool :=
  match unitClass u with
  | 1 => s.spareOf (unitIndex u / 64) = 64
  | 0 => false
  | _ => !((unitPeers u).any (fun v => v ≠ u && s.inService v))

/-- The channels of a partition's slots. -/
def State.activeChans (s : State) (l : Nat) : List Nat :=
  (List.range (3 * (s.part l).dies)).flatMap (fun i => (List.range 63).map (fun j => s.chan (3 * l + i) j))

/-! A cut that waits (R345). -/

/-- The leading dies of a cut into `n` partitions. -/
def cutLeads (n : Nat) : List Nat := if n = 1 then [0] else if n = 2 then [0, 2] else [0, 1, 2, 3]

/-- The leads of partitions that the new cut does not leave as they are (log 26). -/
def State.involved (s : State) (n : Nat) : List Nat :=
  (s.parts.map (·.1)).filter (fun l => !((cutLeads n).contains l && (s.part l).dies = 4 / n))

/-- A die of an involved partition. -/
def State.inInvolved (s : State) (n die : Nat) : Bool := (s.involved n).contains (s.lead die)

/-- The partition of a die is quiesced for a cut. -/
def State.quiesced (s : State) (die : Nat) : Bool :=
  match s.cutting with
  | some (_, n) => s.inInvolved n die
  | none => false

/-! Capacity records (Table 17.7). -/

/-- The fields of a capacity record that do not name a change. -/
def State.capFigures (s : State) (l : Nat) : Nat :=
  let n := (s.part l).dies
  let hs := s.partHearths l
  let live := (hs.filter (fun h => s.inService (hearthUnit h))).length
  let links := (List.range 4).filter (fun k => l ≤ k && k < l + n && l ≤ (k + 1) % 4 && (k + 1) % 4 < l + n)
  packFields [(64, 0), (64, 0), (64, 0), (11, live), (5, 0),
    (10, (hs.filter (fun h => (s.unit (hearthUnit h)).health = .retired)).length), (6, 0),
    (10, ((s.activeChans l).filter (fun c => !s.leased (chanUnit c))).length), (6, 0),
    (8, ((List.range (32 * n)).filter (fun i => s.inService (2 * 4096 + 32 * l + i))).length), (8, 0),
    (6, (links.flatMap (fun k => (List.range 8).filter (fun g => s.inService (3 * 4096 + 8 * k + g)))).length), (2, 0),
    (4, ((List.range (3 * n)).filter (fun i => s.spareOf (3 * l + i) = 64)).length), (52, 0), (32, 256 * live), (32, 0),
    (64, n * dieBytes), (64, 0)]

/-- A capacity record. -/
def State.capRecord (s : State) (l kind unit seq swp : Nat) : BitVec 512 :=
  BitVec.ofNat 512 (s.capFigures l + packFields [(64, seq), (16, unit), (4, kind), (44, 0), (64, swp)])

/-- Contexts that live: created, and neither frozen nor torn down. -/
def Ctx.alive (x : Ctx) : Bool := x.status ≠ .frozen && x.status ≠ .dead

/-- A capacity change for one context: its copy of the record, the record in its memory, and the counter signal that
is now due (R304). What a sweep discovers from then on lies behind the record (R305). -/
def State.capChange1 (s : State) (c : Nat) (x : Ctx) (kind unit : Nat) : State :=
  let seq := if x.launch.isSome then x.capCount + 1 else 0
  let r := s.capRecord x.part kind unit seq (s.ctxSweep c)
  let note := ((x.launch.map (·.notify)).getD false) && x.notes < 16
  let s := s.modCtx c (fun x => { x with
    capRec := r
    capCount := if x.launch.isSome then seq else x.capCount
    capDue := if x.launch.isSome then x.capDue ++ [(kind, unit, seq, note)] else x.capDue
    notes := if note then x.notes + 1 else x.notes })
  match x.launch with
  | none => s
  | some l =>
    match s.storeVirt c (BitVec.ofNat 64 l.caprec) (leBytes 64 r.toNat) with
    | .ok (s, t) => s.reachTo x.part t
    | .error e => s.log c 13 e.toNat 0 0 l.caprec seq

/-- A capacity change of a unit, for every live context of the partitions that hold it. -/
def State.capChange (s : State) (kind unit : Nat) : State :=
  let ls := ((unitDies unit).map s.lead).eraseDups
  s.ctxs.foldl (fun s p => if p.2.alive && ls.contains p.2.part then s.capChange1 p.1 p.2 kind unit else s) s

/-- `(notifop <k u q>)` (R305). -/
def notifyApp (op kind unit seq : Nat) : List Sym :=
  [symOpen, ⟨5, false, false, BitVec.ofNat 64 op⟩, symLt, symInt kind, symInt unit, symInt seq, symGt, symClose]

/-- CAPACITY_COUNTER_SIGNAL (R304, R305): the oldest change that is due reaches the counter, which releases its record,
and then the notifier, whose discovery lies behind both. -/
def execCapacityCounterSignal (c : Nat) (s : State) : Host.Outcome State Fault Refusal :=
  .next (
    match s.ctx c with
    | none => s
    | some x =>
      match x.capDue, x.launch with
      | (kind, unit, seq, note) :: r, some l =>
        let s := s.modCtx c (fun x => { x with capDue := r })
        let s :=
          match s.signalVirt c (BitVec.ofNat 64 l.capctr) 1 (s.virtTime c (BitVec.ofNat 64 l.caprec) 64) with
          | .ok s => s.reachTo x.part (s.virtTime c (BitVec.ofNat 64 l.capctr) 8)
          | .error e => s.log c 13 e.toNat 0 0 l.capctr seq
        if note then s.insertion c (notifyApp l.notifop kind unit seq) true none else s
      | _, _ => s)

/-! The journal (Table 21.7). -/

/-- Appends an entry; its sequence number is the state's `jseq` afterwards, in 32 bits (log 14, 68). -/
def State.journalAdd (s : State) (kind status opcode ctx queue fault : Nat) (tag swp : Nat) (hash : Nat) : State :=
  let n := s.jseq + 1
  let e := packFields [(32, n % 2 ^ 32), (4, kind), (8, status), (8, opcode), (6, ctx), (6, queue), (8, fault), (184, 0), (64, tag),
    (64, swp), (128, hash)]
  { s with jseq := n, journal := s.journal.set (n % 65536) (BitVec.ofNat 512 e) }

/-- The partition sweep number of a context, 0 when there is none. -/
def State.sweepOf (s : State) (c : Nat) : Nat := match s.ctx c with | some x => (s.part x.part).sweep | none => 0

end Sys2Proof.Machine
end

