-- ==== Sys2Proof/Machine/Queue.lean ====
section
/-!
DEFINITION. The command queues of the host: how a command is taken and completed, with its journal entries and its
completion record (R339–R343).
-/

namespace Sys2Proof.Machine

def State.hostq (s : State) (q : Nat) : HostQ := s.hq.get HostQ.reset q

def State.modHostq (s : State) (q : Nat) (f : HostQ → HostQ) : State :=
  { s with hq := s.hq.put HostQ.reset q (f (s.hostq q)) }

/-- The queue is enabled. -/
def HostQ.enabled (x : HostQ) : Bool := x.cfg.getLsbD 31

/-- log2 of a queue's entries. -/
def HostQ.logn (x : HostQ) : Nat := bits x.cfg.toNat 0 5

/-- The die that leads the queue's partition. -/
def HostQ.die (x : HostQ) : Nat := bits x.cfg.toNat 8 2

/-- Writes host memory. -/
def State.writeHost (s : State) (a : Nat) (bs : List Byte) : State := { s with hostMem := writeTab s.hostMem a bs }

/-- The device writes a queue's header (Table 21.2). -/
def State.putHeader (s : State) (q : Nat) : State :=
  let x := s.hostq q
  s.writeHost x.base.toNat (leBytes 64 (packFields [(64, x.head), (64, x.ltail), (1, bit x.pending)]))

/-- The entry at a queue's head (Table 21.3). -/
def State.entryAt (s : State) (q : Nat) : BitVec 512 :=
  let x := s.hostq q
  BitVec.ofNat 512 (ofLe (readTab s.hostMem (x.base.toNat + 64 + 64 * (x.head % 2 ^ x.logn)) 64))

/-- Operand word `i` of an entry. -/
def opw (e : BitVec 512) (i : Nat) : Nat := bits e.toNat (64 * i) 64

def entryOpcode (e : BitVec 512) : Nat := bits e.toNat 0 8
def entryCtx (e : BitVec 512) : Nat := bits e.toNat 16 6
def entryTag (e : BitVec 512) : Nat := bits e.toNat 32 32

/-- The journal's hash of an entry (R303, R343). -/
def entryHash (e : BitVec 512) : Nat := ofLe (shake256 16 (leBytes 64 e.toNat))

/-- Opcodes whose entries name a context. -/
def namesCtx (e : BitVec 512) : Bool := (1 ≤ entryOpcode e && entryOpcode e ≤ 10) || (entryOpcode e = 11 && (opw e 2).testBit 8)

/-- A journal entry of kind 1 or 2 for a command; of one that names no context, its context field is the entry's, and its sweep number 0. -/
def State.journalCmd (s : State) (q kind status : Nat) (e : BitVec 512) : State :=
  s.journalAdd kind status (entryOpcode e) (entryCtx e) q 0 (entryTag e) (if namesCtx e then s.sweepOf (entryCtx e) else 0) (entryHash e)

/-- The entry at the head is taken, from its queue's slot. -/
def State.takeEntry (s : State) (q : Nat) : State :=
  let e := s.entryAt q
  let t := { s.fresh with lastSlot := (s.hostq q).slot }
  ((t.modHostq q (fun x => { x with head := x.head + 1, busy := some e, runs := false, taken := s.nextUid })).putHeader q).journalCmd q 1 0 e

/-- A taken command completes: its done entry, then its completion record with release (Table 21.4). -/
def State.doneEntry (s : State) (q : Nat) (e : BitVec 512) (status result : Nat) : State :=
  let s := (s.modHostq q (fun x => { x with busy := none, runs := false })).journalCmd q 2 status e
  let a := opw e 7
  if a = 0 || a % 32 ≠ 0 then s
  else s.writeHost a (leBytes 32 (packFields [(8, status), (24, 0), (32, entryTag e), (64, 0), (64, s.jseq % 2 ^ 32), (64, result)]))

/-- The command that waits for a context's pre-emption or restore completes. -/
def State.endWaiter (s : State) (c status : Nat) : State :=
  match (s.ctx c).bind (·.waiter) with
  | none => s
  | some q =>
    let s := s.modCtx c (fun x => { x with waiter := none })
    match (s.hostq q).busy with
    | none => s
    | some e => s.doneEntry q e status 0

end Sys2Proof.Machine
end

