-- ==== Sys2Proof/Machine/System.lean ====
section
/-!
DEFINITION. The system instructions that leave areas as they are: CAPRD, SUSRD, CSRRD, CSRWR, TLBINV, RDCTR, MARK and
HOSTSIG (R301, R306, R318, R332–R334, R348).
-/

namespace Sys2Proof.Machine

/-- CAPRD (R306): a poisoned s[a] poisons s[d]. -/
def execCaprd (c : Cond) (d a : SReg) (s : State) : Host.Outcome State Fault Refusal :=
  s.gate c 1 [d, a] (fun ar k s =>
    let i := (k.sreg a).toNat
    let v := if i ≤ 7 then bits (((s.ctx ar.ctx).map (fun x => x.capRec.toNat)).getD 0) (64 * i) 64 else 0
    s.finish k 1 (fun x => x.setS d (BitVec.ofNat 64 v) (k.spsn a)))

/-- The value of Table 17.5. -/
def State.suspicion (s : State) (u : Nat) : Nat :=
  if !unitOk u then 3 * 2 ^ 16
  else
    let x := s.unit u
    let status := if x.health = .retired then 2 else if s.leased u || x.hot then 1 else 0
    packFields [(16, x.score), (2, status), (1, bit x.early), (1, bit (s.nospare u))]

/-- SUSRD (R301). -/
def execSusrd (c : Cond) (d a : SReg) (s : State) : Host.Outcome State Fault Refusal :=
  s.privGate c 1 [d, a] (fun _ k s =>
    let v := s.suspicion (bits (k.sreg a).toNat 0 16)
    s.finish k 1 (fun x => x.setS d (BitVec.ofNat 64 v) (k.spsn a)))

/-! Control registers (Table 19.1). -/

/-- The cause register (Table 19.2). -/
def TrapRec.cause (t : TrapRec) : Nat :=
  packFields [(8, t.fault.toNat), (8, t.code.toNat), (2, t.copy.toNat), (1, bit t.noinstr), (1, bit t.brk)]

/-- The area of the named cell: the copy in which the fault of a voted area was (Table 19.2). -/
def State.namedArea (s : State) (u : Nat) (t : TrapRec) : Nat :=
  match s.areas.find? (fun p => t.copy ≠ 0 && p.2.kind = .shadow t.copy.toNat u) with
  | some p => p.1
  | none => u

/-- The held area of a trap operator's invocation, with its record and its named cell. -/
def State.heldOf (s : State) (a : Area) : Option (Nat × Area × TrapRec × Cell) :=
  match a.kind with
  | .trap u =>
    match s.area u with
    | none => none
    | some h =>
      match h.trap, h.trap.bind (fun t => (s.area (s.namedArea u t)).bind (fun n => n.cells.find t.fcix)) with
      | some t, some k => some (u, h, t, k)
      | _, _ => none
  | _ => none

/-- Registers 0x000–0x130. -/
def trapReg (n : Nat) (h : Area) (t : TrapRec) (k : Cell) : Word :=
  match n with
  | 0 => BitVec.ofNat 64 t.cause
  | 1 => BitVec.ofNat 64 t.fcix
  | 2 => t.fpc &&& 0x3FFF
  | 3 => t.faddr
  | 4 => BitVec.ofNat 64 (areaAddr h.ctx h.pos)
  | 5 => BitVec.ofNat 64 h.stamp
  | 6 => t.fword0.zeroExtend 64
  | 7 => t.fword1.zeroExtend 64
  | 0x120 => k.q.zeroExtend 64
  | 0x130 => k.psn.zeroExtend 64
  | n =>
    if 0x100 ≤ n && n ≤ 0x11F then k.sreg (BitVec.ofNat 5 n)
    else if 0x128 ≤ n && n ≤ 0x12F then k.dreg (BitVec.ofNat 3 n)
    else 0

/-- Slots of a context in a hearth, in increasing handle: live ones, not a shadow's. -/
def State.liveSlots (s : State) (ctx h : Nat) : List (Nat × Slot) :=
  s.slots.filter (fun p => p.1 / 2 ^ 20 = ctx && p.2.hid = h && !p.2.dying)

/-- The length of the save image of a hearth (R323). -/
def State.saveLen (s : State) (ctx h : Nat) : Nat :=
  let l := s.liveSlots ctx h
  0x1040 + 8 * (l.length + l.foldl (fun n p => n + p.2.tags.length) 0)

/-- The value of a control register for a cell. -/
def State.csr (s : State) (a : Area) (k : Cell) (n : Nat) : Word :=
  if n < 0x200 then
    match s.heldOf a with
    | some (_, h, t, c) => trapReg n h t c
    | none => 0
  else
    match s.ctx a.ctx, n with
    | some x, 0x200 => BitVec.ofNat 64 (bit x.strict)
    | some x, 0x201 => BitVec.ofNat 64 (bit x.brk)
    | some x, 0x202 => x.trace.zeroExtend 64
    | some x, 0x203 => x.logbase
    | some x, 0x204 => BitVec.ofNat 64 x.logsize
    | some x, 0x205 => BitVec.ofNat 64 (bit x.hangpol)
    | _, 0x206 => (s.hearth k.hid).seed
    | _, 0x210 => if a.kind = .save then BitVec.ofNat 64 (s.saveLen a.ctx k.hid) else 0
    | _, _ => 0

/-- Writes a register of the named cell's window, which clears the written register's poison. -/
def Cell.csrSet (k : Cell) (n : Nat) (v : Word) : Cell :=
  if 0x100 ≤ n && n ≤ 0x11F then k.setS (BitVec.ofNat 5 n) v false
  else if n = 0x120 then { k with q := setBit (v.extractLsb' 0 8) 0 true, psn := k.psn &&& 0x00FFFFFFFFFF#48 }
  else if 0x128 ≤ n && n ≤ 0x12F then k.setD (BitVec.ofNat 3 n) v false
  else if n = 0x130 then { k with psn := v.extractLsb' 0 48 &&& ~~~(0x010000000001#48) }
  else k

/-- The state with a control register written (log 50). -/
def State.csrPut (s : State) (a : Area) (k : Cell) (n : Nat) (v : Word) : State :=
  if n < 0x200 then
    match s.heldOf a with
    | none => s
    | some (u, _, t, _) =>
      if n = 2 then s.modArea u (fun h => { h with trap := some { t with fpc := v &&& 0x3FFC } })
      else s.modCell (s.namedArea u t) t.fcix (fun k => k.csrSet n v)
  else if n = 0x206 then
    s.modHearth k.hid (fun h => { h with seed := if v = 0 then seed0 else v })
  else
    s.modCtx a.ctx (fun x =>
      match n with
      | 0x200 => { x with strict := v.getLsbD 0 }
      | 0x201 => { x with brk := v.getLsbD 0 }
      | 0x202 => { x with trace := v.extractLsb' 0 2 }
      | 0x203 => { x with logbase := v &&& ~~~(0x3F#64) }
      | 0x204 => if (List.range 21).any (fun i => v.toNat = 2 ^ (i + 4)) then { x with logsize := v.toNat } else x
      | 0x205 => { x with hangpol := v.getLsbD 0 }
      | _ => x)

/-- CSRRD (R318): an unassigned number raises ILLEGAL_OPCODE before the privilege is looked at (R57). -/
def execCsrrd (c : Cond) (d : SReg) (num : BitVec 12) (s : State) : Host.Outcome State Fault Refusal :=
  s.privGate c 2 [d] (fun a k s => s.finish k 2 (fun x => x.setS d (s.csr a k num.toNat) false))

/-- CSRWR (R318): only logbase consumes poison. -/
def execCsrwr (c : Cond) (a : SReg) (num : BitVec 12) (s : State) : Host.Outcome State Fault Refusal :=
  s.privGate c 2 [a] (fun ar k s =>
    s.consume ar (num = 0x203 && k.spsn a) 0 (fun s => (s.csrPut ar k num.toNat (k.sreg a)).finish k 2 id))

/-- TLBINV (R333). -/
def execTlbinv (c : Cond) (a b : SReg) (s : State) : Host.Outcome State Fault Refusal :=
  s.privGate c 1 [a, b] (fun ar k s =>
    s.consume ar (k.spsn a || k.spsn b) 0 (fun s =>
      if k.posted then s.waitOn .port 0 0
      else
        let n := bits (k.sreg b).toNat 0 16
        let lo := bits (k.sreg a).toNat 0 55 / 65536 * 65536
        (if n = 0 then s.dropTrans ar.ctx 0 (2 ^ 55) else s.dropTrans ar.ctx lo (lo + n * 65536)).finish k 1 id))

/-- Clock cycles of a hearth since its reset (R332, R351). -/
def State.hearthCycles (s : State) (h : Nat) : Nat :=
  let x := s.hearth h
  (x.cycles + (s.ref - max x.clockRef s.refReset) * x.clock) / 36

/-- RDCTR (R332): with f = 1 once the cell's earlier instructions have completed (log 17). -/
def execRdctr (c : Cond) (f : BitVec 3) (d a : SReg) (s : State) : Host.Outcome State Fault Refusal :=
  s.gate c 1 [d, a] (fun _ k s =>
    if f = 1 && k.ops.any (fun o => o.kind ≠ .pref) then s.waitOn .port 0 0
    else if f = 1 && !k.cmds.isEmpty then s.waitQueue 0xF (k.cmds.map (·.2))
    else
      let sel := bits (k.sreg a).toNat 0 8
      let v :=
        match sel with
        | 0 => s.hearthCycles k.hid
        | 3 => (s.hearth k.hid).ctrs.get 0 3 + (s.part (s.leadOf k.hid)).sweep - (s.hearth k.hid).sweepBase
        | n => (s.hearth k.hid).ctrs.get 0 n
      s.finish k 1 (fun x => x.setS d (BitVec.ofNat 64 v) (k.spsn a)))

/-- MARK (R334): the entry takes the value, its poison in the bit above it (log 14). -/
def execMark (c : Cond) (a : SReg) (s : State) : Host.Outcome State Fault Refusal :=
  s.privGate c 1 [a] (fun ar k s =>
    (s.journalAdd 3 0 0 ar.ctx 0 0 0 (s.sweepOf ar.ctx) ((k.sreg a).toNat + 2 ^ 64 * bit (k.spsn a))).finish k 1 id)

/-- A write of the signal unit to host memory: whether it fails, and with which code, is the host's, and a failure is logged with
kind 12 (R330, R348, log 88). -/
def State.hostWrite (s : State) (ar : Area) (a vec : Nat) (bs : List Byte) : State :=
  let f := Config.hostFault s.free
  let s := s.tickFree
  if f = 0 then { s with hostMem := writeTab s.hostMem a bs } else s.log ar.ctx 12 f.toNat ar.op (areaAddr ar.ctx ar.pos) a vec

/-- Writes an entry of a context's signal ring and its count, and sends the interrupt (R348) (log 88). -/
def State.signalHost (s : State) (ar : Area) (x : Ctx) (vec : Nat) (v : Word) (psn : Bool) : State :=
  if x.ring = 0 then s
  else
    let at_ := x.ring + 64 + 16 * (x.sigs % 2 ^ x.ringLog)
    let w := packFields [(36, s.ctxSweep ar.ctx), (15, 0), (1, bit psn), (6, vec), (6, ar.ctx), (64, v.toNat)]
    let s := (s.hostWrite ar at_ vec (leBytes 16 w)).hostWrite ar x.ring vec (leBytes 8 (x.sigs + 1))
    { s.modCtx ar.ctx (fun x => { x with sigs := (x.sigs + 1) % 2 ^ 64 }) with irqs := BitVec.ofNat 6 vec :: s.irqs }

/-- HOSTSIG (R348). -/
def execHostsig (c : Cond) (a b : SReg) (s : State) : Host.Outcome State Fault Refusal :=
  s.gate c 1 [a, b] (notVoted (fun ar k s =>
    if k.posted then s.waitOn .port 0 0
    else
      match s.ctx ar.ctx with
      | none => s.finish k 1 id
      | some x => (s.signalHost ar x (bits (k.sreg a).toNat 0 6) (k.sreg b) (k.spsn b)).finish k 1 id))

end Sys2Proof.Machine
end

