-- ==== Sys2Proof/Machine/Waits.lean ====
section
/-!
DEFINITION. Waits whose conditions hold, and the state code of an area (Tables 1.3 and 1.4, R17, R111, R144, R250).
-/

namespace Sys2Proof.Machine

/-- A walker of a hearth's die is free (R207). -/
def State.walkerFree (s : State) (h : Nat) : Bool := decide ((s.walks.filter (fun w => w.die = dieOf h)).length < 64)

/-- The condition of a wait of cell `c` of area `u` holds: it was seen to hold at its home, or the queue, the horizon or the slot shows
it (Table 1.3). -/
def State.waitOver (s : State) (u ctx : Nat) (c : Cell) (w : Wait) : Bool :=
  match w.kind with
  | .queue =>
    if w.ids.isEmpty then (List.range 4).all (fun q => !w.value.getLsbD q || decide ((s.queue c.hid q).length < 32))
    else !w.ids.any (fun i => c.cmds.any (fun p => p.2 = i))
  | .horizon => s.tickDone (s.leadOf c.hid) w.value.toNat
  | .tile =>
    match s.slotOf u ctx w.value.toNat with
    | some (_, x) => x.moving.isNone && !(x.displaced && x.hid ≠ c.hid)
    | none => true
  | .port =>
    w.granted.isSome || (w.value = 0 && c.ops.all (fun o => o.kind = .pref)) || (w.value = walkersBusy && s.walkerFree c.hid)
  | _ => w.granted.isSome

/-- The waits of Table 1.3: a wait on the memory port or on a restore is none of them, nor one whose condition holds. -/
def State.waitCounts (s : State) (u ctx : Nat) (c : Cell) (w : Wait) : Bool :=
  w.kind != .port && w.kind != .restore && !s.waitOver u ctx c w

/-- The cell waits on a condition of Table 1.3. -/
def State.cellWaits (s : State) (u ctx : Nat) (c : Cell) : Bool := (c.wait.map (s.waitCounts u ctx c)).getD false

/-- Every cell that has not stopped waits, and one of them on a condition of Table 1.3 (R17, R111, R144). -/
def State.areaWaiting (s : State) (u : Nat) (a : Area) : Bool :=
  let live := a.cells.filter (fun p => p.2.stop = .running)
  live.all (fun p => p.2.atCollective || s.cellWaits u a.ctx p.2) && live.any (fun p => s.cellWaits u a.ctx p.2)

/-- The state code of Table 1.3. An area that went on waiting is so until one of its cells has its turn (R17, R325). -/
def State.code (s : State) (u : Nat) (a : Area) : Nat :=
  match a.phase with
  | .found => 0
  | .loading => 1
  | .active => if s.inTransit a || s.areaWaiting u a || a.left = 3 then 3 else 2
  | .held => 4
  | .committing => 5
  | .draining => 6
  | .suspended => 8

/-- A wait lets its cell execute its instruction again: its condition holds, or the cell must look for itself, at the slot that it calls
to its hearth and at what it can issue (R28, R126) (log 79). -/
def State.waitOpen (s : State) (u ctx : Nat) (c : Cell) (w : Wait) : Bool :=
  match w.kind with
  | .tile => true
  | .port => w.value = 0 || w.value = walkersBusy || w.granted.isSome
  | _ => s.waitOver u ctx c w

end Sys2Proof.Machine
end

