-- ==== Sys2Proof/Machine/Context.lean ====
section
/-!
DEFINITION. The ends of cells, areas and contexts: COMMIT and DISCARD, the ends of a trap, pre-emption with its save and
restore operators, supervisor invocations, the watchdogs, dumps and teardown (R90, R315–R317, R320–R329).
-/

namespace Sys2Proof.Machine

/-! Claims and suspensions (Table 1.4). -/

/-- An area loses its claim; what it issued is performed, and its engine commands go on. -/
def State.unclaim (s : State) (u : Nat) : State := ((s.dropShadows u).finishOps u).eraseAreas [u]

/-- A suspended area waits for the end of one more evacuation (R17). -/
def Area.awaits (a : Area) (why : Option Nat) : Area :=
  match why with
  | some h => if a.evac.contains h then a else { a with evac := a.evac ++ [h] }
  | none => a

/-- Pre-emption, or the evacuation of a hearth, stops an area of a program, whose registers have then what its accesses bring; it keeps
the waits of Table 1.3. One of a voted operator is found again (R17, R310, R322, log 77). -/
def State.stopArea (s : State) (u : Nat) (why : Option Nat) : State :=
  match s.area u with
  | none => s
  | some a =>
    if a.kind ≠ .user then s
    else
      match a.phase with
      | .found => s.unclaim u
      | .loading => s.unclaim u
      | .active =>
        if a.isVoted then s.unclaim u
        else (s.finishOps u).modArea u (fun b => { b.awaits why with
          phase := .suspended
          left := s.code u a
          cells := b.cells.map (fun p => (p.1, { p.2 with wait := p.2.wait.filter (fun w => w.kind ≠ .port) })) })
      | .suspended => s.modArea u (fun b => b.awaits why)
      | _ => s

/-- The areas that programs own. -/
def State.userAreas (s : State) (c : Nat) : List (Nat × Area) := (s.areasOf c).filter (fun p => p.2.kind = .user)

/-- Subscriptions of a context end as by UNSUBS, their barrier words left alone (R324, R328). -/
def State.endSubs (s : State) (c : Nat) : State :=
  s.subs.foldl (fun s p => if p.2.ctx = c then (s.modSub p.1 (fun x => { x with dead := true })).sweepSub p.1 else s) s

/-- Every slot of a context is freed (R149, R324). -/
def State.freeSlots (s : State) (c : Nat) : State :=
  ({ s with slots := s.slots.map (fun p => if p.1 / 2 ^ 20 % 64 = c then (p.1, { p.2 with dying := true }) else p) } : State).reclaim

/-- Starts every push of a context that may start. -/
def State.pushAll (s : State) (c : Nat) : State :=
  s.subs.foldl (fun s p => if p.2.ctx = c then s.startPushes p.1 else s) s

/-! Teardown (R328). -/

/-- Ends every effect of a context on the device; its id stays allocated. -/
def State.teardown (s : State) (c : Nat) : State :=
  match s.ctx c with
  | none => s
  | some x =>
    let mark := (s.rowOf x.part).filter (fun p => p.2.kind = 11 && p.2.value.toNat = c)
    let s := (mark ++ s.run c).foldl (fun s p => s.setSym p.1 Sym.empty) s
    let us := (s.areasOf c).map (·.1)
    let s := (us.foldl (fun s u => s.finishOps u) s).eraseAreas us
    let s := s.dropMsgs (fun b => match b with | .event i => s.events.any (fun e => e.id = i && e.ctx = c) | _ => false)
    let s : State := { s with
      events := s.events.filter (fun e => e.ctx ≠ c)
      pops := s.pops.filter (fun p => p.1 / 256 ≠ c)
      accs := s.accs.filter (fun p => p.1 / 2 ^ 32 ≠ c)
      carves := s.carves.filter (fun p => p.1 % 64 ≠ c)
      queues := (s.queues.map (fun q => (q.1, q.2.filter (fun m => m.ctx ≠ c || (m.started && m.fence.isNone))))).filter (fun q => q.2 ≠ [])
      subs := s.subs.map (fun p => if p.2.ctx = c then (p.1, { p.2 with wb := p.2.wb.filter (fun w =>
        s.queues.any (fun q => q.2.any (fun m => m.id = w.2 && m.started))) }) else p)
      dumps := s.dumps.filter (fun d => d.ctx ≠ c)
      hearths := (s.hearths.map (fun p => (p.1, { p.2 with
        oplds := p.2.oplds.filter (fun o => o.ctx ≠ c)
        ftab6 := if p.2.ftab6.owner = some c then { p.2.ftab6 with owner := none } else p.2.ftab6
        ftab7 := if p.2.ftab7.owner = some c then { p.2.ftab7 with owner := none } else p.2.ftab7
        activity := p.2.activity.erase c }))).filter (fun p => p.2 ≠ Hearth.reset) }
    let s := s.modPart x.part (fun p => { p with
      dir := p.dir.filter (fun g => g.ctx ≠ c)
      inserts := p.inserts.filter (fun i => i.ctx ≠ c)
      restores := p.restores.filter (fun r => r.ctx ≠ c) })
    let s := s.modCtx c (fun x => { x with status := .dead, keptHandles := [], holes := [], capDue := [], notes := 0, noteAt := [], notePos := [] })
    ((s.endSubs c).freeSlots c).endWaiter c 8

/-! Dumps (R328, R329). -/

/-- A condition that a dump entry lists: kind, address and value of Table 19.7. -/
abbrev DumpWait := Nat × Nat × Nat

/-- The stream slot whose ring barrier a window address names (R250). -/
def State.ringAt (s : State) (u ctx : Nat) (a : Word) : Option (Nat × Nat) :=
  match s.windowSlot u ctx a with
  | none => none
  | some (key, off) =>
    (s.subs.filter (fun p => p.2.ctx = ctx && p.2.bar ≠ 0 && !p.2.dead)).findSome? (fun p =>
      ((List.range p.2.ring.length).find? (fun i => p.2.barrierOf i = (key, off))).map (fun i => (p.1, i)))

/-- What a wait shows in a dump: a barrier that a stream slot owns is a wait on the slot. -/
def State.dumpWait (s : State) (u ctx : Nat) (w : Wait) : DumpWait :=
  match w.kind with
  | .barrier =>
    match s.ringAt u ctx w.waddr with
    | some (st, i) => (4, (streamHandle st).toNat, i)
    | none => (1, w.waddr.toNat, w.value.toNat)
  | .counter => (2, w.waddr.toNat, w.value.toNat)
  | .address => (3, w.waddr.toNat, w.value.toNat)
  | .horizon => (5, w.waddr.toNat, w.value.toNat)
  | .queue => (6, w.waddr.toNat, w.value.toNat)
  | .tile => (7, w.waddr.toNat, w.value.toNat)
  | .port => (8, 0, 0)
  | .restore => (8, 0, 0)

/-- The conditions on which an area's cells wait, each with the `cix` that waits; a tile of the area in transit keeps every cell. -/
def State.areaWaits (s : State) (u : Nat) (a : Area) : List (Nat × DumpWait) :=
  let live := a.cells.filter (fun p => p.2.stop = .running)
  match a.phase with
  | .found | .loading => live.map (fun p => (p.1, (9, 0, 0)))
  | .active =>
    let tiles := (a.cells.filterMap (fun p => let y := s.sym p.2.phys; if y.transit then some (bits y.value.toNat 0 20) else none)).eraseDups
    (tiles.flatMap (fun h => live.map (fun (p : Nat × Cell) => (p.1, ((7, 0, h) : DumpWait)))) ++
      live.filterMap (fun (p : Nat × Cell) => (p.2.wait.filter (fun w => !s.waitOver u a.ctx p.2 w)).map (fun w => (p.1, s.dumpWait u a.ctx w)))).eraseDups
  | _ => []

/-- One entry (Table 19.7). -/
def State.dumpEntry (s : State) (u : Nat) (a : Area) (w : DumpWait) (cix n : Nat) : List Byte :=
  leBytes 64 (packFields [(17, 0), (4, w.1), (4, s.code u a), (12, a.op), (9, min n 511), (18, cix), (192, 0),
    (64, areaAddr a.ctx a.pos), (64, a.stamp), (64, w.2.1), (64, w.2.2)])

/-- The entries of an area: one for each condition, or one of kind 0. -/
def State.dumpArea (s : State) (u : Nat) (a : Area) : List (List Byte) :=
  let ws := s.areaWaits u a
  match ws with
  | [] =>
    let live := a.cells.filter (fun p => p.2.stop = .running)
    [s.dumpEntry u a (0, 0, 0) ((live.head?.map (·.1)).getD 0) live.length]
  | _ =>
    (ws.map (·.2)).eraseDups.map (fun w =>
      let l := ws.filter (fun p => p.2 = w)
      s.dumpEntry u a w ((l.head?.map (·.1)).getD 0) l.length)

/-- The entries due, by increasing area address (log 64). -/
def State.dumpEntries (s : State) (d : Dump) : List (List Byte) :=
  let l := (s.userAreas d.ctx).filter (fun p => !d.hang || s.code p.1 p.2 = 3)
  (sortBy (fun x y => decide (x.2.pos < y.2.pos)) l).flatMap (fun p => s.dumpArea p.1 p.2)

/-- The header (Table 19.6). -/
def dumpHeader (d : Dump) (total written : Nat) (full : Bool) : List Byte :=
  leBytes 64 (packFields [(16, 1), (1, bit full), (1, bit d.cut), (6, d.ctx), (8, d.fault.toNat), (14, d.pc.toNat), (18, 0),
    (32, total), (32, written), (64, d.addr.toNat), (64, d.area), (64, d.swp)])

/-- Writes a dump block by block; none is written after one that faults. -/
def State.dumpBlocks (s : State) (c : Nat) : List (Nat × List Byte) → State × Bool
  | [] => (s, true)
  | (a, bs) :: r =>
    match s.storeVirt c (BitVec.ofNat 64 a) bs with
    | .error _ => (s, false)
    | .ok (s, _) => s.dumpBlocks c r

/-- DUMP_WRITE (R328, R329): the first waiting dump is written and announced, and its context torn down, but for a hang
whose context is to stay frozen (R327) and that no second fault cut. How many entries a dump that a second fault cut had written is open (log 64). -/
def execDumpWrite (s : State) : Host.Outcome State Fault Refusal :=
  .next (
    match s.dumps with
    | [] => s
    | d :: r =>
      let l := s.launch d.ctx
      let size := (l.map (·.hangsize)).getD 0
      let base := (l.map (·.hangaddr)).getD 0
      let es := s.dumpEntries d
      let room := (size - 64) / 64
      let fit := min room es.length
      let n := if d.cut then s.freeVal.toNat % (fit + 1) else fit
      let s := if d.cut then s.tickFree else s
      let head := dumpHeader d es.length n (room < es.length)
      let blocks := ((List.range n).zip es).map (fun p => (base + 64 + 64 * p.1, p.2)) ++ [(base, head)]
      let (s, ok) := if l.isNone || size < 64 then (s, false) else s.dumpBlocks d.ctx blocks
      let s := ({ s with dumps := r } : State).journalAdd 4 (if ok then 0 else 8) 0 d.ctx 0 d.fault.toNat 0 (s.sweepOf d.ctx) 0
      if d.hang && !d.cut && ((s.ctx d.ctx).map (·.hangpol)).getD false then s.endWaiter d.ctx 8 else s.teardown d.ctx)

/-! The watchdogs (R17, R322, R327). -/

/-- The watchdog interval of a context (Table 1.6). -/
def Launch.interval (l : Launch) : Nat := if l.wdog = 0 then 1048576 else l.wdog

/-- HANG (R327): the count of sweeps without a commit has reached the interval. -/
def execHang (c : Nat) (s : State) : Host.Outcome State Fault Refusal :=
  .next (
    match s.ctx c with
    | none => s
    | some x =>
      match x.launch with
      | none => s
      | some l => if x.status = .running && l.interval ≤ x.idle then s.fatal c fltHang 0 0 0 else s)

/-- WATCHDOG (R17, R322): an area has been held, or a save or restore operator has run, longer than the interval. -/
def execWatchdog (u : Nat) (s : State) : Host.Outcome State Fault Refusal :=
  .next (
    match s.area u with
    | none => s
    | some a =>
      let long := ((s.launch a.ctx).map (fun l => decide (l.interval < s.ctxSweep a.ctx - a.since))).getD false
      if !long then s
      else
        match a.kind with
        | .user =>
          match a.phase, a.trap with
          | .held, some t =>
            let s := s.unclaim u
            s.fatal a.ctx fltWatchdog (areaAddr a.ctx a.pos) t.faddr t.fpc
          | _, _ => s
        | .save => s.fatal a.ctx fltWatchdog 0 0 0
        | .restore => s.fatal a.ctx fltWatchdog 0 0 0
        | _ => s)

/-! Supervisor invocations (R316). -/

/-- Hearths of a partition that are in service and not under lease. -/
def State.serving (s : State) (l : Nat) : List Nat := (s.partHearths l).filter (fun h => s.inService (hearthUnit h))

/-- Requests a save or restore operator: one invocation for each hearth, in increasing hearth id. -/
def State.requestOperator (s : State) (c : Nat) (kind : AKind) (op : Nat) : State :=
  match s.ctx c with
  | none => s
  | some x =>
    let hs := s.serving x.part
    let cells := (List.range hs.length).zip (hs.map (fun h => Cell.start (h * 256)))
    { s.fresh with
      areas := s.areas.set s.nextUid (Area.start c kind 0 (s.ctxSweep c) op cells (s.ctxSweep c)) }

/-- The supervisor cells of a hearth that run an invocation. -/
def State.busySup (s : State) (h : Nat) : List Nat :=
  s.areas.flatMap (fun p =>
    if p.2.kind.supervisor then
      p.2.cells.filterMap (fun q => if q.2.hid = h && q.2.stop = .running then q.2.sup else none)
    else [])

/-- A free supervisor cell of a hearth; which one is open, so a free value says where the search begins (log 10). -/
def State.freeSup (s : State) (h : Nat) : Option Nat :=
  ((List.range 4).map (fun i => (s.freeVal.toNat + i) % 4)).find? (fun k => !(s.busySup h).contains k)

/-- SUPERVISOR_INVOCATION_START (R316): the invocation of the hearth that was requested first and whose operator is
resident starts on a free supervisor cell, with its control traffic. The registers of the area that a trap operator looks at have what
its loads bring (log 89). -/
def execSupervisorInvocationStart (h : Nat) (s : State) : Host.Outcome State Fault Refusal :=
  .next (
    let waits (p : Nat × Area) : Bool :=
      p.2.awaitsSup h && s.hasCopy h p.1 p.2 && ((s.ctx p.2.ctx).map Ctx.live).getD false
    match leastBy (·.1) (s.areas.filter waits), s.freeSup h with
    | some (u, a), some k =>
      match s.copyFor h u a.ctx a.op with
      | none => s
      | some r =>
        let s := match a.kind with | .trap v => s.finishOps v | _ => s
        s.tickFree.sendControl.modArea u (fun a => { a with
          phase := .active
          entry := some (a.entry.getD r.entry)
          code := a.code.set h r.code
          cells := a.cells.map (fun q => if q.2.hid = h then (q.1, { q.2 with sup := some k }) else q) })
    | _, _ => s)

/-! Pre-emption (R322–R324). -/

/-- Step 1 of Table 19.4 (log 77). -/
def State.preemptNow (s : State) (c : Nat) : State :=
  let s := s.modCtx c (fun x => { x with status := .stopping })
  (s.userAreas c).foldl (fun s p => s.stopArea p.1 none) s

/-- PREEMPTION_EFFECT (R322): the sweep in which PREEMPT was accepted has ended (log 77). -/
def execPreemptionEffect (c : Nat) (s : State) : Host.Outcome State Fault Refusal :=
  .next (
    match s.ctx c with
    | none => s
    | some x => if x.status = .preempting && x.since < (s.part x.part).sweep then s.preemptNow c else s)

/-- A hearth that is being emptied holds cells of the context. -/
def State.evacuatesCells (s : State) (c : Nat) : Bool :=
  (s.run c).any (fun p => s.withdrawn (hidOf p.1) && (s.unit (hearthUnit (hidOf p.1))).health = .inService)

/-- SAVE_OPERATOR_START (R322): nothing of the context is held, committing or draining any longer. -/
def execSaveOperatorStart (c : Nat) (s : State) : Host.Outcome State Fault Refusal :=
  .next (
    match s.ctx c, s.launch c with
    | some x, some l =>
      if x.status = .stopping && (s.userAreas c).all (fun p => p.2.phase = .suspended) && !s.evacuatesCells c then
        (s.modCtx c (fun x => { x with status := .saving })).requestOperator c .save l.saveop
      else s
    | _, _ => s)

/-- A pre-emption that is not refused releases the context (R324). -/
def State.releaseContext (s : State) (c : Nat) : State :=
  let holes := (s.items c).filterMap (fun p => match p.2 with | .sym _ _ => some p.1 | .seg _ => none)
  let at_ := ((s.ctx c).map (·.noteAt)).getD []
  let notes := (s.items c).filterMap (fun p => match p.2 with | .sym q _ => if at_.contains q then some p.1 else none | .seg _ => none)
  let s := (s.run c).foldl (fun s p => s.setSym p.1 Sym.empty) s
  let s := s.eraseAreas ((s.areasOf c).map (·.1))
  let s := s.modCtx c (fun x => { x with
    status := .preempted
    holes := holes
    noteAt := []
    notePos := x.notePos ++ notes
    keptHandles := s.slots.filterMap (fun p => if p.1 / 2 ^ 20 = c && !p.2.dying then some (p.1 % 2 ^ 20) else none) })
  (((s.endSubs c).freeSlots c).invalidate c).endWaiter c 0

/-- The save operator's invocations have all stopped: the context is released, or its pre-emption is refused. -/
def State.endSave (s : State) (u : Nat) : State :=
  match s.area u with
  | none => s
  | some a =>
    if a.allCommit then s.releaseContext a.ctx
    else
      let s := ((s.eraseAreas [u]).modCtx a.ctx (fun x => { x with status := .running })).pushAll a.ctx
      s.startAreas.endWaiter a.ctx 7

/-! The end of a restore (R326). -/

/-- A restored area goes on from its arrivals: instances that every cell has passed are done, false AREABARs that some
cells have passed stand as arrivals, and a cell that waited at a collective executes it again (log 61). -/
def Area.rejoin (a : Area) : Area :=
  let live := a.cells.filter (fun p => p.2.stop = .running)
  let done := live.foldl (fun m p => match m with | none => some p.2.coll | some n => some (min n p.2.coll)) none
  let done := done.getD 0
  let bar : Arrival := ⟨opAreabar, 0, false, false, 0, 0, false, 0⟩
  { a with
    done := done
    taken := []
    cells := a.cells.map (fun p => (p.1, { p.2 with arrs := List.replicate (p.2.coll - done) bar })) }

/-- Positions whose symbols no restore brought back close up (log 60). -/
def State.closeHoles (s : State) (c : Nat) : State :=
  match s.ctx c with
  | none => s
  | some x =>
    (s.modPart x.part (fun p => { p with
      restores := p.restores.filter (fun r => r.ctx ≠ c)
      dir := p.dir.map (fun g =>
        if g.ctx = c then { g with lpos := g.lpos - (x.holes.filter (fun n => n < g.lpos)).length } else g) })).modCtx c
      (fun x => { x with holes := [], keptHandles := [], notes := x.notes - x.notePos.length, notePos := [] })

/-- The expression of a context obeys R11, as far as its swept-out segments can be read (log 60). -/
def State.wellFormed (s : State) (c : Nat) : Bool :=
  let l := (s.items c).map (fun p => match p.2 with | .sym _ y => some [y] | .seg g => (s.loadSegment g).map (·.1))
  l.any (·.isNone) || wfExpr (l.filterMap id).flatten

/-- The restore operator's invocations have all committed: claims and pushes resume and the restored areas run, behind its accesses
(R326). An expression that does not obey R11 is refused as an invalid image is (log 60). -/
def State.endRestore (s : State) (u : Nat) : State :=
  match s.area u with
  | none => s
  | some r =>
    let c := r.ctx
    if !s.wellFormed c then s.fatal c fltOperatorInvalid 0 0 0
    else
    let part := (s.userAreas c).filter (fun p => !p.2.cells.all (fun q => p.2.taken.contains q.1))
    let s := s.eraseAreas (u :: part.map (·.1))
    let whole := s.userAreas c
    let t := ((s.ctx c).map (fun x => (s.part x.part).reached)).getD 0
    let s := whole.foldl (fun s p => (s.modArea p.1 Area.rejoin).meetArea p.2 t) s
    let s := ((s.closeHoles c).modCtx c (fun x => { x with status := .running, idle := 0 })).pushAll c
    s.startAreas.endWaiter c 0

/-! COMMIT and DISCARD (R18, R90). -/

/-- The issuing cell stops, its accesses performed; with the last one the area ends. In a trap operator both raise OPERATOR_INVALID
(R320) (log 57). -/
def State.stopCell (s : State) (ar : Area) (k : Cell) (stop : Stop) : State :=
  let (u, i) := s.cur
  let end_ (f : State → State) : State :=
    let s := (s.settle u i 17).reach k.hid
    let s := ((s.count k.hid 1 1).modCell u i (fun c => { c with stop := stop, wait := none })).modArea u (fun a => { a with lastStop := i })
    match s.area u with
    | none => s
    | some a => if a.allStopped then f s else s
  match ar.kind with
  | .trap _ => s.raise fltOperatorInvalid 0
  | .save => end_ (fun s => s.endSave u)
  | .restore => if stop = .discard then s.raise fltOperatorInvalid 0 else end_ (fun s => s.endRestore u)
  | _ => end_ (fun s => s.ended u i)

def execCommit (c : Cond) (s : State) : Host.Outcome State Fault Refusal :=
  s.gate c 1 [] (fun ar k s => s.stopCell ar k .commit)

def execDiscard (c : Cond) (s : State) : Host.Outcome State Fault Refusal :=
  s.gate c 1 [] (fun ar k s => s.stopCell ar k .discard)

/-! TRET (R320, R321). -/

/-- The invocation ends once its stores, atomics and CADDs are acknowledged, and the held area takes `f`, behind its accesses. Outside a
trap operator only a kill in a save or restore operator is allowed. -/
def State.tret (s : State) (kill : Bool) (ar : Area) (k : Cell)
    (f : Nat → Area → TrapRec → Cell → State → State) : State :=
  match ar.kind with
  | .trap _ =>
    if k.posted then s.waitOn .port 0 0
    else
      let s1 := ((s.count k.hid 1 1).finishOps s.cur.1).eraseAreas [s.cur.1]
      match s.heldOf ar with
      | none => s1
      | some (u, h, t, x) => f u h t x (s1.meetArea h (s1.now k.hid))
  | .save | .restore =>
    if !kill then s.raise fltOperatorInvalid 0
    else if k.posted then s.waitOn .port 0 0
    else (s.count k.hid 1 1).fatal ar.ctx 0 0 0 0
  | _ => s.raise fltOperatorInvalid 0

/-- The held area goes on at `pc` in its named cell. -/
def State.goOn (s : State) (u cix : Nat) (pc : Word) : State :=
  (s.modArea u (fun a => { a with phase := .active, trap := none })).modCell u cix (fun c => { c with pc := pc, wait := none })

/-- TRET RESUME (log 32). -/
def State.tretResume (u : Nat) (h : Area) (t : TrapRec) (_ : Cell) (s : State) : State :=
  if t.noinstr then
    ((s.dropShadows u).modArea u (fun a => { a with
      phase := .found
      entry := none
      trap := none
      since := s.ctxSweep a.ctx
      cells := a.cells.map (fun p => (p.1, p.2.again)) })).tryStart u
  else if t.brk then s.endBreak u t.fcix
  else if h.isVoted then s.freshCopies u 0
  else s.goOn u t.fcix t.fpc

def execTretResume (c : Cond) (s : State) : Host.Outcome State Fault Refusal :=
  s.privGate c 1 [] (fun ar k s => s.tret false ar k State.tretResume)

/-- Words of the instruction that a skip passes (R84). -/
def skipWords (w0 : Word32) : Nat := match bits w0.toNat 0 2 with | 1 => 2 | 2 => 3 | _ => 1

/-- TRET SKIP. -/
def State.tretSkip (u : Nat) (h : Area) (t : TrapRec) (x : Cell) (s : State) : State :=
  if t.brk then s.endBreak u t.fcix
  else if t.noinstr || t.fault = fltNoExit || h.isVoted then s.discardArea u
  else s.goOn u t.fcix (x.pc + BitVec.ofNat 64 (4 * skipWords t.fword0))

def execTretSkip (c : Cond) (s : State) : Host.Outcome State Fault Refusal :=
  s.privGate c 1 [] (fun ar k s => s.tret false ar k State.tretSkip)

def execTretDiscard (c : Cond) (s : State) : Host.Outcome State Fault Refusal :=
  s.privGate c 1 [] (fun ar k s => s.tret false ar k (fun u _ _ _ s => s.discardArea u))

/-- TRET KILL: the area retires, and the context is frozen with the trap's fault. -/
def State.tretKill (u : Nat) (h : Area) (t : TrapRec) (_ : Cell) (s : State) : State :=
  (((s.logOverrun u).logEnd h 2).unclaim u).fatal h.ctx t.fault (areaAddr h.ctx h.pos) t.faddr t.fpc

def execTretKill (c : Cond) (s : State) : Host.Outcome State Fault Refusal :=
  s.privGate c 1 [] (fun ar k s => s.tret true ar k State.tretKill)

/-! Memory ranges of the save and restore instructions. -/

/-- The home of a byte range that lies in one page or one slot. -/
abbrev Piece := Loc × Nat

/-- Splits a range at page boundaries, with the translations found. -/
def piecesOf (ts : List Trans) (ctx : Nat) : Nat → Nat → Nat → List Piece
  | 0, _, _ => []
  | _, _, 0 => []
  | fuel + 1, va, n =>
    let k := min n (65536 - va % 65536)
    match ts.find? (fun t => t.covers ctx va) with
    | none => []
    | some t => (Loc.phys t va, k) :: piecesOf ts ctx fuel (va + k) (n - k)

/-- The checks of R208 on `n` bytes at `a`, then `body` on their homes, behind the cell's earlier accesses (log 59). -/
def State.withRange (s : State) (ar : Area) (k : Cell) (a : Word) (n : Nat) (need : Need)
    (body : List Piece → State → State) : State :=
  if !k.settled then s.waitOn .port a 0
  else if inTileWindow a then
    match s.slotOf s.cur.1 ar.ctx (bits a.toNat 16 20) with
    | none => s.raise fltTileBounds a
    | some (key, x) =>
      let off := bits a.toNat 0 16
      let h := bits a.toNat 16 20
      if x.moving.isSome then s.waitOn .tile 0 (BitVec.ofNat 64 h)
      else if x.hid ≠ k.hid && !x.displaced then s.raise fltTileBounds a
      else if x.size < off + n then s.raise fltTileBounds a
      else if need ≠ .read && x.meetsTag off n then s.raise fltBarrierClobber a
      else if x.hid ≠ k.hid then s.callTile k key h
      else body [(.tile key off (x.base + off), n)] s
  else
    s.withPages ar.ctx k.hid need ((rangePages a n).map (fun p => (p, p))) [] (fun ts s =>
      body (piecesOf ts ar.ctx (n / 65536 + 2) (bits a.toNat 0 55) n) s)

/-- Reads a range. -/
def State.readPieces (s : State) (l : List Piece) : List Byte := l.flatMap (fun p => (s.readLoc p.1 p.2).1)

/-- Writes a range. -/
def State.writePieces (s : State) : List Piece → List Byte → State
  | [], _ => s
  | (l, n) :: r, bs => (s.writeLoc l (bs.take n) false).writePieces r (bs.drop n)

/-- Lines of device memory in a range. -/
def pieceLines (l : List Piece) : List Nat := l.flatMap (fun p => match p.1 with | .dev pa _ => linesOf pa p.2 | _ => [])

/-- The slices' part of a range that a cell of hearth `h` reads or writes. -/
def State.touchRange (s : State) (h : Nat) (l : List Piece) (write : Bool) : State :=
  l.foldl (fun s p =>
    match p.1 with
    | .dev pa _ => (linesOf pa p.2).foldl (fun s i => s.touch (64 * i) h 3 (if write then some (linePart pa p.2 i) else none) 0) s
    | _ => s) s

/-- A cell of hearth `h` reads a range. -/
def State.meetPieces (s : State) (h : Nat) (l : List Piece) : State := (pieceLines l).foldl (fun s x => s.meetLine h x) (s.touchRange h l false)

/-- A cell of hearth `h` has written a range. -/
def State.wrotePieces (s : State) (h : Nat) (l : List Piece) : State := (s.touchRange h l true).wroteLines h (pieceLines l)

/-- The instruction belongs to a save or to a restore operator only; a poisoned operand is consumed. -/
def onlyIn (kind : AKind) (regs : List SReg) (body : Area → Cell → State → State) : Area → Cell → State → State :=
  fun ar k s =>
    if ar.kind ≠ kind then s.raise fltOperatorInvalid 0
    else
      let a := match regs with | r :: _ => k.sreg r | [] => 0
      s.consume ar (regs.any (fun r => k.spsn r)) a (fun s => body ar k s)

/-! SAVEC (R323). -/

/-- The save image of a hearth. The entries behind the last symbol are no part of it, so their bytes are open (log 59). -/
def State.saveImage (s : State) (ctx h : Nat) : List Byte :=
  let syms := (s.items ctx).filterMap (fun p => match p.2 with | .sym q y => if hidOf q = h then some (p.1, y) else none | .seg _ => none)
  let slots := s.liveSlots ctx h
  let bars := slots.flatMap (fun p => (sortBy (fun x y => decide (x < y)) p.2.tags).map (fun t => (p.1 % 2 ^ 20, t / 8)))
  let head := packFields [(16, 1), (6, ctx), (42, 0), (32, s.saveLen ctx h), (32, syms.length), (32, slots.length), (32, bars.length)]
  leBytes 64 head ++ syms.flatMap (fun p => leBytes 16 (packFields [(72, p.2.code), (40, p.1)])) ++
    (List.range (2 * (256 - syms.length))).flatMap (fun i => leBytes 8 (Config.freeValue (s.free + i)).toNat) ++
    slots.flatMap (fun p => leBytes 8 (packFields [(20, p.1 % 2 ^ 20), (11, p.2.units), (4, p.2.layout.toNat)])) ++
    bars.flatMap (fun p => leBytes 8 (packFields [(20, p.1), (13, p.2)]))

/-- A slot of a context whose payload leaves a hearth or comes to it (R323). -/
def State.slotsMoving (s : State) (ctx h : Nat) : Option (Nat × Slot) :=
  s.slots.find? (fun p => p.1 / 2 ^ 20 = ctx && !p.2.dying &&
    (match p.2.moving with | some m => p.2.hid = h || m.hid = h | none => false))

/-- SAVEC (R323): the payloads that leave the hearth or come to it land first. -/
def execSavec (c : Cond) (a : SReg) (s : State) : Host.Outcome State Fault Refusal :=
  s.privGate c 1 [a] (onlyIn .save [a] (fun ar k s =>
    let at_ := k.sreg a
    match s.slotsMoving ar.ctx k.hid with
    | some p => s.waitOn .tile 0 (BitVec.ofNat 64 (p.1 % 2 ^ 20))
    | none =>
      if at_.toNat % 64 ≠ 0 then s.raise fltMisaligned at_
      else
        s.withRange ar k at_ (s.saveLen ar.ctx k.hid) .write (fun ps s =>
          let bs := s.saveImage ar.ctx k.hid
          (({ s.writePieces ps bs with free := s.free + 512 } : State).wrotePieces k.hid ps).finish k 1 id)))

/-! AREARD (R325). -/

/-- A cell's record (Table 19.5). -/
def Cell.record (c : Cell) : List Byte :=
  let (own, ownsym) := match c.rw.own with | .keep => (0, 0) | .replace y => (1, y.code) | .delete => (2, 0)
  let stop := match c.stop with | .running => 0 | .commit => 1 | .discard => 2
  leBytes 1024 (packFields (
    (List.range 32).map (fun i => (64, (c.sreg (BitVec.ofNat 5 i)).toNat)) ++ (List.range 8).map (fun i => (64, (c.d.get 0 i).toNat)) ++
    [(8, c.q.toNat), (48, c.psn.toNat), (8, 0), (14, c.pc.toNat), (2, stop), (1, bit c.atCollective), (2, own), (45, 0),
      (72, ownsym), (56, 0), (32, c.coll), (16, c.rw.n), (16, 0)] ++
    (List.range 56).map (fun i => (1, bit (c.rw.ins.find i).isSome)) ++ [(136, 0)] ++
    (List.range 56).map (fun i => (72, ((c.rw.ins.find i).map (·.code)).getD 0))))

/-- The header of an area's record, for its `m` cells from `first` on. -/
def Area.header (a : Area) (m first : Nat) : List Byte :=
  leBytes 64 (packFields [(1, bit a.consumed), (1, bit a.brk), (12, a.op), (4, a.left), (19, a.cells.length), (9, m), (18, first),
    (64, 0), (64, areaAddr a.ctx a.pos), (64, a.stamp)])

def execAreard (c : Cond) (d a : SReg) (s : State) : Host.Outcome State Fault Refusal :=
  s.privGate c 1 [d, a] (onlyIn .save [a] (fun ar k s =>
    let key (u : Nat) : Nat := u * 1024 + k.hid
    let left := (s.userAreas ar.ctx).filter (fun p =>
      p.2.phase = .suspended && p.2.hids.contains k.hid && !ar.taken.contains (key p.1))
    match leastBy (fun p => p.2.pos) left with
    | none => s.finish k 1 (fun k => k.setS d 0 false)
    | some (u, b) =>
      let mine := b.cells.filter (fun p => p.2.hid = k.hid)
      let whole := b.cells.all (fun p => p.2.rw.n ≤ 56)
      let n := if whole then 64 + 1024 * mine.length else 64
      s.withRange ar k (k.sreg a) n .write (fun ps s =>
        let bs := b.header mine.length ((mine.head?.map (·.1)).getD 0) ++
          (if whole then mine.flatMap (fun p => p.2.record) else [])
        let v := n + 2 ^ 62 * (if whole then 1 else 2)
        (((s.writePieces ps bs).wrotePieces k.hid ps).modArea s.cur.1 (fun x => { x with taken := x.taken ++ [key u] })).finish k 1
          (fun k => k.setS d (BitVec.ofNat 64 v) false))))

/-! RESTC and AREAWR (R326). -/

/-- Recreates the slots of a manifest in a hearth, under their own handles, with bytes that the manual leaves open; none
when one finds no room (log 60). -/
def State.remakeSlots (s : State) (ctx h : Nat) : List Nat → Option State
  | [] => some s
  | e :: r =>
    let key := slotKey 0 ctx (bits e 0 20)
    let u := bits e 20 11
    if (s.slots.find key).isSome || u = 0 || 64 < u then none
    else
      match s.freeRun h u none with
      | none => none
      | some i =>
        let bs := (List.range (128 * u)).flatMap (fun j => leBytes 8 (Config.freeValue (s.free + j)).toNat)
        ({ s with
          free := s.free + 128 * u
          tile := writeTab s.tile (h * tileBytes + i * 1024) bs
          slots := s.slots.set key ⟨h, i, u, BitVec.ofNat 4 (bits e 31 4), [], none, false, false⟩ } : State).remakeSlots ctx h r

/-- Tags a barrier word of a manifest. -/
def State.retag (s : State) (ctx e : Nat) : State :=
  let off := 8 * bits e 20 13
  { s with slots := s.slots.upd (slotKey 0 ctx (bits e 0 20)) (fun x =>
      if x.tags.contains off then x else { x with tags := x.tags ++ [off] }) }

/-- A symbol that an image may bring into a cell (R10, R11, log 60). -/
def Sym.storable (y : Sym) : Bool := y.kind ≠ 0 && y.valueOk

/-- RESTC: the slots come back at once; the cell waits until the move pass has placed its symbols (log 59). A symbol that no cell may
hold makes the image invalid (R10); its transit bit is taken as it stands (log 60, 86). -/
def execRestc (c : Cond) (a : SReg) (s : State) : Host.Outcome State Fault Refusal :=
  s.privGate c 1 [a] (onlyIn .restore [a] (fun ar k s =>
    if (k.seen .restore).isSome then s.finish k 1 id
    else
      let at_ := k.sreg a
      s.withRange ar k at_ 64 .read (fun ps s =>
        let x := ofLe (s.readPieces ps)
        let nsym := bits x 96 32
        let nslot := bits x 128 32
        let nbar := bits x 160 32
        let n := 0x1040 + 8 * (nslot + nbar)
        if bits x 0 16 ≠ 1 || bits x 16 6 ≠ ar.ctx || bits x 64 32 ≠ n || 256 < nsym then s.raise fltOperatorInvalid at_
        else
          s.withRange ar k at_ n .read (fun ps s =>
            let bs := s.readPieces ps
            let s := s.meetPieces k.hid ps
            let word (i n : Nat) : Nat := ofLe ((bs.drop i).take n)
            let rs := (List.range nsym).map (fun i =>
              let e := word (64 + 16 * i) 16
              (⟨ar.ctx, bits e 72 40, symOfCode (bits e 0 72), k.hid, s.cur.1, s.cur.2⟩ : Restore))
            if rs.any (fun r => !r.sym.storable) then s.raise fltOperatorInvalid at_
            else
            match s.remakeSlots ar.ctx k.hid ((List.range nslot).map (fun i => word (0x1040 + 8 * i) 8)) with
            | none => s.raise fltOperatorInvalid at_
            | some s =>
              let s := (List.range nbar).foldl (fun s i => s.retag ar.ctx (word (0x1040 + 8 * (nslot + i)) 8)) s
              if nsym = 0 then s.finish k 1 id
              else (s.modPart (s.leadOf k.hid) (fun p => { p with restores := p.restores ++ rs })).waitOn .restore 0 0))))

/-- The cell of a record (Table 19.5); a cell that had arrived at a collective executes it again (log 61). Its s0 and pc[1:0] read as
zero (R76). A stop code of 3, to which Tables 5.1 and 19.5 give no meaning, is taken as running: the model's choice (log 94). -/
def cellOfRecord (phys x : Nat) : Cell :=
  let tab (lo first n : Nat) : Tab Word :=
    (List.range' first n).foldl (fun t i => t.put 0 i (BitVec.ofNat 64 (bits x (lo + 64 * i) 64))) []
  let own : Own := match bits x 2641 2 with | 1 => .replace (symOfCode (bits x 2688 72)) | 2 => .delete | _ => .keep
  let ins := (List.range 56).filterMap (fun i => if bitOf x (2880 + i) then some (i, symOfCode (bits x (3072 + 72 * i) 72)) else none)
  let stop : Stop := match bits x 2638 2 with | 1 => .commit | 2 => .discard | _ => .running
  { Cell.start phys with
    s := tab 0 1 31
    d := tab 2048 0 8
    q := setBit (BitVec.ofNat 8 (bits x 2560 8)) 0 true
    psn := BitVec.ofNat 48 (bits x 2568 48) &&& ~~~(0x010000000001#48)
    pc := BitVec.ofNat 64 (4 * bits x 2626 12)
    stop := stop
    rw := ⟨own, bits x 2848 16, ins⟩
    coll := bits x 2816 32 - bit (bitOf x 2640) }

/-- The cells of the innermost application whose `(` has a logical position; none when it is not innermost. -/
def appAt (p : Nat) (l : List (Nat × Item)) : Option (List (Nat × Sym)) :=
  match l.dropWhile (fun q => q.1 ≠ p) with
  | (_, .sym x y) :: r =>
    if y.kind ≠ 1 then none
    else
      let body := r.takeWhile (fun q => match q.2 with | .sym _ y => y.kind ≠ 1 && y.kind ≠ 2 | .seg _ => false)
      match (r.drop body.length).head? with
      | some (_, .sym z w) =>
        if w.kind = 2 then
          some ((x, y) :: body.filterMap (fun q => match q.2 with | .sym a b => some (a, b) | .seg _ => none) ++ [(z, w)])
        else none
      | _ => none
  | _ => none

/-- AREAWR: the record's cells become those of the claimed application that lie in the hearth (log 61). -/
def execAreawr (c : Cond) (a b : SReg) (s : State) : Host.Outcome State Fault Refusal :=
  s.privGate c 1 [a, b] (onlyIn .restore [a, b] (fun ar k s =>
    let at_ := k.sreg a
    s.withRange ar k at_ 64 .read (fun ps s =>
      let x := ofLe (s.readPieces ps)
      let acnt := bits x 18 19
      let m := bits x 37 9
      let first := bits x 46 18
      let pos := bits (k.sreg b).toNat 0 40
      let bad := s.raise fltOperatorInvalid at_
      if bits x 186 6 ≠ ar.ctx || bits (k.sreg b).toNat 58 6 ≠ ar.ctx then bad
      else
        match appAt pos (s.items ar.ctx) with
        | none => bad
        | some app =>
          let cells := (List.range app.length).zip (app.map (fun p => Cell.start p.1))
          let mine := cells.filter (fun p => p.2.hid = k.hid)
          let op := match app with | _ :: y :: _ => bits y.2.value.toNat 0 12 | _ => 0
          let old := (s.userAreas ar.ctx).find? (fun p => p.2.pos = pos)
          let taken := (old.map (fun p => p.2.taken)).getD []
          if app.length ≠ acnt || op ≠ bits x 2 12 || mine.length ≠ m || (mine.head?.map (·.1)) ≠ some first ||
              mine.any (fun p => taken.contains p.1) then bad
          else
            s.withRange ar k at_ (64 + 1024 * m) .read (fun ps s =>
              let bs := s.readPieces ps
              let s := s.meetPieces k.hid ps
              let new (i : Nat) : Nat := ofLe ((bs.drop (64 + 1024 * (i - first))).take 1024)
              let fresh : Area := { Area.start ar.ctx .user pos (bits x 192 64) op cells 0 with
                phase := .suspended, left := bits x 14 4, consumed := bitOf x 0, brk := bitOf x 1 }
              let u := match old with | some p => p.1 | none => s.nextUid
              let base := match old with | some p => p.2 | none => fresh
              let t := { base with
                cells := base.cells.map (fun p => if p.2.hid = k.hid then (p.1, cellOfRecord p.2.phys (new p.1)) else p)
                taken := base.taken ++ mine.map (·.1) }
              ({ s.fresh with areas := s.areas.set u t } : State).finish k 1 id))))

end Sys2Proof.Machine
end

