-- ==== Sys2Proof/Machine/Lease.lean ====
section
/-!
DEFINITION. Test leases and thermal evacuations: their start, their stages, their ends, retirement, the scores and the
moves of payloads and channels (R124, R126, R197, R273, R289–R299, R302, R303, R313, R352, R359).
-/

namespace Sys2Proof.Machine

/-! Starting a lease (R290, R300). -/

/-- The units whose leases share a limit: the hearths of the device, the channels of a stack, the ports of a die, the groups of
a link (Table 17.2). -/
def limitGroup (u : Nat) : Nat :=
  match unitClass u with
  | 0 => 0
  | 1 => 1000 + unitIndex u / 64
  | 2 => 2000 + unitIndex u / 32
  | _ => 3000 + unitIndex u / 8

/-- A lease of the unit may run beside those that run. -/
def State.placeFree (s : State) (u : Nat) : Bool :=
  !s.leases.any (fun l => l.cause ≠ 3 && limitGroup l.unit = limitGroup u)

/-- The unit can be leased at all. -/
def State.leasable (s : State) (u : Nat) : Bool :=
  unitOk u && (s.unit u).health = .inService && !s.nospare u && !s.leases.any (fun l => l.unit = u && l.cause ≠ 3)

/-- Sweep number of a unit's partition, 0 for a lane group between partitions (Table 17.3). -/
def State.unitSweep (s : State) (u : Nat) : Nat :=
  match (unitDies u).map s.lead with
  | [] => 0
  | l :: r => if r.all (fun x => x = l) then (s.part l).sweep else 0

/-- The interleave slot of a stack that a channel serves; none for the spare. -/
def State.slotOfChan (s : State) (ch : Nat) : Option Nat := (List.range 63).find? (fun k => s.chan (ch / 64) k = ch)

/-- The stage at which a lease begins: a hearth that is out for heat and empty is tested at once (R296), and so is a lane
group or the spare channel. -/
def State.firstStage (s : State) (u : Nat) : LeaseStage :=
  match unitClass u with
  | 0 => if s.leases.any (fun l => l.unit = u && l.stage = .waitHeat) then .test false else .withdrawal
  | 1 => if (s.slotOfChan (unitIndex u)).isSome then .evacuation else .test false
  | 2 => .evacuation
  | _ => .test false

/-- A lease or a thermal evacuation begins: a capacity change (R304), with its control traffic. -/
def State.beginLease (s : State) (u cause pset : Nat) (stage : LeaseStage) : State :=
  let l : Lease := ⟨u, cause, pset, stage, (s.unit u).score, s.unitSweep u, s.ref, s.ref, 0, 0, 0, false, 0⟩
  ({ s with leases := s.leases ++ [l] }.capChange (if cause = 3 then 4 else 0) u).sendControl

/-- The unit's turn has come: a pending forced lease, an early one or one of the rota; it waits for a place where the
limit is reached, where an early lease of its class goes first, and where its hearth is being emptied for heat; a forced lease of a unit
that is under lease waits for the end of that one, and every turn for that of a cut (R290, R313, R345). -/
def State.takeTurn (s : State) (u : Nat) : State :=
  let x := s.unit u
  if !s.leasable u then
    if x.forced ≠ [] && s.leases.any (fun l => l.unit = u && l.cause ≠ 3) then s.modUnit u (fun x => { x with due := true }) else s
  else
    let early := x.early && !x.holdoff
    let ahead := s.units.any (fun p =>
      p.1 ≠ u && unitClass p.1 = unitClass u && p.2.early && !p.2.holdoff && s.leasable p.1 && s.placeFree p.1)
    let busy := s.leases.any (fun l => l.unit = u && l.stage ≠ .waitHeat)
    if !s.placeFree u || busy || (unitDies u).any s.quiesced || (ahead && !early && x.forced.isEmpty) then
      s.modUnit u (fun x => { x with due := true })
    else
      let (cause, pset) := match x.forced with | p :: _ => (2, p) | [] => (if early then 1 else 0, 0)
      let s := s.modUnit u (fun x => { x with
        due := decide (1 < x.forced.length)
        retry := false
        forced := x.forced.drop 1
        early := if cause = 1 then false else x.early
        holdoff := x.holdoff || cause = 1 })
      s.beginLease u cause pset (s.firstStage u)

/-- The unit of a class whose turn is next: units take it in increasing index, and those that cannot be leased are skipped (R290). -/
def State.nextTurnOf (s : State) (cls : Nat) : Option Nat :=
  let n := classSize cls
  ((List.range n).map (fun i => cls * 4096 + (s.rotaNext.get 0 cls + i) % n)).find? (fun u => s.leasable u)

/-- LEASE_ROTA_TURN (R290, R299): the next unit of its class takes its turn, or a unit whose early lease stands at the head of its
class (log 63). -/
def execLeaseRotaTurn (u : Nat) (s : State) : Host.Outcome State Fault Refusal :=
  .next (
    if s.stage ≠ 7 then s
    else if s.nextTurnOf (unitClass u) = some u then
      { s with rotaNext := s.rotaNext.put 0 (unitClass u) ((unitIndex u + 1) % classSize (unitClass u)) }.takeTurn u
    else if (s.unit u).early && !(s.unit u).holdoff then s.takeTurn u
    else s)

/-- The units whose turn waits for a place: early leases first, then forced ones, then by unit id (R290, R299, R313) (log 63). -/
def State.waitingTurns (s : State) : List Nat :=
  let us := s.units.filter (fun p => p.2.due || (p.2.early && !p.2.holdoff))
  let early := us.filter (fun p => p.2.early && !p.2.holdoff)
  let rest := us.filter (fun p => !(p.2.early && !p.2.holdoff))
  (early ++ rest.filter (fun p => !p.2.forced.isEmpty) ++ rest.filter (fun p => p.2.forced.isEmpty)).map (·.1)

/-- A place is free: the turns that waited for it start (R290, R296, R313). -/
def State.startDue (s : State) : State := s.waitingTurns.foldl (fun s u => s.takeTurn u) s

/-- LEASE_RETRY_TIMER (R295): one hour after an abandoned lease. -/
def execLeaseRetryTimer (u : Nat) (s : State) : Host.Outcome State Fault Refusal :=
  .next (if s.stage = 7 && (s.unit u).retry then s.takeTurn u else s)

/-- EARLY_LEASE_HOLDOFF_EXPIRY (R299): a pending early lease may start again. -/
def execEarlyLeaseHoldoffExpiry (u : Nat) (s : State) : Host.Outcome State Fault Refusal :=
  .next (s.modUnit u (fun x => { x with holdoff := false }))

/-! Ending a lease (R294, R297, R303). -/

/-- Microseconds of reference ticks. -/
def micros (t : Nat) : Nat := t / 3600

/-- Hours of the device since power-up (log 19). -/
def State.powerHours (s : State) : Nat := s.ref / (3600 * 3600000000)

/-- Appends a record to the lease log, which keeps 4,096 (Table 17.3). -/
def State.logLease (s : State) (l : Lease) (result : Nat) : State :=
  let pset := if l.cause = 3 then 0xFF else l.pset
  let e := packFields [(64, l.swp), (16, l.unit), (2, result), (2, l.cause), (4, 0), (8, pset), (16, l.sc0),
    (16, (s.unit l.unit).score), (32, micros (l.t1 - l.t0)), (32, l.ttest), (64, s.lseq + 1)]
  { s with
    lseq := s.lseq + 1
    leaseLog := (s.leaseLog ++ [BitVec.ofNat 256 e]).drop (s.leaseLog.length + 1 - 4096) }

/-- A record of the retirement store with its signature, as stored. -/
def signedRecord (r : BitVec 512) : List Byte :=
  leBytes 64 r.toNat ++ leBytes 1280 (Config.signature (leBytes 64 r.toNat)).toNat

/-- Writes a retirement record (Table 17.6); the store keeps 1,024 (log 19). -/
def State.storeRetirement (s : State) (l : Lease) : State :=
  if 1024 ≤ s.retireStore.length then { s with retireFull := true }
  else
    let chain := match s.retireStore.getLast? with | none => 0 | some r => ofLe (shake256 8 (signedRecord r))
    let e := packFields [(16, 1), (16, l.unit), (8, bit l.forced), (8, l.pset), (16, (s.unit l.unit).score), (64, l.swp),
      (32, s.powerHours), (32, s.lseq), (64, l.detail.toNat), (64, s.retireStore.length + 1), (64, Config.devid.toNat),
      (64, Config.fwver.toNat), (64, chain)]
    { s with retireStore := s.retireStore ++ [BitVec.ofNat 512 e] }

/-- A hearth is reset when it takes areas again after a test (R27, R68, R187, R268, R291, R332); its clock, its spill
point and its logical time stay (log 62). -/
def State.resetHearth (s : State) (h : Nat) : State :=
  s.modHearth h (fun x => { Hearth.reset with
    pclk := x.pclk
    jclk := x.jclk
    asked := x.asked
    clock := x.clock
    spill := x.spill
    clockRef := s.ref
    clk := x.clk
    sweepBase := (s.part (s.leadOf h)).sweep })

/-- A unit is back in service after its test: a hearth starts clean, a channel becomes the spare of its stack (R195). -/
def State.returnUnit (s : State) (u : Nat) : State :=
  match unitClass u with
  | 0 => s.resetHearth (unitIndex u)
  | 1 => { s with spare := s.spare.set (unitIndex u / 64) (unitIndex u % 64), slices := s.slices.erase (unitIndex u) }
  | _ => s

/-- Removes a unit's leases of a kind. -/
def State.dropLease (s : State) (u : Nat) (heat : Bool) : State :=
  { s with leases := s.leases.filter (fun l => !(l.unit = u && (l.cause = 3) = heat)) }

/-- A tested unit returns, with `result` 0 or 1; one that is out for heat waits for its clearance (R296). -/
def State.endLease (s : State) (l : Lease) (result : Nat) : State :=
  if (s.unit l.unit).hot then
    { s with leases := s.leases.map (fun m =>
        if m.unit = l.unit && m.cause ≠ 3 then { l with stage := .waitHeat, result := result } else m) }
  else
    ((((s.logLease l result).dropLease l.unit false).returnUnit l.unit).capChange (1 + result) l.unit).startDue

/-- A unit is retired for good (R302): its record is written before the capacity change. -/
def State.retire (s : State) (l : Lease) : State :=
  let u := l.unit
  -- a thermal evacuation that joined the lease ends with it (R296, R297) (log 63)
  let s := match s.leases.find? (fun m => m.unit = u && m.cause = 3) with
    | some m => (s.logLease m 2).capChange 5 u
    | none => s
  let s := ((s.logLease l 2).storeRetirement l).modUnit u (fun x => { x with
    health := .retired, early := false, due := false, retry := false, forced := [], hot := false })
  let s : State := { s with leases := s.leases.filter (fun m => m.unit ≠ u) }
  let s : State := if unitClass u = 1 then { s with spare := s.spare.set (unitIndex u / 64) 64 } else s
  (s.capChange 3 u).startDue

/-- LEASE_TEST_COMPLETE (R294): a run of the pattern set ends; a failure that INJECT_FAULT forces counts as a real one. -/
def execLeaseTestComplete (u : Nat) (run : TestRun) (s : State) : Host.Outcome State Fault Refusal :=
  .next (
    match s.leases.find? (fun l => l.unit = u && l.cause ≠ 3) with
    | none => s
    | some l =>
      match l.stage with
      | .test second =>
        let forced := decide (0 < (s.unit u).inject)
        let s := if forced then s.modUnit u (fun x => { x with inject := x.inject - 1 }) else s
        let l := { l with ttest := l.ttest + run.micros }
        if forced || !run.nominal then
          let s := s.score u 2048
          let l := { l with forced := forced, detail := if forced then 0xFFFF000000000000 else run.detail }
          if second || 4096 ≤ (s.unit u).score then s.retire l
          else
            { s with leases := s.leases.map (fun m => if m.unit = u && m.cause ≠ 3 then { l with stage := .test true } else m) }
        else if second then s.endLease l 1
        else if run.outer then (s.modUnit u (fun x => { x with score := x.score / 2 })).endLease l 0
        else (s.score u 128).endLease l 1
      | _ => s)

/-! Hearths: evacuation. -/

/-- No area waits for the end of the evacuation of a hearth any longer (R17). -/
def State.endEvac (s : State) (h : Nat) : State :=
  { s with areas := s.areas.map (fun p => (p.1, { p.2 with evac := p.2.evac.filter (fun g => g ≠ h) })) }

/-- The evacuation of a hearth is abandoned (R123, R273, R295): areas resume in place. -/
def State.abandon (s : State) (h : Nat) : State :=
  let u := hearthUnit h
  let ls := s.leases.filter (fun l => l.unit = u && (l.stage = .withdrawal || l.stage = .evacuation))
  let s := ls.foldl (fun s l => s.logLease { l with t1 := s.ref } 3) s
  let s := s.modUnit u (fun x => { x with retry := x.retry || ls.any (fun l => l.cause ≠ 3), hot := false })
  let s : State := { s with leases := s.leases.filter (fun l => !(l.unit = u && (l.stage = .withdrawal || l.stage = .evacuation))) }
  (((ls.foldl (fun s _ => s.capChange 6 u) s).endEvac h).startAreas).startDue

/-- The hearth's units still hold something of a context. -/
def State.holdsSomething (s : State) (h : Nat) : Bool :=
  s.row.any (fun p => hidOf p.1 = h && p.2.kind ≠ 0) || s.slots.any (fun p => p.2.hid = h) ||
    s.queues.any (fun q => q.1 / 4 = h && q.2 ≠ []) || s.pops.any (fun p => p.2.members.contains h) ||
    s.events.any (fun e => e.hid = h) || s.subs.any (fun p => p.2.hid = h) || s.shadowCells.any (fun p => hidOf p = h) ||
    s.areas.any (fun p => p.2.kind.supervisor && p.2.cells.any (fun q => q.2.hid = h))

/-- EVACUATION_COMPLETE (R291): the hearth holds nothing of any context; suspended areas go on, and the test begins or the
hearth is out for heat. -/
def execEvacuationComplete (h : Nat) (s : State) : Host.Outcome State Fault Refusal :=
  .next (
    let u := hearthUnit h
    if !s.leases.any (fun l => l.unit = u && l.stage = .evacuation) || s.holdsSomething h then s
    else
      let s : State := { s with leases := s.leases.map (fun l =>
        if l.unit = u && l.stage = .evacuation then
          { l with t1 := s.ref, stage := if l.cause = 3 then .waitHeat else .test false }
        else l) }
      (s.endEvac h).startAreas.startDue)

/-- HEARTH_OVER_110C (R296, R352): a thermal evacuation begins, or joins a lease (log 63). -/
def execHearthOver110c (h : Nat) (s : State) : Host.Outcome State Fault Refusal :=
  .next (
    let u := hearthUnit h
    if s.stage ≠ 7 || 1024 ≤ h || (s.unit u).health = .retired || (s.unit u).hot then s
    else
      let stage : LeaseStage :=
        match s.leases.find? (fun l => l.unit = u) with
        | some l => (match l.stage with | .withdrawal => .withdrawal | .evacuation => .evacuation | _ => .waitHeat)
        | none => .withdrawal
      (s.modUnit u (fun x => { x with hot := true })).beginLease u 3 0xFF stage)

/-- THERMAL_CLEARANCE (R352): an empty hearth that was out for heat returns; a lease that its clearance delayed ends too. -/
def execThermalClearance (h : Nat) (s : State) : Host.Outcome State Fault Refusal :=
  .next (
    let u := hearthUnit h
    match s.leases.find? (fun l => l.unit = u && l.cause = 3 && l.stage = .waitHeat) with
    | none => s
    | some l =>
      let s := s.modUnit u (fun x => { x with hot := false })
      let s := ((s.logLease l 0).dropLease u true).capChange 5 u
      match s.leases.find? (fun m => m.unit = u && m.stage = .waitHeat) with
      | some m => s.endLease m m.result
      | none => s.startDue)

/-! Slots on the move (R124, R126). -/

/-- The first resident TILE symbol of a context that names a handle, with its cell. -/
def State.carrier (s : State) (ctx handle : Nat) : Option Nat :=
  ((s.run ctx).find? (fun p => p.2.kind = 8 && bits p.2.value.toNat 0 20 = handle)).map (·.1)

/-- A context's symbol in transit at a cell, or no longer. -/
def State.setTransit (s : State) (phys : Nat) (b : Bool) : State := s.setSym phys { s.sym phys with transit := b }

/-- The payload of a handle lies with its first symbol. -/
def State.atHome (s : State) (ctx handle : Nat) : Bool :=
  match s.slots.find (slotKey 0 ctx handle), s.carrier ctx handle with
  | some x, some p => x.moving.isNone && x.hid = hidOf p
  | _, _ => false

/-- The payload of a handle has come to hearth `h`: its symbols are in transit no longer, but for a first one that has moved on (R124). -/
def State.arrive (s : State) (ctx handle h : Nat) : State :=
  let first := s.carrier ctx handle
  ((s.run ctx).filter (fun p => p.2.kind = 8 && bits p.2.value.toNat 0 20 = handle && p.2.transit)).foldl (fun s p =>
    if first = some p.1 && hidOf p.1 ≠ h then s else s.setTransit p.1 false) s

/-- Sends the payload of each first TILE symbol of a context after its symbol (R124); a symbol that is not the first is in transit no
longer once the payload lies with the first. -/
def State.followTiles (s : State) (ctx : Nat) : State :=
  let ts := (s.run ctx).filter (fun p => p.2.kind = 8)
  (ts.foldl (fun (acc : State × List Nat) p =>
    let (s, seen) := acc
    let h := bits p.2.value.toNat 0 20
    let key := slotKey 0 ctx h
    if seen.contains h then (if p.2.transit && s.atHome ctx h then (s.setTransit p.1 false, seen) else acc)
    else
      match s.slots.find key with
      | none => (s, h :: seen)
      | some x =>
        let g := hidOf p.1
        if x.dying then (s, h :: seen)
        else if x.hid = g && x.moving.isNone then ((if p.2.transit then s.setTransit p.1 false else s), h :: seen)
        else ((s.setTransit p.1 true).startMove key g, h :: seen)) (s, [])).1

/-- The slots of a hearth that follow no symbol. -/
def State.looseSlots (s : State) (h : Nat) : List (Nat × Slot) :=
  s.slots.filter (fun p => p.2.hid = h && p.2.moving.isNone && !p.2.dying && p.1 / 2 ^ 26 = 0 &&
    (s.carrier (p.1 / 2 ^ 20) (p.1 % 2 ^ 20)).isNone)

/-- Hearths above `h` in its partition, wrapping, nearest first. -/
def State.above (s : State) (h : Nat) : List Nat :=
  let hs := s.partHearths (s.leadOf h)
  hs.filter (fun g => h < g) ++ hs.filter (fun g => g < h)

/-- A pending event of hearth `h` is bound for hearth `g` from now on: one that had arrived takes its place there, and one that finds no
room waits at its mailbox slice (R273, R278). -/
def State.moveEvent (s : State) (h g : Nat) (e : Ev) : State :=
  let put (p : Place) : State := { s with events := s.events.map (fun x => if x.id = e.id then { x with hid := g, place := p } else x) }
  match e.place with
  | .sender => put .sender
  | .mesh => put .mesh
  | _ => (match s.room g with | some p => put p | none => (put .mesh).send clsEvent h g (.event e.id))

/-- Moves events of a hearth. -/
def State.moveEvents (s : State) (h g : Nat) (which : Ev → Bool) : State :=
  (s.events.filter (fun e => e.hid = h && which e)).foldl (fun s e => s.moveEvent h g e) s

/-- Moves the entries and events of a hearth's populations, and then the events for populations that are bound no longer (R273); none
when no hearth has room for one of them (log 78). -/
def State.moveBanks (s : State) (h : Nat) : Option State :=
  let moved := s.pops.foldl (fun acc p =>
    match acc with
    | none => none
    | some s =>
      let n := (p.2.members.filter (fun m => m = h)).length
      if n = 0 then some s
      else
        match s.bankFor s.entriesUsed h (n * p.2.allot) with
        | none => none
        | some g =>
          let s : State := { s with pops := s.pops.upd p.1 (fun x => { x with members := x.members.map (fun m => if m = h then g else m) }) }
          some (s.moveEvents h g (fun e => popKey e.ctx e.pop = p.1))) (some s)
  match moved with
  | none => none
  | some s =>
    if s.events.any (fun e => e.hid = h) then (s.bankFor s.entriesUsed h 0).map (fun g => s.moveEvents h g (fun _ => true)) else some s

/-- The subscriptions of an evacuating hearth that have no slot left there are the successor's, or that of the hearth to which their
slots went (R126). -/
def State.rebind (s : State) (h : Nat) : State :=
  let next := ((s.above h).find? (fun g => s.inService (hearthUnit g) && !s.withdrawn g)).getD h
  { s with subs := s.subs.map (fun p =>
      if p.2.hid ≠ h then p
      else
        let hs := p.2.handles.filterMap (fun g => (s.slots.find (slotKey 0 p.2.ctx g)).map (·.hid))
        if hs.contains h then p else (p.1, { p.2 with hid := hs.head?.getD next })) }

/-- An evacuating hearth sends away the slots that follow no symbol, to its successor (R126), and its banks; without a
successor or a bank the evacuation is abandoned. Shadow slots have gone with their areas. -/
def State.emptyHearth (s : State) (h : Nat) : State :=
  let ls := s.looseSlots h
  let away : Option State :=
    if ls.isEmpty then some s
    else (s.above h).findSome? (fun g =>
      if s.inService (hearthUnit g) && !s.withdrawn g then s.sendSlots g true (ls.map (·.1)) else none)
  match away with
  | none => s.abandon h
  | some t =>
    match t.moveBanks h with
    | none => s.abandon h
    | some t => t.rebind h

/-- TILE_MIGRATION_COMPLETE (R124): once the commands that waited for the old slot are done, the payload lands with its tags, poison,
layout and what its barrier words release, and its symbols' transit bits clear; a subscription whose slots have all arrived is rebound. -/
def execTileMigrationComplete (ctx handle : Nat) (s : State) : Host.Outcome State Fault Refusal :=
  .next (
    let key := slotKey 0 ctx handle
    match s.slots.find key with
    | none => s
    | some x =>
      match x.moving with
      | none => s
      | some m =>
        let waits := s.queues.any (fun q => q.1 / 4 = x.hid && q.2.any (fun c => decide (c.id < m.mark) && c.names.contains key))
        let landing := s.subs.any (fun p => p.2.ctx = ctx && p.2.push.any (fun q =>
          decide (0 < q.2.landed) && p.2.ring.getD q.1 nullHandle = handle))
        if waits || landing then s
        else
          let y : Slot := { x with hid := m.hid, unit := m.unit, moving := none, displaced := m.displaced }
          let s := ((s.copyTile x.base y.base x.size).moveReleases x.base y.base x.size).meet m.hid (s.now x.hid)
          let s : State := ({ s with slots := s.slots.set key y } : State).arrive ctx handle m.hid
          let s : State := { s with subs := s.subs.map (fun p =>
            if p.2.ctx = ctx && p.2.handles.contains handle && p.2.handles.all (fun g =>
                match s.slots.find (slotKey 0 ctx g) with | some z => z.hid = m.hid && z.moving.isNone | none => true) then
              (p.1, { p.2 with hid := m.hid })
            else p) }
          s.reclaim)

/-! Channels, ports and groups (R197, R292, R293). -/

/-- Granules of a pseudo-channel. -/
def granulesPerChannel : Nat := 1572864

/-- The lines of a granule leave the slice of a channel, which writes the dirty ones back (R197). -/
def State.cleanGranule (s : State) (ch n : Nat) : State :=
  let stays (line : Nat) : Bool := (s.homeOf (64 * line)).granule ≠ n
  s.modSlice ch (fun x => { x with lines := x.lines.filter (fun y => stays y.line), staged := x.staged.filter (fun y => stays y.1) })

/-- GRANULE_MIGRATION (R197): one more granule of the stack's leased channel is in the spare; with the last one the
channel's slot names the spare, and the test begins. Addresses name bytes, so no byte changes. -/
def execGranuleMigration (stack : Nat) (s : State) : Host.Outcome State Fault Refusal :=
  .next (
    match s.leases.find? (fun l => unitClass l.unit = 1 && unitIndex l.unit / 64 = stack && l.stage = .evacuation) with
    | none => s
    | some l =>
      let n := l.granules + 1
      let s := s.cleanGranule (unitIndex l.unit) l.granules
      let upd (s : State) (f : Lease → Lease) : State :=
        { s with leases := s.leases.map (fun m => if m.unit = l.unit then f m else m) }
      if n < granulesPerChannel then upd s (fun m => { m with granules := n })
      else
        let s : State :=
          match s.slotOfChan (unitIndex l.unit) with
          | some k => { s with chanMap := s.chanMap.set (stack * 64 + k) (stack * 64 + s.spareOf stack) }
          | none => s
        upd s (fun m => { m with granules := n, t1 := s.ref, stage := .test false }))

/-- PORT_DRAIN_COMPLETE (R293): what the port has accepted is acknowledged, and its traffic, with what moved to it before, goes on
through the lowest in-service port of its die that reaches the same peer; where none does it waits for the port (log 16). -/
def execPortDrainComplete (u : Nat) (s : State) : Host.Outcome State Fault Refusal :=
  .next (
    if unitClass u = 2 && s.leases.any (fun l => l.unit = u && l.stage = .evacuation) && !s.portBusy (unitIndex u) then
      let dest := match (unitPeers u).find? (fun v => s.inService v && Config.portPeer (unitIndex v) = Config.portPeer (unitIndex u)) with
        | some v => unitIndex v
        | none => unitIndex u
      let moved : Tab Nat := s.portTo.map (fun p => (p.1, if p.2 = unitIndex u then dest else p.2))
      { s with
        portTo := (moved.set (unitIndex u) dest).filter (fun p => p.1 ≠ p.2)
        leases := s.leases.map (fun l => if l.unit = u then { l with t1 := s.ref, stage := .test false } else l) }
    else s)

/-- PORT_TRAFFIC_RETURN (R293): traffic moves back to a port that has returned, by the same drain. -/
def execPortTrafficReturn (u : Nat) (s : State) : Host.Outcome State Fault Refusal :=
  .next (
    if unitClass u = 2 && s.inService u && !s.portBusy (s.portTo.get (unitIndex u) (unitIndex u)) then
      { s with portTo := s.portTo.erase (unitIndex u) }
    else s)

/-- LINK_RETUNE (R354): timing only; a lane group under lease is not retuned (log 48). -/
def execLinkRetune (_u : Nat) (s : State) : Host.Outcome State Fault Refusal := .next s

/-- LINK_RETRY (R298). -/
def execLinkRetry (u : Nat) (s : State) : Host.Outcome State Fault Refusal :=
  .next (if unitOk u && 2 ≤ unitClass u then s.score u 1 else s)

/-! Scores (R299). -/

/-- SCORE_HALVING (R299): at a whole 24 hours every score halves and is saved. -/
def execScoreHalving (s : State) : Host.Outcome State Fault Refusal :=
  .next (
    if (s.halvings + 1) * dayTicks ≤ s.ref then
      s.halve 1
    else s)

/-- ORDERLY_SHUTDOWN (R299): the scores are saved. -/
def execOrderlyShutdown (s : State) : Host.Outcome State Fault Refusal :=
  .next { s with savedScores := (s.units.map (fun p => (p.1, p.2.score))).filter (fun p => p.2 ≠ 0) }

end Sys2Proof.Machine
end

