-- ==== Sys2Proof/Machine/Sweep.lean ====
section
/-!
DEFINITION. The sweep: depths and claims, the move pass with compaction, growth, insertions, restores, sweep-out and
sweep-in, the horizon, the loads that a sweep's end begins, and what is counted then (R12–R15, R119, R121–R131, R280, R291,
R313, R326, R327, R358).
-/

namespace Sys2Proof.Machine

/-! The prefix pass (R13). -/

/-- A depth as a bracket's value. -/
def depthValue (d : Int) : Word := BitVec.ofNat 64 (d.toNat % 2 ^ 40)

/-- Writes the depths of a run's resident brackets. -/
def State.writeDepths (s : State) : Int → List (Nat × Item) → State
  | _, [] => s
  | d, (_, .seg g) :: r => s.writeDepths (d + g.net) r
  | d, (_, .sym p y) :: r =>
    if isOpen y then (s.setSym p { y with value := depthValue d }).writeDepths (d + 1) r
    else if isClose y then (s.setSym p { y with value := depthValue (d - 1) }).writeDepths (d - 1) r
    else s.writeDepths d r

/-- An application that the first-true pass finds: its position, its resident cells, the segments among them. -/
structure Found where
  pos : Nat
  cells : List (Nat × Sym)
  segs : List Seg
deriving DecidableEq, Repr

/-- The items behind a `(` up to the next bracket of an application: closed when that is a `)`. -/
def toClose : List (Nat × Item) → List (Nat × Sym) → List Seg → Option (List (Nat × Sym) × List Seg)
  | [], _, _ => none
  | (_, .seg g) :: r, cs, gs => toClose r cs (gs ++ [g])
  | (_, .sym p y) :: r, cs, gs =>
    if y.kind = 1 then none
    else if y.kind = 2 then some (cs ++ [(p, y)], gs)
    else toClose r (cs ++ [(p, y)]) gs

/-- Every application of a run that no resident `(` makes outer, in order. -/
def innermost : List (Nat × Item) → List Found
  | [] => []
  | (_, .seg _) :: r => innermost r
  | (n, .sym p y) :: r =>
    if y.kind = 1 then
      match toClose r [(p, y)] [] with
      | some (cs, gs) => ⟨n, cs, gs⟩ :: innermost r
      | none => innermost r
    else innermost r

/-- A cell belongs to an area. While an area drains after its commit, this holds of its own cells and not of the cells that its growth
filled: an application whose `(` stands there is found before the area retires, one whose `(` stands in the area's own cells not until
then; R13, R14 and R21 leave it open (the model's choice, log 90). -/
def State.claimed (s : State) (phys : Nat) : Bool :=
  s.areas.any (fun p => p.2.kind = .user && p.2.cells.any (fun q => q.2.phys = phys))

/-- Claims an application: the area is found (R13, R15); a notifier that the device inserted is outstanding no longer. -/
def State.claim (s : State) (c : Nat) (f : Found) : State :=
  let cells := (List.range f.cells.length).zip (f.cells.map (fun p => Cell.start p.1))
  let op := match f.cells with | _ :: y :: _ => bits y.2.value.toNat 0 12 | _ => 0
  let a := Area.start c .user f.pos (s.ctxSweep c) op cells (s.ctxSweep c)
  let first := match f.cells with | p :: _ => p.1 | [] => 0
  let s : State := { s.fresh with areas := s.areas.set s.nextUid a }
  let s := s.modCtx c (fun x =>
    if x.noteAt.contains first then { x with notes := x.notes - 1, noteAt := x.noteAt.filter (fun p => p ≠ first) } else x)
  let n := match s.ctx c with | some x => (s.part x.part).sweep | none => 0
  let s := match s.ctx c with | some x => s.meetArea a (s.part x.part).reached | none => s
  a.hids.foldl (fun s h => s.modHearth h (fun x => { x with activity := x.activity.set c n })) s

/-- The items behind a `(` up to the `)` that closes it, as a count of cells: also where that `)` is swept out; none when another `(`
comes first. -/
def State.appSize (s : State) : List (Nat × Item) → Nat → Option Nat
  | [], _ => none
  | (_, .sym _ y) :: r, n => if y.kind = 1 then none else if y.kind = 2 then some (n + 1) else s.appSize r (n + 1)
  | (_, .seg g) :: r, n =>
    if !g.hasopen && !g.hasclose then s.appSize r (n + g.count)
    else
      let ys := ((s.loadSegment g).map (·.1)).getD []
      match (ys.dropWhile (fun y => y.kind ≠ 1 && y.kind ≠ 2)).head? with
      | some y => if y.kind = 2 then some (n + (ys.takeWhile (fun y => y.kind ≠ 2)).length + 1) else none
      | none => none

/-- An innermost application of the list that holds more cells than `lim` and is not claimed (R14). -/
def State.tooLarge (s : State) (lim : Nat) : List (Nat × Item) → Option Nat
  | [] => none
  | (_, .seg _) :: r => s.tooLarge lim r
  | (n, .sym p y) :: r =>
    if y.kind = 1 && !s.claimed p && ((s.appSize r 1).map (fun k => decide (lim < k))).getD false then some n else s.tooLarge lim r

/-- Looks at one application: to be claimed, or with segments to be brought in. -/
def State.consider (s : State) (c : Nat) (f : Found) : State :=
  match s.ctx c, f.cells with
  | some x, (p, _) :: _ =>
    if s.claimed p then s
    else if f.segs.isEmpty then
      (if !x.claims || f.cells.any (fun q => s.withdrawn (hidOf q.1)) then s else s.claim c f)
    else
      s.modPart x.part (fun q => { q with dir := q.dir.map (fun g =>
        if g.ctx = c && f.segs.any (fun k => k.lpos = g.lpos) then { g with wanted := true } else g) })
  | _, _ => s

/-- The prefix and first-true passes of a context. -/
def State.discover (s : State) (c : Nat) : State :=
  let l := s.items c
  let lim := 65536 * (match s.ctx c with | some x => (s.part x.part).dies | none => 0)
  let s := s.writeDepths 0 l
  match if ((s.ctx c).map Ctx.claims).getD false && lim < l.length + ((s.segsOf c).map (·.count)).sum then s.tooLarge lim l else none with
  | some n => s.fatal c fltAreaTooLarge (areaAddr c n) 0 0
  | none => (innermost l).foldl (fun s f => s.consider c f) s

/-! The move pass (R121–R123). -/

/-- What the move pass places: a free symbol of the row, a placeholder of an area that grows, a symbol of an insertion or of a
restore, a segment, or a symbol of an admitted one. -/
inductive Thing where
  | cell (phys : Nat) (y : Sym) (lpos : Nat) (keep : Bool)
  | growth (u : Nat)
  | ins (k i : Nat) (y : Sym)
  | rest (k : Nat) (r : Restore)
  | seg (g : Seg)
  | loaded (y : Sym) (note : Bool)
deriving DecidableEq, Repr

/-- A thing with its gap, the hearth in which it counts, and its context. -/
structure Tok where
  gap : Nat
  home : Nat
  ctx : Nat
  thing : Thing
deriving DecidableEq, Repr

/-- The fixed cells of a partition: pinned, in hearths that are not evacuating, of areas found before this sweep. -/
def State.pins (s : State) (l : Nat) : List Nat :=
  let ps := s.areas.flatMap (fun p =>
    if p.2.kind ≠ .user || (p.2.phase = .found && p.2.stamp = s.ctxSweep p.2.ctx) then []
    else p.2.cells.filterMap (fun q => if s.evacuating q.2.hid || s.leadOf q.2.hid ≠ l then none else some q.2.phys))
  sortBy (fun x y => decide (x < y)) ps

/-- The gap in which a free cell lies, and the one that begins behind a fixed cell. -/
def gapOf (pins : List Nat) (p : Nat) : Nat := (pins.filter (fun q => q ≤ p)).length

/-- The bounds of a gap: its first cell, and the first cell behind it. -/
def gapBounds (base top : Nat) (pins : List Nat) (i : Nat) : Nat × Nat :=
  ((if i = 0 then base else pins.getD (i - 1) base + 1), pins.getD i top)

/-- The waiting insertions and restores of a partition, by their place in the lists. -/
structure Waiting where
  ins : List (Nat × Insertion)
  rest : List (Nat × Restore)
deriving DecidableEq, Repr

/-- Restored symbols and items of a run by position. -/
def mergeRest : List (Nat × Item) → List (Nat × Restore) → List (Nat × (Item ⊕ (Nat × Restore)))
  | l, rs =>
    let all := l.map (fun p => (p.1, (Sum.inl p.2 : Item ⊕ (Nat × Restore)))) ++ rs.map (fun r => (r.2.pos, Sum.inr r))
    sortBy (fun x y => decide (x.1 < y.1)) all

/-- The things of a context behind its MARK at `mark`, in expression order; the pair is the gap and the hearth where the walk
stands. A segment counts in the hearth of the item before it, and so do its symbols once it is admitted: the manual does not say where
they count for want (the model's choice, log 91). -/
def State.runToks (s : State) (c : Nat) (pins : List Nat) (fresh : List Nat) :
    Nat × Nat → List (Nat × (Item ⊕ (Nat × Restore))) → List Tok
  | _, [] => []
  | (g, h), (_, .inr (k, r)) :: rest => ⟨g, r.hid, c, .rest k r⟩ :: s.runToks c pins fresh (g, h) rest
  | (i, h), (_, .inl (.seg g)) :: rest => ⟨i, h, c, .seg g⟩ :: s.runToks c pins fresh (i, h) rest
  | _, (n, .inl (.sym p y)) :: rest =>
    let here := (gapOf pins p, hidOf p)
    if pins.contains p then
      let grows := s.areas.filterMap (fun a =>
        if 0 < a.2.growth && (a.2.cells.getLast?.map (fun q => q.2.phys)) = some p then some (a.1, a.2.growth) else none)
      grows.flatMap (fun g => List.replicate g.2 ⟨here.1, here.2, c, .growth g.1⟩) ++ s.runToks c pins fresh here rest
    else ⟨here.1, here.2, c, .cell p y n (fresh.contains p)⟩ :: s.runToks c pins fresh here rest

/-- The things of a partition, gap by gap in row order. -/
def State.partToks (s : State) (l : Nat) (pins : List Nat) (w : Waiting) : List Tok :=
  let fresh := s.areas.flatMap (fun p => if p.2.kind = .user then p.2.cells.map (fun q => q.2.phys) else [])
  let marks := (s.rowOf l).filter (fun p => p.2.kind = 11)
  marks.flatMap (fun m =>
    let c := m.2.value.toNat
    let here := (gapOf pins m.1, hidOf m.1)
    let ins := (w.ins.filter (fun p => p.2.ctx = c)).reverse
    ⟨here.1, here.2, c, .cell m.1 m.2 0 true⟩ ::
      ins.flatMap (fun p => ((List.range p.2.syms.length).zip p.2.syms).map (fun q => ⟨here.1, here.2, c, .ins p.1 q.1 q.2⟩)) ++
      s.runToks c pins fresh here (mergeRest (s.items c) (w.rest.filter (fun r => r.2.ctx = c))))

/-- The usable cells of a hearth within bounds (log 31). -/
def State.gapCells (s : State) (lo hi h : Nat) : List Nat :=
  if s.usable h then
    let sh := s.shadowCells
    ((List.range 256).map (fun i => h * 256 + i)).filter (fun p => lo ≤ p && p < hi && !sh.contains p)
  else []

/-- The hearths that meet a gap. -/
def gapHearths (lo hi : Nat) : List Nat :=
  if hi ≤ lo then [] else (List.range (hidOf (hi - 1) + 1 - hidOf lo)).map (fun i => i + hidOf lo)

/-- What each hearth keeps, upward: items that it holds and cells that it has; and the carry (R122). -/
def keepUp : List (Nat × Nat) → Nat → List Nat × Nat
  | [], c => ([], c)
  | (w, n) :: r, c =>
    let k := min (c + w) n
    let (ks, d) := keepUp r (c + w - k)
    (k :: ks, d)

/-- The second pass, downward over (kept, cells) from the last hearth. -/
def keepDown : List (Nat × Nat) → Nat → List Nat
  | [], _ => []
  | (k, n) :: r, c => let t := min c (n - k); (k + t) :: keepDown r (c - t)

/-- The cells that the things of a gap take, in order. Placeholders whose left bound is the last cell of its hearth count in the
gap's first hearth (R122), and a restored symbol whose hearth lies beyond the gap in the nearest one of the gap (log 59). -/
def State.gapPlaces (s : State) (lo hi : Nat) (homes : List Nat) : List Nat :=
  let hs := gapHearths lo hi
  let cells := hs.map (fun h => s.gapCells lo hi h)
  let ns := cells.map List.length
  let ws := hs.map (fun h => (homes.filter (fun g => min (max g (hidOf lo)) (hidOf (hi - 1)) = h)).length)
  let (ks, c) := keepUp (ws.zip ns) 0
  let ks := (keepDown (ks.zip ns).reverse c).reverse
  (cells.zip ks).flatMap (fun p => p.1.take p.2)

/-- The number of usable cells of a gap. -/
def State.gapSize (s : State) (lo hi : Nat) : Nat :=
  (gapHearths lo hi).foldl (fun n h => n + (s.gapCells lo hi h).length) 0

/-! Segments going out (R123, R127, R128). -/

/-- A segment record (Table 6.6). -/
def segRecord (g : Seg) (swp : Nat) (l : List Sym) : List Byte :=
  leBytes 64 (packFields [(16, 1), (6, g.ctx), (1, 1), (9, 0), (9, g.count), (23, 0), (40, g.wrote), (24, 0), (64, swp),
    (16, wrap 16 g.net), (16, wrap 16 g.low), (1, bit g.hasopen), (1, bit g.hasclose)]) ++ l.flatMap (fun y => leBytes 9 y.code)

/-- Writes symbols, with the offsets of the `(` of notifiers among them, into record `r` and enters them in the directory. The record's
outswp is the sweep number of the partition, for R7 does not name it among what counts by the context: the model's choice (log 95). -/
def State.putSegment (s : State) (l c lpos r : Nat) (ys : List Sym) (notes : List Nat) : State :=
  match s.launch c with
  | none => s
  | some x =>
    let (net, low) := depths ys
    let g : Seg := ⟨c, lpos, ys.length, net, low, ys.any (fun y => y.kind = 1), ys.any (fun y => y.kind = 2), r, lpos, false, notes⟩
    let s :=
      match s.storeVirt c (x.recAddr r) (segRecord g (s.part l).sweep ys) with
      | .ok (s, _) => s
      | .error _ => s
    s.modPart l (fun p => { p with dir := p.dir ++ [g] })

/-- The symbols that SweepOut may take, the first to go first: runs by the oldest activity stamp, ties to the higher hearth,
each from its end (R123). A MARK and the cells of areas stay (log 27). -/
def State.victims (s : State) (ts : List Tok) : List (Nat × Nat × Nat × Sym) :=
  let free := ts.filterMap (fun t => match t.thing with | .cell p y n false => some (t.home, t.ctx, p, n, y) | _ => none)
  let runs := (free.map (fun x => (x.1, x.2.1))).eraseDups
  let stamp (r : Nat × Nat) : Nat := (s.hearth r.1).activity.get 0 r.2
  let order := sortBy (fun x y => decide (stamp x < stamp y || (stamp x = stamp y && y.1 < x.1))) runs
  order.flatMap (fun r => ((free.filter (fun x => (x.1, x.2.1) = r)).reverse).map (fun x => (x.2.1, x.2.2.1, x.2.2.2.1, x.2.2.2.2)))

/-- Splits taken symbols, in the order in which they are taken, into runs of consecutive positions of at most 448, each written
from its lowest position on. -/
def chunks (vs : List (Nat × Nat × Nat × Sym)) : List (List (Nat × Nat × Nat × Sym)) :=
  vs.foldl (fun ls x =>
    match ls.getLast? with
    | some (y :: l) =>
      if x.1 = y.1 && x.2.2.1 + 1 = y.2.2.1 && l.length < 447 then ls.dropLast ++ [x :: y :: l] else ls ++ [[x]]
    | _ => ls ++ [[x]]) []

/-- The offsets of the outstanding notifiers' `(` among cells of a context. -/
def State.notesIn (s : State) (c : Nat) (cells : List Nat) : List Nat :=
  let at_ := ((s.ctx c).map (·.noteAt)).getD []
  ((List.range cells.length).zip cells).filterMap (fun q => if at_.contains q.2 then some q.1 else none)

/-- Sweeps chunks out, with the records that insertions have reserved left alone (`resv`: their contexts); the cells that left, and how
many symbols found no record. -/
def State.sweepChunks (s : State) (l : Nat) (resv : List Nat) : List (List (Nat × Nat × Nat × Sym)) → State × List Nat × Nat
  | [] => (s, [], 0)
  | k :: r =>
    match k with
    | [] => s.sweepChunks l resv r
    | (c, _, n, _) :: _ =>
      let got : Option (Nat × State) :=
        match s.ctx c, s.launch c with
        | some x, some b =>
          if 65536 ≤ s.dirUsed l + resv.length || x.part ≠ l || !s.recsFree c (1 + resv.count c) then none else s.allocRec c b b.records x.cursor
        | _, _ => none
      match got with
      | none =>
        let (s, gone, miss) := s.sweepChunks l resv r
        (s, gone, miss + k.length)
      | some (i, t) =>
        let (s, gone, miss) :=
          (t.putSegment l c n i (k.map (fun x => x.2.2.2)) (t.notesIn c (k.map (fun x => x.2.1)))).sweepChunks l resv r
        (s, k.map (fun x => x.2.1) ++ gone, miss)

/-- A placeholder: a cell of a growth or of an insertion. -/
def Tok.slot (t : Tok) : Bool := match t.thing with | .growth _ => true | .ins _ _ _ => true | _ => false

/-- Frees `k` cells of a gap's things (R123): the things that stay, those of the tail of its placeholders that are left to their own
records, and how many cells are still lacking (log 27). -/
def State.sweepOut (s : State) (l k : Nat) (resv : List Nat) (ts : List Tok) : State × List Tok × List Tok × Nat :=
  if k = 0 then (s, ts, [], 0)
  else
    let (s, gone, _) := s.sweepChunks l resv (chunks ((s.victims ts).take k))
    let left := k - gone.length
    let ts := ts.filter (fun t => match t.thing with | .cell p _ _ _ => !gone.contains p | _ => true)
    let slots := (ts.filter Tok.slot).length
    let tail := min left slots
    let (stay, spilt, _) := ts.foldl (fun (acc : List Tok × List Tok × Nat) t =>
      if t.slot = false then (acc.1 ++ [t], acc.2.1, acc.2.2)
      else if acc.2.2 < slots - tail then (acc.1 ++ [t], acc.2.1, acc.2.2 + 1)
      else (acc.1, acc.2.1 ++ [t], acc.2.2)) ([], [], 0)
    (s, stay, spilt, left - tail)

/-- The insertions of a gap: place in the list and context, the first request first. -/
def insertionsOf (ts : List Tok) : List (Nat × Nat) :=
  sortBy (fun x y => decide (x.1 < y.1)) ((ts.filterMap (fun t => match t.thing with | .ins k _ _ => some (k, t.ctx) | _ => none)).eraseDups)

/-- The contexts for which the insertions of a gap that must sweep out reserve a record and a directory entry each, behind those
reserved before (R358, R120); or the last insertion for which there is none. An insertion has 8 symbols, and so needs one of each. -/
def State.reserveIns (s : State) (l : Nat) : List Nat → List (Nat × Nat) → Except Nat (List Nat)
  | resv, [] => .ok resv
  | resv, (k, c) :: r =>
    if 65536 ≤ s.dirUsed l + resv.length || !s.recsFree c (1 + resv.count c) then .error ((r.getLast?.map (·.1)).getD k)
    else s.reserveIns l (resv ++ [c]) r

/-! Segments coming in (R130, R131). -/

/-- What stands just before and just behind a segment in its run; of a segment that the pass has taken in, its symbols. -/
def nextTo (got : List (Seg × List Sym)) (g : Seg) : List (Nat × Item) → Option Sym → Option Sym × Option Sym
  | [], _ => (none, none)
  | (_, .sym _ y) :: r, _ => nextTo got g r (some y)
  | (_, .seg k) :: r, last =>
    let inner (k : Seg) : List Sym := ((got.find? (fun p => p.1 = k)).map (·.2)).getD []
    if k = g then
      (last, match r with | (_, .sym _ y) :: _ => some y | (_, .seg j) :: _ => (inner j).head? | [] => none)
    else nextTo got g r (inner k).getLast?

/-- An admitted segment leaves no `(` without an OPER at its ends (R131); `l` is its context's run before the pass. -/
def joinsWell (l : List (Nat × Item)) (got : List (Seg × List Sym)) (g : Seg) (ys : List Sym) : Bool :=
  let (before, behind) := nextTo got g l none
  (match before, ys.head? with | some y, some z => y.kind ≠ 1 || z.kind = 5 | _, _ => true) &&
    (match ys.getLast?, behind with | some y, some z => y.kind ≠ 1 || z.kind = 5 | _, _ => true)

/-- The segments that the pass may take in, requested ones first, then by position when over a quarter of the usable cells is
EMPTY; those of contexts whose areas may not be claimed wait, which R130 leaves open (the model's choice, log 27, 31). -/
def State.admissible (s : State) (l : Nat) : List Seg :=
  let live (g : Seg) : Bool := ((s.ctx g.ctx).map Ctx.claims).getD false
  let dir := sortBy (fun x y => decide (x.lpos < y.lpos)) ((s.part l).dir.filter live)
  let cells := (s.partHearths l).foldl (fun n h => n + (if s.usable h then 256 else 0)) 0
  let used := ((s.rowOf l).filter (fun p => s.usable (hidOf p.1))).length +
    (s.shadowCells.filter (fun p => s.leadOf (hidOf p) = l && s.usable (hidOf p))).length
  let wanted := dir.filter (fun g => g.wanted)
  wanted ++ (if cells < 4 * (cells - used) then dir.filter (fun g => !g.wanted) else [])

/-- Replaces a segment's token by the symbols it brings. -/
def expandSeg (g : Seg) (ys : List Sym) (ts : List Tok) : List Tok :=
  ts.flatMap (fun t => match t.thing with
    | .seg k =>
      if k = g then ((List.range ys.length).zip ys).map (fun q => { t with thing := .loaded q.2 (g.notes.contains q.1) }) else [t]
    | _ => [t])

/-- Things that take cells. -/
def solid (ts : List Tok) : List Tok := ts.filter (fun t => match t.thing with | .seg _ => false | _ => true)

/-- Admits segments one by one while their gaps have room, at most `max` of them (R130); `s0` is the state before the pass. -/
def State.takeIn (s0 : State) (l base top : Nat) (pins : List Nat) :
    Nat → List (Seg × List Sym) → List Seg → State → List Tok → State × List Tok
  | _, _, [], s, ts => (s, ts)
  | 0, _, _, s, ts => (s, ts)
  | max + 1, got, g :: r, s, ts =>
    match ts.find? (fun t => t.thing = .seg g) with
    | none => s0.takeIn l base top pins (max + 1) got r s ts
    | some t =>
      let (lo, hi) := gapBounds base top pins t.gap
      let n := (solid (ts.filter (fun x => x.gap = t.gap))).length
      if s.gapSize lo hi < n + g.count then s0.takeIn l base top pins (max + 1) got r s ts
      else
        let corrupt := s.fatal g.ctx fltExprCorrupt 0 (BitVec.ofNat 64 g.lpos) 0
        match s.loadSegment g with
        | none => s0.takeIn l base top pins max got r corrupt ts
        | some (ys, bad) =>
          if !joinsWell (s0.items g.ctx) got g ys then s0.takeIn l base top pins max got r corrupt ts
          else
            let s := if bad then (s.touchRec g).log g.ctx 10 0 0 0 g.lpos g.count else s.touchRec g
            let s := (s.modPart l (fun p => { p with dir := p.dir.filter (fun k => k ≠ g) })).freeRec g.ctx g.record
            s0.takeIn l base top pins max (got ++ [(g, ys)]) r s (expandSeg g ys ts)

/-! The pass as a whole. -/

/-- The hearths that are being emptied and hold things of a gap. -/
def State.emptying (s : State) (ts : List Tok) : List Nat := ((ts.map (·.home)).filter (fun h => s.evacuating h)).eraseDups

/-- What a gap's pass comes to: its things with their cells, those left to records, and the reservations; or what stands in its way. -/
inductive GapEnd where
  | placed (s : State) (l : List (Nat × Tok)) (spilt : List Tok) (resv : List Nat)
  /-- An insertion or the restores of the gap must wait. -/
  | wait (ins : Option Nat)
  | abandon (h : Nat)
  /-- Nothing can give way: the gap stays as it is. -/
  | stay

/-- Places the things of one gap; where they lack cells, an insertion needs its reservation (R358). -/
def State.gapPass (s : State) (l base top : Nat) (pins : List Nat) (resv : List Nat) (i : Nat) (ts : List Tok) : GapEnd :=
  let (lo, hi) := gapBounds base top pins i
  let ts := solid ts
  let k := ts.length - s.gapSize lo hi
  match if k = 0 then .ok resv else s.reserveIns l resv (insertionsOf ts) with
  | .error n => .wait (some n)
  | .ok resv =>
    let (t, stay, spilt, lack) := s.sweepOut l k resv ts
    if lack = 0 then .placed t ((s.gapPlaces lo hi (stay.map (·.home))).zip stay) spilt resv
    else
      match (insertionsOf ts).getLast?, ts.any (fun t => match t.thing with | .rest _ _ => true | _ => false), s.emptying ts with
      | some (n, _), _, _ => .wait (some n)
      | none, true, _ => .wait none
      | none, false, h :: _ => .abandon h
      | none, false, [] => .stay

/-- What the passes of gaps have placed: things with cells, things left to records, reservations. -/
structure Placed where
  cells : List (Nat × Tok)
  spilt : List Tok
  resv : List Nat
deriving DecidableEq, Repr

/-- The passes of all gaps, one after the other. -/
def State.gapPasses (s : State) (l base top : Nat) (pins : List Nat) (ts : List Tok) :
    List Nat → Placed → State × Placed × Option GapEnd
  | [], got => (s, got, none)
  | i :: r, got =>
    match s.gapPass l base top pins got.resv i (ts.filter (fun t => t.gap = i)) with
    | .placed t new spilt resv => t.gapPasses l base top pins ts r ⟨got.cells ++ new, got.spilt ++ spilt, resv⟩
    | .stay =>
      let new := (ts.filter (fun t => t.gap = i)).filterMap (fun t => match t.thing with | .cell p _ _ _ => some (p, t) | _ => none)
      s.gapPasses l base top pins ts r { got with cells := got.cells ++ new }
    | e => (s, got, some e)

/-- The move pass: an insertion, or the restores, wait where they find no room, and an evacuation that finds none is
abandoned; `fuel` bounds how often the pass starts again (log 27). -/
def State.tryMove (l : Nat) : Nat → Waiting → State → State × Placed
  | 0, _, s => (s, ⟨[], [], []⟩)
  | fuel + 1, w, s =>
    let base := l * 65536
    let top := (l + (s.part l).dies) * 65536
    let pins := s.pins l
    let (t, ts) := s.takeIn l base top pins 64 [] (s.admissible l) s (s.partToks l pins w)
    let (u, got, e) := t.gapPasses l base top pins ts ((ts.map (·.gap)).eraseDups) ⟨[], [], []⟩
    match e with
    | none => (u, got)
    | some (.wait (some k)) => State.tryMove l fuel { w with ins := w.ins.filter (fun p => p.1 ≠ k) } s
    | some (.wait none) => State.tryMove l fuel { w with rest := [] } s
    | some (.abandon h) => State.tryMove l fuel w (s.abandon h)
    | some _ => (u, got)

/-- Writes symbols of a growth or of an insertion into a record that was reserved for it: the next free one (R123, R128) (log 82). -/
def State.spillTail (s : State) (l c lpos : Nat) (ys : List Sym) (notes : List Nat) : State :=
  match s.ctx c, s.launch c with
  | some x, some b =>
    match s.allocRec c b b.records x.cursor with
    | some (r, t) => t.putSegment l c lpos r ys notes
    | none => s.putSegment l c lpos x.cursor ys notes
  | _, _ => s

/-- Applies the commit of an area that grew: its result fills its cells and the placeholders, and what found no cell goes
into its reserved records (R119, R123). -/
def State.applyGrowth (s : State) (l u : Nat) (more : List Nat) : State :=
  match s.area u with
  | none => s
  | some a =>
    let ys : List Sym := match a.cells with | p :: _ => p.2.rw.ins.map (fun x => x.2) | [] => []
    let cells := a.cells.map (fun p => p.2.phys) ++ more
    let pos := match a.cells with | p :: _ => s.lposOf a.ctx p.2.phys | [] => 0
    let s := s.shiftSegs a.ctx pos ((ys.length : Int) - (a.cells.length : Int))
    let s := s.placeSyms cells (ys.take cells.length)
    let tail := ys.drop cells.length
    let k := ceilDiv tail.length 448
    let s := s.modArea u (fun a => { a with growth := 0, recs := 0 })
    let s := (List.range k).foldl (fun s i =>
      s.spillTail l a.ctx (pos + cells.length + 448 * i) ((tail.drop (448 * i)).take 448) []) s
    let s := ((s.logOverrun u).modCtx a.ctx (fun x => { x with moved := true })).logEnd a 0
    (s.count a.home 4 1).drain u

/-- What of insertion `k` of the list `ins` found no cell goes into its record; `n` symbols of its context's later requests, which stand
nearer the MARK, come before it (R123, R358). -/
def State.spillIns (s : State) (l k : Nat) (i : Insertion) (n : Nat) (spilt : List Tok) : State :=
  let mine := spilt.filterMap (fun t => match t.thing with | .ins j m y => if j = k then some (m, y) else none | _ => none)
  match mine with
  | [] => s
  | (m, _) :: _ => s.spillTail l i.ctx (n + m) (mine.map (·.2)) (if i.note && m = 0 then [0] else [])

/-- The cells of suspended areas move to other hearths, where what they did before is known (R84, R252). -/
def State.meetMoved (s : State) (dest : Nat → Nat) : State :=
  s.areas.foldl (fun s p =>
    if p.2.kind ≠ .user then s
    else p.2.cells.foldl (fun s q => let g := hidOf (dest q.2.phys); if g = q.2.hid then s else s.meet g (s.now q.2.hid)) s) s

/-- Writes what the pass placed: symbols move with the cells of their areas (R84), insertions and restores arrive, and growth
is applied. -/
def State.applyMove (s : State) (l : Nat) (got : List (Nat × Tok)) (spilt : List Tok) : State :=
  let moves := got.filterMap (fun p => match p.2.thing with | .cell q _ _ _ => some (q, p.1) | _ => none)
  let old := (s.rowOf l).filter (fun p => !(s.pins l).contains p.1)
  let left := (old.map (·.1)).filter (fun p => !moves.any (fun m => m.1 = p))
  let dest (p : Nat) : Nat := ((moves.find? (fun m => m.1 = p)).map (·.2)).getD p
  let s := old.foldl (fun s p => s.setSym p.1 Sym.empty) s
  let s := got.foldl (fun s p =>
    match p.2.thing with
    | .cell _ y _ _ => s.setSym p.1 y
    | .ins _ _ y => s.setSym p.1 y
    | .rest _ r => s.setSym p.1 r.sym
    | .loaded y _ => s.setSym p.1 y
    | _ => s) (s.meetMoved dest)
  let s : State := { s with
    areas := s.areas.map (fun p =>
      if p.2.kind = .user then (p.1, { p.2 with cells := p.2.cells.map (fun q => (q.1, { q.2 with phys := dest q.2.phys })) }) else p)
    ctxs := s.ctxs.map (fun p => if p.2.part = l then (p.1, { p.2 with
      noteAt := (p.2.noteAt.filter (fun q => !left.contains q)).map dest ++
        got.filterMap (fun t => match t.2.thing with | .loaded _ true => if t.2.ctx = p.1 then some t.1 else none | _ => none) }) else p) }
  -- insertions
  let ins := (s.part l).inserts
  let done := (insertionsOf (got.map (·.2) ++ spilt)).map (·.1)
  let s := done.foldl (fun s k =>
    match ins[k]? with
    | none => s
    | some i =>
      let s := s.modPart l (fun p => { p with dir := p.dir.map (fun g => if g.ctx = i.ctx then { g with lpos := g.lpos + i.syms.length } else g) })
      match i.note, got.find? (fun p => match p.2.thing with | .ins j 0 _ => j = k | _ => false) with
      | true, some p => s.modCtx i.ctx (fun x => { x with noteAt := x.noteAt ++ [p.1] })
      | _, _ => s) s
  let s := done.foldl (fun s k =>
    match ins[k]? with
    | none => s
    | some i =>
      let nearer := done.filterMap (fun j => match ins[j]? with | some e => if k < j && e.ctx = i.ctx then some e.syms.length else none | none => none)
      s.spillIns l k i nearer.sum spilt) s
  let s := (s.modPart l (fun p => { p with
    inserts := ((List.range p.inserts.length).zip p.inserts).filterMap (fun q => if done.contains q.1 then none else some q.2) })).freePops
  -- restores
  let back := got.filterMap (fun p => match p.2.thing with | .rest _ r => some r | _ => none)
  let s := got.foldl (fun s p =>
    match p.2.thing with
    | .rest _ r => s.modCtx r.ctx (fun x => { x with
        holes := x.holes.filter (fun n => n ≠ r.pos)
        noteAt := if x.notePos.contains r.pos then x.noteAt ++ [p.1] else x.noteAt
        notePos := x.notePos.filter (fun n => n ≠ r.pos) })
    | _ => s) s
  let s := s.modPart l (fun p => { p with restores := p.restores.filter (fun r => !back.contains r) })
  let s := ((back.map (fun r => (r.uid, r.cix))).eraseDups).foldl (fun s p =>
    if (s.part l).restores.any (fun r => r.uid = p.1 && r.cix = p.2) then s
    else s.modCell p.1 p.2 (fun c => { c with wait := c.wait.map (fun w =>
      if w.kind = .restore then { w with granted := some false } else w) })) s
  -- growth
  let grown := s.areas.filterMap (fun p => if 0 < p.2.growth && s.leadOf p.2.home = l then some p.1 else none)
  grown.foldl (fun s u =>
    s.applyGrowth l u (got.filterMap (fun p => match p.2.thing with | .growth v => if v = u then some p.1 else none | _ => none))) s

/-- The insertions and restores that the pass may place: those of suspended contexts wait (R358). -/
def State.waiting (s : State) (l : Nat) : Waiting :=
  let p := s.part l
  let live (c : Nat) : Bool := ((s.ctx c).map Ctx.claims).getD false
  ⟨((List.range p.inserts.length).zip p.inserts).filter (fun q => live q.2.ctx),
    ((List.range p.restores.length).zip p.restores).filter (fun q => ((s.ctx q.2.ctx).map Ctx.live).getD false)⟩

/-- The move pass of a sweep. -/
def State.movePass (s : State) (l : Nat) : State :=
  let w := s.waiting l
  let (t, got) := State.tryMove l (w.ins.length + s.leases.length + 3) w s
  if got.cells.isEmpty then t else t.applyMove l got.cells got.spilt

/-! Leases in a sweep (R291). -/

/-- Hearths of a partition whose lease or thermal evacuation is at a stage. -/
def State.stagedHearths (s : State) (l : Nat) (st : LeaseStage) : List Nat :=
  ((s.leases.filter (fun x => unitClass x.unit = 0 && x.stage = st && s.leadOf (unitIndex x.unit) = l)).map (fun x => unitIndex x.unit)).eraseDups

/-- Stops the areas that touch a hearth which is to be emptied; once no held, committing or draining area holds a cell there,
it counts as evacuating (R121). -/
def State.withdraw (s : State) (h : Nat) : State :=
  let touching := s.areas.filter (fun p => p.2.kind = .user && (s.groupHids p.1 p.2).contains h)
  let s := touching.foldl (fun s p => s.stopArea p.1 (some h)) s
  let busy := s.areas.any (fun p =>
    p.2.kind = .user && (s.groupHids p.1 p.2).contains h && p.2.phase ≠ .suspended)
  if busy then s
  else
    { s with leases := s.leases.map (fun x =>
        if x.unit = hearthUnit h && x.stage = .withdrawal then { x with stage := .evacuation, t0 := s.ref, t1 := s.ref } else x) }

/-! The end of a sweep. -/

/-- The least number of a list. -/
def least : List Nat → Option Nat
  | [] => none
  | n :: r => some (match least r with | none => n | some m => min n m)

/-- Publishes the horizon and the full flags (R278, R280). -/
def State.publish (s : State) (l : Nat) : State :=
  let p := s.part l
  let mine : Tab Pop := s.pops.filter (fun x => decide (((s.ctx (x.1 / 256)).map (fun y => y.part)) = some l))
  let waits := s.areas.flatMap (fun a => a.2.cells.filterMap (fun q =>
    match q.2.wait with
    | some w =>
      if w.kind = .horizon && s.leadOf q.2.hid = l && !s.tickDone l w.value.toNat then some w.value.toNat else none
    | none => none))
  let dmin := least (mine.map (fun x => x.2.fld 32 16))
  let h :=
    match least (s.pending l), least waits with
    | some e, _ => max p.horizon (min (e + dmin.getD 1) (2 ^ 32 - 1))
    | none, some w => max p.horizon (min (w + 1) (2 ^ 32 - 1))
    | none, none => p.horizon
  let s := s.modPart l (fun p => { p with horizon := h })
  let hs := (s.partHearths l).filter (fun g => decide (61440 < s.evCount g .queue + s.evCount g .ring) ≠ (s.hearth g).full)
  hs.foldl (fun s g => s.modHearth g (fun x => { x with full := !x.full })) s

/-- Counts a context's sweep toward HANG (R327). -/
def State.countHang (s : State) (c : Nat) (x : Ctx) : State :=
  let waits := s.areas.any (fun p => p.2.kind = .user && p.2.ctx = c && s.code p.1 p.2 = 3)
  let n := if x.moved || !waits then 0 else if x.claims then x.idle + 1 else x.idle
  s.modCtx c (fun x => { x with idle := n, moved := false })

/-- Starts the leases whose area trigger is met (R313). -/
def State.fireTriggers (s : State) (l : Nat) : State :=
  s.triggers.foldl (fun s t =>
    let (c, op, u, pset) := t
    let met := s.areas.any (fun p => p.2.kind = .user && p.2.ctx = c && p.2.op = op && s.code p.1 p.2 = 3) &&
      ((s.ctx c).map (·.part)) = some l
    if met then
      ({ s with triggers := s.triggers.filter (fun x => x ≠ t) }.modUnit u (fun x => { x with forced := x.forced ++ [pset] })).takeTurn u
    else s) s

/-- SWEEP (R13): one sweep of the partition that die `l` leads, from its snapshot to the end of its move pass (log 77). -/
def execSweep (l : Nat) (s : State) : Host.Outcome State Fault Refusal :=
  .next (
    if s.stage ≠ 7 || (s.parts.find l).isNone || s.quiesced l then s
    else
      let mine (s : State) : List (Nat × Ctx) := s.ctxs.filter (fun p => p.2.part = l)
      -- pre-emptions that are due, and areas that left a state which they waited for
      let s := (mine s).foldl (fun s p =>
        if p.2.status = .preempting && p.2.since < (s.part l).sweep then s.preemptNow p.1
        else if p.2.status = .stopping then (s.userAreas p.1).foldl (fun s a => s.stopArea a.1 none) s
        else s) s
      let s := (s.modPart l (fun p => { p with sweep := p.sweep + 1 })).sendControl
      let s := (s.stagedHearths l .withdrawal).foldl (fun s h => s.withdraw h) s
      let s := (mine s).foldl (fun s p => s.discover p.1) s
      let s := s.movePass l
      let s := (s.areas.filter (fun p => s.leadOf p.2.home = l)).foldl (fun s p => s.checkFound p.1) s
      let s := (mine s).foldl (fun s p => s.followTiles p.1) s
      let s := (s.stagedHearths l .evacuation).foldl (fun s h => s.emptyHearth h) s
      let s := s.publish l
      let s := (s.partHearths l).foldl (fun s h => s.beginLoad h) s.startAreas
      let s := (mine s).foldl (fun s p => s.countHang p.1 p.2) s
      s.fireTriggers l)

end Sys2Proof.Machine
end

