-- ==== Sys2Proof/Machine/Host.lean ====
section
/-!
DEFINITION. The host link: the windows, the queue registers and the queue scheduler (R337–R341).
-/

namespace Sys2Proof.Machine

/-! The windows (R337, R338). Their requests come once the register and device memory windows are placed (Table 22.3). -/

/-- The host reaches the device (log 73). -/
def State.linked (s : State) : Bool := s.powered && decide (6 ≤ s.stage)

/-- First offset behind the device memory of the window. -/
def windowEnd : Nat := 0x8DC0000000

/-- A host agent sends a request (log 73). -/
def State.hostAsk (s : State) (agent : Nat) (ord : HostOrd) (ask : HostAsk) : State :=
  if s.linked then { s.fresh with hostReqs := s.hostReqs ++ [⟨s.nextUid, agent, ord, ask⟩] } else s

/-- A write or an atomic of device memory. -/
def writesMemory : HostAsk → Bool
  | .write _ _ => true
  | .atomic _ _ _ _ _ => true
  | _ => false

/-- A request waits for an earlier one of its agent (R338): a release for the writes and atomics before it, and every request for a
read with acquire (log 21). -/
def HostReq.waitsFor (r e : HostReq) : Bool :=
  e.agent = r.agent && decide (e.id < r.id) && ((r.ord = .release && writesMemory e.ask) || e.ord = .acquire)

/-- The request of a name, once it may be performed (log 21). -/
def State.hostReq (s : State) (id : Nat) : Option HostReq :=
  (s.hostReqs.find? (fun r => r.id = id)).filter (fun r => s.linked && !s.hostReqs.any r.waitsFor)

def State.dropReq (s : State) (id : Nat) : State := { s with hostReqs := s.hostReqs.filter (fun r => r.id ≠ id) }

/-- An agent outside the device (R251) has written a line of device memory: the write lies behind the read leases on it and behind what
the agent wrote. -/
def State.hostWrote (s : State) (agent line : Nat) : State :=
  let t := s.lineTime.get (0, 0) line
  let w := max (max t.1 (s.hostClk.get 0 agent)) (t.2 + 1)
  { s with lineTime := s.lineTime.put (0, 0) line (w, t.2), hostClk := s.hostClk.put 0 agent w }

/-- The words that `n` bytes at a device address meet. -/
def wordsOf (addr n : Nat) : List Loc :=
  if n = 0 then [] else (List.range ((addr + n - 1) / 8 + 1 - addr / 8)).map (fun i => .dev (8 * (addr / 8 + i)) none)

/-- Words release what an agent outside the device has written, at a scope. -/
def State.hostRelease (s : State) (agent : Nat) (scope : BitVec 3) (ls : List Loc) : State :=
  ls.foldl (fun s l => s.release_ l [⟨s.hostClk.get 0 agent, [scope], agent, 0, 0⟩]) s

/-- Writes bytes of device memory for a request, beyond the window's memory none; a release is one at `.node`, of every word that it
writes (R256, R338) (log 21). -/
def State.windowWrite (s : State) (r : HostReq) (addr : Nat) (bytes : List Byte) : State :=
  let bs := bytes.take (windowEnd - addr)
  let ls := if bs = [] then [] else linesOf addr bs.length
  let s := (if bs = [] then s else s.touchPlain (.dev addr none) bs.length true).writeDev addr none false (bs.length + 1) bs
  let s := ls.foldl (fun s l => s.hostWrote (hostAgent r.agent) l) s
  if r.ord = .release then s.hostRelease (hostAgent r.agent) scopeNode (wordsOf addr bs.length) else s

/-- The bytes that a host request reads: all ones beyond the window's memory (log 67). -/
def State.windowRead (s : State) (addr n : Nat) : List Byte :=
  (List.range n).map (fun i => if addr + i < windowEnd then s.mem.get 0 (addr + i) else 0xFF#8)

/-- A request reads `n` bytes of device memory at their slices. An acquire is one at `.node`: the agent's later writes lie behind what the
releases that the words carry lie behind (log 21). -/
def State.hostAcquire (s : State) (r : HostReq) (addr n : Nat) : State :=
  let a := hostAgent r.agent
  let s := if n = 0 then s else s.touchPlain (.dev addr none) n false
  if r.ord = .acquire then
    ((wordsOf addr n).flatMap s.released).foldl (fun s x =>
      if s.synchronises x scopeNode (a, 0, 0) then { s with hostClk := s.hostClk.put 0 a (max (s.hostClk.get 0 a) x.time) } else s) s
  else s

/-- HOST_POSTED_WRITE (R337, R210) (log 73). -/
def execHostPostedWrite (req : Nat) (s : State) : Host.Outcome State Fault Refusal :=
  .next (
    match s.hostReq req with
    | some r => (match r.ask with | .write addr bytes => (s.dropReq req).windowWrite r addr bytes | _ => s)
    | none => s)

/-- A byte of the register window (Table 21.1): QBASE and QCFG can be read; what else the window reads as is open (log 67). -/
def State.regByte (s : State) (off : Nat) : Byte :=
  let q := s.hostq (off / 64)
  let o := off % 64
  if off < 4096 && o < 8 then BitVec.ofNat 8 (bits q.base.toNat (8 * o) 8)
  else if off < 4096 && o < 16 then BitVec.ofNat 8 (bits q.cfg.toNat (8 * (o - 8)) 8)
  else BitVec.ofNat 8 (Config.freeValue (s.free + off)).toNat

/-- HOST_READ (R337, R339): of device memory or of the register window (log 67, 73). -/
def execHostRead (req : Nat) (s : State) : Host.Outcome State Fault Refusal :=
  .next (
    match s.hostReq req with
    | some r =>
      (match r.ask with
        | .read addr n => { (s.dropReq req).hostAcquire r addr n with hostReply := s.windowRead addr n }
        | .readReg off n =>
          { s.dropReq req with hostReply := (List.range n).map (fun i => s.regByte (off + i)), free := s.free + off + n }
        | _ => s)
    | none => s)

/-- What a host atomic writes over the value `v`, of `n` bytes. -/
def applyAtomic (op : HostAtomic) (n v x y : Nat) : Nat :=
  match op with
  | .add => v + x
  | .swap => x
  | .cas => if v = x % 256 ^ n then y else v

/-- HOST_ATOMIC (R337): the old value comes back (log 67, 73). -/
def execHostAtomic (req : Nat) (s : State) : Host.Outcome State Fault Refusal :=
  .next (
    match s.hostReq req with
    | some r =>
      (match r.ask with
        | .atomic op wide addr x y =>
          let n := if wide then 8 else 4
          let old := s.windowRead addr n
          let bs := leBytes n (applyAtomic op n (ofLe old) x.toNat y.toNat)
          { ((s.dropReq req).hostAcquire r addr n).windowWrite r addr bs with hostReply := old }
        | _ => s)
    | none => s)

/-! Fabric traffic of a peer (R346). -/

/-- A peer's request of a job is acknowledged, or refused. -/
def State.ackPeer (s : State) (job : Nat) (ok : Bool) : State := { s with fabAcks := (job, ok) :: s.fabAcks }

/-- A peer has written a range. -/
def State.peerWrote (s : State) (job : Nat) (l : List Piece) : State := (pieceLines l).foldl (fun s i => s.hostWrote (peerAgent job) i) s

/-- REMOTE_WRITE (R346): translated in the context of the job, it needs write permission; one that fails is not performed, and the
answer says so (log 52). -/
def execRemoteWrite (job va : Nat) (bytes : List Byte) (s : State) : Host.Outcome State Fault Refusal :=
  .next (
    let a := BitVec.ofNat 64 va
    if s.stage ≠ 7 || bytes.isEmpty then s
    else
      match s.jobCtx job, s.jobPages job (rangePages a bytes.length) [] with
      | some c, .ok ts =>
        let ps := piecesOf ts c (bytes.length / 65536 + 2) (bits va 0 55) bytes.length
        let s := ps.foldl (fun s p => s.touchPlain p.1 p.2 true) (ts.foldl (fun s t => s.tagPage t) s)
        ((s.writePieces ps bytes).peerWrote job ps).ackPeer job true
      | _, _ => s.ackPeer job false)

/-- REMOTE_COUNTER_ADD (R346): bits [2:0] of the address are cleared. The add is a release at `.fab` of what the peer has written (log 52). -/
def execRemoteCounterAdd (job va : Nat) (amount : Word) (s : State) : Host.Outcome State Fault Refusal :=
  .next (
    let a := BitVec.ofNat 64 (va / 8 * 8)
    if s.stage ≠ 7 then s
    else
      match (s.jobCtx job).map (fun c => if inTileWindow a then .error fltTileBounds else s.translateDev c a .both) with
      | some (.ok t) =>
        let l := Loc.phys t (bits a.toNat 0 55)
        let s := (((s.tagPage t).touchPlain l 8 true).addCounter l amount.toNat false).peerWrote job [(l, 8)]
        (s.hostRelease (peerAgent job) 6 [l]).ackPeer job true
      | _ => s.ackPeer job false)

/-! The queue scheduler (R340). -/

/-- A mapped queue's tail: one that does not exceed the head is ignored, and one more than the ring's size ahead of it
disables the queue (log 68). -/
def State.putTail (s : State) (q t : Nat) : State :=
  let x := s.hostq q
  if t ≤ x.head then s
  else if x.head + 2 ^ x.logn < t then
    (s.modHostq q (fun x => { x with cfg := setBit x.cfg 31 false })).journalAdd 5 1 0 0 q 0 0 0 0
  else s.modHostq q (fun x => { x with tail := t })

/-- An agent's read with acquire is not performed yet: its later requests wait (R338) (log 21). -/
def State.agentHeld (s : State) (agent : Nat) : Bool := s.hostReqs.any (fun r => r.agent = agent && r.ord = .acquire)

/-- QNOTIFY (R340): an unmapped queue, and every one before stage 7, latches the largest tail in its header. -/
def execQnotify (agent : Nat) (q : BitVec 6) (tail : Word) (s : State) : Host.Outcome State Fault Refusal :=
  .next (
    let i := q.toNat
    if !s.linked || s.agentHeld agent then s
    else if (s.hostq i).mapped && s.stage = 7 then s.putTail i tail.toNat
    else
      (s.modHostq i (fun x => { x with
        pending := true
        ltail := if x.pending then max x.ltail tail.toNat else tail.toNat })).putHeader i)

/-- Queues by increasing number after the last one mapped. -/
def State.mapOrder (s : State) : List Nat := (List.range 64).map (fun i => (s.lastMapped + 1 + i) % 64)

/-- A queue awaits a slot. -/
def HostQ.awaits (x : HostQ) : Bool := x.pending && !x.mapped

/-- The hardware slots in use, of 16. -/
def State.slotsMapped (s : State) : Nat := (s.hq.filter (fun p => p.2.mapped)).length

/-- The lowest hardware slot that no queue holds; which free slot a queue gets is open (log 22). -/
def State.freeQSlot (s : State) : Nat :=
  ((List.range 16).find? (fun i => !s.hq.any (fun p => p.2.mapped && p.2.slot = i))).getD 0

/-- QUEUE_MAP (R340): the queue is the next one with pending = 1, and a slot is free. -/
def execQueueMap (q : Nat) (s : State) : Host.Outcome State Fault Refusal :=
  .next (
    if s.stage = 7 && decide (s.slotsMapped < 16) && s.mapOrder.find? (fun i => (s.hostq i).awaits) = some q then
      let t := (s.hostq q).ltail
      (({ s with lastMapped := q }.modHostq q (fun x => { x with mapped := true, pending := false, slot := s.freeQSlot })).putTail q t).putHeader q
    else s)

/-- QUEUE_SLOT_IDLE_UNMAP (R340): the queue had nothing to take for 4,096 cycles while another one waits for a slot. -/
def execQueueSlotIdleUnmap (q : Nat) (s : State) : Host.Outcome State Fault Refusal :=
  .next (
    let x := s.hostq q
    if x.mapped && x.head = x.tail && s.hq.any (fun p => p.1 ≠ q && p.2.awaits) then
      s.modHostq q (fun x => { x with mapped := false })
    else s)

/-! Registers (Tables 21.1 and 22.2). -/

/-- A field of the rota, which no period of 0 hours replaces (log 74). -/
def rotaField (old new i : Nat) : Nat := if bits new (16 * i) 16 = 0 then bits old (16 * i) 16 else bits new (16 * i) 16

/-- REGISTER_WRITE (R6, R339, R355): by a host agent for the queue registers, over I3C for the others. Queue registers hold while their
queue is enabled, read-only ones always (log 74, 21). -/
def execRegisterWrite (agent : Nat) (r : DevReg) (v : Word) (s : State) : Host.Outcome State Fault Refusal :=
  .next (
    match r with
    | .qbase q =>
      if s.linked && !s.agentHeld agent && !(s.hostq q.toNat).enabled then
        s.modHostq q.toNat (fun x => { x with base := v &&& ~~~(0xFFF#64) })
      else s
    | .qcfg q =>
      if s.linked && !s.agentHeld agent && !(s.hostq q.toNat).enabled then
        s.modHostq q.toNat (fun x => { x with cfg := v &&& 0x8000031F#64 })
      else s
    | .ident => s
    | .pmeas => s
    | .stage => s
    | .pcap => if s.powered && decide (1600 ≤ v.toNat) && decide (v.toNat ≤ 3200) then { s with pcap := v.toNat } else s
    | .rota =>
      if s.powered then
        { s with rota := BitVec.ofNat 64 (packFields ((List.range 4).map (fun i => (16, rotaField s.rota.toNat v.toNat i)))) }
      else s
    | .scrub => if s.powered && decide (1 ≤ v.toNat) && decide (v.toNat ≤ 168) then { s with scrub := v.toNat } else s
    | .fabdev => if s.powered && decide (s.stage ≤ 4) then { s with fabdev := bits v.toNat 0 12 } else s)

/-! Commands (R341, R342). -/

/-- How a command ends: with a status and a result, or later. -/
inductive CmdEnd where
  | done (status result : Nat) (s : State)
  | later (s : State)

/-- The status codes of Table 21.5. -/
def stOk : Nat := 0
def stInvalid : Nat := 1
def stBusy : Nat := 2
def stNoctx : Nat := 3
def stState : Nat := 4
def stNospace : Nat := 5
def stMalformed : Nat := 6
def stFailed : Nat := 8

/-- A command of another queue that was taken before and has not completed names the context of entry `e` of queue `q` (R341) (log 22). -/
def State.ctxBusy (s : State) (q : Nat) (e : BitVec 512) : Bool :=
  namesCtx e && s.hq.any (fun p => p.1 ≠ q && decide (p.2.taken < (s.hostq q).taken) && (match p.2.busy with
    | some f => namesCtx f && entryCtx f = entryCtx e
    | none => false))

/-- The entry at the queue's head can be taken; those of a partition that is quiesced are held (R345). -/
def State.canTake (s : State) (q : Nat) : Bool :=
  let x := s.hostq q
  x.mapped && x.enabled && decide (x.head < x.tail) && x.busy.isNone && !s.quiesced x.die

/-- The device takes the entry at a queue's head next: slots are taken from in round robin, from the one behind the last (R341) (log 22). -/
def State.mayTake (s : State) (q : Nat) : Bool :=
  let x := s.hostq q
  let place (i : Nat) : Nat := (i + 15 - s.lastSlot) % 16
  s.canTake q && !s.hq.any (fun p => s.canTake p.1 && decide (place p.2.slot < place x.slot))

/-- Operand bits in use: the mask of each word from 1 on; the others are Res0, as are two fields of word 0. -/
def operandsOk (masks : List Nat) (e : BitVec 512) : Bool :=
  bits e.toNat 8 8 = 0 && bits e.toNat 22 10 = 0 &&
    (List.range 6).all (fun i => opw e (i + 1) &&& (2 ^ 64 - 1 - masks.getD i 0) = 0)

/-- A taken command runs: one that breaks the rules of every command ends with INVALID; otherwise `body` performs it (R341, R342,
R345). -/
def State.runEntry (s : State) (q : Nat) (e : BitVec 512) (masks : List Nat) (body : BitVec 512 → State → CmdEnd) : State :=
  if !operandsOk masks e || opw e 7 % 32 ≠ 0 || (s.parts.find (s.hostq q).die).isNone then s.doneEntry q e stInvalid 0
  else
    match body e s with
    | .done st r t => t.doneEntry q e st r
    | .later t => t.modHostq q (fun x => { x with runs := true })

/-- The entry of queue `q` that the device takes now, and the state with it taken; or the one that it took before and that waited for
another command on its context (R341). -/
def State.nextEntry (s : State) (q : Nat) (is : Nat → Bool) : Option (BitVec 512 × State) :=
  if !s.powered || s.stage ≠ 7 then none
  else
    match (s.hostq q).busy with
    | some e => if is (entryOpcode e) && !(s.hostq q).runs then some (e, s) else none
    | none =>
      let e := s.entryAt q
      if is (entryOpcode e) && s.mayTake q then some (e, s.takeEntry q) else none

/-- A command: its entry is taken, and it runs unless one that names its context was taken before it and has not completed (log 22). -/
def State.command (s : State) (q : BitVec 6) (is : Nat → Bool) (masks : List Nat) (body : BitVec 512 → State → CmdEnd) : State :=
  match s.nextEntry q.toNat is with
  | none => s
  | some (e, t) => if t.ctxBusy q.toNat e then t else t.runEntry q.toNat e masks body

/-- A host physical address (R196). -/
def mH : Nat := 2 ^ 47 - 1
/-- A whole word. -/
def mAll : Nat := 2 ^ 64 - 1

/-- UNASSIGNED_COMMAND_OPCODE (R342). -/
def execUnassignedCommandOpcode (q : BitVec 6) (s : State) : Host.Outcome State Fault Refusal :=
  .next (s.command q (fun op => op = 0 || 0x11 < op) (List.replicate 6 mAll) (fun _ s => .done stInvalid 0 s))

end Sys2Proof.Machine
end

