-- ==== Sys2Proof/Machine/Commands.lean ====
section
/-!
DEFINITION. The firmware commands that act on a context (R24, R39, R137, R143, R148, R203, R204, R312, R322, R335, R342, R344).
-/

namespace Sys2Proof.Machine

/-! Ranges of a context's space. -/

/-- The homes of `n` bytes at a virtual address; none when a page of them does not translate or lacks the permission. -/
def State.virtRange (s : State) (ctx : Nat) (a : Word) (n : Nat) (need : Need) : Option (List Piece) :=
  let ts := (rangePages a n).map (fun p => if inTileWindow p then none else match s.translateDev ctx p need with | .ok t => some t | .error _ => none)
  if ts.all (·.isSome) then some (piecesOf (ts.filterMap id) ctx (n / 65536 + 2) (bits a.toNat 0 55) n) else none

/-- The bytes of a readable range. -/
def State.virtBytes (s : State) (ctx : Nat) (a : Word) (n : Nat) : Option (List Byte) :=
  (s.virtRange ctx a n .read).map s.readPieces

/-- The slices' part in reading a range. -/
def State.touchRead (s : State) (ctx : Nat) (a : Word) (n : Nat) : State :=
  ((s.virtRange ctx a n .read).getD []).foldl (fun s p => s.touchPlain p.1 p.2 false) s

/-- A context that exists. -/
def withCtx (e : BitVec 512) (body : Nat → Ctx → State → CmdEnd) (s : State) : CmdEnd :=
  match s.ctx (entryCtx e) with
  | none => .done stNoctx 0 s
  | some x => body (entryCtx e) x s

/-! CREATE_CONTEXT and DESTROY_CONTEXT. -/

/-- A partition led by die `d`. -/
def State.leads (s : State) (d : Nat) : Bool := (s.parts.find d).isSome

/-- CREATE_CONTEXT (R22, R306, R342). -/
def State.createContext (e : BitVec 512) (s : State) : CmdEnd :=
  let root := opw e 2
  let die := bits (opw e 3) 0 2
  let ring := opw e 4
  let log := bits (opw e 5) 0 5
  if !s.leads die || root % 65536 ≠ 0 || root < (s.partRange die).1 || (s.partRange die).2 < root + 65536 ||
      ring % 64 ≠ 0 || (ring ≠ 0 && (log < 4 || 20 < log)) then .done stInvalid 0 s
  else
    match s.ctx (entryCtx e) with
    | some _ => .done stState 0 s
    | none =>
      let x : Ctx :=
        { part := die, root := root, lb := BitVec.ofNat 64 (opw e 1), privOk := (opw e 3).testBit 8, job := bits (opw e 3) 16 16,
          ring := ring, ringLog := log, sigs := 0, status := .created, launch := none, base := 0, strict := false, brk := false,
          trace := 0, logbase := 0, logsize := 0, hangpol := false, idle := 0, moved := false, capCount := 0,
          capRec := s.capRecord die 7 0 0 0, capDue := [], notes := 0, noteAt := [], notePos := [], cursor := 0, inuse := 0, waiter := none,
          since := 0, keptHandles := [], holes := [] }
      .done stOk 0 { s with ctxs := s.ctxs.set (entryCtx e) x }

def execCreateContext (q : BitVec 6) (s : State) : Host.Outcome State Fault Refusal :=
  .next (s.command q (· = 1) [mAll, mAll, 0xFFFF0103, mH, 0x1F, 0] State.createContext)

/-- The entries of a table page that are not zero: index and value. -/
def State.tableEntries (s : State) (base : Nat) : List (Nat × Nat) :=
  let at_ := (s.mem.filter (fun p => base ≤ p.1 && p.1 < base + 65536)).map (fun p => (p.1 - base) / 8)
  at_.eraseDups.map (fun i => (i, s.pteAt (base + 8 * i)))

/-- Writes a page-table entry. -/
def State.putPte (s : State) (pa v : Nat) : State := (s.touchPlain (.dev pa none) 8 true).writeLine pa none (leBytes 8 v)

/-- The 64 KiB pages of a leaf entry. -/
def leafPages (e : Nat) (big : Bool) : List Nat :=
  if big then (List.range 8192).map (fun i => bits e 29 19 * 8192 + i) else [bits e 16 32]

/-- A cleared leaf entry's page is an encrypted page no longer (log 23). -/
def State.dropTags (s : State) (e : Nat) (big : Bool) : State :=
  if bitOf e 7 then { s with tags := s.tags.erase ((leafPages e big).headD 0) } else s

/-- Clears every leaf entry that a root table reaches. -/
def State.unmapAll (s : State) (root : Nat) : State :=
  (s.tableEntries root).foldl (fun s p =>
    if bitOf p.2 0 && !bitOf p.2 1 then
      let b2 := bits p.2 16 32 * 65536
      (s.tableEntries b2).foldl (fun s q =>
        if bitOf q.2 0 && bitOf q.2 1 then (s.putPte (b2 + 8 * q.1) 0).dropTags q.2 true
        else if bitOf q.2 0 then
          let b3 := bits q.2 16 32 * 65536
          (s.tableEntries b3).foldl (fun s r =>
            if bitOf r.2 0 && bitOf r.2 1 then (s.putPte (b3 + 8 * r.1) 0).dropTags r.2 false else s) s
        else s) s
    else s) s

/-- DESTROY_CONTEXT (R137, R313, R328, R342). -/
def State.destroyContext (e : BitVec 512) (s : State) : CmdEnd :=
  withCtx e (fun c x s =>
    let s := s.invalidate c
    let s := if x.status = .dead then s else s.teardown c
    let s := (s.unmapAll x.root).dropTrans c 0 (2 ^ 55)
    .done stOk 0 { s with ctxs := s.ctxs.erase c, triggers := s.triggers.filter (fun t => t.1 ≠ c) }) s

def execDestroyContext (q : BitVec 6) (s : State) : Host.Outcome State Fault Refusal :=
  .next (s.command q (· = 2) [] State.destroyContext)

/-- LOAD_OPERATORS (R137). -/
def execLoadOperators (q : BitVec 6) (s : State) : Host.Outcome State Fault Refusal :=
  .next (s.command q (· = 3) [] (withCtx · (fun c _ s => .done stOk 0 (s.invalidate c))))

/-! LOAD_EXPR (R39, R143, R312, R335). -/

/-- The header of an image (R335): its symbols, none when it breaks the rule. -/
def imageCount (h : Nat) : Option Nat :=
  let n := bits h 96 32
  if bits h 0 64 = 1 && bits h 64 32 = (64 + 16 * n) % 2 ^ 32 && 64 + 16 * n < 2 ^ 32 && bits h 128 384 = 0 then some n else none

/-- The symbol of an image's entry, none when its Res0 bits are set; the transit bit is the device's (Table 1.1) (log 86). -/
def imageSym (x : Nat) : Option Sym := if bits x 64 2 = 0 then some { symOfCode x with transit := false } else none

/-- Where the MARK and `n` symbols of context `c` go from hearth `h` on with fill `f`; none when R312 refuses the place. The
hearths written are those that lie before the next symbol of another context, are usable, and hold no symbol, none of a shadow
either (log 31). -/
def State.exprCells (s : State) (c l h f n : Nat) : Option (List Nat) :=
  let row := s.rowOf l
  let full (g : Nat) : Bool := row.any (fun p => hidOf p.1 = g) || s.shadowCells.any (fun p => hidOf p = g)
  let hs := (((s.partHearths l).filter (fun g => h ≤ g)).takeWhile (fun g => !full g)).filter s.usable
  let cells := hs.flatMap (fun g => (s.gapCells (g * 256) (g * 256 + 256) g).take f)
  if hs.head? ≠ some h || cells.length < n + 1 then none
  else
    let ps := cells.take (n + 1)
    let last := ps.foldl (fun m p => max m p) 0
    let open_ : Bool := match row.find? (fun p => last < p.1) with | some p => p.2.kind ≠ 11 | none => false
    let before := (row.filter (fun p => p.1 < h * 256 && p.2.kind = 11)).getLast?
    let cut : Bool :=
      match before with
      | none => false
      | some (_, y) =>
        let m := y.value.toNat
        let top := (s.items m).foldl (fun t p => match p.2 with | .sym _ _ => p.1 + 1 | .seg _ => t) 0
        m ≠ c && (s.segsOf m).any (fun g => top ≤ g.lpos)
    if open_ || cut then none else some ps

/-- The cells of an explicit placement: a usable hearth among those written holds no MARK of the context either, `own` being the hearths of
its MARK (R312). -/
def State.exprAt (s : State) (c l h f n : Nat) (own : List Nat) : Option (List Nat) :=
  (s.exprCells c l h f n).filter (fun ps => !own.any (fun g => s.usable g && h ≤ g && decide (g * 256 ≤ ps.foldl (fun m p => max m p) 0)))

/-- The lowest hearth that admits the image; the MARK that the context had gives way to the new one (R143) (log 76). -/
def State.exprDefault (s : State) (c l n : Nat) : Option (List Nat) :=
  (s.partHearths l).findSome? (fun h => s.exprCells c l h 256 n)

/-- The payload of a tile: 16-byte chunks, each with its poison (log 20). -/
def State.payloadChunks (s : State) (c : Nat) (a : Word) (n : Nat) : Option (List (List Byte × Bool)) :=
  let got := (List.range (ceilDiv n 16)).map (fun i =>
    match s.peekVirt c (a + BitVec.ofNat 64 (16 * i)) (min 16 (n - 16 * i)) with | .ok x => some x | .error _ => none)
  if got.all (·.isSome) then some (got.filterMap id) else none

/-- What becomes of a TILE symbol: its slot holds the payload, its descriptor names the slot. -/
inductive TileEnd where
  | placed (y : Sym) (s : State)
  | noSpace
  | unreadable

/-- Allocates the slot of the k-th TILE symbol of an image, in the hearth that receives the symbol, for its payload of rows × stride
bytes: its lowest free run of units, with the descriptor's layout as the recorded one (R39) (log 20). -/
def State.loadTile (s : State) (c : Nat) (img : Word) (k h : Nat) (y : Sym) : TileEnd :=
  let d := descOf y.value
  let n := d.rows * d.stride
  let u := ceilDiv n 1024
  match s.newHandle 0 c, s.freeRun h u none with
  | some hd, some i =>
    if u = 0 || 64 < u then .noSpace
    else
      match s.payloadChunks c (Config.payload c img k) n with
      | none => .unreadable
      | some cs =>
        let x : Slot := ⟨h, i, u, BitVec.ofNat 4 d.layout, [], none, false, false⟩
        let s := ((List.range cs.length).zip cs).foldl (fun s p => s.writeTileCell (x.base + 16 * p.1) p.2.1 p.2.2)
          { s.touchRead c (Config.payload c img k) n with slots := s.slots.set (slotKey 0 c hd) x, free := s.free + 1 }
        .placed { y with value := (y.value &&& ~~~(0xFFFFF#64)) ||| BitVec.ofNat 64 hd } s
  | _, _ => .noSpace

/-- Places the symbols of an image into their cells; the count of TILE symbols goes along. A payload that cannot be read ends the
command as an image that cannot be read does (log 20). -/
def State.loadSyms (s : State) (c : Nat) (img : Word) : Nat → List (Nat × Sym) → Except Nat State
  | _, [] => .ok s
  | k, (p, y) :: r =>
    if y.kind = 8 then
      match s.loadTile c img k (hidOf p) y with
      | .noSpace => .error stNospace
      | .unreadable => .error stInvalid
      | .placed z s => (s.setSym p z).loadSyms c img (k + 1) r
    else (s.setSym p y).loadSyms c img k r

/-- LOAD_EXPR (log 76). -/
def State.loadExpr (e : BitVec 512) (s : State) : CmdEnd :=
  withCtx e (fun c x s =>
    let img := BitVec.ofNat 64 (opw e 1)
    let w := opw e 2
    let hf := bits w 0 10
    let f := if bits w 16 9 = 0 then 256 else bits w 16 9
    let placed := bitOf w 31
    if placed && (256 < f || !(s.partHearths x.part).contains hf) then .done stInvalid 0 s
    else if !x.alive || !(s.run c).isEmpty || !(s.segsOf c).isEmpty || !x.holes.isEmpty then .done stState 0 s
    else
      match s.virtBytes c img 64 with
      | none => .done stInvalid 0 s
      | some hb =>
        match imageCount (ofLe hb) with
        | none => .done stMalformed 0 s
        | some n =>
          match s.virtBytes c img (64 + 16 * n) with
          | none => .done stInvalid 0 s
          | some bs =>
            let ys := (List.range n).map (fun i => imageSym (ofLe ((bs.drop (64 + 16 * i)).take 16)))
            let syms := ys.filterMap id
            if !ys.all (·.isSome) || !wfExpr syms then .done stMalformed 0 s
            else
              let s := s.touchRead c img (64 + 16 * n)
              let mark := (s.rowOf x.part).filter (fun p => p.2.kind = 11 && p.2.value.toNat = c)
              let t := mark.foldl (fun s p => s.setSym p.1 Sym.empty) s
              match if placed then t.exprAt c x.part hf f n (mark.map (fun p => hidOf p.1)) else t.exprDefault c x.part n with
              | none => .done stNospace 0 s
              | some [] => .done stNospace 0 s
              | some (m :: ps) =>
                match (t.setSym m ⟨11, false, false, BitVec.ofNat 64 c⟩).loadSyms c img 0 (ps.zip syms) with
                | .error st => .done st 0 s
                | .ok t => .done stOk 0 (t.writeDepths 0 (t.items c))) s

def execLoadExpr (q : BitVec 6) (s : State) : Host.Outcome State Fault Refusal :=
  .next (s.command q (· = 4) [mAll, 0x81FF03FF, 0, 0, 0, 0] State.loadExpr)

/-! START (R24, R128, R137, R148). -/

/-- The launch block's fields that START latches. -/
def launchOf (x : Nat) : Launch :=
  { prio := bits x 16 2, nops := bits x 32 12, optable := bits x 64 64, trapop := bits x 128 12, notifop := bits x 144 12,
    notify := bitOf x 159, saveop := bits x 160 12, restop := bits x 176 12, wdog := bits x 192 32, carve := bits x 224 16,
    ovfbase := bits x 256 64, ovfsize := bits x 320 64, capctr := bits x 448 64, caprec := bits x 512 64,
    hangaddr := bits x 576 64, hangsize := bits x 640 64 }

/-- Version, Res0 fields and the ranges of the fields. -/
def launchOk (x : Nat) : Bool :=
  let l := launchOf x
  bits x 0 16 = 1 && bits x 18 14 = 0 && bits x 44 20 = 0 && bits x 140 4 = 0 && bits x 156 3 = 0 && bits x 172 4 = 0 &&
    bits x 188 4 = 0 && bits x 246 10 = 0 && bits x 704 320 = 0 &&
    1 ≤ l.nops && l.nops ≤ 3840 && bits x 240 6 ≤ 32 && l.carve ≤ 256 && l.ovfsize % 4096 = 0 &&
    l.trapop < 0xF00 && l.saveop < 0xF00 && l.restop < 0xF00 &&
    l.optable % 64 = 0 && l.ovfbase % 4096 = 0 && l.capctr % 8 = 0 && l.caprec % 64 = 0 && l.hangaddr % 64 = 0

/-- A range is empty or translates with the permission. -/
def State.mapped (s : State) (c a n : Nat) (need : Need) : Bool := n = 0 || (s.virtRange c (BitVec.ofNat 64 a) n need).isSome

/-- The permissions of the device's later uses. -/
def State.launchMapped (s : State) (c : Nat) (lb : Word) (l : Launch) : Bool :=
  s.mapped c lb.toNat 384 .both && s.mapped c l.optable (16 * l.nops) .read && s.mapped c l.ovfbase l.ovfsize .both &&
    s.mapped c l.capctr 8 .both && s.mapped c l.caprec 64 .write && s.mapped c l.hangaddr l.hangsize .write

/-- A valid operator that is not voted (R133). -/
def State.plainOp (s : State) (c op : Nat) : Bool := ((s.readEntry c op).map (fun e => !e.voted)).getD false

/-- A hearth's units that lie in no slot and no carve-out. -/
def State.freeUnits (s : State) (h : Nat) : List Nat :=
  let used := s.unitsUsed h true
  (List.range 1536).filter (fun i => !used.contains i)

/-- The context's carve-out, if it has one, is free again. -/
def State.unreserve (s : State) (c : Nat) : State := { s with carves := s.carves.filter (fun p => p.1 % 64 ≠ c) }

/-- START of a context that was never started or is pre-empted: it latches the launch block (log 24, 10). -/
def State.startContext (e : BitVec 512) (s : State) : CmdEnd :=
  withCtx e (fun c x s =>
    if x.status ≠ .created && x.status ≠ .preempted then .done stState 0 s
    else if x.lb.toNat % 64 ≠ 0 then .done stInvalid 0 s
    else
      match s.virtBytes c x.lb 384 with
      | none => .done stInvalid 0 s
      | some bs =>
        let s := s.touchRead c x.lb 384
        let b := ofLe bs
        let l := launchOf b
        let t := s.modCtx c (fun x => { x with launch := some l })
        if !launchOk b || !s.launchMapped c x.lb l || !t.plainOp c l.trapop || !t.plainOp c l.saveop || !t.plainOp c l.restop ||
            (l.notify && !t.plainOp c l.notifop) then .done stInvalid 0 s
        else
          let hs := s.partHearths x.part
          if hs.any (fun h => ((s.unreserve c).freeUnits h).length < l.carve) then .done stNospace 0 s
          else
            let t := t.unreserve c
            let t : State := hs.foldl (fun (t : State) h =>
              { t with carves := t.carves.put [] (h * 64 + c) ((t.freeUnits h).take l.carve) }) t
            let t := t.modCtx c (fun x => { x with
              status := .running
              base := (s.part x.part).sweep
              idle := 0
              moved := false
              capCount := 0
              capDue := []
              cursor := 0
              inuse := 0 })
            let t := (List.range l.records).foldl (fun t r => t.setUsed c l r false) t
            .done stOk 0 ((t.putOvfptr c).invalidate c)) s

def execStart (q : BitVec 6) (s : State) : Host.Outcome State Fault Refusal :=
  .next (s.command q (· = 5) [] State.startContext)

/-! PREEMPT and RESUME (R322): their commands end with the pre-emption and the restore. -/

def State.preemptContext (q : Nat) (e : BitVec 512) (s : State) : CmdEnd :=
  withCtx e (fun c x s =>
    if x.status ≠ .running then .done stState 0 s
    else .later (s.modCtx c (fun x => { x with status := .preempting, since := (s.part x.part).sweep, waiter := some q }))) s

def execPreempt (q : BitVec 6) (s : State) : Host.Outcome State Fault Refusal :=
  .next (s.command q (· = 6) [] (State.preemptContext q.toNat))

def State.resumeContext (q : Nat) (e : BitVec 512) (s : State) : CmdEnd :=
  withCtx e (fun c x s =>
    if x.status ≠ .preempted then .done stState 0 s
    else
      let op := (x.launch.map (·.restop)).getD 0
      .later ((s.modCtx c (fun x => { x with status := .restoring, waiter := some q })).requestOperator c .restore op)) s

def execResume (q : BitVec 6) (s : State) : Host.Outcome State Fault Refusal :=
  .next (s.command q (· = 7) [] (State.resumeContext q.toNat))

/-! READ_EXPR (R335, R342). -/

/-- The symbols of a context in expression order with their logical positions, swept segments included; none when a record
cannot be read. -/
def State.wholeExpr (s : State) (c : Nat) : Option (List (Nat × Sym)) :=
  (s.items c).foldl (fun acc p =>
    match acc, p.2 with
    | none, _ => none
    | some l, .sym _ y => some (l ++ [(p.1, y)])
    | some l, .seg g => (s.loadSegment g).map (fun r => l ++ ((List.range r.1.length).zip r.1).map (fun q => (p.1 + q.1, q.2)))) (some [])

/-- An image (R335). -/
def exprImage (l : List (Nat × Sym)) : List Byte :=
  leBytes 64 (packFields [(64, 1), (32, 64 + 16 * l.length), (32, l.length)]) ++
    l.flatMap (fun p => leBytes 16 (packFields [(72, p.2.code), (40, p.1)]))

def State.readExpr (e : BitVec 512) (s : State) : CmdEnd :=
  withCtx e (fun c _ s =>
    match s.wholeExpr c with
    | none => .done stFailed 0 s
    | some l =>
      let bs := exprImage l
      if opw e 2 < bs.length then .done stNospace bs.length s
      else .done stOk bs.length (s.writeHost (opw e 1) bs)) s

def execReadExpr (q : BitVec 6) (s : State) : Host.Outcome State Fault Refusal :=
  .next (s.command q (· = 8) [mH, mAll, 0, 0, 0, 0] State.readExpr)

/-! MAP and UNMAP (R203, R204, R220, R344). -/

/-- Size of a page. -/
def pageSize (big : Bool) : Nat := if big then 2 ^ 29 else 2 ^ 16

/-- The range of a command: canonical, outside the tile window (R202), aligned, within the space. -/
def rangeOk (v n : Nat) (big : Bool) : Bool :=
  let sz := pageSize big
  let lo := v % 2 ^ 55
  v % sz = 0 && canonical (BitVec.ofNat 64 v) && lo + n * sz ≤ 2 ^ 55 && (n = 0 || lo + n * sz ≤ 2 ^ 55 - 2 ^ 36)

/-- The tables below one table page, by page number. -/
def State.subTables (s : State) (base : Nat) : List Nat :=
  (s.tableEntries base).filterMap (fun q => if bitOf q.2 0 && !bitOf q.2 1 then some (bits q.2 16 32) else none)

/-- The pages that are tables of some context, by page number in increasing order (R203) (log 25). -/
def State.tablePages (s : State) : List Nat :=
  let ps := s.ctxs.flatMap (fun p =>
    let t2 := s.subTables p.2.root
    p.2.root / 65536 :: t2 ++ t2.flatMap (fun f => s.subTables (f * 65536)))
  sortBy (fun x y => x < y) ps.eraseDups

/-- The pages that some context maps, by page number (log 25). -/
def State.mappedPages (s : State) : List Nat :=
  s.ctxs.flatMap (fun p => (s.subTables p.2.root).flatMap (fun f =>
    (s.tableEntries (f * 65536)).flatMap (fun q =>
      if !bitOf q.2 0 then []
      else if bitOf q.2 1 then leafPages q.2 true
      else (s.tableEntries (bits q.2 16 32 * 65536)).flatMap (fun r => if bitOf r.2 0 && bitOf r.2 1 then leafPages r.2 false else []))))

/-- The frame that the host loads behind its MAPs in Table 20.2, by page number: R336 guarantees what becomes of its data. -/
def loadedFrame : Nat := 0x45678

/-- A page for a table, all zero: the manual does not say which page of the partition's memory it is. It is no page that is a table
already, none that is mapped or that the command maps, `n` pages from `a` on, none that holds data, and not the frame of Table 20.2,
while there are others (R336) (log 25). -/
def State.newTable (s : State) (l a n : Nat) : Nat × State :=
  let (lo, hi) := s.partRange l
  let mine (ps : List Nat) : List Nat := sortBy (fun x y => x < y) ((ps.filter (fun p => lo / 65536 ≤ p && p < hi / 65536)).eraseDups)
  let tables := mine s.tablePages
  let busy := mine (loadedFrame :: s.tablePages ++ s.mappedPages ++ (List.range n).map (· + a) ++ s.mem.map (fun p => p.1 / 65536))
  let used := if busy.length < (hi - lo) / 65536 then busy else tables
  let k := lo / 65536 + s.freeVal.toNat % ((hi - lo) / 65536 - used.length)
  let p := used.foldl (fun k u => if u ≤ k then k + 1 else k) k * 65536
  let s := (s.lineTime.map (·.1)).foldl (fun s i => if i / 1024 = p / 65536 then s.stampLine i else s) s.tickFree
  (p, { s with mem := s.mem.filter (fun q => !(p ≤ q.1 && q.1 < p + 65536)) })

/-- The table that an entry names, made when it names none (log 25). -/
def State.subTable (s : State) (l a n pa : Nat) : Nat × State :=
  let e := s.pteAt pa
  if bitOf e 0 && !bitOf e 1 then (bits e 16 32 * 65536, s)
  else
    let (p, s) := s.newTable l a n
    (p, s.putPte pa (p + 1))

/-- Writes a leaf entry for a page of a context, with any tables needed, for a command that maps `n` pages from `a` on (log 25). -/
def State.mapPage (s : State) (x : Ctx) (a n va e : Nat) (big : Bool) : State :=
  let (t2, s) := s.subTable x.part a n (x.root + 8 * bits va 42 13)
  if big then s.putPte (t2 + 8 * bits va 29 13) e
  else
    let (t3, s) := s.subTable x.part a n (t2 + 8 * bits va 29 13)
    s.putPte (t3 + 8 * bits va 16 13) e

/-- The tag of a newly mapped encrypted page fits its lines (R221, log 23). -/
def State.makeTags (s : State) (e : Nat) (big : Bool) : State := s.tagPage ⟨0, big, 0, BitVec.ofNat 64 e⟩

/-- MAP. -/
def State.mapContext (e : BitVec 512) (s : State) : CmdEnd :=
  withCtx e (fun _ x s =>
    let v := opw e 1
    let pa := opw e 2
    let n := bits (opw e 3) 0 24
    let big := bitOf (opw e 3) 24
    let w := opw e 4
    let enc := bitOf w 7
    let sz := pageSize big
    let inside :=
      if pa < 2 ^ 47 then (s.partRange x.part).1 ≤ pa && pa + n * sz ≤ (s.partRange x.part).2 else pa + n * sz ≤ 2 ^ 48
    if !rangeOk v n big || pa % sz ≠ 0 || !inside || bits w 5 2 ≠ 0 || bits w 9 7 ≠ 0 || (!enc && bits w 48 8 ≠ 0) then
      .done stInvalid 0 s
    else
      let s :=
        if enc && opw e 5 ≠ 0 then
          { s with keys := s.keys.put 0 (bits w 48 8) (BitVec.ofNat 768 (ofLe (readTab s.hostMem (opw e 5) 96))) }
        else s
      .done stOk 0 ((List.range n).foldl (fun s i =>
        let leaf := pa + i * sz + w + 3
        (s.mapPage x (pa / 65536) (n * (sz / 65536)) (v % 2 ^ 55 + i * sz) leaf big).makeTags leaf big) s)) s

def execMap (q : BitVec 6) (s : State) : Host.Outcome State Fault Refusal :=
  .next (s.command q (· = 9) [mAll, 2 ^ 48 - 1, 0x1FFFFFF, 0x00FF00000000FFFC, mH, 0] State.mapContext)

/-- Clears the leaf entry of a page. -/
def State.unmapPage (s : State) (x : Ctx) (va : Nat) (big : Bool) : State :=
  let e1 := s.pteAt (x.root + 8 * bits va 42 13)
  if !bitOf e1 0 || bitOf e1 1 then s
  else
    let p2 := bits e1 16 32 * 65536 + 8 * bits va 29 13
    let e2 := s.pteAt p2
    if big then (s.putPte p2 0).dropTags e2 true
    else if !bitOf e2 0 || bitOf e2 1 then s
    else
      let p3 := bits e2 16 32 * 65536 + 8 * bits va 16 13
      (s.putPte p3 0).dropTags (s.pteAt p3) false

/-- The first address in [lo, hi) from which a subscription's remaining tiles read (R344). -/
def Sub.firstIn (x : Sub) (lo hi : Nat) : Option Word :=
  (List.range (bits x.desc.toNat 320 32)).findSome? (fun j =>
    let i := j % x.ring.length
    if x.next.getD i 0 ≤ j && !x.push.any (fun p => p.1 = i && p.2.tile = j) then
      (x.runs j).findSome? (fun r =>
        let at_ := r.1.toNat % 2 ^ 55
        if at_ < hi && lo < at_ + r.2 then some (r.1 + BitVec.ofNat 64 (lo - at_)) else none)
    else none)

/-- Cancels the subscriptions of a context that read from a range. -/
def State.cancelSubs (s : State) (c lo hi : Nat) : State :=
  s.subs.foldl (fun s p =>
    if p.2.ctx = c then (match p.2.firstIn lo hi with | some a => s.subFault p.1 a | none => s) else s) s

/-- UNMAP; of 0 pages it has no effect, the model's choice (log 97). -/
def State.unmapContext (e : BitVec 512) (s : State) : CmdEnd :=
  withCtx e (fun c x s =>
    let v := opw e 1
    let n := bits (opw e 3) 0 24
    let big := bitOf (opw e 3) 24
    if !rangeOk v n big then .done stInvalid 0 s
    else
      let lo := v % 2 ^ 55
      let hi := lo + n * pageSize big
      let s := (List.range n).foldl (fun s i => s.unmapPage x (lo + i * pageSize big) big) s
      .done stOk 0 (if n = 0 then s else (s.dropTrans c lo hi).cancelSubs c lo hi)) s

def execUnmap (q : BitVec 6) (s : State) : Host.Outcome State Fault Refusal :=
  .next (s.command q (· = 10) [mAll, 0, 0x1FFFFFF, 0, 0, 0] State.unmapContext)

end Sys2Proof.Machine
end

