-- ==== Sys2Proof/Machine/Device.lean ====
section
/-!
DEFINITION. The firmware commands that act on the device: FORCE_LEASE, INJECT_FAULT, PARTITION, QUERY_CAPACITY,
READ_RETIREMENTS, ATTEST and READ_JOURNAL (R25, R197, R297, R303, R313, R342, R343, R345, R347).
-/

namespace Sys2Proof.Machine

/-! Leases and faults (R313). -/

/-- FORCE_LEASE: at once, or by an area trigger on a context. -/
def State.forceLease (e : BitVec 512) (s : State) : CmdEnd :=
  let u := opw e 1
  let pset := bits (opw e 2) 0 8
  if !unitOk u || (s.unit u).health = .retired || s.nospare u then .done stInvalid 0 s
  else if bitOf (opw e 2) 8 then
    withCtx e (fun c _ s => .done stOk 0 { s with triggers := s.triggers ++ [(c, opw e 3, u, pset)] }) s
  else .done stOk 0 ((s.modUnit u (fun x => { x with forced := x.forced ++ [pset] })).takeTurn u)

def execForceLease (q : BitVec 6) (s : State) : Host.Outcome State Fault Refusal :=
  .next (s.command q (· = 0x0B) [0xFFFF, 0x1FF, 0xFFF, 0, 0, 0] State.forceLease)

/-- INJECT_FAULT: the next `count` runs of the unit's patterns fail, or the score takes `count` errors (log 75). -/
def State.injectFault (e : BitVec 512) (s : State) : CmdEnd :=
  let u := opw e 1
  let n := bits (opw e 2) 16 16
  if !unitOk u then .done stInvalid 0 s
  else
    match bits (opw e 2) 0 2 with
    | 0 => .done stOk 0 (s.modUnit u (fun x => { x with inject := max x.inject n }))
    | 1 => .done stOk 0 (s.score u n)
    | 2 => .done stOk 0 (s.score u (256 * n))
    | _ => .done stInvalid 0 s

def execInjectFault (q : BitVec 6) (s : State) : Host.Outcome State Fault Refusal :=
  .next (s.command q (· = 0x0C) [0xFFFF, 0xFFFF0003, 0, 0, 0, 0] State.injectFault)

/-! Bytes keep their channels when addresses change (R197, R345). -/

/-- Channel and byte of a device address. -/
def State.chanByte (s : State) (pa : Nat) : Nat × Nat :=
  let h := s.homeOf pa
  (s.chanOf h, h.granule * 512 + pa % 512)

/-- The device address of a channel's byte; none for the spare. -/
def State.addrOf (s : State) (ch off : Nat) : Option Nat :=
  let stack := ch / 64
  let l := s.lead (stack / 3)
  let n := (s.part l).dies
  (s.slotOfChan ch).map (fun k =>
    l * dieBytes + (off / 512 * s.activeCount l + k * (3 * n) + (stack - 3 * l)) * 512 + off % 512)

/-- The bytes and poisoned lines of `s` at the addresses that `t` gives to their places (log 70). -/
def State.rekey (s t : State) : State :=
  let dest (pa : Nat) : Option Nat := let (ch, off) := s.chanByte pa; t.addrOf ch off
  { t with
    mem := s.mem.foldl (fun m p => match dest p.1 with | some a => m.put 0 a p.2 | none => m) []
    linePoison := s.linePoison.foldl (fun m p => match dest (64 * p.1) with | some a => m.put false (a / 64) p.2 | none => m) [] }

/-! PARTITION (R25, R345). -/

/-- Why the device cannot be recut now. -/
def State.cutStatus (s : State) (q n : Nat) : Nat :=
  if s.ctxs.any (fun p => p.2.status ≠ .dead && (s.involved n).contains p.2.part) then stState
  else if s.hq.any (fun p => p.1 ≠ q && s.inInvolved n p.2.die && (p.2.head ≠ p.2.tail || p.2.pending || p.2.busy.isSome)) then stBusy
  else stOk

/-- Leases of involved partitions are running (log 26). -/
def State.cutLeases (s : State) (n : Nat) : Bool :=
  s.leases.any (fun l => l.cause ≠ 3 && (unitDies l.unit).any (fun d => s.inInvolved n d))

/-- A hearth of an involved partition is reset (R68, R268); its clock, its spill point and its logical time stay (log 62). -/
def Hearth.recut (x : Hearth) (ref : Nat) : Hearth :=
  { Hearth.reset with
    spill := x.spill
    pclk := x.pclk
    jclk := x.jclk
    asked := x.asked
    clock := x.clock
    clockRef := ref
    clk := x.clk }

/-- The device is cut anew (log 26). -/
def State.recut (s : State) (n : Nat) : State :=
  let dies := (List.range 4).filter (s.inInvolved n)
  let parts := (cutLeads n).map (fun l =>
    match s.parts.find l with
    | some p => if p.dies = 4 / n then (l, p) else (l, { Part.reset (4 / n) with cyc := p.cyc })
    | none => (l, { Part.reset (4 / n) with cyc := (s.part (s.lead l)).cyc }))
  let hs := dies.flatMap (fun d => (List.range 256).map (· + 256 * d))
  let t : State := hs.foldl (fun s h => s.modHearth h (fun x => x.recut s.ref)) s
  let t : State := { t with
    cut := n
    parts := parts
    cutting := none
    dtlb := t.dtlb.filter (fun p => !dies.contains p.1)
    walks := t.walks.filter (fun w => !dies.contains w.die)
    slices := t.slices.filter (fun p => !dies.contains (p.1 / 192))
    releases := t.releases.filter (fun p => decide (2 ^ 60 ≤ p.1) || !dies.contains (8 * p.1 / dieBytes))
    tags := t.tags.filter (fun p => !dies.contains (p.1 * 65536 / dieBytes)) }
  s.rekey t

/-- The new number of partitions. -/
def newCut (e : BitVec 512) : Nat := 2 ^ (opw e 1)

/-- The involved partitions are quiesced: their sweeps and their queues stop, no lease of theirs begins, and those that run end, in hearths
that hold nothing (log 26). -/
def State.quiesce (s : State) (q n : Nat) : State :=
  let hs := (s.involved n).flatMap (fun l => s.stagedHearths l .withdrawal)
  { hs.foldl (fun s h => s.withdraw h) s with cutting := some (q, n) }

/-- PARTITION: it ends at once, or once the leases of the involved partitions have ended. -/
def State.partitionDevice (q : Nat) (e : BitVec 512) (s : State) : CmdEnd :=
  if 2 < opw e 1 then .done stInvalid 0 s
  else
    let n := newCut e
    match s.cutStatus q n with
    | 0 => if s.cutLeases n then .later (s.quiesce q n) else .done stOk 0 (s.recut n)
    | st => .done st 0 s

/-- The last lease that a PARTITION of queue `q` waited for has ended: the device is recut, the command completes, and the turns that
waited start. -/
def State.endCut (s : State) (q n : Nat) : State :=
  match (s.hostq q).busy with
  | some e => ((s.recut n).doneEntry q e stOk 0).startDue
  | none => s

/-- PARTITION (R25, R345): its entry is taken, or the cut that its entry began is made (log 26). -/
def execPartition (q : BitVec 6) (s : State) : Host.Outcome State Fault Refusal :=
  .next (
    match s.cutting with
    | some (k, n) => if k = q.toNat && s.powered && s.stage = 7 && !s.cutLeases n then s.endCut k n else s
    | none => s.command q (· = 0x0D) [3, 0, 0, 0, 0, 0] (State.partitionDevice q.toNat))

/-! Reports. -/

/-- Ends a command that writes `bs` into a host buffer of `size` bytes, with `result`. -/
def State.report (s : State) (a size : Nat) (bs : List Byte) (result : Nat) : CmdEnd :=
  if size < bs.length then .done stNospace 0 s else .done stOk result (s.writeHost a bs)

/-- QUERY_CAPACITY. -/
def State.queryCapacity (e : BitVec 512) (s : State) : CmdEnd :=
  let die := opw e 3
  if !s.leads die then .done stInvalid 0 s
  else
    let bs := leBytes 64 (s.capRecord die 7 0 0 0).toNat ++ s.leaseLog.flatMap (fun r => leBytes 32 r.toNat)
    s.report (opw e 1) (opw e 2) bs bs.length

def execQueryCapacity (q : BitVec 6) (s : State) : Host.Outcome State Fault Refusal :=
  .next (s.command q (· = 0x0E) [mH, mAll, 3, 0, 0, 0] State.queryCapacity)

/-- READ_RETIREMENTS (R303). -/
def State.readRetirements (e : BitVec 512) (s : State) : CmdEnd :=
  let w := s.retireStore.length + 2 ^ 63 * bit s.retireFull
  s.report (opw e 1) (opw e 2) (leBytes 8 w ++ s.retireStore.flatMap signedRecord) 0

def execReadRetirements (q : BitVec 6) (s : State) : Host.Outcome State Fault Refusal :=
  .next (s.command q (· = 0x0F) [mH, mAll, 0, 0, 0, 0] State.readRetirements)

/-- The code of a cut. -/
def cutCode (n : Nat) : Nat := if n = 1 then 0 else if n = 2 then 1 else 2

/-- The attestation report (Table 21.9). -/
def State.attestation (s : State) (nonce : Nat) : List Byte :=
  let chain := match s.retireStore.getLast? with | none => 0 | some r => ofLe (shake256 8 (signedRecord r))
  leBytes 192 (packFields [(16, 1), (16, s.retireStore.length), (2, cutCode s.cut), (30, 0), (12, s.fabdev), (52, 0),
    (64, (s.part 0).cyc), (32, 0), (32, s.powerHours), (64, s.jseq % 2 ^ 32), (64, Config.devid.toNat), (64, Config.fwver.toNat),
    (64, chain), (512, Config.meas.toNat), (512, nonce)])

/-- ATTEST (R347). -/
def State.attest (e : BitVec 512) (s : State) : CmdEnd :=
  let r := s.attestation (ofLe (readTab s.hostMem (opw e 1) 64))
  let bs := r ++ leBytes 1280 (Config.signature r).toNat ++ leBytes 1793 Config.publicKey.toNat
  .done stOk 0 (s.writeHost (opw e 2) bs)

def execAttest (q : BitVec 6) (s : State) : Host.Outcome State Fault Refusal :=
  .next (s.command q (· = 0x10) [mH, mH, 0, 0, 0, 0] State.attest)

/-- The held journal entries, the oldest first, each with its number since the journal began. -/
def State.heldEntries (s : State) : List (Nat × BitVec 512) :=
  let n := s.jseq % 65536
  let l := s.journal.filter (fun p => n < p.1) ++ s.journal.filter (fun p => p.1 ≤ n)
  l.map (fun p => (s.jseq - (n + 65536 - p.1) % 65536, p.2))

/-- The number of the entry with a 32-bit sequence number: the next of these that is to come, if it is among the next 65,536, or the last
that was; none when there was none yet (R343) (log 68). -/
def State.journalFrom (s : State) (first : Nat) : Option Nat :=
  let d := (s.jseq + 65536 + 2 ^ 32 - first) % 2 ^ 32
  if s.jseq + 65536 < d then none else some (s.jseq + 65536 - d)

/-- READ_JOURNAL (R343). -/
def State.readJournal (e : BitVec 512) (s : State) : CmdEnd :=
  let held := s.heldEntries
  let es : List (Nat × BitVec 512) := match s.journalFrom (bits (opw e 1) 0 32) with
    | some n => (held.filter (fun p => decide (n ≤ p.1))).take (opw e 2)
    | none => []
  .done stOk ((held.head?.map (·.1 % 2 ^ 32)).getD 0) (s.writeHost (opw e 3) (es.flatMap (fun p => leBytes 64 p.2.toNat)))

def execReadJournal (q : BitVec 6) (s : State) : Host.Outcome State Fault Refusal :=
  .next (s.command q (· = 0x11) [0xFFFFFFFF, mAll, mH, 0, 0, 0] State.readJournal)

end Sys2Proof.Machine
end

