-- ==== Sys2Proof/Machine/Package.lean ====
section
/-!
DEFINITION. The package: power, clocks and coolant, management over I3C, boundary scan, reset and bring-up (R351–R357).
-/

namespace Sys2Proof.Machine

/-! Resets (R195, R299, R302, R357). -/

/-- The retired units of a class, by index. -/
def State.retiredOf (s : State) (c : Nat) : List Nat :=
  s.units.filterMap (fun p => if unitClass p.1 = c && p.2.health = .retired then some (unitIndex p.1) else none)

/-- The channels of a device reset: slot k names channel k, and channel 63 of a stack is its spare, which stands in for a retired
channel of the stack (log 70). -/
def State.bootChannels (s : State) : State :=
  (s.retiredOf 1).foldl (fun s ch =>
    { s with
      chanMap := if ch % 64 = 63 then s.chanMap else s.chanMap.set ch (ch / 64 * 64 + 63)
      spare := s.spare.set (ch / 64) 64 }) { s with chanMap := [], spare := [] }

/-- What every reset keeps: the schedule of the model, the world outside the device, and the nonvolatile store (log 15). -/
def State.afterReset (s : State) (cold : Bool) : State :=
  { State.reset with
    agenda := s.agenda
    tick := s.tick
    free := s.free
    nextUid := s.nextUid
    hostMem := s.hostMem
    irqs := s.irqs
    hostReply := s.hostReply
    fabAcks := s.fabAcks
    retireStore := s.retireStore
    retireFull := s.retireFull
    savedScores := s.savedScores
    tap := s.tap
    resetHeld := s.resetHeld
    inletDeg := s.inletDeg
    inletOut := s.inletOut
    cold := cold }

/-- A device without power keeps the nonvolatile store only (R299, R303, R354) (log 15). -/
def State.unpowered (s : State) : State := { s.afterReset true with powered := false, tap := .idcode }

/-- The mapping of addresses that bring-up will form on the retained channels (log 70). -/
def State.warmMap (s : State) : State :=
  ({ s with cut := 1, parts := [(0, Part.reset 4)], leases := [] } : State).bootChannels

/-- A warm reset (R357): the stacks keep their bytes, the journal and the lease log go on; retired units stay retired (log 15, 70). -/
def State.warmReset (s : State) : State :=
  let m := s.warmMap
  let k := s.rekey m
  { s.afterReset false with
    mem := k.mem
    linePoison := k.linePoison
    chanMap := m.chanMap
    spare := m.spare
    units := (s.units.filter (fun p => p.2.health = .retired)).map (fun p => (p.1, { LUnit.reset with health := .retired }))
    leaseLog := s.leaseLog
    lseq := s.lseq
    journal := s.journal
    jseq := s.jseq
    i3cAddr := s.i3cAddr
    ref := s.ref
    halvings := s.halvings }

/-- RESET_REGISTER_WRITE (R355, R357). -/
def execResetRegisterWrite (v : Word) (s : State) : Host.Outcome State Fault Refusal :=
  .next (if s.powered && v = 0x5A then s.warmReset else s)

/-- EXTEST ends where it would not be accepted (R356). -/
def State.endExtest (s : State) : State :=
  if s.tap = .extest && !s.resetHeld && s.stage ≠ 0 then { s with tap := .bypass } else s

/-- RESET_INPUT (R356, R357): the input is asserted, which resets the device, or released. -/
def execResetInput (held : Bool) (s : State) : Host.Outcome State Fault Refusal :=
  .next (
    if held then (if s.resetHeld then s else { (if s.powered then s.warmReset else s) with resetHeld := true })
    else { s with resetHeld := false }.endExtest)

/-- POWER_UP (R357): a cold reset begins. -/
def execPowerUp (s : State) : Host.Outcome State Fault Refusal :=
  .next (if s.powered then s else { s.afterReset true with powered := true })

/-- LOSS_OF_POWER (R303). -/
def execLossOfPower (s : State) : Host.Outcome State Fault Refusal := .next s.unpowered

/-- THERMAL_TRIP (R354): power is removed; the cold reset that follows is begun by POWER_UP. -/
def execThermalTrip (s : State) : Host.Outcome State Fault Refusal := .next s.unpowered

/-! Bring-up (Table 22.3). -/

/-- Stage 3: units of the retirement store are retired, and the saved scores are restored: only an increment brings
an early lease (R299). -/
def State.restoreUnits (s : State) : State :=
  let s := s.retireStore.foldl (fun s r => s.modUnit (bits r.toNat 16 16) (fun x => { x with health := .retired })) s
  let s := s.savedScores.foldl (fun s p => s.modUnit p.1 (fun x => { x with score := p.2 })) s
  s.bootChannels

/-- What a stage does, at its end. -/
def State.endStage (s : State) : State :=
  match s.stage with
  | 2 => if s.cold then { s with mem := [], linePoison := [] } else s
  | 3 => s.restoreUnits
  -- the route table names the ports that are in service (R346)
  | 4 => { s with unrouted := s.retiredOf 2 }
  | 6 => { s with
      cut := 1
      parts := [(0, Part.reset 4)]
      hearths := []
      refReset := s.ref }
  | _ => s

/-- BRINGUP_STAGE_COMPLETE (R357): a stage ends and the next begins, unless verification fails at stage 1. -/
def execBringupStageComplete (ok : Bool) (s : State) : Host.Outcome State Fault Refusal :=
  .next (
    if !s.powered || s.resetHeld || s.alert || 7 ≤ s.stage then s
    else if s.stage = 1 && !ok then { s with alert := true }
    else { s.endStage with stage := s.stage + 1 }.endExtest)

/-! Management (R355) and boundary scan (R356). -/

/-- The alert output: a failed verification, or coolant out of its range (R353). -/
def State.alertOut (s : State) : Bool := s.powered && (s.alert || s.inletOut)

/-- The value of a management register (Table 22.2). -/
def State.manage (s : State) (off : Nat) : Word :=
  match off with
  | 0x00 => BitVec.ofNat 64 (packFields [(32, Config.fwver.toNat), (32, Config.devid.toNat)])
  | 0x08 => BitVec.ofNat 64 s.pcap
  -- the last average that the power controller took, and what the junction sensors read (log 63)
  | 0x10 => BitVec.ofNat 64 (packFields [(32, s.watts), (16, (Config.junction s.ref).toNat)])
  | 0x18 => s.rota
  | 0x20 => BitVec.ofNat 64 s.scrub
  | 0x28 => BitVec.ofNat 64 s.fabdev
  | 0x30 => BitVec.ofNat 64 s.stage
  | _ => 0

/-- I3C_DYNAMIC_ADDRESS. -/
def execI3cDynamicAddress (addr : BitVec 7) (s : State) : Host.Outcome State Fault Refusal :=
  .next (if s.powered then { s with i3cAddr := addr } else s)

/-- What the data register of the selected scan instruction reads; BYPASS and the boundary register are not fixed (log 65). -/
def Tap.reads : Tap → Option (BitVec 32)
  | .idcode => some 0x0B41D2A5
  | _ => none

def execBypass (s : State) : Host.Outcome State Fault Refusal := .next { s with tap := .bypass }

def execIdcode (s : State) : Host.Outcome State Fault Refusal := .next { s with tap := .idcode }

/-- SAMPLE/PRELOAD touches nothing of the device. -/
def execSamplePreload (s : State) : Host.Outcome State Fault Refusal := .next { s with tap := .samplePreload }

/-- EXTEST, where it is accepted; BYPASS elsewhere. -/
def execExtest (s : State) : Host.Outcome State Fault Refusal :=
  .next { s with tap := if s.resetHeld || s.stage = 0 then .extest else .bypass }

/-! Power, clocks and coolant (R350–R354). -/

/-- The effective cap in W. -/
def State.effectiveCap (s : State) : Nat := s.pcap - 50 * (s.inletDeg - 40)

/-- A hearth's clock, in steps of 100 MHz, is set; its cycles so far are kept. -/
def State.setClock (s : State) (h n : Nat) : State :=
  s.modHearth h (fun x => { x with
    cycles := x.cycles + (s.ref - max x.clockRef s.refReset) * x.clock
    clockRef := s.ref
    clock := n })

/-- A millisecond in ticks: the pace of the clock's steps. -/
def stepTicks : Nat := 3600000

/-- The asks of a hearth's clock in millisecond `m`: those of another one are over, and its clock is what it was changed to. -/
def Hearth.asks (x : Hearth) (m : Nat) : Hearth := if x.asked.1 = m then x else { x with asked := (m, x.clock), pclk := 36, jclk := 36 }

/-- The clock of a hearth at the beginning of this millisecond. -/
def State.clockBefore (s : State) (h : Nat) : Nat := ((s.hearth h).asks (s.ref / stepTicks)).asked.2

/-- A hearth's clock is asked to change: of different asks in one millisecond the lower applies (R352) (log 63). -/
def State.askClock (s : State) (h : Nat) (f : Hearth → Hearth) : State :=
  let s := s.modHearth h (fun x => f (x.asks (s.ref / stepTicks)))
  s.setClock h (min (s.hearth h).pclk (s.hearth h).jclk)

/-- JUNCTION_CLOCK_STEP (R352). -/
def execJunctionClockStep (h : Nat) (s : State) : Host.Outcome State Fault Refusal :=
  .next (
    let n := s.clockBefore h
    if s.stage = 7 && h < 1024 && decide (12 < n) then s.askClock h (fun x => { x with jclk := n - 1 }) else s)

/-- Hearths that are not retired. -/
def State.clocked (s : State) (h : Nat) : Bool := (s.unit (hearthUnit h)).health = .inService

/-- No hearth runs slower than this one (R351). -/
def State.slowest (s : State) (h : Nat) : Bool := s.hearths.all (fun p => decide ((s.hearth h).clock ≤ p.2.clock) || !s.clocked p.1)

/-- Of the hearths whose clock can fall, none had its matrix queue busier in the last window (R351). -/
def State.busiest (s : State) (h : Nat) : Bool :=
  s.busyLast.all (fun p => decide (p.2 ≤ s.busyLast.get 0 h) || decide (s.clockBefore p.1 ≤ 12) || !s.clocked p.1)

/-- POWER_CONTROLLER_STEP (R351): the average is above the cap, and one of the busiest hearths slows; or it is below 95 % of it, and one of
the slowest speeds up (log 63). -/
def execPowerControllerStep (watts h : Nat) (s : State) : Host.Outcome State Fault Refusal :=
  .next (
    if s.stage ≠ 7 || 1024 ≤ h then s
    else
      let n := s.clockBefore h
      let s : State := { s with watts := watts }
      if s.effectiveCap < watts && decide (12 < n) && s.busiest h then s.askClock h (fun x => { x with pclk := n - 1 })
      else if 100 * watts < 95 * s.effectiveCap && decide (n < 36) && s.slowest h then s.askClock h (fun x => { x with pclk := n + 1 })
      else s)

/-- EMBER_SPILL_ADJUST (R354) (log 63). -/
def execEmberSpillAdjust (h point : Nat) (s : State) : Host.Outcome State Fault Refusal :=
  .next (
    if s.stage = 7 && h < 1024 && decide (2048 ≤ point) && decide (point ≤ 4096) then
      s.modHearth h (fun x => { x with spill := point })
    else s)

/-- COOLANT_OUT_OF_RANGE (R353). -/
def execCoolantOutOfRange (s : State) : Host.Outcome State Fault Refusal := .next { s with inletOut := true }

/-- INLET_TEMPERATURE_CHANGE (R353): the inlet is out of its range outside 15–45 °C, and where its sensors (`inRange`) say that the flow
is low. -/
def execInletTemperatureChange (degrees : Nat) (inRange : Bool) (s : State) : Host.Outcome State Fault Refusal :=
  .next { s with inletDeg := degrees, inletOut := !inRange || decide (degrees < 15) || decide (45 < degrees) }

end Sys2Proof.Machine
end

