-- ==== Sys2Proof/Machine/Dispatch.lean ====
section
/-!
DEFINITION. The meaning of every row: one arm for each constructor of Instr.
-/

namespace Sys2Proof.Machine

def exec (i : Instr) (s : State) : Host.Outcome State Fault Refusal :=
  match i with
  | .nop c => Sys2Proof.Machine.execNop c s
  | .commit c => Sys2Proof.Machine.execCommit c s
  | .discard c => Sys2Proof.Machine.execDiscard c s
  | .yield c => Sys2Proof.Machine.execYield c s
  | .trap c code => Sys2Proof.Machine.execTrap c code s
  | .brkpt c => Sys2Proof.Machine.execBrkpt c s
  | .br c off => Sys2Proof.Machine.execBr c off s
  | .call c off => Sys2Proof.Machine.execCall c off s
  | .brx c a => Sys2Proof.Machine.execBrx c a s
  | .retn c a => Sys2Proof.Machine.execRetn c a s
  | .cmp c f d a b => Sys2Proof.Machine.execCmp c f d a b s
  | .fcmp c f d a b => Sys2Proof.Machine.execFcmp c f d a b s
  | .pand c d a b => Sys2Proof.Machine.execPand c d a b s
  | .por c d a b => Sys2Proof.Machine.execPor c d a b s
  | .pxor c d a b => Sys2Proof.Machine.execPxor c d a b s
  | .pnot c d a => Sys2Proof.Machine.execPnot c d a s
  | .pmov c d a => Sys2Proof.Machine.execPmov c d a s
  | .sel c f d a b => Sys2Proof.Machine.execSel c f d a b s
  | .cmpiEq c d a imm => Sys2Proof.Machine.execCmpiEq c d a imm s
  | .cmpiNe c d a imm => Sys2Proof.Machine.execCmpiNe c d a imm s
  | .cmpiLt c d a imm => Sys2Proof.Machine.execCmpiLt c d a imm s
  | .cmpiLe c d a imm => Sys2Proof.Machine.execCmpiLe c d a imm s
  | .cmpiGt c d a imm => Sys2Proof.Machine.execCmpiGt c d a imm s
  | .cmpiGe c d a imm => Sys2Proof.Machine.execCmpiGe c d a imm s
  | .cmpiLtu c d a imm => Sys2Proof.Machine.execCmpiLtu c d a imm s
  | .cmpiGeu c d a imm => Sys2Proof.Machine.execCmpiGeu c d a imm s
  | .add c d a b => Sys2Proof.Machine.execAdd c d a b s
  | .sub c d a b => Sys2Proof.Machine.execSub c d a b s
  | .mul c d a b => Sys2Proof.Machine.execMul c d a b s
  | .mulhi c d a b => Sys2Proof.Machine.execMulhi c d a b s
  | .mulhiu c d a b => Sys2Proof.Machine.execMulhiu c d a b s
  | .div c d a b => Sys2Proof.Machine.execDiv c d a b s
  | .divu c d a b => Sys2Proof.Machine.execDivu c d a b s
  | .rem c d a b => Sys2Proof.Machine.execRem c d a b s
  | .remu c d a b => Sys2Proof.Machine.execRemu c d a b s
  | .and c d a b => Sys2Proof.Machine.execAnd c d a b s
  | .or c d a b => Sys2Proof.Machine.execOr c d a b s
  | .xor c d a b => Sys2Proof.Machine.execXor c d a b s
  | .shl c d a b => Sys2Proof.Machine.execShl c d a b s
  | .shr c d a b => Sys2Proof.Machine.execShr c d a b s
  | .sra c d a b => Sys2Proof.Machine.execSra c d a b s
  | .rol c d a b => Sys2Proof.Machine.execRol c d a b s
  | .min c d a b => Sys2Proof.Machine.execMin c d a b s
  | .max c d a b => Sys2Proof.Machine.execMax c d a b s
  | .minu c d a b => Sys2Proof.Machine.execMinu c d a b s
  | .maxu c d a b => Sys2Proof.Machine.execMaxu c d a b s
  | .abs c d a => Sys2Proof.Machine.execAbs c d a s
  | .neg c d a => Sys2Proof.Machine.execNeg c d a s
  | .clz c d a => Sys2Proof.Machine.execClz c d a s
  | .ctz c d a => Sys2Proof.Machine.execCtz c d a s
  | .popc c d a => Sys2Proof.Machine.execPopc c d a s
  | .sext c f d a => Sys2Proof.Machine.execSext c f d a s
  | .zext c f d a => Sys2Proof.Machine.execZext c f d a s
  | .mov c d a => Sys2Proof.Machine.execMov c d a s
  | .addi c d a imm => Sys2Proof.Machine.execAddi c d a imm s
  | .andi c d a imm => Sys2Proof.Machine.execAndi c d a imm s
  | .ori c d a imm => Sys2Proof.Machine.execOri c d a imm s
  | .xori c d a imm => Sys2Proof.Machine.execXori c d a imm s
  | .shli c d a n => Sys2Proof.Machine.execShli c d a n s
  | .shri c d a n => Sys2Proof.Machine.execShri c d a n s
  | .srai c d a n => Sys2Proof.Machine.execSrai c d a n s
  | .roli c d a n => Sys2Proof.Machine.execRoli c d a n s
  | .movi c d imm => Sys2Proof.Machine.execMovi c d imm s
  | .fadd c rnd d a b => Sys2Proof.Machine.execFadd c rnd d a b s
  | .fsub c rnd d a b => Sys2Proof.Machine.execFsub c rnd d a b s
  | .fmul c rnd d a b => Sys2Proof.Machine.execFmul c rnd d a b s
  | .fdiv c rnd d a b => Sys2Proof.Machine.execFdiv c rnd d a b s
  | .fsqrt c f d a => Sys2Proof.Machine.execFsqrt c f d a s
  | .fmin c d a b => Sys2Proof.Machine.execFmin c d a b s
  | .fmax c d a b => Sys2Proof.Machine.execFmax c d a b s
  | .fabs c d a => Sys2Proof.Machine.execFabs c d a s
  | .fneg c d a => Sys2Proof.Machine.execFneg c d a s
  | .fclass c d a => Sys2Proof.Machine.execFclass c d a s
  | .symrd c d => Sys2Proof.Machine.execSymrd c d s
  | .symkd c d => Sys2Proof.Machine.execSymkd c d s
  | .mksym c k d a => Sys2Proof.Machine.execMksym c k d a s
  | .movs c d x => Sys2Proof.Machine.execMovs c d x s
  | .symget c f d a => Sys2Proof.Machine.execSymget c f d a s
  | .bcast c d a b => Sys2Proof.Machine.execBcast c d a b s
  | .reduceInt c f d a => Sys2Proof.Machine.execReduceInt c f d a s
  | .reduceFp32 c f d a => Sys2Proof.Machine.execReduceFp32 c f d a s
  | .scanInt c f d a => Sys2Proof.Machine.execScanInt c f d a s
  | .scanFp32 c f d a => Sys2Proof.Machine.execScanFp32 c f d a s
  | .count c d a => Sys2Proof.Machine.execCount c d a s
  | .first c d a => Sys2Proof.Machine.execFirst c d a s
  | .areabar c => Sys2Proof.Machine.execAreabar c s
  | .emit c k a => Sys2Proof.Machine.execEmit c k a s
  | .emitn c k a b => Sys2Proof.Machine.execEmitn c k a b s
  | .insert c a => Sys2Proof.Machine.execInsert c a s
  | .delete c => Sys2Proof.Machine.execDelete c s
  | .opld c a => Sys2Proof.Machine.execOpld c a s
  | .movd c d a => Sys2Proof.Machine.execMovd c d a s
  | .movds c d a => Sys2Proof.Machine.execMovds c d a s
  | .dset c f d a => Sys2Proof.Machine.execDset c f d a s
  | .talloc c d a => Sys2Proof.Machine.execTalloc c d a s
  | .tfree c a => Sys2Proof.Machine.execTfree c a s
  | .qfence c m => Sys2Proof.Machine.execQfence c m s
  | .qwait c m => Sys2Proof.Machine.execQwait c m s
  | .slotrel c a b => Sys2Proof.Machine.execSlotrel c a b s
  | .unsubs c a => Sys2Proof.Machine.execUnsubs c a s
  | .binit c a b => Sys2Proof.Machine.execBinit c a b s
  | .barv c a => Sys2Proof.Machine.execBarv c a s
  | .bexp c a b => Sys2Proof.Machine.execBexp c a b s
  | .bwait c d a b => Sys2Proof.Machine.execBwait c d a b s
  | .btry c d a b => Sys2Proof.Machine.execBtry c d a b s
  | .fence c scope ord => Sys2Proof.Machine.execFence c scope ord s
  | .popset c pri a b => Sys2Proof.Machine.execPopset c pri a b s
  | .evsend c pri a b => Sys2Proof.Machine.execEvsend c pri a b s
  | .accrd c pri d a => Sys2Proof.Machine.execAccrd c pri d a s
  | .accwr c pri a b => Sys2Proof.Machine.execAccwr c pri a b s
  | .accfl c pri a b => Sys2Proof.Machine.execAccfl c pri a b s
  | .evwait c a => Sys2Proof.Machine.execEvwait c a s
  | .caprd c d a => Sys2Proof.Machine.execCaprd c d a s
  | .susrd c d a => Sys2Proof.Machine.execSusrd c d a s
  | .tretResume c => Sys2Proof.Machine.execTretResume c s
  | .tretSkip c => Sys2Proof.Machine.execTretSkip c s
  | .tretDiscard c => Sys2Proof.Machine.execTretDiscard c s
  | .tretKill c => Sys2Proof.Machine.execTretKill c s
  | .areard c d a => Sys2Proof.Machine.execAreard c d a s
  | .areawr c a b => Sys2Proof.Machine.execAreawr c a b s
  | .savec c a => Sys2Proof.Machine.execSavec c a s
  | .restc c a => Sys2Proof.Machine.execRestc c a s
  | .tlbinv c a b => Sys2Proof.Machine.execTlbinv c a b s
  | .rdctr c f d a => Sys2Proof.Machine.execRdctr c f d a s
  | .mark c a => Sys2Proof.Machine.execMark c a s
  | .hostsig c a b => Sys2Proof.Machine.execHostsig c a b s
  | .brc c f a b off => Sys2Proof.Machine.execBrc c f a b off s
  | .loop c d off => Sys2Proof.Machine.execLoop c d off s
  | .bext c d a w lo => Sys2Proof.Machine.execBext c d a w lo s
  | .bins c d a w lo => Sys2Proof.Machine.execBins c d a w lo s
  | .ffma c rnd d a b e => Sys2Proof.Machine.execFfma c rnd d a b e s
  | .fcvt c d a sat rnd dt st => Sys2Proof.Machine.execFcvt c d a sat rnd dt st s
  | .evsendt c pri a b e => Sys2Proof.Machine.execEvsendt c pri a b e s
  | .csrrd c d num => Sys2Proof.Machine.execCsrrd c d num s
  | .csrwr c a num => Sys2Proof.Machine.execCsrwr c a num s
  | .ld c d a m => Sys2Proof.Machine.execLd c d a m s
  | .st c a b m => Sys2Proof.Machine.execSt c a b m s
  | .pref c a m => Sys2Proof.Machine.execPref c a m s
  | .aadd c d a b m => Sys2Proof.Machine.execAadd c d a b m s
  | .afadd c d a b m => Sys2Proof.Machine.execAfadd c d a b m s
  | .amin c d a b m => Sys2Proof.Machine.execAmin c d a b m s
  | .amax c d a b m => Sys2Proof.Machine.execAmax c d a b m s
  | .aand c d a b m => Sys2Proof.Machine.execAand c d a b m s
  | .aor c d a b m => Sys2Proof.Machine.execAor c d a b m s
  | .axor c d a b m => Sys2Proof.Machine.execAxor c d a b m s
  | .aswp c d a b m => Sys2Proof.Machine.execAswp c d a b m s
  | .acas c d a b m => Sys2Proof.Machine.execAcas c d a b m s
  | .waita c f a b m => Sys2Proof.Machine.execWaita c f a b m s
  | .cpyin c pri ctr d a b m => Sys2Proof.Machine.execCpyin c pri ctr d a b m s
  | .cpyout c pri ctr d a b m => Sys2Proof.Machine.execCpyout c pri ctr d a b m s
  | .cpyt c pri ctr d a b m => Sys2Proof.Machine.execCpyt c pri ctr d a b m s
  | .cpyx c pri ctr d a b m => Sys2Proof.Machine.execCpyx c pri ctr d a b m s
  | .gather c pri d a b m => Sys2Proof.Machine.execGather c pri d a b m s
  | .scatter c pri d a b m => Sys2Proof.Machine.execScatter c pri d a b m s
  | .scatadd c pri d a b m => Sys2Proof.Machine.execScatadd c pri d a b m s
  | .subscr c pri d a b m => Sys2Proof.Machine.execSubscr c pri d a b m s
  | .slotwb c pri a b m => Sys2Proof.Machine.execSlotwb c pri a b m s
  | .cadd c a b m => Sys2Proof.Machine.execCadd c a b m s
  | .cwait c a b m => Sys2Proof.Machine.execCwait c a b m s
  | .tld c pri d a m => Sys2Proof.Machine.execTld c pri d a m s
  | .tst c pri a b m => Sys2Proof.Machine.execTst c pri a b m s
  | .mma c f d a b w => Sys2Proof.Machine.execMma c f d a b w s
  | .mmai c f d a b w => Sys2Proof.Machine.execMmai c f d a b w s
  | .mmax c f d a b w => Sys2Proof.Machine.execMmax c f d a b w s
  | .scacc c f d a b w => Sys2Proof.Machine.execScacc c f d a b w s
  | .ttrn c f d a b w => Sys2Proof.Machine.execTtrn c f d a b w s
  | .tcvt c f d a b w => Sys2Proof.Machine.execTcvt c f d a b w s
  | .cxsort c f d a b w => Sys2Proof.Machine.execCxsort c f d a b w s
  | .cxmerge c f d a b w => Sys2Proof.Machine.execCxmerge c f d a b w s
  | .tzero c f d a b w => Sys2Proof.Machine.execTzero c f d a b w s
  | .tfill c f d a b w => Sys2Proof.Machine.execTfill c f d a b w s
  | .tlay c f d a b w => Sys2Proof.Machine.execTlay c f d a b w s
  | .vadd c f d a b w => Sys2Proof.Machine.execVadd c f d a b w s
  | .vsub c f d a b w => Sys2Proof.Machine.execVsub c f d a b w s
  | .vmul c f d a b w => Sys2Proof.Machine.execVmul c f d a b w s
  | .vfma c f d a b w => Sys2Proof.Machine.execVfma c f d a b w s
  | .vmin c f d a b w => Sys2Proof.Machine.execVmin c f d a b w s
  | .vmax c f d a b w => Sys2Proof.Machine.execVmax c f d a b w s
  | .vabs c f d a b w => Sys2Proof.Machine.execVabs c f d a b w s
  | .vneg c f d a b w => Sys2Proof.Machine.execVneg c f d a b w s
  | .vand c f d a b w => Sys2Proof.Machine.execVand c f d a b w s
  | .vor c f d a b w => Sys2Proof.Machine.execVor c f d a b w s
  | .vxor c f d a b w => Sys2Proof.Machine.execVxor c f d a b w s
  | .vshl c f d a b w => Sys2Proof.Machine.execVshl c f d a b w s
  | .vshr c f d a b w => Sys2Proof.Machine.execVshr c f d a b w s
  | .vcmp c f d a b w => Sys2Proof.Machine.execVcmp c f d a b w s
  | .vsel c f d a b w => Sys2Proof.Machine.execVsel c f d a b w s
  | .vcvt c f d a b w => Sys2Proof.Machine.execVcvt c f d a b w s
  | .vscl c f d a b w => Sys2Proof.Machine.execVscl c f d a b w s
  | .vclmp c f d a b w => Sys2Proof.Machine.execVclmp c f d a b w s
  | .vbcr c f d a b w => Sys2Proof.Machine.execVbcr c f d a b w s
  | .vbcc c f d a b w => Sys2Proof.Machine.execVbcc c f d a b w s
  | .vrsum c f d a b w => Sys2Proof.Machine.execVrsum c f d a b w s
  | .vcsum c f d a b w => Sys2Proof.Machine.execVcsum c f d a b w s
  | .vrr c f d a b w => Sys2Proof.Machine.execVrr c f d a b w s
  | .vfn c f d a b w => Sys2Proof.Machine.execVfn c f d a b w s
  | .vtbl c f d a b w => Sys2Proof.Machine.execVtbl c f d a b w s
  | .viota c f d a b w => Sys2Proof.Machine.execViota c f d a b w s
  | .vperm c f d a b w => Sys2Proof.Machine.execVperm c f d a b w s
  | .lit c f d lit => Sys2Proof.Machine.execLit c f d lit s
  | .lith c d lit => Sys2Proof.Machine.execLith c d lit s
  | .createContext queue => Sys2Proof.Machine.execCreateContext queue s
  | .destroyContext queue => Sys2Proof.Machine.execDestroyContext queue s
  | .loadOperators queue => Sys2Proof.Machine.execLoadOperators queue s
  | .loadExpr queue => Sys2Proof.Machine.execLoadExpr queue s
  | .start queue => Sys2Proof.Machine.execStart queue s
  | .preempt queue => Sys2Proof.Machine.execPreempt queue s
  | .resume queue => Sys2Proof.Machine.execResume queue s
  | .readExpr queue => Sys2Proof.Machine.execReadExpr queue s
  | .map queue => Sys2Proof.Machine.execMap queue s
  | .unmap queue => Sys2Proof.Machine.execUnmap queue s
  | .forceLease queue => Sys2Proof.Machine.execForceLease queue s
  | .injectFault queue => Sys2Proof.Machine.execInjectFault queue s
  | .partition queue => Sys2Proof.Machine.execPartition queue s
  | .queryCapacity queue => Sys2Proof.Machine.execQueryCapacity queue s
  | .readRetirements queue => Sys2Proof.Machine.execReadRetirements queue s
  | .attest queue => Sys2Proof.Machine.execAttest queue s
  | .readJournal queue => Sys2Proof.Machine.execReadJournal queue s
  | .qnotify agent queue tail => Sys2Proof.Machine.execQnotify agent queue tail s
  | .resetRegisterWrite v => Sys2Proof.Machine.execResetRegisterWrite v s
  | .registerWrite agent r v => Sys2Proof.Machine.execRegisterWrite agent r v s
  | .i3cDynamicAddress addr => Sys2Proof.Machine.execI3cDynamicAddress addr s
  | .bypass => Sys2Proof.Machine.execBypass s
  | .idcode => Sys2Proof.Machine.execIdcode s
  | .samplePreload => Sys2Proof.Machine.execSamplePreload s
  | .extest => Sys2Proof.Machine.execExtest s
  | .powerUp => Sys2Proof.Machine.execPowerUp s
  | .resetInput held => Sys2Proof.Machine.execResetInput held s
  | .bringupStageComplete ok => Sys2Proof.Machine.execBringupStageComplete ok s
  | .thermalTrip => Sys2Proof.Machine.execThermalTrip s
  | .coolantOutOfRange => Sys2Proof.Machine.execCoolantOutOfRange s
  | .hearthOver110c hid => Sys2Proof.Machine.execHearthOver110c hid s
  | .thermalClearance hid => Sys2Proof.Machine.execThermalClearance hid s
  | .junctionClockStep hid => Sys2Proof.Machine.execJunctionClockStep hid s
  | .powerControllerStep watts hid => Sys2Proof.Machine.execPowerControllerStep watts hid s
  | .linkRetune unit => Sys2Proof.Machine.execLinkRetune unit s
  | .emberSpillAdjust hid point => Sys2Proof.Machine.execEmberSpillAdjust hid point s
  | .sweep die => Sys2Proof.Machine.execSweep die s
  | .microprogramFetchComplete hid => Sys2Proof.Machine.execMicroprogramFetchComplete hid s
  | .opldRequestExpiry hid ctx op => Sys2Proof.Machine.execOpldRequestExpiry hid ctx op s
  | .votedPlacementTimeout uid => Sys2Proof.Machine.execVotedPlacementTimeout uid s
  | .hang ctx => Sys2Proof.Machine.execHang ctx s
  | .watchdog uid => Sys2Proof.Machine.execWatchdog uid s
  | .collectiveComplete uid => Sys2Proof.Machine.execCollectiveComplete uid s
  | .supervisorInvocationStart hid => Sys2Proof.Machine.execSupervisorInvocationStart hid s
  | .preemptionEffect ctx => Sys2Proof.Machine.execPreemptionEffect ctx s
  | .saveOperatorStart ctx => Sys2Proof.Machine.execSaveOperatorStart ctx s
  | .dumpWrite => Sys2Proof.Machine.execDumpWrite s
  | .engineCommandStart hid queue => Sys2Proof.Machine.execEngineCommandStart hid queue s
  | .engineCommandComplete id => Sys2Proof.Machine.execEngineCommandComplete id s
  | .copyPartLanded id n => Sys2Proof.Machine.execCopyPartLanded id n s
  | .counterSignal id => Sys2Proof.Machine.execCounterSignal id s
  | .freedSlotNotice id => Sys2Proof.Machine.execFreedSlotNotice id s
  | .sliceAccess r err => Sys2Proof.Machine.execSliceAccess r err s
  | .storeAcknowledged uid cix op => Sys2Proof.Machine.execStoreAcknowledged uid cix op s
  | .loadReply uid cix op => Sys2Proof.Machine.execLoadReply uid cix op s
  | .waitaPeriodicRead uid cix => Sys2Proof.Machine.execWaitaPeriodicRead uid cix s
  | .stagingLineTimeout channel line err => Sys2Proof.Machine.execStagingLineTimeout channel line err s
  | .pageWalkComplete id => Sys2Proof.Machine.execPageWalkComplete id s
  | .routerPacketAging id => Sys2Proof.Machine.execRouterPacketAging id s
  | .scrubLineRead line err => Sys2Proof.Machine.execScrubLineRead line err s
  | .scoreHalving => Sys2Proof.Machine.execScoreHalving s
  | .eventArrival id => Sys2Proof.Machine.execEventArrival id s
  | .eventDelivery hid => Sys2Proof.Machine.execEventDelivery hid s
  | .tileMigrationComplete ctx handle => Sys2Proof.Machine.execTileMigrationComplete ctx handle s
  | .granuleMigration stack => Sys2Proof.Machine.execGranuleMigration stack s
  | .leaseRotaTurn unit => Sys2Proof.Machine.execLeaseRotaTurn unit s
  | .leaseRetryTimer unit => Sys2Proof.Machine.execLeaseRetryTimer unit s
  | .evacuationComplete hid => Sys2Proof.Machine.execEvacuationComplete hid s
  | .portDrainComplete unit => Sys2Proof.Machine.execPortDrainComplete unit s
  | .portTrafficReturn unit => Sys2Proof.Machine.execPortTrafficReturn unit s
  | .leaseTestComplete unit run => Sys2Proof.Machine.execLeaseTestComplete unit run s
  | .capacityCounterSignal ctx => Sys2Proof.Machine.execCapacityCounterSignal ctx s
  | .queueSlotIdleUnmap queue => Sys2Proof.Machine.execQueueSlotIdleUnmap queue s
  | .queueMap queue => Sys2Proof.Machine.execQueueMap queue s
  | .hostPostedWrite req => Sys2Proof.Machine.execHostPostedWrite req s
  | .hostRead req => Sys2Proof.Machine.execHostRead req s
  | .hostAtomic req => Sys2Proof.Machine.execHostAtomic req s
  | .remoteWrite job va bytes => Sys2Proof.Machine.execRemoteWrite job va bytes s
  | .remoteCounterAdd job va amount => Sys2Proof.Machine.execRemoteCounterAdd job va amount s
  | .remoteAcknowledgement id ok => Sys2Proof.Machine.execRemoteAcknowledgement id ok s
  | .encodingNotInstruction why => Sys2Proof.Machine.execEncodingNotInstruction why s
  | .unassignedCommandOpcode queue => Sys2Proof.Machine.execUnassignedCommandOpcode queue s
  | .combiningFormApplied uid => Sys2Proof.Machine.execCombiningFormApplied uid s
  | .linkRetry unit => Sys2Proof.Machine.execLinkRetry unit s
  | .lossOfPower => Sys2Proof.Machine.execLossOfPower s
  | .orderlyShutdown => Sys2Proof.Machine.execOrderlyShutdown s
  | .earlyLeaseHoldoffExpiry unit => Sys2Proof.Machine.execEarlyLeaseHoldoffExpiry unit s
  | .inletTemperatureChange degrees inRange => Sys2Proof.Machine.execInletTemperatureChange degrees inRange s

end Sys2Proof.Machine
end

