-- ==== Sys2Proof/Machine/Sched.lean ====
section
/-!
DEFINITION. The order of things: the next turn, the passing of time and what it counts, and how a lane picks the cell
whose instruction it issues (R27, R79, R82, R331).
-/

namespace Sys2Proof.Machine

/-- The next turn: the agenda's, or a free one (log 1). -/
def State.nextTurn (s : State) : Turn × State :=
  match s.agenda with
  | t :: r => (t, { s with agenda := r })
  | [] => (Config.freeTurn s.tick, { s with tick := s.tick + 1 })

/-! Time (R331). -/

/-- The resource code of a wait. -/
def State.waitCode (s : State) (u ctx : Nat) (w : Wait) : Nat :=
  match w.kind with
  | .port => 1
  | .restore => 1
  | .address => 1
  | .counter => 1
  | .queue => 2
  | .barrier => if (s.ringAt u ctx w.waddr).isSome then 3 else 2
  | .horizon => 4
  | .tile => 5

/-- The code that a cell of an area counts now (R331): of a collective, the wait of the lowest cell that has not arrived at the
instance where it waits; a wait whose condition holds is over. -/
def State.cellCode (s : State) (u : Nat) (a : Area) (c : Cell) : Nat :=
  match a.phase with
  | .found => 6
  | .loading => 6
  | _ =>
    if s.inTransit a then 5
    else if c.atCollective then
      let late := a.cells.filterMap (fun p =>
        if p.2.stop = .running && p.2.arrs.length < c.arrs.length then p.2.wait.filter (s.waitCounts u a.ctx p.2) else none)
      match late with
      | w :: _ => s.waitCode u a.ctx w
      | [] => 0
    else
      match c.wait with
      | some w => if s.waitOver u a.ctx c w then 0 else s.waitCode u a.ctx w
      | none => 0

/-- An area's running time and sums after `dt` ticks; that of a form takes in its wait for the move pass (R140). -/
def State.timeArea (s : State) (dt u : Nat) (a : Area) : Area :=
  let counts := match a.phase with | .found => true | .loading => true | .active => true | .committing => decide (0xF00 ≤ a.op) | _ => false
  if a.kind ≠ .user || !counts then a
  else
    let codes := (a.cells.filter (fun p => p.2.stop = .running)).map (fun p => s.cellCode u a p.2)
    { a with
      time := a.time + dt
      sums := (List.range 7).map (fun i => a.sums.getD i 0 + dt * (codes.filter (fun c => c = i)).length) }

/-- The window over which the power controller takes its averages, in ticks (R351, R355). -/
def powerWindow : Nat := 36000000

/-- Hearths whose matrix queues have commands are busy for `dt` ticks of the running window, and of those that begin in them (R351). -/
def State.passBusy (s : State) (dt : Nat) : State :=
  let add (t : Tab Nat) (n : Nat) : Tab Nat :=
    s.queues.foldl (fun t p => if p.1 % 4 = 0 && p.2 ≠ [] then t.put 0 (p.1 / 4) (t.get 0 (p.1 / 4) + n) else t) t
  let first := s.ref / powerWindow
  let last := (s.ref + dt) / powerWindow
  if first = last then { s with busyNow := add s.busyNow dt }
  else
    { s with
      busyLast := if last = first + 1 then add s.busyNow (powerWindow - s.ref % powerWindow) else add [] powerWindow
      busyNow := add [] ((s.ref + dt) % powerWindow) }

/-- `dt` ticks of the reference pass (log 48). -/
def State.passTime (s : State) (dt : Nat) : State :=
  if dt = 0 then s
  else
    { s.passBusy dt with
      ref := s.ref + dt
      parts := s.parts.map (fun p => (p.1, { p.2 with cyc := p.2.cyc + dt }))
      areas := s.areas.map (fun p => (p.1, s.timeArea dt p.1 p.2)) }

/-! The lanes. -/

/-- A cell can issue, latencies aside (R82) (log 79). -/
def State.ready (s : State) (u : Nat) (a : Area) (c : Cell) : Bool :=
  (a.phase = .active || s.heldNow a) && c.stop = .running && !c.atCollective && (a.kind.supervisor || a.op < 0xF00) &&
    (!a.kind.supervisor || c.sup.isSome) && ((s.ctx a.ctx).map Ctx.live).getD false && !s.inTransit a &&
    (match c.wait with | some w => s.waitOpen u a.ctx c w | none => true)

/-- A cell's place in the order of its lane: 16 for the supervisor cell. -/
def Cell.turn (c : Cell) : Nat := match c.sup with | some _ => 16 | none => c.phys % 256 / 16

/-- The cells of a lane that can issue among those that latency lets issue: turn, area, `cix`. -/
def State.laneCells (s : State) (h l : Nat) (may : List Nat) : List (Nat × Nat × Nat) :=
  s.areas.flatMap (fun p => p.2.cells.filterMap (fun q =>
    if q.2.hid = h && q.2.lane = l && may.contains q.2.place && s.ready p.1 p.2 q.2 &&
        (s.hearth h).yielded.find l ≠ some q.2.place then some (q.2.turn, p.1, q.1) else none))

/-- The cell that the lane serves: the next one after the one it served last (R27). Of the cells that can issue as far as can be seen, one
that the lane found to wait still is passed over until the lane has served another or has looked at all of them (log 79). -/
def State.pick (s : State) (h l : Nat) (may : List Nat) : Option (Nat × Nat × Nat) :=
  let n := if l < 4 then 17 else 16
  let last := (s.hearth h).last.get (n - 1) l
  let all := s.laneCells h l may
  let new := all.filter (fun p => !((s.hearth h).passed.get [] l).contains p.1)
  leastBy (fun p => (p.1 + n - last - 1) % n) (if new.isEmpty then all else new)

/-- The lane's choice is made: a cell that yielded may be the next one (R89). -/
def State.chosen (s : State) (h l : Nat) : State := s.modHearth h (fun x => { x with yielded := x.yielded.erase l })

/-- What the picked cell issues, with the state in which it is the issuing cell; a lane cycle with no ready cell is
counted (R332) (log 1). -/
def State.laneTurn (s : State) (h l : Nat) (may : List Nat) : Option (Nat × Instr) × State :=
  if s.stage ≠ 7 || !s.powered then (none, s)
  else
    match s.pick h l may with
    | none => (none, (s.chosen h l).count h 2 1)
    | some (t, u, i) =>
      let s : State := { s.chosen h l with cur := (u, i) }
      match s.area u with
      | none => (none, s)
      | some a =>
        match a.cells.find i with
        | none => (none, s)
        | some c => (some (t, match a.instrAt c with | .ok x => x | .error w => .encodingNotInstruction w), s)

/-- The lane found the cell at place `t` of its order to wait still. -/
def Hearth.passBy (x : Hearth) (l t : Nat) : Hearth :=
  let old := x.passed.get [] l
  { x with passed := x.passed.set l (if old.contains t then [t] else old ++ [t]) }

/-- After an instruction: unless its cell waits, the lane has served the cell and its operator's copy was run. -/
def State.served (s0 : State) (h l t : Nat) (s : State) : State :=
  let waits := ((s.area s.cur.1).bind (fun a => (a.cells.find s.cur.2).bind (·.wait))).isSome
  let s := s.modArea s.cur.1 (fun a => { a with left := 2 })
  if waits then s.modHearth h (fun x => x.passBy l t)
  else
    match s0.area s0.cur.1 with
    | none => s
    | some a => (s.noteRun h a.ctx a.op).modHearth h (fun x => { x with last := x.last.set l t, passed := x.passed.erase l })

/-- Places an instruction for the next step to fetch (log 5): the words of the table's row, the bits behind them zero, as the
microprogram of a privileged area of one cell in hearth 0 of context 0, which lane 0 serves next. -/
def State.placeFetch (s : State) (nbits w : Nat) : State :=
  let code := (bytesOfWords (tableWords (w % 2 ^ nbits))).map id
  let x : Ctx := ⟨0, 0, 0, true, 0, 0, 0, 0, .running, none, 0, false, false, 0, 0, 0, false, 0, false, 0, 0, [], 0, [], [], 0, 0, none, 0, [], []⟩
  { s with
    stage := 7
    powered := true
    agenda := [⟨0, .lane 0 0 [0]⟩]
    ctxs := s.ctxs.set 0 x
    areas := [(0, { Area.start 0 .user 0 0 0 [(0, Cell.start 0)] 0 with
      phase := .active, code := [(0, code)], entry := some ⟨4294967295, 12, true, false, false, 0⟩ })] }

/-- A row that no cell issues. -/
def isEvent : Instr → Bool
  | .createContext _ => true
  | .destroyContext _ => true
  | .loadOperators _ => true
  | .loadExpr _ => true
  | .start _ => true
  | .preempt _ => true
  | .resume _ => true
  | .readExpr _ => true
  | .map _ => true
  | .unmap _ => true
  | .forceLease _ => true
  | .injectFault _ => true
  | .partition _ => true
  | .queryCapacity _ => true
  | .readRetirements _ => true
  | .attest _ => true
  | .readJournal _ => true
  | .qnotify _ _ _ => true
  | .resetRegisterWrite _ => true
  | .registerWrite _ _ _ => true
  | .i3cDynamicAddress _ => true
  | .bypass => true
  | .idcode => true
  | .samplePreload => true
  | .extest => true
  | .powerUp => true
  | .resetInput _ => true
  | .bringupStageComplete _ => true
  | .thermalTrip => true
  | .coolantOutOfRange => true
  | .hearthOver110c _ => true
  | .thermalClearance _ => true
  | .junctionClockStep _ => true
  | .powerControllerStep _ _ => true
  | .linkRetune _ => true
  | .emberSpillAdjust _ _ => true
  | .sweep _ => true
  | .microprogramFetchComplete _ => true
  | .opldRequestExpiry _ _ _ => true
  | .votedPlacementTimeout _ => true
  | .hang _ => true
  | .watchdog _ => true
  | .collectiveComplete _ => true
  | .supervisorInvocationStart _ => true
  | .preemptionEffect _ => true
  | .saveOperatorStart _ => true
  | .dumpWrite => true
  | .engineCommandStart _ _ => true
  | .engineCommandComplete _ => true
  | .copyPartLanded _ _ => true
  | .counterSignal _ => true
  | .freedSlotNotice _ => true
  | .sliceAccess _ _ => true
  | .storeAcknowledged _ _ _ => true
  | .loadReply _ _ _ => true
  | .waitaPeriodicRead _ _ => true
  | .stagingLineTimeout _ _ _ => true
  | .pageWalkComplete _ => true
  | .routerPacketAging _ => true
  | .scrubLineRead _ _ => true
  | .scoreHalving => true
  | .eventArrival _ => true
  | .eventDelivery _ => true
  | .tileMigrationComplete _ _ => true
  | .granuleMigration _ => true
  | .leaseRotaTurn _ => true
  | .leaseRetryTimer _ => true
  | .evacuationComplete _ => true
  | .portDrainComplete _ => true
  | .portTrafficReturn _ => true
  | .leaseTestComplete _ _ => true
  | .capacityCounterSignal _ => true
  | .queueSlotIdleUnmap _ => true
  | .queueMap _ => true
  | .hostPostedWrite _ => true
  | .hostRead _ => true
  | .hostAtomic _ => true
  | .remoteWrite _ _ _ => true
  | .remoteCounterAdd _ _ _ => true
  | .remoteAcknowledgement _ _ => true
  | .unassignedCommandOpcode _ => true
  | .combiningFormApplied _ => true
  | .linkRetry _ => true
  | .lossOfPower => true
  | .orderlyShutdown => true
  | .earlyLeaseHoldoffExpiry _ => true
  | .inletTemperatureChange _ _ => true
  | _ => false

end Sys2Proof.Machine
end

