-- ==== Sys2Proof/Machine/Step.lean ====
section
/-!
DEFINITION. One step: a turn is taken, its time passes, and its lane issues an instruction or its event happens.
-/

namespace Sys2Proof.Machine

/-- One step of the machine. -/
def step (s : State) : Host.Outcome State Fault Refusal :=
  let (t, s) := s.nextTurn
  let s := s.passTime t.dt
  match t.act with
  | .event i => if isEvent i then exec i s else .next s
  | .upset e => .next (s.upset e)
  | .route r out => .next (s.route r out)
  | .host agent ord ask => .next (s.hostAsk agent ord ask)
  | .lane h l may =>
    match s.laneTurn h l may with
    | (none, s) => .next s
    | (some (n, i), s) =>
      match exec i s with
      | .next t => .next (s.served h l n t)
      | .fault f => .fault f
      | .refused r => .refused r

/-- `s` with an instruction as the microprogram of the one cell that issues next: cell 0 of an area of a privileged
operator in hearth 0, on a device that has been brought up (log 5). -/
def State.withFetchWord (s : State) (nbits w : Nat) : State := s.placeFetch nbits w

end Sys2Proof.Machine
end

