-- ==== Sys2Proof/Safety.lean ====
section
/-!
DEFINITION. What counts as a safe run: the machine goes on. A program's own faults are no stop of the machine, since it
takes them (R28).
-/

namespace Sys2Proof.Machine

/-- The step answers a next state. -/
def State.goesOn (s : State) : Prop := ∃ t, step s = .next t

/-- Every number of steps from `s` answers a state. -/
def State.safe (s : State) : Prop := ∀ n, ∃ t, Sys2Proof.core.run n s = .next t

end Sys2Proof.Machine
end

