-- ==== Sys2Proof/Certificates/Slice0/Obligations.lean ====
section
/-!
DEFINITION. The statements for the provers, with the tables of values that they are stated over.
-/

namespace Sys2Proof.Claims

open Sys2Proof.Machine

/-! Values, written from the tables of the spec. -/

/-- Compare of R93 on 64-bit integers: eq, ne, lt, le, gt, ge as signed, ltu, geu as unsigned. -/
def compares (cond : Nat) (x y : Word) : Prop :=
  match cond with
  | 0 => x = y
  | 1 => x ≠ y
  | 2 => x.toInt < y.toInt
  | 3 => x.toInt ≤ y.toInt
  | 4 => y.toInt < x.toInt
  | 5 => y.toInt ≤ x.toInt
  | 6 => x.toNat < y.toNat
  | _ => y.toNat ≤ x.toNat

/-- The least negative 64-bit integer. -/
def minInt : Word := 0x8000000000000000#64

/-- The two-source integer instructions and their values (Table 5.6, R98). -/
def intTwo (c : Cond) (d a b : SReg) : List (Instr × (Word → Word → Word)) :=
  [(.add c d a b, fun x y => BitVec.ofNat 64 (x.toNat + y.toNat)),
   (.sub c d a b, fun x y => BitVec.ofInt 64 (x.toInt - y.toInt)),
   (.mul c d a b, fun x y => BitVec.ofNat 64 (x.toNat * y.toNat)),
   (.mulhi c d a b, fun x y => (x.signExtend 128 * y.signExtend 128).extractLsb' 64 64),
   (.mulhiu c d a b, fun x y => (x.zeroExtend 128 * y.zeroExtend 128).extractLsb' 64 64),
   (.div c d a b, fun x y => if y = 0 then 0xFFFFFFFFFFFFFFFF#64 else if x = minInt ∧ y.toInt = -1 then x else x.sdiv y),
   (.divu c d a b, fun x y => if y = 0 then 0xFFFFFFFFFFFFFFFF#64 else x / y),
   (.rem c d a b, fun x y => if y = 0 then x else if x = minInt ∧ y.toInt = -1 then 0 else x.srem y),
   (.remu c d a b, fun x y => if y = 0 then x else x % y),
   (.and c d a b, fun x y => x &&& y),
   (.or c d a b, fun x y => x ||| y),
   (.xor c d a b, fun x y => x ^^^ y),
   (.shl c d a b, fun x y => BitVec.ofNat 64 (x.toNat * 2 ^ (y.extractLsb' 0 6).toNat)),
   (.shr c d a b, fun x y => BitVec.ofNat 64 (x.toNat / 2 ^ (y.extractLsb' 0 6).toNat)),
   (.sra c d a b, fun x y => BitVec.ofInt 64 (x.toInt / (2 : Int) ^ (y.extractLsb' 0 6).toNat)),
   (.rol c d a b, fun x y => x <<< (y.extractLsb' 0 6).toNat ||| x >>> (64 - (y.extractLsb' 0 6).toNat)),
   (.min c d a b, fun x y => if x.toInt < y.toInt then x else y),
   (.max c d a b, fun x y => if x.toInt < y.toInt then y else x),
   (.minu c d a b, fun x y => if x.toNat < y.toNat then x else y),
   (.maxu c d a b, fun x y => if x.toNat < y.toNat then y else x)]

/-- The one-source integer instructions whose value is an expression of s[a] (R99). -/
def intOne (c : Cond) (d a : SReg) : List (Instr × (Word → Word)) :=
  [(.abs c d a, fun x => BitVec.ofNat 64 x.toInt.natAbs),
   (.neg c d a, fun x => BitVec.ofInt 64 (0 - x.toInt)),
   (.sext c 0 d a, fun x => (x.extractLsb' 0 8).signExtend 64),
   (.sext c 1 d a, fun x => (x.extractLsb' 0 16).signExtend 64),
   (.sext c 2 d a, fun x => (x.extractLsb' 0 32).signExtend 64),
   (.zext c 0 d a, fun x => (x.extractLsb' 0 8).zeroExtend 64),
   (.zext c 1 d a, fun x => (x.extractLsb' 0 16).zeroExtend 64),
   (.zext c 2 d a, fun x => (x.extractLsb' 0 32).zeroExtend 64),
   (.mov c d a, fun x => x)]

/-- The immediate forms (R100): SExt(imm, 8), or the count imm[5:0]. -/
def intImm (c : Cond) (d a : SReg) (i : BitVec 8) (n : BitVec 6) : List (Instr × (Word → Word)) :=
  [(.addi c d a i, fun x => BitVec.ofInt 64 (x.toInt + i.toInt)),
   (.andi c d a i, fun x => x &&& i.signExtend 64),
   (.ori c d a i, fun x => x ||| i.signExtend 64),
   (.xori c d a i, fun x => x ^^^ i.signExtend 64),
   (.shli c d a n, fun x => BitVec.ofNat 64 (x.toNat * 2 ^ n.toNat)),
   (.shri c d a n, fun x => BitVec.ofNat 64 (x.toNat / 2 ^ n.toNat)),
   (.srai c d a n, fun x => BitVec.ofInt 64 (x.toInt / (2 : Int) ^ n.toNat)),
   (.roli c d a n, fun x => x <<< n.toNat ||| x >>> (64 - n.toNat))]

end Sys2Proof.Claims

open Sys2Proof Sys2Proof.Machine

/-- R97, R98: every two-source integer instruction that issues writes s[d] with the value of its row, poisoned when either
source was, and goes on one word further. -/
def Claims.IntegerTwoSourceResults : Prop :=
  ∀ (s : State) (ar : Area) (k : Cell) (c : Cond) (d a b : SReg), s.issues c [d, a, b] ar k →
    ∀ p ∈ Claims.intTwo c d a b,
      exec p.1 s = .next (s.finish k 1 (fun x => x.setS d (p.2 (k.sreg a) (k.sreg b)) (k.spsn a || k.spsn b)))

/-- R99, R100: the one-source and the immediate forms. -/
def Claims.IntegerOneSourceResults : Prop :=
  ∀ (s : State) (ar : Area) (k : Cell) (c : Cond) (d a : SReg) (i : BitVec 8) (n : BitVec 6), s.issues c [d, a] ar k →
    ∀ p ∈ Claims.intOne c d a ++ Claims.intImm c d a i n,
      exec p.1 s = .next (s.finish k 1 (fun x => x.setS d (p.2 (k.sreg a)) (k.spsn a)))

/-- R99: CLZ, CTZ and POPC count bits. -/
def Claims.BitCountResults : Prop :=
  ∀ (s : State) (ar : Area) (k : Cell) (c : Cond) (d a : SReg), s.issues c [d, a] ar k →
    (∃ n : Nat, exec (.clz c d a) s = .next (s.finish k 1 (fun x => x.setS d (BitVec.ofNat 64 n) (k.spsn a))) ∧
      n ≤ 64 ∧ (∀ i, 64 - n ≤ i → (k.sreg a).getLsbD i = false) ∧ (n < 64 → (k.sreg a).getLsbD (63 - n) = true)) ∧
    (∃ n : Nat, exec (.ctz c d a) s = .next (s.finish k 1 (fun x => x.setS d (BitVec.ofNat 64 n) (k.spsn a))) ∧
      n ≤ 64 ∧ (∀ i, i < n → (k.sreg a).getLsbD i = false) ∧ (n < 64 → (k.sreg a).getLsbD n = true)) ∧
    exec (.popc c d a) s = .next (s.finish k 1 (fun x =>
      x.setS d (BitVec.ofNat 64 (((List.range 64).map (fun i => ((k.sreg a).getLsbD i).toNat)).sum)) (k.spsn a)))

/-- The integer instructions: two-source, one-source and immediate forms, and the counts of bits. -/
def Obligations.IntegerResults : Prop := Claims.IntegerTwoSourceResults ∧ Claims.IntegerOneSourceResults ∧ Claims.BitCountResults

/-! ## Fetch, decode, step and reset -/

/-- The worked encodings of Table 3.12, and words that R57 refuses: the reserved length class, an unassigned opcode, a Res0 bit of
NOP, an instruction that passes the end of its microprogram, and nothing at all. -/
def Obligations.KnownWordsDecode : Prop :=
  decode [0x0000418C#32] = .ok (.movs ⟨false, 0⟩ 1 0) ∧
  decode [0x06104060#32] = .ok (.cmpiEq ⟨false, 0⟩ 1 2 6) ∧
  decode [0x001901A0#32] = .ok (.scanInt ⟨false, 0⟩ 0 4 3) ∧
  decode [0x00298041#32, 0x00080670#32] = .ok (.ld ⟨false, 0⟩ 6 5 ⟨0x80, 6, 3, 4, 0⟩) ∧
  decode [0x084A8488#32] = .ok (.mul ⟨false, 1⟩ 10 9 8) ∧
  decode [0x0052C198#32] = .ok (.reduceInt ⟨false, 0⟩ 0 11 10) ∧
  decode [0x0B600845#32, 0x00000670#32] = .ok (.st ⟨false, 2⟩ 12 11 ⟨0, 6, 3, 4, 0⟩) ∧
  decode [0x005989B4#32] = .ok (.emit ⟨false, 2⟩ 6 11) ∧
  decode [0x00000004#32] = .ok (.commit ⟨false, 0⟩) ∧
  decode [0x60000224#32] = .ok (.tretKill ⟨false, 0⟩) ∧
  decode [0xFFFEEC18#32] = .ok (.br ⟨true, 3⟩ 0x3FFFB) ∧
  decode [0x00014002#32, 0#32, 0x000186A0#32] = .ok (.lit ⟨false, 0⟩ 0 5 0x186A0) ∧
  decode [0x00000003#32] = .error .illegalLength ∧
  decode [0x000003FC#32] = .error .illegalOpcode ∧
  decode [0x00004000#32] = .error (.reservedField false) ∧
  decode [0x00000041#32] = .error .noExit ∧
  decode [] = .error .noExit

/-- Every well-formed instruction of a cell, with every operand, is read from its own words, whatever words follow. -/
def Obligations.EncodedInstructionsDecode : Prop :=
  ∀ (i : Instr) (rest : List Word32), encode i ≠ [] → i.wf = true → decode (encode i ++ rest) = .ok i

/-- R57, R58: words that are no instruction raise the fault of their first failing check, in the issuing cell; a cell of a trap
operator that passes its end raises OPERATOR_INVALID (R320). -/
def Obligations.NonInstructionsRaise : Prop :=
  ∀ (s : State) (ar : Area) (k : Cell), s.area s.cur.1 = some ar → ar.cells.find s.cur.2 = some k →
    exec (.encodingNotInstruction .illegalLength) s = .next (s.raise 0x01 0) ∧
    exec (.encodingNotInstruction .illegalOpcode) s = .next (s.raise 0x02 0) ∧
    exec (.encodingNotInstruction (.reservedField false)) s = .next (s.raise 0x03 0) ∧
    (ar.privileged = true → exec (.encodingNotInstruction (.reservedField true)) s = .next (s.raise 0x03 0)) ∧
    (ar.privileged = false → exec (.encodingNotInstruction (.reservedField true)) s = .next (s.raise 0x04 0)) ∧
    ((∀ v, ar.kind ≠ .trap v) → exec (.encodingNotInstruction .noExit) s = .next (s.raise 0x05 0)) ∧
    (∀ v, ar.kind = .trap v → exec (.encodingNotInstruction .noExit) s = .next (s.raise 0x42 0))

/-- The state in which the cell that a lane picked is the issuing cell. -/
def Claims.chosenBy (s : State) (h l u i : Nat) : State := { s.chosen h l with cur := (u, i) }

/-- What a step answers that has issued an instruction of the cell with turn `n`. -/
def Claims.after (s : State) (h l n : Nat) : Host.Outcome State Fault Refusal → Host.Outcome State Fault Refusal
  | .next t => .next (s.served h l n t)
  | .fault f => .fault f
  | .refused r => .refused r

/-- A step of a lane issues the instruction that the picked cell's microprogram holds at its pc, or the outcome of words that are
none; a step of an event is the meaning of the event, and an error of a store, a router's choice and a host's request have their
effects. The turn comes from the agenda. -/
def Obligations.StepRunsTheDecodedInstruction : Prop :=
  ∀ (s s0 : State) (dt : Nat) (rest : List Turn),
    (∀ (h l n u i : Nat) (may : List Nat) (ar : Area) (k : Cell),
      s.agenda = ⟨dt, .lane h l may⟩ :: rest → s0 = ({ s with agenda := rest } : State).passTime dt →
      s0.stage = 7 → s0.powered = true → s0.pick h l may = some (n, u, i) →
      s0.area u = some ar → ar.cells.find i = some k →
      (∀ ins, k.pc.toNat < (ar.codeOf k).length → decodeBytes ((ar.codeOf k).drop k.pc.toNat) = .ok ins →
        step s = Claims.after (Claims.chosenBy s0 h l u i) h l n (exec ins (Claims.chosenBy s0 h l u i))) ∧
      (∀ why, k.pc.toNat < (ar.codeOf k).length → decodeBytes ((ar.codeOf k).drop k.pc.toNat) = .error why →
        step s = Claims.after (Claims.chosenBy s0 h l u i) h l n (exec (.encodingNotInstruction why) (Claims.chosenBy s0 h l u i))) ∧
      ((ar.codeOf k).length ≤ k.pc.toNat →
        step s = Claims.after (Claims.chosenBy s0 h l u i) h l n (exec (.encodingNotInstruction .noExit) (Claims.chosenBy s0 h l u i)))) ∧
    (∀ i : Instr, s.agenda = ⟨dt, .event i⟩ :: rest → isEvent i = true →
      s0 = ({ s with agenda := rest } : State).passTime dt → step s = exec i s0) ∧
    (∀ e : Upset, s.agenda = ⟨dt, .upset e⟩ :: rest → s0 = ({ s with agenda := rest } : State).passTime dt →
      step s = .next (s0.upset e)) ∧
    (∀ r out : Nat, s.agenda = ⟨dt, .route r out⟩ :: rest → s0 = ({ s with agenda := rest } : State).passTime dt →
      step s = .next (s0.route r out)) ∧
    (∀ (who : Nat) (ord : HostOrd) (ask : HostAsk), s.agenda = ⟨dt, .host who ord ask⟩ :: rest →
      s0 = ({ s with agenda := rest } : State).passTime dt → step s = .next (s0.hostAsk who ord ask))

/-- The values that the manual gives for reset: bring-up stage 0 with no context, no area and an empty row, the management registers of
Table 22.2, the I3C address, one partition, an empty journal, the generator, event sequence and table owners of a hearth, and disabled
command queues. -/
def Obligations.ResetValues : Prop :=
  State.reset.stage = 0 ∧ State.reset.ctxs = [] ∧ State.reset.areas = [] ∧ State.reset.row = [] ∧
    State.reset.pcap = 3200 ∧ State.reset.rota = 0x0004000400180008#64 ∧ State.reset.scrub = 24 ∧ State.reset.fabdev = 0 ∧
    State.reset.i3cAddr = 0x3A#7 ∧ State.reset.cut = 1 ∧ State.reset.journal = [] ∧
    (∀ h, (State.reset.hearth h).seed = 0x9E3779B97F4A7C15#64 ∧ (State.reset.hearth h).eseq = 0 ∧
      (State.reset.hearth h).ftab6.owner = none ∧ (State.reset.hearth h).ftab7.owner = none) ∧
    (∀ q, (State.reset.hostq q).cfg = 0#64 ∧ (State.reset.hostq q).head = 0)

/-- The three memories in canonical form: addresses strictly rising, and no byte listed that reads as 0. -/
def Claims.canonicalMemories (s : State) : Prop := s.mem.wf 0 = true ∧ s.hostMem.wf 0 = true ∧ s.tile.wf 0 = true

/-- Every step keeps the canonical form of device memory, host memory and the tile stores. -/
def Obligations.MemoriesStayCanonical : Prop :=
  ∀ s t : State, Claims.canonicalMemories s → step s = .next t → Claims.canonicalMemories t

/-- The memories are canonical at reset. -/
def Obligations.MemoriesCanonicalAtReset : Prop := Claims.canonicalMemories State.reset

/-! ## What every instruction of a cell leaves alone, its condition, its privilege, its faults -/

/-- The frame of an instruction that goes on behind itself or branches to `w`: but for the areas and the hearths the state is as
before; no other area changes; of the issuing area only the issuing cell, which is `f` of itself with the new pc and no wait; every
other hearth is as before, and of its own only the counter of issued instructions, which is one more. A pc has 14 bits (R76); of a
target that they do not hold it keeps them under the model's mark in bit 14, with which its fetch raises NO_EXIT (log 50). -/
def Obligations.FinishedInstructionFrame : Prop :=
  ∀ (s : State) (ar : Area) (k : Cell) (n : Nat) (pc : Word) (f : Cell → Cell) (t : State),
    s.area s.cur.1 = some ar → ar.cells.find s.cur.2 = some k →
    (t = s.finish k n f ∧ pc = k.pc + BitVec.ofNat 64 (4 * n) ∨
      ∃ w, t = s.jump k w f ∧ (w.toNat < 2 ^ 14 → pc = w) ∧ (2 ^ 14 ≤ w.toNat → pc.toNat = 2 ^ 14 + w.toNat % 2 ^ 14)) →
      { t with areas := s.areas, hearths := s.hearths } = s ∧
      (∀ u, u ≠ s.cur.1 → t.area u = s.area u) ∧
      t.area s.cur.1 = some { ar with cells := ar.cells.set s.cur.2 { f k with pc := pc, wait := none } } ∧
      (∀ i, i ≠ s.cur.2 → (ar.cells.set s.cur.2 { f k with pc := pc, wait := none }).find i = ar.cells.find i) ∧
      (∀ h, h ≠ k.hid → t.hearth h = s.hearth h) ∧
      ({ t.hearth k.hid with ctrs := (s.hearth k.hid).ctrs } : Hearth) = s.hearth k.hid ∧
      (t.hearth k.hid).ctrs.get 0 1 = ((s.hearth k.hid).ctrs.get 0 1 + 1) % 2 ^ 64 ∧
      (∀ c, c ≠ 1 → (t.hearth k.hid).ctrs.get 0 c = (s.hearth k.hid).ctrs.get 0 c)

/-- R76, R80: writing a scalar, predicate or descriptor register changes that register and its poison alone; s0 reads 0 and q0
reads true, neither is ever poisoned, and writes to them are discarded. -/
def Obligations.RegisterFiles : Prop :=
  ∀ (k : Cell) (p : Bool),
    (∀ (d r : SReg) (v : Word),
      ((k.setS d v p).sreg r = if r = 0 then 0 else if r = d then v else k.sreg r) ∧
      ((k.setS d v p).spsn r = if r = 0 then false else if r = d then p else k.spsn r) ∧
      (∀ q, (k.setS d v p).qreg q = k.qreg q ∧ (k.setS d v p).qpsn q = k.qpsn q) ∧
      (∀ t, (k.setS d v p).dreg t = k.dreg t ∧ (k.setS d v p).dpsn t = k.dpsn t) ∧
      ({ k.setS d v p with s := k.s, psn := k.psn } : Cell) = k ∧ k.setS 0 v p = k) ∧
    (∀ (d r : QReg) (v : Bool),
      ((k.setQ d v p).qreg r = if r = 0 then true else if r = d then v else k.qreg r) ∧
      ((k.setQ d v p).qpsn r = if r = 0 then false else if r = d then p else k.qpsn r) ∧
      (∀ a, (k.setQ d v p).spsn a = k.spsn a) ∧ (∀ t, (k.setQ d v p).dpsn t = k.dpsn t) ∧
      ({ k.setQ d v p with q := k.q, psn := k.psn } : Cell) = k ∧ k.setQ 0 v p = k) ∧
    (∀ (d r : TReg) (v : Word),
      ((k.setD d v p).dreg r = if r = d then v else k.dreg r) ∧
      ((k.setD d v p).dpsn r = if r = d then p else k.dpsn r) ∧
      (∀ a, (k.setD d v p).spsn a = k.spsn a) ∧ (∀ q, (k.setD d v p).qpsn q = k.qpsn q) ∧
      ({ k.setD d v p with d := k.d, psn := k.psn } : Cell) = k)

/-- The collectives, which a cell joins whatever its condition. -/
def Claims.collective : Instr → Bool
  | .bcast _ _ _ _ | .reduceInt _ _ _ _ | .reduceFp32 _ _ _ _ | .scanInt _ _ _ _ | .scanFp32 _ _ _ _ => true
  | .count _ _ _ | .first _ _ _ | .areabar _ => true
  | _ => false

/-- The condition of an instruction, from its word 0 (R44). -/
def Claims.condition (i : Instr) : Cond := condOf ((encode i).headD 0)

/-- R33: an instruction whose condition is false has no effect but to go on behind its own words. -/
def Claims.FalseConditionSkips : Prop :=
  ∀ (i : Instr) (s : State) (ar : Area) (k : Cell), encode i ≠ [] → Claims.collective i = false →
    s.area s.cur.1 = some ar → ar.cells.find s.cur.2 = some k → (i.privileged = true → ar.privileged = true) →
    k.qpsn (Claims.condition i).q = false → k.cond (Claims.condition i) = false →
      exec i s = .next (s.finish k (encode i).length id)

/-- R81: under strict poison control an instruction whose condition is poisoned raises POISON_CONSUMED. -/
def Claims.PoisonedConditionFaults : Prop :=
  ∀ (i : Instr) (s : State) (ar : Area) (k : Cell), encode i ≠ [] →
    s.area s.cur.1 = some ar → ar.cells.find s.cur.2 = some k → (i.privileged = true → ar.privileged = true) →
    k.qpsn (Claims.condition i).q = true → s.strict ar.ctx = true →
      exec i s = .next (s.raise 0x30 0)

/-- R57, R315: a privileged opcode outside a privileged area raises PRIV, whatever its condition. -/
def Claims.PrivilegedOpcodesNeedPrivilege : Prop :=
  ∀ (i : Instr) (s : State) (ar : Area) (k : Cell), i.privileged = true → ar.privileged = false →
    s.area s.cur.1 = some ar → ar.cells.find s.cur.2 = some k → exec i s = .next (s.raise 0x04 0)

/-- R28, R316, R319: a fault of a program's cell holds its area with a record of the fault, the cell, its pc and its words, and
asks for the trap operator; the cell's registers, the row, every memory and every other area are as before. -/
def Claims.FaultHolds : Prop :=
  ∀ (s : State) (ar : Area) (k : Cell) (fault code : BitVec 8) (faddr : Word),
    s.area s.cur.1 = some ar → ar.cells.find s.cur.2 = some k → ar.kind = .user → ar.phase ≠ .held → s.area s.nextUid = none →
      ∃ t, s.raiseWith fault code faddr = t ∧
        (∃ h, t.area s.cur.1 = some h ∧ h.phase = .held ∧ h.heldw = [] ∧
          h.trap = some ⟨fault, code, 0, false, false, s.cur.2, k.pc, faddr, ar.word k 0, ar.word1 k⟩ ∧
          h.cells.find s.cur.2 = some { k with wait := none } ∧
          (∀ i, i ≠ s.cur.2 → h.cells.find i = ar.cells.find i)) ∧
        (∃ v, t.area s.nextUid = some v ∧ v.kind = .trap s.cur.1 ∧ v.ctx = ar.ctx ∧ v.phase = .found ∧
          v.op = ((s.launch ar.ctx).map (·.trapop)).getD 0) ∧
        (∀ u b, u ≠ s.cur.1 → s.area u = some b → (∀ n o, b.kind ≠ .shadow n o) → t.area u = some b) ∧
        t.mem = s.mem ∧ t.hostMem = s.hostMem ∧ t.tile = s.tile ∧ t.row = s.row ∧ t.hearths = s.hearths ∧ t.ctxs = s.ctxs

/-- R28: of the faults that cells of one area raise in one cycle the record names the lowest cix, and of the copies of a voted area the
lowest copy; that the other lanes of the cycle issue all the same is the model's reading (log 47). -/
def Claims.LowestFaultIsNamed : Prop :=
  ∀ (s : State) (ar : Area) (k : Cell) (fault code : BitVec 8) (faddr : Word) (old : TrapRec),
    s.area s.cur.1 = some ar → ar.cells.find s.cur.2 = some k → ar.kind = .user → ar.phase = .held → ar.trap = some old →
      (old.fcix < s.cur.2 ∨ (old.fcix = s.cur.2 ∧ old.copy = 0) →
        s.raiseWith fault code faddr = s.modCur (fun x => { x with wait := none })) ∧
      (s.cur.2 < old.fcix → ∃ h, (s.raiseWith fault code faddr).area s.cur.1 = some h ∧
        h = { ar with cells := ar.cells.set s.cur.2 { k with wait := none },
                      trap := some ⟨fault, code, 0, false, false, s.cur.2, k.pc, faddr, ar.word k 0, ar.word1 k⟩ })

/-- A fault holds the area of its cell, and of several in one cycle the lowest cell is named. That the other lanes of the cycle issue all
the same is the model's reading (log 47). -/
def Obligations.FaultHoldsTheArea : Prop := Claims.FaultHolds ∧ Claims.LowestFaultIsNamed

/-- The gate of every instruction: a false condition, a poisoned one, and a privileged opcode outside a privileged area. -/
def Obligations.ConditionAndPrivilegeGate : Prop := Claims.FalseConditionSkips ∧ Claims.PoisonedConditionFaults ∧ Claims.PrivilegedOpcodesNeedPrivilege

/-! ## Predicates, literals and fields -/

namespace Sys2Proof.Claims

/-- The eight forms of CMPI with their conditions (R53, R93). -/
def cmpiForms (c : Cond) (d : QReg) (a : SReg) (i : BitVec 8) : List (Nat × Instr) :=
  [(0, .cmpiEq c d a i), (1, .cmpiNe c d a i), (2, .cmpiLt c d a i), (3, .cmpiLe c d a i), (4, .cmpiGt c d a i),
   (5, .cmpiGe c d a i), (6, .cmpiLtu c d a i), (7, .cmpiGeu c d a i)]

/-- An FP32 code is a NaN. -/
def isNan32 (x : Nat) : Prop := 0x7F800000 < x % 2 ^ 31

/-- Orders the FP32 codes that are no NaN by value, +0 and −0 alike. -/
def key32 (x : Nat) : Int := if x / 2 ^ 31 % 2 = 1 then -((x % 2 ^ 31 : Nat) : Int) else ((x % 2 ^ 31 : Nat) : Int)

/-- As `key32`, with −0 below +0. -/
def zkey32 (x : Nat) : Int := if x / 2 ^ 31 % 2 = 1 then -1 - ((x % 2 ^ 31 : Nat) : Int) else ((x % 2 ^ 31 : Nat) : Int)

/-- FCMP's relation of two FP32 codes (R53, R94). -/
def fcompares (cond x y : Nat) : Prop :=
  let un := isNan32 x ∨ isNan32 y
  match cond with
  | 0 => ¬un ∧ key32 x = key32 y
  | 1 => un ∨ key32 x ≠ key32 y
  | 2 => ¬un ∧ key32 x < key32 y
  | 3 => ¬un ∧ key32 x ≤ key32 y
  | 4 => ¬un ∧ key32 y < key32 x
  | 5 => ¬un ∧ key32 y ≤ key32 x
  | 6 => un
  | _ => ¬un

/-- The integer that a code of an integer type stands for: the even type codes are signed (Table 3.10). -/
def intCode (t x : Nat) : Int :=
  let n := typeBits t
  if t % 2 = 0 ∧ 2 ^ (n - 1) ≤ x % 2 ^ n then ((x % 2 ^ n : Nat) : Int) - (2 : Int) ^ n else ((x % 2 ^ n : Nat) : Int)

/-- The least and the greatest value of an integer type. -/
def intLow (t : Nat) : Int := if t % 2 = 0 then -((2 : Int) ^ (typeBits t - 1)) else 0

def intHigh (t : Nat) : Int := if t % 2 = 0 then (2 : Int) ^ (typeBits t - 1) - 1 else (2 : Int) ^ typeBits t - 1

/-- Bits [31:0] of a register as a number. -/
def low32 (x : Word) : Nat := x.toNat % 2 ^ 32

/-- `v` is the FP32 code that FMIN (`mx` false) or FMAX of the codes x and y gives (R103). -/
def isMinMax (mx : Bool) (x y v : Nat) : Prop :=
  (isNan32 x ∧ isNan32 y → v = 0x7FC00000) ∧ (isNan32 x ∧ ¬isNan32 y → v = y) ∧ (¬isNan32 x ∧ isNan32 y → v = x) ∧
  (¬isNan32 x ∧ ¬isNan32 y → (v = x ∨ v = y) ∧
    (if mx then zkey32 x ≤ zkey32 v ∧ zkey32 y ≤ zkey32 v else zkey32 v ≤ zkey32 x ∧ zkey32 v ≤ zkey32 y))

/-- The class of an FP32 code: the bit that FCLASS sets (R103). -/
def classOf (x : Nat) : Nat :=
  let m := x % 2 ^ 31
  if 0x7FC00000 ≤ m then 9
  else if 0x7F800000 < m then 8
  else if x / 2 ^ 31 % 2 = 1 then
    if m = 0x7F800000 then 0 else if 0x800000 ≤ m then 1 else if m ≠ 0 then 2 else 3
  else
    if m = 0 then 4 else if m < 0x800000 then 5 else if m < 0x7F800000 then 6 else 7

end Sys2Proof.Claims

/-- R93: CMP and the eight forms of CMPI write the relation of the two integers, CMPI's immediate sign-extended first, and the
predicate is poisoned when a register read was. -/
def Claims.CompareResults : Prop :=
  ∀ (s : State) (ar : Area) (k : Cell) (c : Cond) (d : QReg) (a b : SReg),
    (∀ f : BitVec 3, s.issues c [a, b] ar k →
      ∃ v : Bool, (v = true ↔ Claims.compares f.toNat (k.sreg a) (k.sreg b)) ∧
        exec (.cmp c f d a b) s = .next (s.finish k 1 (fun x => x.setQ d v (k.spsn a || k.spsn b)))) ∧
    (∀ i : BitVec 8, s.issues c [a] ar k → ∀ p ∈ Claims.cmpiForms c d a i,
      ∃ v : Bool, (v = true ↔ Claims.compares p.1 (k.sreg a) (i.signExtend 64)) ∧
        exec p.2 s = .next (s.finish k 1 (fun x => x.setQ d v (k.spsn a))))

/-- R94: FCMP orders the FP32 codes in the low halves of its sources, with +0 equal to −0 and NaN unordered. -/
def Claims.FloatCompareResults : Prop :=
  ∀ (s : State) (ar : Area) (k : Cell) (c : Cond) (f : BitVec 3) (d : QReg) (a b : SReg), s.issues c [a, b] ar k →
    ∃ v : Bool, (v = true ↔ Claims.fcompares f.toNat (Claims.low32 (k.sreg a)) (Claims.low32 (k.sreg b))) ∧
      exec (.fcmp c f d a b) s = .next (s.finish k 1 (fun x => x.setQ d v (k.spsn a || k.spsn b)))

/-- R95, R96: the predicate logic, and SEL, whose result is poisoned by its predicate and by the source it selects alone. -/
def Claims.PredicateResults : Prop :=
  ∀ (s : State) (ar : Area) (k : Cell) (c : Cond),
    (∀ d a b : QReg, s.issues c [] ar k →
      exec (.pand c d a b) s = .next (s.finish k 1 (fun x => x.setQ d (k.qreg a && k.qreg b) (k.qpsn a || k.qpsn b))) ∧
      exec (.por c d a b) s = .next (s.finish k 1 (fun x => x.setQ d (k.qreg a || k.qreg b) (k.qpsn a || k.qpsn b))) ∧
      exec (.pxor c d a b) s = .next (s.finish k 1 (fun x => x.setQ d (xor (k.qreg a) (k.qreg b)) (k.qpsn a || k.qpsn b))) ∧
      exec (.pnot c d a) s = .next (s.finish k 1 (fun x => x.setQ d (!k.qreg a) (k.qpsn a))) ∧
      exec (.pmov c d a) s = .next (s.finish k 1 (fun x => x.setQ d (k.qreg a) (k.qpsn a)))) ∧
    (∀ (f : QReg) (d a b : SReg), s.issues c [d, a, b] ar k →
      (k.qreg f = true → exec (.sel c f d a b) s = .next (s.finish k 1 (fun x => x.setS d (k.sreg a) (k.qpsn f || k.spsn a)))) ∧
      (k.qreg f = false → exec (.sel c f d a b) s = .next (s.finish k 1 (fun x => x.setS d (k.sreg b) (k.qpsn f || k.spsn b)))))

/-- R98: DIV and REM are signed and round the quotient toward zero, DIVU and REMU are unsigned, and a zero divisor and the signed
overflow give the defined results. -/
def Obligations.DivisionResults : Prop :=
  ∀ (s : State) (ar : Area) (k : Cell) (c : Cond) (d a b : SReg), s.issues c [d, a, b] ar k →
    ∃ q r uq ur : Word,
      exec (.div c d a b) s = .next (s.finish k 1 (fun x => x.setS d q (k.spsn a || k.spsn b))) ∧
      exec (.rem c d a b) s = .next (s.finish k 1 (fun x => x.setS d r (k.spsn a || k.spsn b))) ∧
      exec (.divu c d a b) s = .next (s.finish k 1 (fun x => x.setS d uq (k.spsn a || k.spsn b))) ∧
      exec (.remu c d a b) s = .next (s.finish k 1 (fun x => x.setS d ur (k.spsn a || k.spsn b))) ∧
      (k.sreg b = 0 → q = 0xFFFFFFFFFFFFFFFF#64 ∧ r = k.sreg a ∧ uq = 0xFFFFFFFFFFFFFFFF#64 ∧ ur = k.sreg a) ∧
      (k.sreg b ≠ 0 →
        (k.sreg a).toNat = (k.sreg b).toNat * uq.toNat + ur.toNat ∧ ur.toNat < (k.sreg b).toNat ∧
        (k.sreg a = Claims.minInt ∧ (k.sreg b).toInt = -1 → q = k.sreg a ∧ r = 0) ∧
        (¬(k.sreg a = Claims.minInt ∧ (k.sreg b).toInt = -1) →
          (k.sreg a).toInt = (k.sreg b).toInt * q.toInt + r.toInt ∧ r.toInt.natAbs < (k.sreg b).toInt.natAbs ∧
          (0 ≤ (k.sreg a).toInt → 0 ≤ r.toInt) ∧ ((k.sreg a).toInt ≤ 0 → r.toInt ≤ 0)))

/-- R52, R100, R101: MOVI, LIT and LITH write literals, BEXT and BINS move fields bit by bit; LITH and BINS read their destination. -/
def Claims.LiteralAndFieldResults : Prop :=
  ∀ (s : State) (ar : Area) (k : Cell) (c : Cond) (d a : SReg) (w lo : BitVec 6) (i : BitVec 8) (n : Word32),
    (s.issues c [d] ar k →
      exec (.movi c d i) s = .next (s.finish k 1 (fun x => x.setS d (i.signExtend 64) false)) ∧
      exec (.lit c 0 d n) s = .next (s.finish k 3 (fun x => x.setS d (n.signExtend 64) false)) ∧
      exec (.lit c 1 d n) s = .next (s.finish k 3 (fun x => x.setS d (n.zeroExtend 64) false)) ∧
      exec (.lith c d n) s = .next (s.finish k 3 (fun x => x.setS d (n ++ (k.sreg d).extractLsb' 0 32) (k.spsn d)))) ∧
    (s.issues c [d, a] ar k →
      (∃ v : Word, exec (.bext c d a w lo) s = .next (s.finish k 2 (fun x => x.setS d v (k.spsn a))) ∧
        ∀ j, v.getLsbD j = (decide (j ≤ w.toNat) && (k.sreg a).getLsbD (lo.toNat + j))) ∧
      (∃ v : Word, exec (.bins c d a w lo) s = .next (s.finish k 2 (fun x => x.setS d v (k.spsn a || k.spsn d))) ∧
        ∀ j, j < 64 → v.getLsbD j = if lo.toNat ≤ j ∧ j ≤ lo.toNat + w.toNat then (k.sreg a).getLsbD (j - lo.toNat) else (k.sreg d).getLsbD j))

/-! ## Scalar floating point -/

/-- R68: a draw is made under SR alone; it takes one turn of the hearth's xorshift generator and yields its top 16 bits. -/
def Claims.GeneratorDraws : Prop :=
  ∀ (s : State) (h mode : Nat),
    (mode ≠ 4 → s.draw h mode = (0, s)) ∧
    (∃ x y z : Word, x = (s.hearth h).seed ^^^ ((s.hearth h).seed <<< 13) ∧ y = x ^^^ (x >>> 7) ∧ z = y ^^^ (y <<< 17) ∧
      s.draw h 4 = (z.toNat / 2 ^ 48, s.modHearth h (fun g => { g with seed := z })))

/-- R102: FADD, FSUB, FMUL, FDIV, FSQRT and FFMA round the exact value once to FP32, with one draw under SR, and write it with the
upper half zero. -/
def Claims.FloatArithmeticResults : Prop :=
  ∀ (s : State) (ar : Area) (k : Cell) (c : Cond) (rnd : BitVec 3) (d a b e : SReg),
    let A := decodeT 9 (Claims.low32 (k.sreg a))
    let B := decodeT 9 (Claims.low32 (k.sreg b))
    let C := decodeT 9 (Claims.low32 (k.sreg e))
    let g := s.draw k.hid rnd.toNat
    let res (n : Nat) (v : Val) (p : Bool) : Host.Outcome State Fault Refusal :=
      .next (g.2.finish k n (fun x => x.setS d (BitVec.ofNat 64 (roundFP32 rnd.toNat g.1 v)) p))
    (s.issues c [d, a, b] ar k →
      exec (.fadd c rnd d a b) s = res 1 (A.add rnd.toNat B) (k.spsn a || k.spsn b) ∧
      exec (.fsub c rnd d a b) s = res 1 (A.add rnd.toNat B.negate) (k.spsn a || k.spsn b) ∧
      exec (.fmul c rnd d a b) s = res 1 (A.mul B) (k.spsn a || k.spsn b) ∧
      exec (.fdiv c rnd d a b) s = res 1 (A.div B) (k.spsn a || k.spsn b)) ∧
    (s.issues c [d, a] ar k → exec (.fsqrt c rnd d a) s = res 1 A.sqrt (k.spsn a)) ∧
    (s.issues c [d, a, b, e] ar k →
      exec (.ffma c rnd d a b e) s = res 2 ((A.mul B).add rnd.toNat C) (k.spsn a || k.spsn b || k.spsn e))

/-- R103: FMIN and FMAX choose by value with −0 below +0 and pass a NaN by; FABS and FNEG act on the sign bit alone; FCLASS sets
the bit of the class. -/
def Claims.FloatSelectionResults : Prop :=
  ∀ (s : State) (ar : Area) (k : Cell) (c : Cond) (d a b : SReg),
    let x := Claims.low32 (k.sreg a)
    let y := Claims.low32 (k.sreg b)
    (s.issues c [d, a, b] ar k →
      (∃ v : Nat, exec (.fmin c d a b) s = .next (s.finish k 1 (fun z => z.setS d (BitVec.ofNat 64 v) (k.spsn a || k.spsn b))) ∧
        Claims.isMinMax false x y v) ∧
      (∃ v : Nat, exec (.fmax c d a b) s = .next (s.finish k 1 (fun z => z.setS d (BitVec.ofNat 64 v) (k.spsn a || k.spsn b))) ∧
        Claims.isMinMax true x y v)) ∧
    (s.issues c [d, a] ar k →
      exec (.fabs c d a) s = .next (s.finish k 1 (fun z => z.setS d (BitVec.ofNat 64 (x % 2 ^ 31)) (k.spsn a))) ∧
      exec (.fneg c d a) s = .next (s.finish k 1 (fun z => z.setS d (BitVec.ofNat 64 ((x + 2 ^ 31) % 2 ^ 32)) (k.spsn a))) ∧
      exec (.fclass c d a) s = .next (s.finish k 1 (fun z => z.setS d (BitVec.ofNat 64 (2 ^ Claims.classOf x)) (k.spsn a))))

/-- R104, R60: FCVT converts the low bits of its source, as many as the source type has, and writes the code as its type is held in
a register. A code of a floating type comes to its own type as it stands; an integer comes to an integer type as its low bits, or
with sat as the nearest value of the type. -/
def Claims.ConversionResults : Prop :=
  ∀ (s : State) (ar : Area) (k : Cell) (c : Cond) (d a : SReg) (sat : Bool) (rnd : BitVec 3) (dt st : BitVec 4),
    s.issues c [d, a] ar k →
      let g := s.draw k.hid rnd.toNat
      let x := (k.sreg a).toNat % 2 ^ typeBits st.toNat
      ∃ y : Nat, exec (.fcvt c d a sat rnd dt st) s = .next (g.2.finish k 2 (fun z => z.setS d (extendT dt.toNat y) (k.spsn a))) ∧
        (st = dt → 7 ≤ st.toNat → st.toNat ≤ 12 → y = x) ∧
        (¬(st = dt ∧ 7 ≤ st.toNat ∧ st.toNat ≤ 12) → y = convert st.toNat dt.toNat rnd.toNat sat g.1 x) ∧
        (st.toNat ≤ 6 → dt.toNat ≤ 6 → sat = false → y = (Claims.intCode st.toNat x % (2 : Int) ^ typeBits dt.toNat).toNat) ∧
        (st.toNat ≤ 6 → dt.toNat ≤ 6 → sat = true →
          Claims.intCode dt.toNat y = max (Claims.intLow dt.toNat) (min (Claims.intCode st.toNat x) (Claims.intHigh dt.toNat)))

/-- R73: a code of a narrow type converted to FP32 and back is the same code, in every mode and with either sat, infinities included. -/
def Claims.NarrowCodesReturnFromFp32 : Prop :=
  ∀ (t mode r r2 x : Nat) (sat : Bool), t ∈ [0, 1, 2, 3, 7, 8, 10, 11, 12, 13] → x < 2 ^ typeBits t →
    convert 9 t mode sat r2 (convert t 9 mode sat r x) = x

/-- Compares of integers and of FP32 codes, and the predicate instructions. -/
def Obligations.CompareAndPredicateResults : Prop := Claims.CompareResults ∧ Claims.FloatCompareResults ∧ Claims.PredicateResults

/-- FP32 arithmetic, and the FP32 minima, maxima and sign operations. -/
def Obligations.FloatResults : Prop := Claims.FloatArithmeticResults ∧ Claims.FloatSelectionResults

/-- Conversions between codes and integers, and the exact return of narrow codes from FP32. -/
def Obligations.ConversionsAndNarrowCodes : Prop := Claims.ConversionResults ∧ Claims.NarrowCodesReturnFromFp32

namespace Sys2Proof.Claims

open Sys2Proof.Machine

/-! The grids of the floating formats (Tables 4.1 and 4.2), by type code. -/

/-- Bits of the fraction, the exponent of the least step, and the magnitude code at which the grid ends: that of infinity, of the NaN of
FP8E4M3, or the one past the greatest of E2M1. -/
def gridOf (t : Nat) : Option (Nat × Int × Nat) :=
  match t with
  | 7 => some (7, -133, 0x7F80)
  | 8 => some (10, -24, 0x7C00)
  | 9 => some (23, -149, 0x7F800000)
  | 10 => some (3, -9, 0x7F)
  | 11 => some (2, -16, 0x7C)
  | 12 => some (1, -1, 8)
  | _ => none

/-- The magnitude that the code k without its sign stands for, subnormals below 2^frac (R61); at the end of the grid, the power that would
come next. -/
def magnitude (frac : Nat) (step : Int) (k : Nat) : ℚ :=
  if k < 2 ^ frac then (k : ℚ) * (2 : ℚ) ^ step
  else ((2 ^ frac + k % 2 ^ frac : Nat) : ℚ) * (2 : ℚ) ^ (step + ((k / 2 ^ frac : Nat) : Int) - 1)

/-- The magnitude x ≥ 0 of a value with the sign `n` rounds in a mode to the code k of a grid that ends at `top`, with the draw r in mode SR
(Table 4.3): the nearest, ties to even; toward zero; away from zero; or by chance. -/
def roundsTo (frac : Nat) (step : Int) (top mode r : Nat) (n : Bool) (x : ℝ) (k : Nat) : Prop :=
  let at_ (j : Nat) : ℝ := (magnitude frac step j : ℝ)
  let toward : Prop := mode = 1 ∨ (mode = 2 ∧ n = false) ∨ (mode = 3 ∧ n = true)
  let away : Prop := (mode = 2 ∧ n = true) ∨ (mode = 3 ∧ n = false)
  k ≤ top ∧
  (at_ top ≤ x → (toward → k + 1 = top) ∧ (¬toward → k = top)) ∧
  (x < at_ top →
    (mode = 0 → ∀ j, j ≤ top → |x - at_ k| ≤ |x - at_ j| ∧ (|x - at_ k| = |x - at_ j| → j ≠ k → k % 2 = 0)) ∧
    (toward → k < top ∧ at_ k ≤ x ∧ x < at_ (k + 1)) ∧
    (away → x ≤ at_ k ∧ ∀ j, j < k → at_ j < x) ∧
    (mode = 4 → ∃ lo, lo < top ∧ at_ lo ≤ x ∧ x < at_ (lo + 1) ∧
      (((2 : ℤ) ^ 16 ≤ ⌊(2 : ℝ) ^ 16 * (x - at_ lo) / (at_ (lo + 1) - at_ lo)⌋ + r ∧ k = lo + 1) ∨
        (⌊(2 : ℝ) ^ 16 * (x - at_ lo) / (at_ (lo + 1) - at_ lo)⌋ + r < (2 : ℤ) ^ 16 ∧ k = lo))))

/-- The code of type t that the value with sign `n` and magnitude x rounds to. At the end of the grid the code is that of infinity, or of
NaN for FP8E4M3; with sat, and for E2M1, the greatest finite one (Table 4.4). -/
def roundsToCode (t mode r : Nat) (sat n : Bool) (x : ℝ) (y : Nat) : Prop :=
  ∃ frac step top k, gridOf t = some (frac, step, top) ∧ roundsTo frac step top mode r n x k ∧
    y = (if n then 2 ^ (typeBits t - 1) else 0) + (if k = top ∧ (sat = true ∨ t = 12) then top - 1 else k)

/-- The magnitude of a finite value, and the value itself. -/
def size (m : Nat) (e : Int) : ℚ := (m : ℚ) * (2 : ℚ) ^ e
def real (n : Bool) (m : Nat) (e : Int) : ℚ := if n then -size m e else size m e

end Sys2Proof.Claims

open Sys2Proof Sys2Proof.Machine

/-- R61, R62: a code of a floating type stands for the value of its place on the grid with its sign; the codes of infinity and of NaN
follow the grid where the type has them. -/
def Claims.CodesLieOnTheGrid : Prop :=
  ∀ (t frac top x : Nat) (step : Int), Claims.gridOf t = some (frac, step, top) → x < 2 ^ typeBits t →
    let half := 2 ^ (typeBits t - 1)
    let n := decide (half ≤ x)
    (x % half < top → ∃ m e, decodeT t x = .fin n m e ∧ Claims.size m e = Claims.magnitude frac step (x % half)) ∧
    (t ≠ 10 → x % half = top → decodeT t x = .inf n) ∧
    (t ≠ 10 → top < x % half → (decodeT t x).isNan = true) ∧
    (t = 10 → x % half = top → (decodeT t x).isNan = true)

/-- R66, R67, R70: a finite value rounds once, in every mode, to the code that Tables 4.3 and 4.4 give for its place between the codes of
the grid; a NaN result of arithmetic is the default NaN of the type, and an infinity stays one without sat. -/
def Claims.ValuesRoundToTheGrid : Prop :=
  ∀ (t mode r m : Nat) (sat n : Bool) (e : Int), (Claims.gridOf t).isSome = true → mode ≤ 4 → r < 2 ^ 16 →
    Claims.roundsToCode t mode r sat n (Claims.size m e : ℝ) (roundT t mode sat r (.fin n m e)) ∧
    arith t mode sat r (.fin n m e) = roundT t mode sat r (.fin n m e) ∧
    (∀ a f, arith t mode sat r (.nan a f) =
      (match t with | 7 => 0x7FC0 | 8 => 0x7E00 | 9 => 0x7FC00000 | 10 => 0x7F | 11 => 0x7E | _ => 0)) ∧
    (∀ frac step top, Claims.gridOf t = some (frac, step, top) → t ≠ 10 → t ≠ 12 →
      roundT t mode false r (.inf n) = (if n then 2 ^ (typeBits t - 1) else 0) + top)

/-- R75, R102: sums and products of finite values are exact; the sign of an exact zero is that of equal zeros, or else + and − under RDN.
Invalid operations give NaN and infinities follow their signs. -/
def Claims.ArithmeticIsExact : Prop :=
  (∀ (mode m k : Nat) (a b : Bool) (e f : Int),
    (∃ n q g, Val.add mode (.fin a m e) (.fin b k f) = .fin n q g ∧ Claims.real n q g = Claims.real a m e + Claims.real b k f ∧
      (Claims.real n q g = 0 → n = if m = 0 ∧ k = 0 ∧ a = b then a else decide (mode = 2))) ∧
    (∃ q g, Val.mul (.fin a m e) (.fin b k f) = .fin (a != b) q g ∧ Claims.size q g = Claims.size m e * Claims.size k f) ∧
    Val.add mode (.inf a) (.fin b k f) = .inf a ∧ Val.add mode (.fin b k f) (.inf a) = .inf a ∧
    Val.add mode (.inf a) (.inf a) = .inf a ∧ (Val.add mode (.inf a) (.inf (!a))).isNan = true ∧
    (k ≠ 0 → Val.mul (.inf a) (.fin b k f) = .inf (a != b) ∧ Val.mul (.fin b k f) (.inf a) = .inf (a != b)) ∧
    (Val.mul (.inf a) (.fin b 0 f)).isNan = true ∧ (Val.mul (.fin b 0 f) (.inf a)).isNan = true ∧
    Val.mul (.inf a) (.inf b) = .inf (a != b)) ∧
  (∀ (mode : Nat) (x y : Val), x.isNan = true ∨ y.isNan = true → (Val.add mode x y).isNan = true ∧ (Val.mul x y).isNan = true ∧
    (Val.div x y).isNan = true) ∧
  (∀ x : Val, x.isNan = true → (Val.sqrt x).isNan = true)

/-- R102: quotients and square roots of FP32 codes are rounded once from their exact values. -/
def Claims.QuotientsAndRootsRoundOnce : Prop :=
  ∀ (mode r x y : Nat), mode ≤ 4 → r < 2 ^ 16 → x % 2 ^ 31 ≤ 0x7F800000 → y % 2 ^ 31 ≤ 0x7F800000 → x < 2 ^ 32 → y < 2 ^ 32 →
    let mag (z : Nat) : ℝ := (Claims.magnitude 23 (-149) (z % 2 ^ 31) : ℝ)
    let n := decide (2 ^ 31 ≤ x) != decide (2 ^ 31 ≤ y)
    let q := roundFP32 mode r ((decodeT 9 x).div (decodeT 9 y))
    let w := roundFP32 mode r (decodeT 9 x).sqrt
    let sign := if n then 2 ^ 31 else 0
    (x % 2 ^ 31 < 0x7F800000 → y % 2 ^ 31 < 0x7F800000 → y % 2 ^ 31 ≠ 0 → Claims.roundsToCode 9 mode r false n (mag x / mag y) q) ∧
    (y % 2 ^ 31 = 0 → q = if x % 2 ^ 31 = 0 then 0x7FC00000 else sign + 0x7F800000) ∧
    (x % 2 ^ 31 = 0x7F800000 → q = if y % 2 ^ 31 = 0x7F800000 then 0x7FC00000 else sign + 0x7F800000) ∧
    (x % 2 ^ 31 < 0x7F800000 → y % 2 ^ 31 = 0x7F800000 → q = sign) ∧
    (x < 0x7F800000 → Claims.roundsToCode 9 mode r false false (Real.sqrt (mag x)) w) ∧
    (x = 0x7F800000 → w = x) ∧ (x = 2 ^ 31 → w = x) ∧ (2 ^ 31 < x → w = 0x7FC00000)

/-- R94, R103: values that are no NaN are ordered as the reals with the infinities at the ends. -/
def Claims.ValuesAreOrdered : Prop :=
  ∀ (a b : Bool) (m k : Nat) (e f : Int),
    (Val.lt (.fin a m e) (.fin b k f) = true ↔ Claims.real a m e < Claims.real b k f) ∧
    (Val.lt (.inf a) (.fin b k f) = true ↔ a = true) ∧ (Val.lt (.fin b k f) (.inf a) = true ↔ a = false) ∧
    (Val.lt (.inf a) (.inf b) = true ↔ a = true ∧ b = false)

/-- R69: a floating code comes to an integer type as the integer that its value rounds to, kept between the limits of the type; NaN gives
0 and an infinity a limit. -/
def Claims.FloatsRoundToIntegers : Prop :=
  ∀ (src dst mode r x : Nat) (sat : Bool), 7 ≤ src → src ≤ 12 → dst ≤ 6 → mode ≤ 4 → r < 2 ^ 16 →
    (∀ n m e, decodeT src x = .fin n m e →
      let v := Claims.real n m e
      ∃ i : ℤ, Claims.intCode dst (convert src dst mode sat r x) = max (Claims.intLow dst) (min i (Claims.intHigh dst)) ∧
        (mode = 0 → |v - i| ≤ 1 / 2 ∧ (|v - i| = 1 / 2 → i % 2 = 0)) ∧
        (mode = 1 → |(i : ℚ)| ≤ |v| ∧ |v| < |(i : ℚ)| + 1 ∧ 0 ≤ i * v) ∧
        (mode = 2 → i = ⌊v⌋) ∧ (mode = 3 → i = ⌈v⌉) ∧
        (mode = 4 → ∃ up : Bool, (up = true ↔ (2 : ℤ) ^ 16 ≤ ⌊(2 : ℚ) ^ 16 * (|v| - ⌊|v|⌋)⌋ + r) ∧
          i = (if n then -1 else 1) * (⌊|v|⌋ + if up then 1 else 0))) ∧
    ((decodeT src x).isNan = true → Claims.intCode dst (convert src dst mode sat r x) = 0) ∧
    (decodeT src x = .inf false → Claims.intCode dst (convert src dst mode sat r x) = Claims.intHigh dst) ∧
    (decodeT src x = .inf true → Claims.intCode dst (convert src dst mode sat r x) = Claims.intLow dst)

/-- The values of the floating types, their one rounding, and the exact operations before it. -/
def Obligations.RoundingOnTheGrid : Prop :=
  Claims.CodesLieOnTheGrid ∧ Claims.ValuesRoundToTheGrid ∧ Claims.ArithmeticIsExact ∧ Claims.QuotientsAndRootsRoundOnce ∧
    Claims.ValuesAreOrdered ∧ Claims.FloatsRoundToIntegers

/-! ## Symbols, special registers, descriptors and the rewrite -/

namespace Sys2Proof.Claims

/-- MKSYM's value field by kind (Table 5.9). -/
def symbolValue (k : Nat) (x : Word) : Word :=
  match k with
  | 0 | 1 | 2 | 3 | 4 => 0
  | 5 => BitVec.ofNat 64 (x.toNat % 2 ^ 12)
  | 7 => BitVec.ofNat 64 (x.toNat % 2 ^ 32)
  | 8 => x.extractLsb' 48 16 ++ 0#3 ++ x.extractLsb' 0 45
  | 9 => (x.extractLsb' 0 55).signExtend 64
  | 11 => BitVec.ofNat 64 (x.toNat % 64)
  | _ => x

/-- The special registers of a leaf cell by selector (Table 5.3). -/
def specials (s : State) (ar : Area) (k : Cell) : List (BitVec 5 × Nat) :=
  [(0x00, s.cur.2), (0x01, ar.cells.length), (0x02, k.phys / 256), (0x03, k.phys), (0x04, ar.ctx), (0x05, ar.stamp),
   (0x06, (s.part (s.lead (k.phys / 65536))).horizon), (0x07, (((s.ctx ar.ctx).map (fun x => x.lb.toNat)).getD 0) % 2 ^ 55),
   (0x08, ar.ctx * 2 ^ 58 + ar.pos), (0x09, ar.op), (0x0A, k.phys % 16), (0x0B, (s.part (s.lead (k.phys / 65536))).cyc)]

/-- The fields of a descriptor that DSET replaces: lowest bit and width (Table 9.1). -/
def descField : List (BitVec 3 × Nat × Nat) :=
  [(0, 0, 20), (1, 20, 4), (2, 24, 8), (3, 32, 8), (4, 40, 4), (5, 44, 1), (6, 48, 16), (7, 0, 64)]

/-- The kind word of a symbol (Table 5.2). -/
def kindWord (y : Sym) : Word := BitVec.ofNat 64 (y.kind.toNat + (if y.poison then 16 else 0) + (if y.transit then 32 else 0))

end Sys2Proof.Claims

/-- R105, R106, R112: in a program's area SYMRD, SYMKD and SYMGET read the symbols of the row, MKSYM forms a value field; in a
supervisor cell the symbol reads as EMPTY. -/
def Claims.SymbolReads : Prop :=
  ∀ (s : State) (ar : Area) (k : Cell) (c : Cond) (d a : SReg) (kind : BitVec 4),
    (ar.kind = .user → s.issues c [d] ar k →
      exec (.symrd c d) s = .next (s.finish k 1 (fun x => x.setS d (s.sym k.phys).value (s.sym k.phys).poison)) ∧
      exec (.symkd c d) s = .next (s.finish k 1 (fun x => x.setS d ((s.sym k.phys).kind.zeroExtend 64) false))) ∧
    (ar.kind.supervisor = true → s.issues c [d] ar k →
      exec (.symrd c d) s = .next (s.finish k 1 (fun x => x.setS d 0 false)) ∧
      exec (.symkd c d) s = .next (s.finish k 1 (fun x => x.setS d 0 false))) ∧
    (s.issues c [d, a] ar k →
      exec (.mksym c kind d a) s = .next (s.finish k 1 (fun x => x.setS d (Claims.symbolValue kind.toNat (k.sreg a)) (k.spsn a))) ∧
      (ar.kind.supervisor = true → ∀ f : BitVec 3, exec (.symget c f d a) s = .next (s.finish k 1 (fun x => x.setS d 0 (k.spsn a)))) ∧
      (ar.kind = .user →
        (∀ y : Cell, ar.cells.find (k.sreg a).toNat = some y →
          exec (.symget c 0 d a) s = .next (s.finish k 1 (fun x =>
            x.setS d (s.sym y.phys).value ((s.sym y.phys).poison || k.spsn a))) ∧
          exec (.symget c 1 d a) s = .next (s.finish k 1 (fun x => x.setS d (Claims.kindWord (s.sym y.phys)) (k.spsn a)))) ∧
        (ar.cells.find (k.sreg a).toNat = none →
          exec (.symget c 0 d a) s = .next (s.finish k 1 (fun x => x.setS d 0 (k.spsn a))) ∧
          exec (.symget c 1 d a) s = .next (s.finish k 1 (fun x => x.setS d 0 (k.spsn a))))))

/-- R79, R107: MOVS reads the special register of its selector, zero-extended and unpoisoned, in a leaf cell. -/
def Claims.SpecialRegisterReads : Prop :=
  ∀ (s : State) (ar : Area) (k : Cell) (c : Cond) (d : SReg), ar.kind = .user → k.sup = none → s.issues c [d] ar k →
    ∀ p ∈ Claims.specials s ar k, exec (.movs c d p.1) s = .next (s.finish k 1 (fun x => x.setS d (BitVec.ofNat 64 p.2) false))

/-- R157: MOVD and MOVDS copy a word between the files with its poison; DSET replaces one field of a descriptor, bit by bit. -/
def Claims.DescriptorMoves : Prop :=
  ∀ (s : State) (ar : Area) (k : Cell) (c : Cond) (d : TReg) (a : SReg),
    s.issues c [a] ar k →
      exec (.movd c d a) s = .next (s.finish k 1 (fun x => x.setD d (k.sreg a) (k.spsn a))) ∧
      exec (.movds c a d) s = .next (s.finish k 1 (fun x => x.setS a (k.dreg d) (k.dpsn d))) ∧
      ∀ f ∈ Claims.descField, ∃ v : Word,
        exec (.dset c f.1 d a) s = .next (s.finish k 1 (fun x => x.setD d v (k.dpsn d || k.spsn a))) ∧
        ∀ j, j < 64 → v.getLsbD j =
          if f.2.1 ≤ j ∧ j < f.2.1 + f.2.2 then (k.sreg a).getLsbD (j - f.2.1) else (k.dreg d).getLsbD j

/-- R118: EMIT, EMITN, INSERT and DELETE state the rewrite of the cell: EMIT of EMPTY deletes; INSERT keeps what lies below the new
count and drops the rest; a position at or past the count, and a count above 65,535, raise OPERATOR_INVALID; so does every one of
them in a supervisor cell. -/
def Obligations.RewriteRecords : Prop :=
  ∀ (s : State) (ar : Area) (k : Cell) (c : Cond) (kind : BitVec 4) (a b : SReg),
    let y : Sym := ⟨kind, k.spsn a, false, symValue kind (k.sreg a)⟩
    (ar.kind.supervisor = true → s.issues c [a, b] ar k → s.issues c [a] ar k → s.issues c [] ar k →
      exec (.emit c kind a) s = .next (s.raise 0x42 0) ∧ exec (.emitn c kind a b) s = .next (s.raise 0x42 0) ∧
      exec (.insert c a) s = .next (s.raise 0x42 0) ∧ exec (.delete c) s = .next (s.raise 0x42 0)) ∧
    (ar.kind.supervisor = false →
      (s.issues c [] ar k → exec (.delete c) s = .next (s.finish k 1 (fun x => { x with rw := { x.rw with own := .delete } }))) ∧
      (s.issues c [a] ar k →
        exec (.emit c kind a) s = .next (s.finish k 1 (fun x =>
          { x with rw := { x.rw with own := if kind = 0 then .delete else .replace y } })) ∧
        (k.spsn a = false → (k.sreg a).toNat ≤ 65535 →
          exec (.insert c a) s = .next (s.finish k 1 (fun x => { x with
            rw := ⟨x.rw.own, (k.sreg a).toNat, x.rw.ins.filter (fun p => p.1 < (k.sreg a).toNat)⟩ }))) ∧
        (k.spsn a = false → 65535 < (k.sreg a).toNat → exec (.insert c a) s = .next (s.raise 0x42 0))) ∧
      (s.issues c [a, b] ar k → k.spsn b = false →
        ((k.sreg b).toNat < k.rw.n →
          exec (.emitn c kind a b) s = .next (s.finish k 1 (fun x => { x with rw := { x.rw with
            ins := if kind = 0 then k.rw.ins.erase (k.sreg b).toNat else k.rw.ins.set (k.sreg b).toNat y } }))) ∧
        (k.rw.n ≤ (k.sreg b).toNat → exec (.emitn c kind a b) s = .next (s.raise 0x42 0))))

/-! ## Control -/

/-- R88: LOOP takes one from s[d], wrapping, and branches unless the result is 0; on s0 it writes nothing and always branches. It is
a 64-bit instruction with opcode 0x01 whose word offset lies in bits 31 to 14 of word 1. -/
def Obligations.LoopCountsDown : Prop :=
  ∀ (s : State) (ar : Area) (k : Cell) (c : Cond) (d : SReg) (off : BitVec 18),
    (∃ w0 w1 : Word32, encode (.loop c d off) = [w0, w1] ∧ w0.extractLsb' 0 10 = 0x01#8 ++ 1#2 ∧ w1.extractLsb' 14 18 = off) ∧
    (s.issues c [d] ar k → k.spsn d = false →
      (d = 0 → exec (.loop c d off) s = .next (s.jump k (k.pc + BitVec.ofInt 64 (4 * off.toInt)) id)) ∧
      (d ≠ 0 → k.sreg d ≠ 1 →
        exec (.loop c d off) s = .next (s.jump k (k.pc + BitVec.ofInt 64 (4 * off.toInt)) (fun x => x.setS d (k.sreg d - 1) false))) ∧
      (d ≠ 0 → k.sreg d = 1 → exec (.loop c d off) s = .next (s.finish k 2 (fun x => x.setS d 0 false))))

/-- R85, R87, R89: NOP and YIELD change no register and no memory, BR and CALL go to a word offset from their own address, CALL
writes the return address to s31, and BRC compares and goes on behind its two words when the relation fails. -/
def Claims.BranchesAndHints : Prop :=
  ∀ (s : State) (ar : Area) (k : Cell) (c : Cond) (f : BitVec 3) (a b : SReg) (off : BitVec 18),
    let dest := k.pc + BitVec.ofInt 64 (4 * off.toInt)
    (s.issues c [] ar k →
      exec (.nop c) s = .next (s.finish k 1 id) ∧
      exec (.yield c) s = .next ((s.finish k 1 id).modHearth k.hid (fun h => { h with yielded := h.yielded.set k.lane k.place })) ∧
      exec (.br c off) s = .next (s.jump k dest id)) ∧
    (s.issues c [31] ar k → exec (.call c off) s = .next (s.jump k dest (fun x => x.setS 31 (k.pc + 4) false))) ∧
    (s.issues c [a, b] ar k → k.spsn a = false → k.spsn b = false →
      (Claims.compares f.toNat (k.sreg a) (k.sreg b) → exec (.brc c f a b off) s = .next (s.jump k dest id)) ∧
      (¬Claims.compares f.toNat (k.sreg a) (k.sreg b) → exec (.brc c f a b off) s = .next (s.finish k 2 id)))

/-- R86: BRX and RETN go to the byte offset in s[a], and a target that is no multiple of 4 raises MISALIGNED and leaves the pc; with
the jump trace on they also leave a record of kind 4 or 5. -/
def Claims.RegisterBranches : Prop :=
  ∀ (s : State) (ar : Area) (k : Cell) (c : Cond) (a : SReg), s.issues c [a] ar k → k.spsn a = false →
    let traced := ((s.ctx ar.ctx).map (fun x => x.trace.getLsbD 1)).getD false
    let rec_ (kind : Nat) : State := s.log ar.ctx kind 0 ar.op (areaAddr ar.ctx ar.pos) k.pc.toNat (k.sreg a).toNat
    ((k.sreg a).toNat % 4 ≠ 0 → exec (.brx c a) s = .next (s.raise 0x12 0) ∧ exec (.retn c a) s = .next (s.raise 0x12 0)) ∧
    ((k.sreg a).toNat % 4 = 0 → traced = false →
      exec (.brx c a) s = .next (s.jump k (k.sreg a) id) ∧ exec (.retn c a) s = .next (s.jump k (k.sreg a) id)) ∧
    ((k.sreg a).toNat % 4 = 0 → traced = true →
      exec (.brx c a) s = .next ((rec_ 4).jump k (k.sreg a) id) ∧ exec (.retn c a) s = .next ((rec_ 5).jump k (k.sreg a) id))

/-- R81: a poisoned branch target, a poisoned source of BRC and a poisoned LOOP counter are consumed: under strict control the
instruction raises POISON_CONSUMED, otherwise it runs on the value and the area is marked. -/
def Claims.PoisonIsConsumedByControl : Prop :=
  ∀ (s : State) (ar : Area) (k : Cell) (c : Cond) (f : BitVec 3) (a b : SReg) (off : BitVec 18),
    (s.strict ar.ctx = true →
      (s.issues c [a] ar k → k.spsn a = true →
        exec (.brx c a) s = .next (s.raise 0x30 0) ∧ exec (.retn c a) s = .next (s.raise 0x30 0) ∧
        exec (.loop c a off) s = .next (s.raise 0x30 0)) ∧
      (s.issues c [a, b] ar k → (k.spsn a || k.spsn b) = true → exec (.brc c f a b off) s = .next (s.raise 0x30 0))) ∧
    (s.strict ar.ctx = false →
      (s.issues c [a] ar k → k.spsn a = true → k.sreg a ≠ 1 →
        exec (.loop c a off) s = .next (s.markConsumed.jump k (k.pc + BitVec.ofInt 64 (4 * off.toInt))
          (fun x => x.setS a (k.sreg a - 1) true))) ∧
      (s.issues c [a, b] ar k → (k.spsn a || k.spsn b) = true → Claims.compares f.toNat (k.sreg a) (k.sreg b) →
        exec (.brc c f a b off) s = .next (s.markConsumed.jump k (k.pc + BitVec.ofInt 64 (4 * off.toInt)) id))) ∧
    (∀ t : State, t = s.markConsumed →
      (s.area s.cur.1 = some ar → t.area s.cur.1 = some { ar with consumed := true }) ∧
      (∀ u, u ≠ s.cur.1 → t.area u = s.area u) ∧ ({ t with areas := s.areas } : State) = s)

/-- R91, R92: TRAP takes the exception of fault code 0x00 with its software code; BRKPT is a NOP with breakpoints disabled, and with
them enabled it writes a record of kind 2 with the stamp of its area, marks the area and goes on. -/
def Claims.TrapAndBreakpoint : Prop :=
  ∀ (s : State) (ar : Area) (k : Cell) (c : Cond) (code : BitVec 8), s.issues c [] ar k →
    exec (.trap c code) s = .next (s.raiseWith 0 code 0) ∧
    (((s.ctx ar.ctx).map (·.brk)).getD false = false → exec (.brkpt c) s = .next (s.finish k 1 id)) ∧
    (((s.ctx ar.ctx).map (·.brk)).getD false = true →
      exec (.brkpt c) s = .next (((s.logAt ar.stamp ar.ctx 2 0 ar.op (areaAddr ar.ctx ar.pos) s.cur.2 k.pc.toNat).modArea s.cur.1
        (fun x => { x with brk := true })).finish k 1 id))

/-! ## The ends of cells and the collectives -/

/-- R90, R18: COMMIT and DISCARD stop the issuing cell with their own stop state, its accesses performed. While another cell of its area
runs, nothing else happens; with the last one the area ends. -/
def Claims.CommitAndDiscardStop : Prop :=
  ∀ (s : State) (ar : Area) (k : Cell) (c : Cond), s.issues c [] ar k → ar.kind = .user ∨ (∃ n o, ar.kind = .shadow n o) →
    let stop (x : Stop) : State :=
      ((((s.settle s.cur.1 s.cur.2 17).reach k.hid).count k.hid 1 1).modCur (fun k => { k with stop := x, wait := none })).modArea s.cur.1
        (fun a => { a with lastStop := s.cur.2 })
    ((ar.cells.all (fun p => p.1 = s.cur.2 || p.2.stop ≠ .running)) = false →
      exec (.commit c) s = .next (stop .commit) ∧ exec (.discard c) s = .next (stop .discard)) ∧
    ((ar.cells.all (fun p => p.1 = s.cur.2 || p.2.stop ≠ .running)) = true →
      exec (.commit c) s = .next ((stop .commit).ended s.cur.1 s.cur.2) ∧
      exec (.discard c) s = .next ((stop .discard).ended s.cur.1 s.cur.2))

/-- The arrival that a cell brings to each collective (R109, R113–R117). -/
def Claims.arrivals (k : Cell) (c : Cond) (f : BitVec 3) (d a b : SReg) (q : QReg) : List (Instr × List SReg × Arrival) :=
  let on := k.cond c
  [(.bcast c d a b, [d, a, b], ⟨0x65, 0, on, true, d, k.sreg a, k.spsn a, k.sreg b⟩),
   (.reduceInt c f d a, [d, a], ⟨0x66, f, on, true, d, k.sreg a, k.spsn a, 0⟩),
   (.reduceFp32 c f d a, [d, a], ⟨0x67, f, on, true, d, k.sreg a, k.spsn a, 0⟩),
   (.scanInt c f d a, [d, a], ⟨0x68, f, on, true, d, k.sreg a, k.spsn a, 0⟩),
   (.scanFp32 c f d a, [d, a], ⟨0x69, f, on, true, d, k.sreg a, k.spsn a, 0⟩),
   (.count c d q, [d], ⟨0x6A, 0, on, true, d, if k.qreg q then 1 else 0, k.qpsn q, 0⟩),
   (.first c d q, [d], ⟨0x6B, 0, on, true, d, if k.qreg q then 1 else 0, k.qpsn q, 0⟩),
   (.areabar c, [], ⟨0x6C, 0, on, on, 0, 0, false, 0⟩)]

/-- R109, R117: a cell arrives at a collective whatever its condition, its accesses performed, contributes and receives only with a true
condition, and stays at its pc until the instance is complete; an AREABAR with a false condition alone lets it go on. That its accesses are
performed then is the model's choice (log 30). -/
def Claims.CollectiveArrivals : Prop :=
  ∀ (s : State) (ar : Area) (k : Cell) (c : Cond) (f : BitVec 3) (d a b : SReg) (q : QReg),
    s.area s.cur.1 = some ar → ar.cells.find s.cur.2 = some k → k.qpsn c.q = false →
    ∀ p ∈ Claims.arrivals k c f d a b q, (k.cond c = false ∨ k.pend.any (fun x => p.2.1.contains x.1) = false ∧ k.awaitsMem p.2.1 = false) →
      exec p.1 s = .next (((s.settle s.cur.1 s.cur.2 17).count k.hid 1 1).modCur (fun x => { x with
        coll := x.coll + 1, arrs := x.arrs ++ [p.2.2], wait := none, pc := if p.2.2.waits then x.pc else x.pc + 4 }))

namespace Sys2Proof.Claims

/-- The contributions to an area's next instance in cix order: cix, value, poison. -/
def brought (ar : Area) : List (Nat × Word × Bool) :=
  ar.cells.filterMap (fun p =>
    match p.2.stop, p.2.arrs with
    | .running, x :: _ => if x.active then some (p.1, x.val, x.psn) else none
    | _, _ => none)

/-- `v` combines the integers `l` by the op code `f` (Tables 3.11 and 6.2): add, min, max, minu, maxu, and, or, xor. -/
def combines (f : Nat) (l : List Word) (v : Word) : Prop :=
  match f with
  | 0 => v.toNat = (l.map (·.toNat)).sum % 2 ^ 64
  | 1 => (∀ x ∈ l, v.toInt ≤ x.toInt) ∧ (v ∈ l ∨ l = [] ∧ v = 0x7FFFFFFFFFFFFFFF#64)
  | 2 => (∀ x ∈ l, x.toInt ≤ v.toInt) ∧ (v ∈ l ∨ l = [] ∧ v = minInt)
  | 3 => (∀ x ∈ l, v.toNat ≤ x.toNat) ∧ (v ∈ l ∨ l = [] ∧ v = 0xFFFFFFFFFFFFFFFF#64)
  | 4 => (∀ x ∈ l, x.toNat ≤ v.toNat) ∧ (v ∈ l ∨ l = [] ∧ v = 0)
  | 5 => ∀ j, j < 64 → v.getLsbD j = l.all (fun x => x.getLsbD j)
  | 6 => ∀ j, j < 64 → v.getLsbD j = l.any (fun x => x.getLsbD j)
  | _ => ∀ j, j < 64 → v.getLsbD j = decide ((l.filter (fun x => x.getLsbD j)).length % 2 = 1)

/-- What the receiving cell `i` gets from the instance of opcode `op` and field `f`: value `v` and poison `p`; the FP32 forms by
the flue tree of R114 and R115. -/
def receives (ar : Area) (op : BitVec 8) (f : BitVec 3) (i : Nat) (k : Cell) (v : Word) (p : Bool) : Prop :=
  let l := brought ar
  let low := l.filter (fun x => x.1 < i)
  match op.toNat with
  | 0x65 =>
    let src := (l.head?.bind (fun x => (ar.cells.find x.1).bind (fun k => k.arrs.head?.map (fun y => y.idx.toNat)))).getD 0
    (∀ x ∈ l, x.1 = src → v = x.2.1 ∧ p = x.2.2) ∧ ((∀ x ∈ l, x.1 ≠ src) → v = 0 ∧ p = false)
  | 0x66 => combines f.toNat (l.map (·.2.1)) v ∧ p = l.any (·.2.2)
  | 0x67 => v = combine true f.toNat none ar.contribs ∧ p = l.any (·.2.2)
  | 0x68 => combines f.toNat (low.map (·.2.1)) v ∧ p = low.any (·.2.2)
  | 0x69 => v = combine true f.toNat (some k.phys) (ar.contribs.filter (fun x => x.cix < i)) ∧ p = low.any (·.2.2)
  | 0x6A => v.toNat = (l.filter (fun x => x.2.1 ≠ 0)).length ∧ p = l.any (·.2.2)
  | _ =>
    (∀ x ∈ l, x.2.1 ≠ 0 → v.toNat ≤ x.1) ∧ ((∃ x ∈ l, x.2.1 ≠ 0 ∧ v.toNat = x.1) ∨
      (∀ x ∈ l, x.2.1 = 0) ∧ v.toNat = ar.cells.length) ∧ p = l.any (·.2.2)

end Sys2Proof.Claims

/-- R109–R117: once every cell of an active area has arrived at the same collective or has stopped, its completion gives each cell
with a true condition its result, takes one arrival from every cell, lets the waiting cells go on behind the instruction, puts what each
of them does from now on behind what all have done, and changes nothing else; stopped cells receive nothing. -/
def Claims.CollectiveResults : Prop :=
  ∀ (s : State) (u i0 : Nat) (ar : Area) (k0 : Cell) (x0 : Arrival) (r0 : List Arrival),
    s.area u = some ar → ar.phase = .active → ((s.ctx ar.ctx).map Ctx.live).getD false = true →
    ar.cells.Pairwise (fun p q => p.1 < q.1) → ar.cells.length < 2 ^ 64 → (∀ p ∈ ar.cells, p.1 < ar.cells.length) →
    ar.cells.find i0 = some k0 → k0.arrs = x0 :: r0 → 0x65 ≤ x0.opcode.toNat → x0.opcode.toNat ≤ 0x6C →
    (∀ p ∈ ar.cells, p.2.stop ≠ .running ∨ p.2.arrs ≠ []) →
    (∀ p ∈ ar.cells, ∀ y ∈ p.2.arrs.head?, y.opcode = x0.opcode ∧ y.f = x0.f) →
    ∃ (s1 : State) (b : Area), exec (.collectiveComplete u) s = .next (s1.modArea u (fun _ => b)) ∧
      { s1 with hearths := s.hearths } = s ∧ (∀ h, { s1.hearth h with clk := (s.hearth h).clk } = s.hearth h) ∧
      (∀ h, (∀ p ∈ ar.cells, p.2.hid ≠ h) → s1.hearth h = s.hearth h) ∧
      (∀ p ∈ ar.cells, ∀ q ∈ ar.cells, s.now q.2.hid ≤ s1.now p.2.hid) ∧
      ({ b with done := ar.done, cells := ar.cells } : Area) = ar ∧ b.done = ar.done + 1 ∧
      ∀ (i : Nat) (k : Cell), ar.cells.find i = some k →
        (k.arrs = [] → b.cells.find i = some k) ∧
        (∀ (x : Arrival) (r : List Arrival), k.arrs = x :: r →
          (k.stop ≠ .running → b.cells.find i = some { k with arrs := r }) ∧
          (k.stop = .running →
            let go : Cell := { k with arrs := r, pc := if x.waits then k.pc + 4 else k.pc }
            (x.active = true → x0.opcode ≠ 0x6C → ∃ v p, Claims.receives ar x0.opcode x0.f i k v p ∧
              b.cells.find i = some (go.setS x.dst v p)) ∧
            ((x.active = false ∨ x0.opcode = 0x6C) → b.cells.find i = some go)))

/-- Arrivals at collectives, and what a complete collective delivers. -/
def Obligations.Collectives : Prop := Claims.CollectiveArrivals ∧ Claims.CollectiveResults

/-- Literals, bit fields, generator draws, descriptor moves, and the reads of symbols and special registers. -/
def Obligations.LiteralsSymbolsAndDescriptors : Prop :=
  Claims.LiteralAndFieldResults ∧ Claims.GeneratorDraws ∧ Claims.DescriptorMoves ∧ Claims.SymbolReads ∧ Claims.SpecialRegisterReads

/-- Branches, hints, register branches, and the poison that control consumes. -/
def Obligations.BranchResults : Prop := Claims.BranchesAndHints ∧ Claims.RegisterBranches ∧ Claims.PoisonIsConsumedByControl

/-- TRAP, BRKPT, COMMIT and DISCARD. That a breakpoint's entry holds the stamp where other entries hold the sweep number, that what the
stopping cell has in flight is performed at once, and that an overrun is logged with the last stop are the model's choices (logs 87, 30 and
58). -/
def Obligations.TrapsAndEnds : Prop := Claims.TrapAndBreakpoint ∧ Claims.CommitAndDiscardStop

/-- What a cell contributes to its area's result: its symbol, kept, replaced or deleted, and what it inserts behind it (R119). -/
def Claims.contribution (s : State) (k : Cell) : List Sym :=
  (match k.rw.own with
    | .keep => [s.sym k.phys]
    | .replace z => [z]
    | .delete => []) ++ k.rw.ins.map (·.2)

/-- A directory with the segments of context c behind position n moved from a result of `old` cells to one of `new` (R12). -/
def Claims.shifted (c n old new : Nat) (dir : List Seg) : List Seg :=
  dir.map (fun g => if g.ctx = c ∧ n < g.lpos then { g with lpos := g.lpos + new - old } else g)

/-- R11, R18, R19, R119, R120: the last COMMIT of an ordinary area splices what its cells contribute, in cix order, into the area's own
cells, leaves those that it does not need EMPTY and every other cell of the row as it was, and moves the segments behind; the area drains or
is gone. A longer result waits, the row untouched, for the move pass with its growth, or holds the area with EXPR_FULL; a malformed one
holds it with OPERATOR_INVALID. -/
def Claims.ResultsFillTheirCells : Prop :=
  ∀ (s : State) (ar : Area) (k : Cell) (c : Cond) (x : Ctx), s.issues c [] ar k → ar.kind = .user → ar.phase = .active → ar.brk = false →
    ar.isVoted = false → ((ar.entry.map (·.pure)).getD false = false ∨ ar.retried = true) →
    ar.cells.map (·.1) = List.range ar.cells.length → (ar.cells.map (fun p => p.2.phys)).Nodup →
    (∀ p ∈ ar.cells, p.1 ≠ s.cur.2 → p.2.stop = .commit) → (∀ p ∈ s.areas, p.1 < s.nextUid) → s.ctx ar.ctx = some x →
      let ys := ar.cells.flatMap (fun p => Claims.contribution s p.2)
      let cells := ar.cells.map (fun p => p.2.phys)
      ∃ t, exec (.commit c) s = .next t ∧
        (wfExpr ys = true → ys.length ≤ cells.length →
          (∀ i, i < cells.length → t.sym (cells.getD i 0) = ys.getD i Sym.empty) ∧ (∀ p, p ∉ cells → t.sym p = s.sym p) ∧
          (∀ a, t.area s.cur.1 = some a → a.phase = .draining) ∧ (∃ y, t.ctx ar.ctx = some y ∧ y.moved = true) ∧
          (t.part x.part).dir =
            Claims.shifted ar.ctx (s.lposOf ar.ctx (cells.getD 0 0)) cells.length ys.length (s.part x.part).dir) ∧
        (wfExpr ys = true → cells.length < ys.length → t.row = s.row ∧ ∃ a, t.area s.cur.1 = some a ∧
          ((a.phase = .held ∧ a.trap.map (·.fault) = some 0x40) ∨
            (a.phase = .committing ∧ a.growth = ys.length - cells.length ∧ a.recs = (ys.length - cells.length + 447) / 448 ∧
              a.cells.flatMap (fun p => Claims.contribution t p.2) = ys))) ∧
        (wfExpr ys = false → t.row = s.row ∧ ∃ a, t.area s.cur.1 = some a ∧ a.phase = .held ∧ a.trap.map (·.fault) = some 0x42)

/-- R119, R123: with the cells `more` that the move pass gave a growing area, its result fills its own cells and those; what finds no cell goes
into records of at most 448 symbols, whose directory entries follow on in position. -/
def Claims.GrowthFillsItsPlaces : Prop :=
  ∀ (s : State) (l u : Nat) (a : Area) (x : Ctx) (b : Launch) (more : List Nat), s.area u = some a → a.kind = .user →
    s.ctx a.ctx = some x → x.part = l → x.launch = some b → (s.parts.find l).isSome = true → a.cells ≠ [] →
      let own := a.cells.map (fun p => p.2.phys)
      let cells := own ++ more
      let ys := (a.cells.map (fun p => p.2.rw.ins.map (·.2))).headD []
      let pos := s.lposOf a.ctx (own.getD 0 0)
      let tail := ys.drop cells.length
      let t := s.applyGrowth l u more
      cells.Nodup → cells.length ≤ ys.length →
        (∀ i, i < cells.length → t.sym (cells.getD i 0) = ys.getD i Sym.empty) ∧ (∀ p, p ∉ cells → t.sym p = s.sym p) ∧
        (∀ a, t.area u = some a → a.phase = .draining) ∧
        (∃ new, (t.part l).dir = Claims.shifted a.ctx pos own.length ys.length (s.part l).dir ++ new ∧
          new.map (fun g => (g.ctx, g.lpos, g.count, g.net, g.low)) = (List.range ((tail.length + 447) / 448)).map (fun i =>
            let zs := (tail.drop (448 * i)).take 448
            (a.ctx, pos + cells.length + 448 * i, zs.length, depths zs)))

/-- What a COMMIT leaves in the row, at once and after a growth. -/
def Obligations.CommitRewritesTheRow : Prop := Claims.ResultsFillTheirCells ∧ Claims.GrowthFillsItsPlaces

/-! ## Memory -/

namespace Sys2Proof.Claims

/-- An access of `w` bytes at address `a` by a cell of hearth `hid` passes steps 2 to 4 of R208 and goes to `l`; `t` is the
translation it used. A tile-window address names a live slot of the hearth, not in transit, that holds the bytes and, for a write, no
tagged barrier word among them; any other address is canonical and its page is cached with the permission. -/
def home (s : State) (u ctx hid : Nat) (a : Word) (w : Nat) (need : Need) (l : Loc) (t : Option Trans) : Prop :=
  a.toNat % w = 0 ∧
  ((inTileWindow a = true ∧ t = none ∧ ∃ key x, s.slotOf u ctx (a.toNat / 2 ^ 16 % 2 ^ 20) = some (key, x) ∧ x.moving = none ∧
      x.hid = hid ∧ a.toNat % 2 ^ 16 + w ≤ x.units * 1024 ∧ (need = .read ∨ x.meetsTag (a.toNat % 2 ^ 16) w = false) ∧
      l = .tile key (a.toNat % 2 ^ 16) (x.base + a.toNat % 2 ^ 16)) ∨
   (inTileWindow a = false ∧ canonical a = true ∧ ∃ x, t = some x ∧ s.cached hid ctx (a.toNat % 2 ^ 55) = some x ∧
      x.allows need = true ∧ l = Loc.phys x (a.toNat % 2 ^ 55)))

/-- The cell's earlier accesses are performed; its prefetches have no part in their order (R215, R252). -/
def behind (k : Cell) : Prop := ∀ o ∈ k.ops, o.done ≠ none ∨ o.kind = .pref

/-- An access that the cell's earlier ones come before: one to the tile store, and a release to host memory (R252, R257) (log 30). -/
def ordered (m : MWord) (l : Loc) : Prop := (∃ key off p, l = .tile key off p) ∨ (∃ ha, l = .host ha) ∧ m.ord.getLsbD 1 = true

/-- The access of the issuing cell through s[a] is free to go: its address register is clean, it has a home, the cell has a free
memory slot, and its earlier ones are performed where they come before it. -/
def goes (s : State) (ar : Area) (k : Cell) (a : SReg) (m : MWord) (w : Nat) (need : Need) (l : Loc) (t : Option Trans) : Prop :=
  k.spsn a = false ∧ k.ops.length < 16 ∧ (ordered m l → behind k) ∧
  home s s.cur.1 ar.ctx k.hid (k.addr a m) w need l t

/-- Cell `i` of area `u`. -/
def cellIn (s : State) (u i : Nat) : Option Cell := (s.area u).bind (fun a => a.cells.find i)

/-- In `s` the operation `id` of a cell has been performed and brings `v`. -/
def performed (s : State) (u i id : Nat) (v : Word × Bool) : Prop :=
  ∃ k o, cellIn s u i = some k ∧ o ∈ k.ops ∧ o.id = id ∧ o.done = some v

/-- `o` is the first operation of cell `k` that is not performed, prefetches aside. -/
def first (k : Cell) (o : MemOp) : Prop :=
  ∃ pre post, k.ops = pre ++ o :: post ∧ (∀ x ∈ pre, x.done ≠ none ∨ x.kind = .pref) ∧ o.done = none ∧ o.kind ≠ .pref

/-- From `s` to `s1` a cell of hearth `h` has met the times `ts`: only the logical clock of its hearth moved, and not back. -/
def meets (s s1 : State) (h : Nat) (ts : List Nat) : Prop :=
  { s1 with hearths := s.hearths } = s ∧ (∀ x, { s1.hearth x with clk := (s.hearth x).clk } = s.hearth x) ∧
  (∀ x, x ≠ h → s1.hearth x = s.hearth x) ∧ s.now h ≤ s1.now h ∧ ∀ t ∈ ts, t ≤ s1.now h

/-- From `s` to `s1` the issuing cell, in hearth `h`, has read a word that carries the releases `rs`: as an acquire at `scope` it has
met the times of those that match; otherwise it remembers them for a FENCE. Nothing else changed (R256, R257, R262). -/
def reads (s s1 : State) (h : Nat) (rs : List Release) (scope : BitVec 3) (acq : Bool) : Prop :=
  { s1 with hearths := s.hearths, areas := s.areas } = s ∧
  (∀ x, { s1.hearth x with clk := (s.hearth x).clk } = s.hearth x) ∧ (∀ x, x ≠ h → s1.hearth x = s.hearth x) ∧ s.now h ≤ s1.now h ∧
  (∀ u ar, s.area u = some ar → ∃ ar2, s1.area u = some ar2 ∧ ({ ar2 with cells := ar.cells } : Area) = ar) ∧
  (∀ u i k, cellIn s u i = some k → ∃ k2, cellIn s1 u i = some k2 ∧ ({ k2 with met := k.met } : Cell) = k ∧
    ((u, i) = s.cur → acq = false → ∀ r ∈ rs, r ∈ k2.met)) ∧
  (acq = true → ∀ r ∈ rs, s.synchronises r scope (h, s.cur.1, s.cur.2) = true → r.time ≤ s1.now h)

/-- The access types of R49: the integer types and FP32. -/
def accessType (t : BitVec 4) : Prop := t.toNat ≤ 6 ∨ t.toNat = 9

/-- A code of an access type as a register holds it (R60). -/
def held (t : BitVec 4) (x : Nat) : Word := if t.toNat = 9 then BitVec.ofNat 64 (x % 2 ^ 32) else BitVec.ofInt 64 (intCode t.toNat x)

/-- The read-modify-write atomics with the code that each writes from the old code and the operand's (R213, R214). -/
def atomics (c : Cond) (d a b : SReg) (m : MWord) : List (Instr × (Nat → Nat → Nat)) :=
  [(.aadd c d a b m, fun x y => (x + y) % 2 ^ typeBits m.type.toNat),
   (.amin c d a b m, fun x y => if intCode m.type.toNat y < intCode m.type.toNat x then y else x),
   (.amax c d a b m, fun x y => if intCode m.type.toNat x < intCode m.type.toNat y then y else x),
   (.aand c d a b m, fun x y => x &&& y), (.aor c d a b m, fun x y => x ||| y), (.axor c d a b m, fun x y => x ^^^ y),
   (.aswp c d a b m, fun _ y => y)]

end Sys2Proof.Claims

/-- R208, R211: the checks of an access in their order, each with its fault and the address: misalignment, then in the tile window no
such slot, a foreign slot, bytes beyond it, a write over a barrier word; elsewhere an address that is not canonical, and a page
without the permission. LD needs read and ST needs write. -/
def Obligations.AccessFaults : Prop :=
  ∀ (s : State) (ar : Area) (k : Cell) (c : Cond) (d a b : SReg) (m : MWord),
    s.issues c [d, a] ar k → s.issues c [a, b] ar k → k.spsn a = false →
    ∀ p ∈ [((.ld c d a m : Instr), Need.read), (.st c a b m, Need.write)],
      let A := k.addr a m
      let w := accWidth m.type
      let fault (f : BitVec 8) : Prop := exec p.1 s = .next (s.raise f A)
      (A.toNat % w ≠ 0 → fault 0x12) ∧
      (A.toNat % w = 0 → inTileWindow A = true →
        (s.slotOf s.cur.1 ar.ctx (A.toNat / 2 ^ 16 % 2 ^ 20) = none → fault 0x20) ∧
        (∀ key x, s.slotOf s.cur.1 ar.ctx (A.toNat / 2 ^ 16 % 2 ^ 20) = some (key, x) → x.moving = none →
          (x.hid ≠ k.hid → x.displaced = false → fault 0x20) ∧
          (x.hid = k.hid → x.units * 1024 < A.toNat % 2 ^ 16 + w → fault 0x20) ∧
          (x.hid = k.hid → A.toNat % 2 ^ 16 + w ≤ x.units * 1024 → p.2 = .write → x.meetsTag (A.toNat % 2 ^ 16) w = true → fault 0x23))) ∧
      (A.toNat % w = 0 → inTileWindow A = false →
        (canonical A = false → fault 0x10) ∧
        (canonical A = true → ∀ t, s.cached k.hid ar.ctx (A.toNat % 2 ^ 55) = some t → t.allows p.2 = false → fault 0x11))

namespace Sys2Proof.Claims

/-- What performing operation `o` of cell `i` of area `u` does between `s` and `t` (R209–R215, R240): a load brings the value at its
home, sign- or zero-extended by its type, with the poison of its bytes; a store writes the low bytes of its operand with their poison; a
CADD adds to its counter; an atomic brings the old value and writes the new code, poisoned when the old one or the operand was, AFADD
with round to nearest even, ACAS over an equal code alone. No other byte changes. -/
def effect (s t : State) (u i : Nat) (o : MemOp) : Prop :=
  let w := accWidth o.m.type
  let r := s.readLoc o.home w
  let old := ofLe r.1
  let operand := o.x.toNat % 2 ^ (8 * w)
  let bytesOf (z : State) : Prop :=
    t.mem = z.mem ∧ t.linePoison = z.linePoison ∧ t.hostMem = z.hostMem ∧ t.tile = z.tile ∧ t.tilePoison = z.tilePoison
  let wrote (v : Nat) (p : Bool) : Prop := bytesOf (s.writeLoc o.home (leBytes w v) p)
  match o.kind with
  | .load => performed t u i o.id (held o.m.type old, r.2) ∧ bytesOf s
  | .pref => bytesOf s
  | .store => performed t u i o.id (0, false) ∧ wrote o.x.toNat o.xp
  | .cadd => performed t u i o.id (0, false) ∧ bytesOf (s.addCounter o.home o.x.toNat o.xp)
  | .atomic => performed t u i o.id (held o.m.type old, r.2) ∧ ∀ c d a b,
      (o.m.type.toNat ≤ 6 → ∀ p ∈ atomics c d a b o.m, o.instr = p.1 → wrote (p.2 old operand) (o.xp || r.2)) ∧
      (o.m.type.toNat ≤ 6 → o.instr = .acas c d a b o.m →
        (old = operand → wrote o.y.toNat (o.yp || o.xp)) ∧ (old ≠ operand → bytesOf s)) ∧
      (o.m.type.toNat = 9 → o.instr = .afadd c d a b o.m →
        wrote (roundFP32 0 0 (Val.add 0 (decodeT 9 old) (decodeT 9 operand))) (o.xp || r.2))

/-- The issuing cell has gone on behind two words with `o` as its last operation. -/
def posted (s : State) (k : Cell) (o : MemOp) : State := s.fresh.finish k 2 (fun x => { x with ops := x.ops ++ [o] })

/-- The operation that the access of an instruction leaves with: its kind, its home, the register it brings a value to, and its
operands; `x` is the register of its operand. -/
def leaves (o : MemOp) (s : State) (ar : Area) (k : Cell) (kind : MemKind) (i : Instr) (m : MWord) (l : Loc) (d x : SReg) : Prop :=
  o.id = s.nextUid ∧ o.kind = kind ∧ o.instr = i ∧ o.m = m ∧ o.home = l ∧ o.dst = d ∧ o.x = k.sreg x ∧ o.xp = k.spsn x ∧
  o.y = k.sreg d ∧ o.yp = k.spsn d ∧ o.held = ar.heldw.length ∧ o.done = none ∧ o.sent = false

end Sys2Proof.Claims

/-- R208: an access that must wait leaves no trace but its wait. One whose page no TLB holds joins the walk of its page or starts one,
which goes to its table as a request, or waits while all 64 walkers of its die are busy (R207); one that finds 16 operations of its cell
outstanding waits on the memory port, and so does one to the tile store, or a release to host memory, behind operations that are not
performed (R252). -/
def Claims.AccessWaits : Prop :=
  ∀ (s : State) (ar : Area) (k : Cell) (c : Cond) (d a b : SReg) (m : MWord),
    s.issues c [d, a] ar k → s.issues c [a, b] ar k → k.spsn a = false →
    ∀ p ∈ [((.ld c d a m : Instr), Need.read), (.st c a b m, Need.write)],
      let A := k.addr a m
      let page := A.toNat % 2 ^ 55 / 65536
      let walking (w : Walk) : Bool := w.die = k.hid / 256 && w.ctx = ar.ctx && w.vpage = page
      (A.toNat % accWidth m.type = 0 → inTileWindow A = false → canonical A = true → s.cached k.hid ar.ctx (A.toNat % 2 ^ 55) = none →
        s.atWalkers A = false →
        let s1 := s.count k.hid 0x0E 1
        (∀ w, s.walks.find? walking = some w → ∃ hs, k.hid ∈ hs ∧ (∀ h ∈ w.hids, h ∈ hs) ∧
          exec p.1 s = .next (({ s1 with walks := s.walks.map (fun (x : Walk) => if x.id = w.id then { x with hids := hs } else x) } : State).waitOn
            .port A (BitVec.ofNat 64 w.id))) ∧
        (s.walks.find? walking = none → (s.walks.filter (fun w => w.die = k.hid / 256)).length < 64 →
          let s2 : State := { (s1.count k.hid 0x0F 1).fresh with walks := s.walks ++ [⟨s.nextUid, k.hid / 256, ar.ctx, page, [k.hid]⟩] }
          exec p.1 s = .next ((s2.send 0 k.hid (s2.walkRouter ar.ctx page) (.walk s.nextUid)).waitOn .port A (BitVec.ofNat 64 s.nextUid))) ∧
        (s.walks.find? walking = none → 64 ≤ (s.walks.filter (fun w => w.die = k.hid / 256)).length →
          exec p.1 s = .next (s1.waitOn .port A (-1)))) ∧
      (∀ l t, Claims.home s s.cur.1 ar.ctx k.hid A (accWidth m.type) p.2 l t →
        (16 ≤ k.ops.length ∨ Claims.ordered m l ∧ ¬Claims.behind k) →
        exec p.1 s = .next (s.waitOn .port A 0))

/-- R208, R209: LD leaves with an operation that brings the value at its home to its destination register; no byte of any memory
changes. -/
def Claims.LoadIssues : Prop :=
  ∀ (s : State) (ar : Area) (k : Cell) (c : Cond) (d a : SReg) (m : MWord) (l : Loc) (t : Option Trans),
    s.issues c [d, a] ar k → Claims.accessType m.type → Claims.goes s ar k a m (accWidth m.type) .read l t →
      ∃ o s2, Claims.leaves o s ar k .load (.ld c d a m) m l d 0 ∧
        (o.cached = true ↔ m.evict ≠ 7 ∧ ∃ x, t = some x ∧ x.pte.getLsbD 8 = false) ∧
        exec (.ld c d a m) s = .next s2 ∧ s2 = (s.noteTrans k.hid t).post k o ∧
        s2.mem = s.mem ∧ s2.hostMem = s.hostMem ∧ s2.tile = s.tile ∧ s2.row = s.row ∧ s2.slots = s.slots

/-- R201: with nothing before it in flight, a load that may be kept takes its bytes from a line that the L1 of its hearth holds under
its key, while the clock of the hearth has not passed the lease, and counts a hit; otherwise its request leaves for the home. That a line
answers only the accesses whose key it was read under is the model's choice (log 36). -/
def Claims.FirstLevelCache : Prop :=
  ∀ (s : State) (ar : Area) (k : Cell) (o : MemOp) (pa : Nat) (key : Option Nat), s.area s.cur.1 = some ar →
    ar.cells.find s.cur.2 = some k → Claims.behind k → o.kind = .load → o.cached = true → o.held = 0 → o.done = none →
    o.sent = false → o.home = .dev pa key → Claims.accessType o.m.type →
      (∀ y : L1Line, y ∈ (s.hearth k.hid).l1 → y.line = pa / 64 → y.key = key → s.now k.hid ≤ y.lease →
        (∀ z ∈ (s.hearth k.hid).l1, z.line = y.line → z.key = y.key → z = y) →
        let t := s.post k o
        Claims.performed t s.cur.1 s.cur.2 o.id (Claims.held o.m.type (ofLe ((y.data.drop (pa % 64)).take (accWidth o.m.type))), false) ∧
        (t.hearth k.hid).ctrs.get 0 0x0B = ((s.hearth k.hid).ctrs.get 0 0x0B + 1) % 2 ^ 64 ∧ t.mem = s.mem ∧ t.msgs = s.msgs) ∧
      ((∀ y ∈ (s.hearth k.hid).l1, y.line ≠ pa / 64 ∨ y.key ≠ key ∨ y.lease < s.now k.hid) →
        s.post k o = (Claims.posted s k o).request s.cur.1 s.cur.2 k.hid o)

/-- Loads: what LD leaves with, and the L1 that may answer it. That a line of an encrypted page hits under its own key alone is the model's
choice (log 36). -/
def Obligations.LoadResults : Prop := Claims.LoadIssues ∧ Claims.FirstLevelCache

/-- R210: ST leaves with an operation that writes the low bytes of its source, low byte first, with the source's poison; a poisoned
store to device memory also leaves a log record of kind 8. In a voted application a store to device memory is held with the copy, up to
1,024 lines with those that its queued copies have still to write, and one to a host page raises OPERATOR_INVALID (R308). -/
def Obligations.StoreResults : Prop :=
  ∀ (s : State) (ar : Area) (k : Cell) (c : Cond) (a b : SReg) (m : MWord) (l : Loc) (t : Option Trans),
    s.issues c [a, b] ar k → Claims.goes s ar k a m (accWidth m.type) .write l t →
      let s1 := s.noteTrans k.hid t
      let s2 := match l with
        | .dev _ _ => if k.spsn b && !ar.isVoted then s1.log ar.ctx 8 0 ar.op (areaAddr ar.ctx ar.pos) (k.addr a m).toNat 0 else s1
        | _ => s1
      ((ar.isVoted = false ∨ ∃ key off p, l = .tile key off p) →
        ∃ o, Claims.leaves o s ar k .store (.st c a b m) m l 0 b ∧ exec (.st c a b m) s = .next (s2.post k o)) ∧
      (ar.isVoted = true →
        (∀ ha, l = .host ha → exec (.st c a b m) s = .next (s1.raise 0x42 (k.addr a m))) ∧
        (∀ pa key, l = .dev pa key →
          let bs := leBytes (accWidth m.type) (k.sreg b).toNat
          let queued := s1.queues.flatMap (fun q => (q.2.filter (fun x => x.uid = s.cur.1 && x.round = some ar.round)).flatMap Cmd.lines)
          let n := ((ar.heldw.flatMap HeldWrite.lines ++ queued ++ (linesOf pa bs.length)).eraseDups).length
          (n ≤ 1024 → exec (.st c a b m) s = .next ((s1.modArea s.cur.1 (fun x => { x with
            heldw := ar.heldw ++ [.bytes pa key bs (k.spsn b) ⟨k.hid, m.evict.toNat, some (k.addr a m),
              if m.ord.getLsbD 1 then [⟨0, [m.scope], k.hid, s.cur.1, s.cur.2⟩] else []⟩] })).finish k 2 id)) ∧
          (1024 < n → exec (.st c a b m) s = .next (s1.raise 0x42 (k.addr a m)))))

/-- What a write to location `l` of `w` bytes leaves alone, from `s` to `t`: every other byte of device memory, host memory and the tile
stores reads as before; on an encrypted page the 64-byte lines of the bytes are what changes. -/
def Claims.otherBytes (s t : State) (l : Loc) (w : Nat) : Prop :=
  (∀ x, (match l with
    | .dev pa none => x < pa ∨ pa + w ≤ x
    | .dev pa (some _) => x / 64 < pa / 64 ∨ (pa + w - 1) / 64 < x / 64
    | _ => True) → t.mem.get 0 x = s.mem.get 0 x) ∧
  (∀ x, (match l with | .host ha => x < ha ∨ ha + w ≤ x | _ => True) → t.hostMem.get 0 x = s.hostMem.get 0 x) ∧
  (∀ x, (match l with | .tile _ _ p => x < p ∨ p + w ≤ x | _ => True) → t.tile.get 0 x = s.tile.get 0 x)

/-- The frame of ST: it stores to the home of the address s[a] + offset and nowhere else. One to a tile or to host memory is performed
at once; one to device memory when its home serves the operation with the home's address (SLICE_ACCESS), and until then no byte
changes. -/
def Claims.StoreFrame : Prop :=
  ∀ (s t : State),
    (∀ (ar : Area) (k : Cell) (c : Cond) (a b : SReg) (m : MWord) (l : Loc) (tr : Option Trans),
      s.issues c [a, b] ar k → ar.isVoted = false → k.spsn b = false → Claims.accessType m.type →
      Claims.goes s ar k a m (accWidth m.type) .write l tr → exec (.st c a b m) s = .next t →
        Claims.otherBytes s t l (accWidth m.type) ∧ ((∃ pa key, l = .dev pa key) → t.mem = s.mem ∧ t.tile = s.tile ∧ t.hostMem = s.hostMem) ∧
        t.row = s.row ∧ t.slots = s.slots ∧ t.queues = s.queues ∧ t.ctxs = s.ctxs) ∧
    (∀ (u i : Nat) (k : Cell) (o : MemOp) (pa : Nat) (key : Option Nat), Claims.cellIn s u i = some k → Claims.first k o →
      o.kind = .store → o.home = .dev pa key → Claims.accessType o.m.type → exec (.sliceAccess (.cell u i) 0) s = .next t →
        Claims.otherBytes s t o.home (accWidth o.m.type) ∧ t.row = s.row ∧ t.slots = s.slots ∧ t.queues = s.queues ∧ t.ctxs = s.ctxs)

/-- A read after a write of the same bytes gives those bytes, on pages that are not encrypted, in host memory and in the tile stores;
what a poisoned write wrote to device memory or a tile store reads as poisoned. -/
def Claims.ReadAfterWrite : Prop :=
  ∀ (s : State) (l : Loc) (bs : List Byte) (p : Bool), bs ≠ [] → (∀ pa k, l ≠ .dev pa (some k)) →
    ((s.writeLoc l bs p).readLoc l bs.length).1 = bs ∧
    ((∀ ha, l ≠ .host ha) → p = true → ((s.writeLoc l bs p).readLoc l bs.length).2 = true)

/-- R213, R214: an atomic leaves with an operation that takes its operand from s[b] and brings the old value to s[d]. -/
def Claims.AtomicResults : Prop :=
  ∀ (s : State) (ar : Area) (k : Cell) (c : Cond) (d a b : SReg) (m : MWord) (l : Loc) (t : Option Trans),
    s.issues c [d, a, b] ar k → ar.isVoted = false → Claims.goes s ar k a m (accWidth m.type) .both l t →
      ∀ i ∈ (Claims.atomics c d a b m).map (·.1) ++ [.acas c d a b m, .afadd c d a b m],
        ∃ o, Claims.leaves o s ar k .atomic i m l d b ∧ exec i s = .next ((s.noteTrans k.hid t).post k o)

/-- R308: an atomic in a voted application raises OPERATOR_INVALID. -/
def Claims.VotedAtomicsRefused : Prop :=
  ∀ (s : State) (ar : Area) (k : Cell) (c : Cond) (d a b : SReg) (m : MWord), s.issues c [d, a, b] ar k → ar.isVoted = true →
    (∀ p ∈ Claims.atomics c d a b m, exec p.1 s = .next (s.raise 0x42 0)) ∧
    exec (.acas c d a b m) s = .next (s.raise 0x42 0) ∧ exec (.afadd c d a b m) s = .next (s.raise 0x42 0)

/-- R208, R212, R252: an operation to device memory that the L1 does not answer sends a request to the router of its home's slice and
changes no byte; one to the tile store or to host memory is performed at once (log 30). -/
def Claims.OperationsLeave : Prop :=
  ∀ (s : State) (ar : Area) (k : Cell) (o : MemOp), s.area s.cur.1 = some ar → ar.cells.find s.cur.2 = some k → o.done = none →
    (∀ pa key, o.home = .dev pa key → (o.kind ≠ .load ∨ o.cached = false ∨ o.held ≠ 0) →
      let t := s.post k o
      t = (Claims.posted s k o).request s.cur.1 s.cur.2 k.hid o ∧
      (∃ x : Msg, t.msgs = s.msgs ++ [x] ∧ x.cls = 0 ∧ x.src = k.hid ∧ x.dst = s.homeRouter pa ∧ x.body = .request s.cur.1 s.cur.2 o.id) ∧
      t.mem = s.mem ∧ t.hostMem = s.hostMem ∧ t.tile = s.tile) ∧
    ((∀ pa key, o.home ≠ .dev pa key) → o.held = 0 → Claims.accessType o.m.type →
      Claims.effect s (s.post k o) s.cur.1 s.cur.2 o)

/-- R198, R200, R209–R214, R240, R252: once its request has arrived, the first unperformed operation of a cell is performed by its
home slice, and a prefetch whenever its own has (R215); no register of the cell changes. -/
def Claims.OperationsPerform : Prop :=
  ∀ (s : State) (u i : Nat) (k : Cell) (o : MemOp) (pa : Nat) (key : Option Nat) (r : SliceReq), Claims.cellIn s u i = some k →
    (Claims.first k o ∧ r = .cell u i ∨
      o ∈ k.ops ∧ (∀ x ∈ k.ops, x.id = o.id → x = o) ∧ o.done = none ∧ o.kind = .pref ∧ r = .pref u i o.id) →
    o.home = .dev pa key → o.held = 0 → Claims.accessType o.m.type → (s.arrival (.request u i o.id)).isSome = true →
    ∃ t, exec (.sliceAccess r 0) s = .next t ∧ Claims.effect s t u i o ∧ t.row = s.row ∧ t.slots = s.slots ∧
      ∃ k2, Claims.cellIn t u i = some k2 ∧ ({ k2 with ops := k.ops, met := k.met } : Cell) = k

/-- R216, R239–R242: WAITA and CWAIT go on when the word at their address, unpoisoned, has the relation, and otherwise wait for the home
that they name; a cell whose watch was satisfied goes on with what that read met, as an acquire when its order says so. CADD leaves with an
operation that adds to its counter word. -/
def Claims.WatchesAndCounters : Prop :=
  ∀ (s : State) (ar : Area) (k : Cell) (c : Cond) (f : BitVec 3) (a b : SReg) (m : MWord) (l : Loc) (t : Option Trans),
    s.issues c [a, b] ar k →
    (∀ (w : Wait) (g : Bool), k.wait = some w → w.granted = some g →
      ∃ s2, Claims.reads s s2 k.hid w.rels m.scope (m.ord.getLsbD 0) ∧
        (w.kind = .address → exec (.waita c f a b m) s = .next (s2.finish k 2 id)) ∧
        (w.kind = .counter → exec (.cwait c a b m) s = .next (s2.finish k 2 id))) ∧
    (k.wait = none → Claims.behind k →
      let s1 := (s.noteTrans k.hid t).readWatched k.hid m l
      let gone (i : Instr) (n : Nat) : Prop := ∃ s2,
        Claims.reads s1 s2 k.hid (s.released l) m.scope (m.ord.getLsbD 0) ∧ exec i s = .next (s2.finish k n id)
      let waits (i : Instr) (kind : WaitKind) : Prop :=
        exec i s = .next (s1.modCur (fun x => { x with wait := some ⟨kind, k.addr a m, k.sreg b, some l, none, [], []⟩ }))
      (Claims.accessType m.type → Claims.goes s ar k a m (accWidth m.type) .read l t →
        let r := s1.readHeld ar.heldw l (accWidth m.type)
        let holds := r.2 = false ∧ Claims.compares f.toNat (Claims.held m.type (ofLe r.1)) (k.sreg b)
        (holds → gone (.waita c f a b m) 2) ∧ (¬holds → waits (.waita c f a b m) .address)) ∧
      (inTileWindow (k.addr a m) = false → Claims.goes s ar k a m 8 .read l t → k.spsn b = false →
        let r := s1.readHeld ar.heldw l 8
        let holds := r.2 = false ∧ (k.sreg b).toNat ≤ ofLe r.1
        (holds → gone (.cwait c a b m) 2) ∧ (¬holds → waits (.cwait c a b m) .counter))) ∧
    (inTileWindow (k.addr a m) = false → ar.isVoted = false → k.spsn b = false → Claims.goes s ar k a m 8 .both l t →
      ∃ o, Claims.leaves o s ar k .cadd (.cadd c a b m) { m with type := 6 } l 0 b ∧
        exec (.cadd c a b m) s = .next ((s.noteTrans k.hid t).post k o)) ∧
    (∀ (z : State) (old : Nat × Bool), old = (ofLe (z.readLoc l 8).1, (z.readLoc l 8).2) → ∀ (n : Nat) (p : Bool),
      z.addCounter l n p = z.writeLoc l (leBytes 8 (if old.1 + n < 2 ^ 64 then old.1 + n else 2 ^ 64 - 1)) (p || old.2))

/-- R262, R257: FENCE goes on when what it orders is answered, its release the stores, atomics and CADDs, its acquire the loads and
atomics, and waits on the memory port otherwise. Its acquire meets the releases that the cell's reads met, where their scopes match; its
release stands for the cell's later commands. -/
def Claims.Fences : Prop :=
  ∀ (s : State) (ar : Area) (k : Cell) (c : Cond) (scope : BitVec 3) (ord : BitVec 2), s.issues c [] ar k →
    let waits := (ord.getLsbD 1 = true ∧ ∃ o ∈ k.ops, o.kind = .store ∨ o.kind = .atomic ∨ o.kind = .cadd) ∨
      (ord.getLsbD 0 = true ∧ ∃ o ∈ k.ops, o.kind = .load ∨ o.kind = .atomic)
    let by_ := (k.hid, s.cur.1, s.cur.2)
    (¬waits → ∃ s1, Claims.meets s s1 k.hid
        (if ord.getLsbD 0 then (k.met.filter (fun r => s.synchronises r scope by_)).map (·.time) else []) ∧
      exec (.fence c scope ord) s = .next (s1.finish k 1 (fun x => { x with
        met := if ord.getLsbD 0 then [] else x.met
        fenced := if ord.getLsbD 1 then ⟨s1.now k.hid, [scope], k.hid, s.cur.1, s.cur.2⟩ :: x.fenced.filter (fun r => r.scopes ≠ [scope])
          else x.fenced }))) ∧
    (waits → exec (.fence c scope ord) s = .next (s.waitOn .port 0 0))

/-- R215: PREF changes no register and no byte and raises no fault; it goes on with at most one operation more, or waits for a walker or
a memory slot. -/
def Claims.Prefetches : Prop :=
  ∀ (s : State) (ar : Area) (k : Cell) (c : Cond) (a : SReg) (m : MWord), s.issues c [a] ar k → k.spsn a = false →
    ∃ t k2, exec (.pref c a m) s = .next t ∧ Claims.cellIn t s.cur.1 s.cur.2 = some k2 ∧
      t.mem = s.mem ∧ t.hostMem = s.hostMem ∧ t.tile = s.tile ∧ t.row = s.row ∧
      ({ k2 with ops := k.ops, pc := k.pc, wait := k.wait } : Cell) = k ∧
      ((k2.pc = k.pc + 8 ∧ k2.wait = none ∧ (k2.ops = k.ops ∨ ∃ pre o, k2.ops = pre ++ [o] ∧ o.kind = .pref ∧
          pre.map (fun x => { x with sent := true }) = k.ops.map (fun x => { x with sent := true }))) ∨
        (k2.pc = k.pc ∧ k2.ops = k.ops ∧ (16 ≤ k.ops.length ∨ 64 ≤ (s.walks.filter (fun w => w.die = k.hid / 256)).length)))

/-- R208, R209, R16, R227: the reply of a load brings its register the value and the poison and frees its slot, a prefetch's frees its
slot, an acknowledgement that of a store, a CADD or an atomic, with an atomic's old value; a draining area retires with its last one.
One that its home sent must have arrived. -/
def Claims.MemoryAnswers : Prop :=
  ∀ (s : State) (u i : Nat) (ar : Area) (k : Cell) (pre post : List MemOp) (o : MemOp) (v : Word × Bool),
    s.area u = some ar → ar.cells.find i = some k → k.ops = pre ++ o :: post → (∀ x ∈ pre, x.id ≠ o.id) → o.done = some v →
    ((∀ x ∈ s.msgs, x.body ≠ .reply u i o.id) ∨ (s.arrival (.reply u i o.id)).isSome = true) →
      let t := (s.dropMsgs (fun b => b = .reply u i o.id)).modCell u i (fun x =>
        { x.setS o.dst v.1 v.2 with ops := x.ops.filter (fun y => y.id ≠ o.id) })
      ((o.kind = .load ∨ o.kind = .pref) → exec (.loadReply u i o.id) s = .next t) ∧
      ((o.kind = .store ∨ o.kind = .atomic ∨ o.kind = .cadd) → ar.kind = .user →
        (ar.phase = .active → exec (.storeAcknowledged u i o.id) s = .next t) ∧
        (ar.phase = .draining → ∀ b, t.area u = some b →
          exec (.storeAcknowledged u i o.id) s = .next (if t.outstanding u b then t else t.eraseAreas [u])))

/-- R216, R241: the home's periodic read of a watched word, an access like a load's, releases its cell when the word, unpoisoned, has the
relation, with the releases that it met. -/
def Claims.PeriodicReads : Prop :=
  ∀ (s : State) (u i : Nat) (ar : Area) (k : Cell) (w : Wait) (l : Loc) (c : Cond) (f : BitVec 3) (a b : SReg) (m : MWord),
    s.area u = some ar → ar.cells.find i = some k → k.wait = some w → w.granted = none → w.home = some l →
    ∀ p ∈ [((.waita c f a b m : Instr), WaitKind.address, f.toNat, m.type), (.cwait c a b m, .counter, 7, 6#4)],
      ar.instrAt k = .ok p.1 → w.kind = p.2.1 → Claims.accessType p.2.2.2 →
      let s1 := s.readWatched k.hid m l
      let r := s1.readHeld ar.heldw l (accWidth p.2.2.2)
      let holds := r.2 = false ∧ Claims.compares p.2.2.1 (Claims.held p.2.2.2 (ofLe r.1)) (k.sreg b)
      (holds → exec (.waitaPeriodicRead u i) s = .next (s1.modCell u i (fun x =>
        { x with wait := some { w with granted := some false, rels := s.released l } }))) ∧
      (¬holds → exec (.waitaPeriodicRead u i) s = .next s1)

/-- R252, R201: a cell that has read a line lies behind the line's last write; a write of the line lies behind that write and behind
every read of it, whichever hearth made it, and the writer's hearth keeps no copy of the line. No other hearth's clock moves. -/
def Claims.LineTimes : Prop :=
  ∀ (s : State) (g h line : Nat),
    let written (z : State) : Nat := (z.lineTime.get (0, 0) line).1
    let t := s.meetLine g line
    let w := (t.wroteLines h [line])
    written s ≤ t.now g ∧ written t = written s ∧ (∀ x, x ≠ g → t.hearth x = s.hearth x) ∧
      t.now g < written w ∧ written s ≤ written w ∧ written w ≤ w.now h ∧ (∀ y ∈ (w.hearth h).l1, y.line ≠ line) ∧
      (∀ x, x ≠ h → w.hearth x = t.hearth x) ∧
      { t with hearths := s.hearths, lineTime := s.lineTime } = s ∧ { w with hearths := s.hearths, lineTime := s.lineTime } = s

/-! ## Barrier words -/

namespace Sys2Proof.Claims

/-- s[a] names the barrier word at offset `off` of the slot `key`, whose record is `x`, in the cell's hearth; `tagged` asks for a tag
on it (R234). The cell's earlier accesses are performed (R252). -/
def barrierAt (s : State) (ar : Area) (k : Cell) (a : SReg) (tagged : Bool) (key off : Nat) (x : Slot) : Prop :=
  k.spsn a = false ∧ inTileWindow (k.sreg a) = true ∧ s.slotOf s.cur.1 ar.ctx ((k.sreg a).toNat / 2 ^ 16 % 2 ^ 20) = some (key, x) ∧
  off = (k.sreg a).toNat % 2 ^ 16 ∧ x.moving = none ∧ x.hid = k.hid ∧ off % 8 = 0 ∧ off + 8 ≤ x.units * 1024 ∧
  (tagged = true → off ∈ x.tags) ∧ behind k

end Sys2Proof.Claims

/-- R234, R237: writing a barrier word changes its eight bytes of the tile store alone, its fields read back as written, and every
cell that waits on it is released exactly when its phase or its error bit shows, with the releases that the word then carries. -/
def Claims.BarrierWordWrites : Prop :=
  ∀ (s : State) (key off : Nat) (x : Slot) (b : Barrier), s.slots.find key = some x →
    b.pending < 2 ^ 24 → b.expected < 2 ^ 12 → b.remaining < 2 ^ 12 →
      let t := s.setBarrier key off b
      t.barrierRaw key off = b ∧ t.slots = s.slots ∧ t.mem = s.mem ∧ t.hostMem = s.hostMem ∧
      (∀ p, (p < x.base + off ∨ x.base + off + 8 ≤ p) → t.tile.get 0 p = s.tile.get 0 p) ∧
      ∀ u ar, s.area u = some ar → ∃ ar2, t.area u = some ar2 ∧ ({ ar2 with cells := ar.cells } : Area) = ar ∧
        ∀ i k, ar.cells.find i = some k → ∃ k2, ar2.cells.find i = some k2 ∧ ({ k2 with wait := k.wait } : Cell) = k ∧
          (∀ w, k.wait = some w → w.kind = .barrier → w.granted = none → s.windowSlot u ar.ctx w.waddr = some (key, off) →
            ((t.barrier key off).phase = w.value.getLsbD 0 ∨ (t.barrier key off).error = true) →
            k2.wait = some { w with granted := some (t.barrier key off).error, rels := s.released (.tile key off (s.slotByte key off)) }) ∧
          ((∀ w, k.wait = some w → w.kind ≠ .barrier ∨ w.granted ≠ none ∨ s.windowSlot u ar.ctx w.waddr ≠ some (key, off) ∨
            ((t.barrier key off).phase ≠ w.value.getLsbD 0 ∧ (t.barrier key off).error = false)) → k2 = k)

/-- R235, R236, R237: BINIT arms and tags a word with s[b] arrivals, and what was released at it before is no part of it any longer; BEXP
adds to its pending bytes, BARV takes one arrival and completes the phase with the last one, a release at device scope (R257); a count of 0
or above 4,095, more than 2^24 − 1 pending bytes and an arrival too many raise BARRIER_OVERFLOW. -/
def Claims.BarrierArrivals : Prop :=
  ∀ (s : State) (ar : Area) (k : Cell) (c : Cond) (a b : SReg) (key off : Nat) (x : Slot),
    let n := (k.sreg b).toNat
    let y := s.barrierRaw key off
    let word : Loc := .tile key off (s.slotByte key off)
    (s.issues c [a, b] ar k → Claims.barrierAt s ar k a false key off x → k.spsn b = false →
      (1 ≤ n → n ≤ 4095 → off ∈ x.tags →
        exec (.binit c a b) s = .next (((({ s with slots := s.slots.set key x } : State).clearReleases word).setBarrier
          key off ⟨false, false, 0, n, n⟩).finish k 1 id)) ∧
      (1 ≤ n → n ≤ 4095 → off ∉ x.tags →
        exec (.binit c a b) s = .next (((({ s with slots := s.slots.set key { x with tags := x.tags ++ [off] } } : State).clearReleases word).setBarrier
          key off ⟨false, false, 0, n, n⟩).finish k 1 id)) ∧
      (n = 0 ∨ 4095 < n → exec (.binit c a b) s = .next (s.raise 0x24 (k.sreg a)))) ∧
    (s.issues c [a, b] ar k → Claims.barrierAt s ar k a true key off x → k.spsn b = false →
      (y.pending + n < 2 ^ 24 →
        exec (.bexp c a b) s = .next ((s.setBarrier key off { y with pending := y.pending + n }).finish k 1 id)) ∧
      (2 ^ 24 ≤ y.pending + n → exec (.bexp c a b) s = .next (s.raise 0x24 (k.sreg a)))) ∧
    (s.issues c [a] ar k → Claims.barrierAt s ar k a true key off x →
      let s1 := s.release_ word [⟨s.now k.hid, [4], k.hid, s.cur.1, s.cur.2⟩]
      (1 < y.remaining ∨ (y.remaining = 1 ∧ y.pending ≠ 0) →
        exec (.barv c a) s = .next ((s1.setBarrier key off { y with remaining := y.remaining - 1 }).finish k 1 id)) ∧
      (y.remaining = 1 → y.pending = 0 →
        exec (.barv c a) s = .next ((s1.setBarrier key off { y with phase := !y.phase, remaining := y.expected }).finish k 1 id)) ∧
      (y.remaining = 0 → exec (.barv c a) s = .next (s.raise 0x24 (k.sreg a))))

/-- R238: BWAIT goes on with the error bit in q[d] once the phase is that of s[b] or the error bit is set, and waits otherwise; a released
wait goes on with the error bit and the releases it observed; BTRY writes whether it would go on. Where they find the word so they acquire,
at device scope, what its arrivals and completions released (R257). -/
def Claims.BarrierWaits : Prop :=
  ∀ (s : State) (ar : Area) (k : Cell) (c : Cond) (d : QReg) (a b : SReg) (key off : Nat) (x : Slot), s.issues c [a, b] ar k →
    let gone (i : Instr) (rels : List Release) (v : Bool) : Prop := ∃ s1, Claims.reads s s1 k.hid rels 4 true ∧
      exec i s = .next (s1.finish k 1 (fun k => k.setQ d v false))
    let now := s.released (.tile key off (s.slotByte key off))
    (∀ w e, k.wait = some w → w.kind = .barrier → w.granted = some e → gone (.bwait c d a b) w.rels e) ∧
    (Claims.barrierAt s ar k a true key off x → s.slots.find key = some x → k.spsn b = false →
      let y := s.barrier key off
      let open_ := y.phase = (k.sreg b).getLsbD 0 ∨ y.error = true
      (k.wait = none → open_ → gone (.bwait c d a b) now y.error) ∧
      (k.wait = none → ¬open_ → exec (.bwait c d a b) s = .next (s.waitOn .barrier (k.sreg a) (k.sreg b &&& 1))) ∧
      (open_ → gone (.btry c d a b) now true) ∧
      (¬open_ → exec (.btry c d a b) s = .next (s.finish k 1 (fun k => k.setQ d false false))))

/-- What a store leaves alone, and what a load reads behind it. -/
def Obligations.StoreFrameAndReadBack : Prop := Claims.StoreFrame ∧ Claims.ReadAfterWrite

/-- The atomics, and their refusal in voted applications. -/
def Obligations.AtomicsAndVotes : Prop := Claims.AtomicResults ∧ Claims.VotedAtomicsRefused

/-- Accesses that wait, watches and counters, the order of reads and writes of a line, fences and prefetches, operations on their way, at
their homes and back. When an operation is performed at its home is the model's choice (log 30). -/
def Obligations.WatchesFencesAndAnswers : Prop :=
  Claims.AccessWaits ∧ Claims.WatchesAndCounters ∧ Claims.PeriodicReads ∧ Claims.LineTimes ∧ Claims.Fences ∧ Claims.Prefetches ∧
    Claims.OperationsLeave ∧ Claims.OperationsPerform ∧ Claims.MemoryAnswers

/-- Barrier words: their writes, the arrivals and the waits. -/
def Obligations.BarrierWords : Prop := Claims.BarrierWordWrites ∧ Claims.BarrierArrivals ∧ Claims.BarrierWaits

/-! ## Tiles and the engine queues -/

/-- R150: TALLOC gives the lowest run of free units of one bank in the cell's hearth under a handle that the context does not use, with
the layout of d[d], or the null handle when there is neither run nor handle; a count of 0 or above 65,536 raises TILE_BOUNDS. Which
handle is a free value (log 10). -/
def Claims.SlotAllocation : Prop :=
  ∀ (s : State) (ar : Area) (k : Cell) (c : Cond) (d : TReg) (a : SReg), s.issues c [a] ar k →
    let n := (k.sreg a).toNat
    let u := (n + 1023) / 1024
    let own := match ar.kind with | .shadow _ _ => s.cur.1 | _ => 0
    let put (h : Nat) (x : Cell) : Cell := x.setD d ((k.dreg d).extractLsb' 20 44 ++ BitVec.ofNat 20 h) (k.dpsn d || k.spsn a)
    (n = 0 ∨ 65536 < n → exec (.talloc c d a) s = .next (s.raise 0x20 0)) ∧
    (1 ≤ n → n ≤ 65536 →
      (s.freeRun k.hid u none = none ∨ s.newHandle own ar.ctx = none → exec (.talloc c d a) s = .next (s.finish k 1 (put 0xFFFFF))) ∧
      (∀ i h, s.freeRun k.hid u none = some i → s.newHandle own ar.ctx = some h →
        let x : Slot := ⟨k.hid, i, u, (k.dreg d).extractLsb' 40 4, [], none, false, false⟩
        let s1 : State := { s with slots := s.slots.set (own * 2 ^ 26 + ar.ctx * 2 ^ 20 + h) x, free := s.free + 1 }
        exec (.talloc c d a) s = .next (s1.finish k 1 (put h)) ∧
        i + u ≤ 1536 ∧ i / 64 = (i + u - 1) / 64 ∧ (∀ j, j < u → i + j ∉ s.unitsUsed k.hid true) ∧
        (∀ l, l < i → l / 64 = (l + u - 1) / 64 → ∃ j, j < u ∧ l + j ∈ s.unitsUsed k.hid true) ∧
        h < 0xFFFFF ∧ h ∉ s.handlesUsed own ar.ctx))

/-- R151, R160, R161: TFREE marks the slot for its reclaim and takes the subscriptions of a ring slot with it, QFENCE enters one fence in
each queue of its mask, QWAIT goes on when none of the cell's commands is left there, behind what those released (R257); full queues and
open commands make the cell wait. -/
def Claims.SlotFreeingAndFences : Prop :=
  ∀ (s : State) (ar : Area) (k : Cell) (c : Cond) (d : TReg) (m : BitVec 4), s.issues c [] ar k →
    (k.dpsn d = false → ∀ h, h = (k.dreg d).toNat % 2 ^ 20 →
      (s.slotOf s.cur.1 ar.ctx h = none → exec (.tfree c d) s = .next (s.raise 0x20 0)) ∧
      (∀ key x, s.slotOf s.cur.1 ar.ctx h = some (key, x) →
        (x.moving ≠ none → exec (.tfree c d) s = .next (s.waitOn .tile 0 (BitVec.ofNat 64 h))) ∧
        (x.moving = none →
          let s1 := if key / 2 ^ 26 = 0 then (s.ringsOf ar.ctx h).foldl (fun s st => s.subFault st 0) s else s
          exec (.tfree c d) s =
            .next ((({ s1 with slots := s1.slots.upd key (fun x => { x with dying := true }) } : State).reclaim).finish k 1 id)))) ∧
    ((∀ q, q < 4 → m.getLsbD q = true → (s.queue k.hid q).length < 32) →
      ∃ t : State, exec (.qfence c m) s = .next (t.finish k 1 id) ∧ ({ t with queues := s.queues, nextUid := s.nextUid } : State) = s ∧
        t.nextUid = s.nextUid + 1 ∧
        ∀ q, q < 4 → (m.getLsbD q = false → t.queue k.hid q = s.queue k.hid q) ∧
          (m.getLsbD q = true → ∃ e : Cmd, t.queue k.hid q = s.queue k.hid q ++ [e] ∧ e.fence = some m ∧ e.id = s.nextUid)) ∧
    ((∃ q, q < 4 ∧ m.getLsbD q = true ∧ 32 ≤ (s.queue k.hid q).length) →
      exec (.qfence c m) s = .next (s.waitOn .queue 0 (m.zeroExtend 64))) ∧
    ((∀ p ∈ k.cmds, m.getLsbD p.1 = false) → ∃ s1,
      Claims.meets s s1 k.hid (((List.range 4).filter (fun q => m.getLsbD q)).map (k.reached.get 0)) ∧
      exec (.qwait c m) s = .next (s1.finish k 1 id)) ∧
    ((∃ p ∈ k.cmds, m.getLsbD p.1 = true) →
      exec (.qwait c m) s = .next (s.waitQueue (m.zeroExtend 64) ((k.cmds.filter (fun p => m.getLsbD p.1)).map (·.2))))

/-- R158: a new command enters its queue behind every entry of equal or higher priority, every fence and every started entry, and
before the run of lower commands at the end; the others keep their order. -/
def Claims.QueueOrder : Prop :=
  ∀ (l : List Cmd) (c : Cmd), ∃ l1 l2, insertCmd l c = l1 ++ c :: l2 ∧ l = l1 ++ l2 ∧
    (∀ x ∈ l2, x.pri < c.pri ∧ x.fence = none ∧ x.started = false) ∧
    (∀ x, l1.getLast? = some x → c.pri ≤ x.pri ∨ x.fence ≠ none ∨ x.started = true)

namespace Sys2Proof.Claims

/-- The descriptor uses of a command pass the checks of R155: each register is clean and well-formed, its slot lives in the cell's
hearth and holds the footprint, a strict source has the recorded layout, and no destination meets a barrier word. -/
def usable (s : State) (ar : Area) (k : Cell) (uses : List Use) : Prop :=
  ∀ x ∈ uses, k.dpsn x.reg = false ∧ (descOf (k.dreg x.reg)).wf = true ∧
    ∃ key y, s.slotOf s.cur.1 ar.ctx (descOf (k.dreg x.reg)).handle = some (key, y) ∧ y.hid = k.hid ∧
      (descOf (k.dreg x.reg)).foot ≤ y.units * 1024 ∧
      (x.rd = true → (descOf (k.dreg x.reg)).strict = true → y.layout.toNat = (descOf (k.dreg x.reg)).layout) ∧
      (x.wr = true → y.meetsTag 0 (descOf (k.dreg x.reg)).foot = false)

/-- The type, row and column counts of the tile in a descriptor register. -/
def ty (k : Cell) (r : TReg) : Nat := (descOf (k.dreg r)).type
def rows (k : Cell) (r : TReg) : Nat := (descOf (k.dreg r)).rows
def cols (k : Cell) (r : TReg) : Nat := (descOf (k.dreg r)).cols

/-- The types of the tiles of a command are those that its word 1 names, and no side passes `lim`. -/
def typed (k : Cell) (lim : Nat) (l : List (TReg × BitVec 4)) : Prop :=
  ∀ p ∈ l, ty k p.1 = p.2.toNat ∧ rows k p.1 ≤ lim ∧ cols k p.1 ≤ lim

/-- Two tiles of one shape. -/
def alike (k : Cell) (x y : TReg) : Prop := rows k x = rows k y ∧ cols k x = cols k y

/-- A scale tile for the tile in `d` (R64). -/
def scales (k : Cell) (d e : TReg) : Prop := ty k e = 13 ∧ rows k e = rows k d ∧ cols k e = (cols k d + 31) / 32

/-- What a command captures of its descriptor registers. -/
def captured (k : Cell) (d a b c e : TReg) (x : Cmd) : Cmd :=
  { x with d := ⟨k.dreg d, k.dpsn d⟩, a := ⟨k.dreg a, k.dpsn a⟩, b := ⟨k.dreg b, k.dpsn b⟩, c := ⟨k.dreg c, k.dpsn c⟩,
           e := ⟨k.dreg e, k.dpsn e⟩ }

/-- A row of the tables of engine commands: the command, its queue, the registers it reads and writes, its rule of types and
shapes, and what it captures. -/
abbrev Form := Instr × Nat × List Use × Prop × (Cmd → Cmd)

/-- The use of a destination that `acc` also makes a source. -/
def accUse (w : EWord) (d : TReg) : Use := if w.acc then ⟨d, true, true⟩ else ⟨d, false, true⟩

/-- The commands of the matrix queue (Tables 3.8 and 9.6). -/
def matrixForms (k : Cell) (c : Cond) (f d a b : BitVec 3) (w : EWord) : List Form :=
  let mm := typed k 128 [(d, w.tc), (a, w.ta), (b, w.tb)] ∧ rows k a = rows k d ∧ cols k b = cols k d ∧ cols k a = rows k b
  let src := (f = 0 ∧ ty k a = w.ta.toNat ∧ cols k a = cols k d) ∨ (f = 1 ∧ ty k a = 1 ∧ 2 * cols k a = cols k d) ∨
    (2 ≤ f.toNat ∧ ty k a = 1 ∧ 4 * cols k a = 3 * cols k d)
  let scaled := decide (f = 4 ∨ f = 0 ∧ w.ta = 12)
  [(.mma c f d a b w, 0, [accUse w d, ⟨a, true, false⟩, ⟨b, true, false⟩], mm, captured k d a b 0 0),
   (.mmai c f d a b w, 0, [accUse w d, ⟨a, true, false⟩, ⟨b, true, false⟩], mm, captured k d a b 0 0),
   (.mmax c f d a b w, 0, [⟨d, false, true⟩, ⟨a, true, false⟩, ⟨b, true, false⟩],
     typed k 128 [(d, w.tc), (a, w.ta), (b, w.tb)] ∧ rows k a = rows k d ∧ rows k b = cols k d ∧ cols k a = 32 ∧ cols k b = 32,
     captured k d a b 0 0),
   (.scacc c f d a b w, 0, [⟨d, true, true⟩, ⟨a, true, false⟩, ⟨b, true, false⟩, ⟨w.c, true, false⟩],
     typed k 128 [(d, w.tc), (a, w.ta), (b, w.tb), (w.c, 13)] ∧ alike k a d ∧ rows k b = rows k d ∧ rows k w.c = cols k d ∧
       f.toNat < cols k b ∧ f.toNat < cols k w.c, captured k d a b w.c 0),
   (.ttrn c f d a b w, 0, [⟨d, false, true⟩, ⟨a, true, false⟩],
     typed k 128 [(d, w.tc), (a, w.ta)] ∧ rows k a = cols k d ∧ cols k a = rows k d, captured k d a 0 0 0),
   (.tcvt c f d a b w, 0,
     [⟨d, false, true⟩, ⟨a, true, false⟩] ++ (if scaled then [⟨w.c, true, false⟩] else []) ++
       (if w.tc = 12 then [⟨w.e, false, true⟩] else []),
     ty k d = w.tc.toNat ∧ src ∧ rows k a = rows k d ∧ (scaled = true → scales k d w.c) ∧ (w.tc = 12 → scales k d w.e),
     captured k d a 0 w.c w.e),
   (.cxsort c f d a b w, 0, [⟨d, false, true⟩, ⟨a, true, false⟩, ⟨w.c, false, true⟩],
     typed k 128 [(d, w.tc), (a, w.ta), (w.c, 4)] ∧ alike k a d ∧ alike k w.c d, captured k d a 0 w.c 0),
   (.cxmerge c f d a b w, 0, [⟨d, false, true⟩, ⟨a, true, false⟩, ⟨b, true, false⟩, ⟨w.c, false, true⟩],
     ty k d = w.tc.toNat ∧ ty k w.c = 4 ∧ typed k 128 [(a, w.ta), (b, w.tb)] ∧ rows k a = rows k d ∧ rows k b = rows k d ∧
       rows k w.c = rows k d ∧ cols k d = cols k a + cols k b ∧ cols k w.c = cols k d, captured k d a b w.c 0)]

/-- The commands of the vector queue with descriptor operands (Tables 3.8 and 10.1). -/
def vectorForms (s : State) (ar : Area) (k : Cell) (c : Cond) (f d a b : BitVec 3) (w : EWord) : List Form :=
  let dst : Use := ⟨d, false, true⟩
  let sa : Use := ⟨a, true, false⟩
  let sb : Use := ⟨b, true, false⟩
  let two := typed k 256 [(d, w.tc), (a, w.ta)] ∧ alike k a d
  let three := typed k 256 [(d, w.tc), (a, w.ta), (b, w.tb)] ∧ alike k a d ∧ alike k b d
  let same (i : Instr) : Form := (i, 1, [dst, sa, sb], three, captured k d a b 0 0)
  let one (i : Instr) : Form := (i, 1, [dst, sa], two, captured k d a 0 0 0)
  let mixed (i : Instr) (p : Prop) : Form := (i, 1, [dst, sa, sb],
    typed k 256 [(d, w.tc), (a, w.ta), (b, w.tb)] ∧ alike k a d ∧ p, captured k d a b 0 0)
  [one (.tlay c f d a b w), one (.vabs c f d a b w), one (.vneg c f d a b w)] ++
  [same (.vadd c f d a b w), same (.vsub c f d a b w), same (.vmul c f d a b w), same (.vmin c f d a b w), same (.vmax c f d a b w),
   same (.vand c f d a b w), same (.vor c f d a b w), same (.vxor c f d a b w), same (.vshl c f d a b w), same (.vshr c f d a b w),
   same (.vcmp c f d a b w)] ++
  [mixed (.vclmp c f d a b w) (rows k b = 1 ∧ cols k b = 2), mixed (.vbcr c f d a b w) (rows k b = 1 ∧ cols k b = cols k d),
   mixed (.vbcc c f d a b w) (rows k b = rows k d ∧ cols k b = 1)] ++
  [(.tzero c f d a b w, 1, [dst], typed k 256 [(d, w.tc)], captured k d 0 0 0 0),
   (.viota c f d a b w, 1, [dst], typed k 256 [(d, w.tc)], captured k d 0 0 0 0),
   (.vfma c f d a b w, 1, [dst, sa, sb, ⟨w.c, true, false⟩], three ∧ ty k w.c = w.tc.toNat ∧ alike k w.c d, captured k d a b w.c 0),
   (.vsel c f d a b w, 1, [dst, sa, sb, ⟨w.c, true, false⟩], three ∧ ty k w.c = 14 ∧ alike k w.c d, captured k d a b w.c 0),
   (.vcvt c f d a b w, 1,
     [dst, sa] ++ (if w.ta = 12 then [⟨w.c, true, false⟩] else []) ++ (if w.tc = 12 then [⟨w.e, false, true⟩] else []),
     two ∧ (w.ta = 12 → scales k d w.c) ∧ (w.tc = 12 → scales k d w.e), captured k d a 0 w.c w.e),
   (.vrsum c f d a b w, 1, [accUse w d, sa], typed k 256 [(d, w.tc), (a, w.ta)] ∧ rows k d = rows k a ∧ cols k d = 1, captured k d a 0 0 0),
   (.vcsum c f d a b w, 1, [accUse w d, sa], typed k 256 [(d, w.tc), (a, w.ta)] ∧ rows k d = 1 ∧ cols k d = cols k a, captured k d a 0 0 0),
   (.vrr c f d a b w, 1, [dst, sa, ⟨w.c, false, true⟩], two ∧ ty k w.c = w.tb.toNat ∧ alike k w.c d, captured k d a 0 w.c 0),
   (.vfn c f d a b w, 1, [dst, sa] ++ (if w.tb = 0 then [] else [sb]),
     two ∧ (w.tb ≠ 0 → ty k b = w.tb.toNat ∧ alike k b d) ∧
       (6 ≤ f.toNat → (if f = 6 then (s.hearth k.hid).ftab6.owner else (s.hearth k.hid).ftab7.owner) = some ar.ctx), captured k d a b 0 0),
   (.vperm c f d a b w, 1, [dst, sa, sb],
     typed k 256 [(d, w.tc), (a, w.ta), (b, w.tb)] ∧ alike k b d ∧ (if f = 0 then rows k a = rows k d else cols k a = cols k d),
     captured k d a b 0 0)]

/-- What the issue of a command leaves when its queue has room: the command in its queue and among those of the cell, the layouts of
the slots that it writes, and the cell behind its two words. -/
def issued (s : State) (ar : Area) (k : Cell) (w : EWord) (p : Form) (accept : State → State) : State :=
  let cmd := p.2.2.2.2 { s.newCmd ar k p.1 w.pri.toNat with
    names := s.keysOf s.cur.1 ar k p.2.2.1, outs := s.keysOf s.cur.1 ar k (p.2.2.1.filter (·.wr)) }
  (accept ((s.enqueue p.2.1 cmd).setLayouts s.cur.1 ar k p.2.2.1)).finish k 2 id

end Sys2Proof.Claims

/-- R155, R158, R162, R166–R172: each command of the matrix queue enters it when its operands pass their checks and its types and shapes
are those of its row; with a full queue the cell waits on it, and a wrong type or shape raises TILE_FORMAT. That a TCVT takes an MXFP6
row whose columns are no multiple of 32, with a scale for its short last block, is the model's choice (log 92). -/
def Claims.MatrixCommandIssue : Prop :=
  ∀ (s : State) (ar : Area) (k : Cell) (c : Cond) (f d a b : BitVec 3) (w : EWord), s.issues c [] ar k →
    ∀ p ∈ Claims.matrixForms k c f d a b w, Claims.usable s ar k p.2.2.1 →
      (p.2.2.2.1 → (s.queue k.hid 0).length < 32 → exec p.1 s = .next (Claims.issued s ar k w p id)) ∧
      (p.2.2.2.1 → 32 ≤ (s.queue k.hid 0).length → exec p.1 s = .next (s.waitOn .queue 0 1)) ∧
      (¬p.2.2.2.1 → exec p.1 s = .next (s.raise 0x21 0))

/-- R155, R158, R162, R174–R191: the same of the vector queue. TFILL and VSCL also capture the scalar s[b] with its poison; VTBL makes
the context the owner of its table at once. -/
def Claims.VectorCommandIssue : Prop :=
  ∀ (s : State) (ar : Area) (k : Cell) (c : Cond) (f d a b : BitVec 3) (sb : SReg) (w : EWord),
    (s.issues c [] ar k →
      (∀ p ∈ Claims.vectorForms s ar k c f d a b w, Claims.usable s ar k p.2.2.1 →
        (p.2.2.2.1 → (s.queue k.hid 1).length < 32 → exec p.1 s = .next (Claims.issued s ar k w p id)) ∧
        (p.2.2.2.1 → 32 ≤ (s.queue k.hid 1).length → exec p.1 s = .next (s.waitOn .queue 0 2)) ∧
        (¬p.2.2.2.1 → exec p.1 s = .next (s.raise 0x21 0))) ∧
      (let p : Claims.Form := (.vtbl c f d a b w, 1, [⟨a, true, false⟩],
          Claims.ty k a = 9 ∧ Claims.rows k a = 2 ∧ Claims.cols k a = 256, Claims.captured k 0 a 0 0 0)
       f.toNat = 6 ∨ f.toNat = 7 → Claims.usable s ar k p.2.2.1 → p.2.2.2.1 → (s.queue k.hid 1).length < 32 →
        exec p.1 s = .next (Claims.issued s ar k w p (fun s => s.modHearth k.hid (fun h =>
          if f = 6 then { h with ftab6 := { h.ftab6 with owner := some ar.ctx } }
          else { h with ftab7 := { h.ftab7 with owner := some ar.ctx } }))))) ∧
    (s.issues c [sb] ar k → (s.queue k.hid 1).length < 32 →
      (let p : Claims.Form := (.tfill c f d a sb w, 1, [⟨d, false, true⟩], Claims.typed k 256 [(d, w.tc)],
          fun x => { Claims.captured k d 0 0 0 0 x with b := ⟨k.sreg sb, k.spsn sb⟩ })
       Claims.usable s ar k p.2.2.1 → p.2.2.2.1 → exec p.1 s = .next (Claims.issued s ar k w p id)) ∧
      (let p : Claims.Form := (.vscl c f d a sb w, 1, [⟨d, false, true⟩, ⟨a, true, false⟩],
          Claims.typed k 256 [(d, w.tc), (a, w.ta)] ∧ Claims.alike k a d,
          fun x => { Claims.captured k d a 0 0 0 x with b := ⟨k.sreg sb, k.spsn sb⟩ })
       Claims.usable s ar k p.2.2.1 → p.2.2.2.1 → exec p.1 s = .next (Claims.issued s ar k w p id)))

/-! ## Tile layouts and what the engines write -/

/-- R153, R154: in a well-formed descriptor that fits its slot, every element lies in the slot, and two different elements share no
byte, but for two elements of type 12 that are the two halves of one. -/
def Obligations.TileLayoutsAreInjective : Prop :=
  ∀ (d : Desc) (size r c r2 c2 : Nat), d.wf = true → 1 ≤ d.rows → 1 ≤ d.cols → d.stride % 16 = 0 → d.foot ≤ size → size % 1024 = 0 →
    r < d.rows → c < d.cols → r2 < d.rows → c2 < d.cols →
      d.off r c + d.width ≤ size ∧
      ((r, c) ≠ (r2, c2) →
        d.off r c + d.width ≤ d.off r2 c2 ∨ d.off r2 c2 + d.width ≤ d.off r c ∨
        (d.type = 12 ∧ d.off r c = d.off r2 c2 ∧ d.high r c ≠ d.high r2 c2))

/-- R154, R159: after an engine has written a tile, each element reads as the value it was given, and no byte outside the slot
changes. -/
def Claims.FilledTilesRead : Prop :=
  ∀ (s : State) (hid mode size r c : Nat) (t : Tv) (val : Nat → Nat → Nat → Nat × Bool), mode ≠ 4 → t.tags = [] →
    t.d.wf = true → 1 ≤ t.d.rows → 1 ≤ t.d.cols → t.d.stride % 16 = 0 → t.d.foot ≤ size → size % 1024 = 0 → r < t.d.rows → c < t.d.cols →
      let s2 := s.fillTile hid mode t val
      s2.elem t.base t.d r c = (val r c 0).1 % 2 ^ typeBits t.d.type ∧
      (∀ p, (p < t.base ∨ t.base + size ≤ p) → s2.tile.get 0 p = s.tile.get 0 p) ∧
      ({ s2 with tile := s.tile, tilePoison := s.tilePoison, badScale := s.badScale } : State) = s

namespace Sys2Proof.Claims

/-- An integer as a code of an integer type: its low bits, or with sat the nearest value (R178). -/
def intResult (t : Nat) (sat : Bool) (v : Int) : Nat :=
  ((if sat then max (intLow t) (min v (intHigh t)) else v) % (2 : Int) ^ typeBits t).toNat

/-- A result of a vector command: the code of an integer or of a floating value, by the destination's type. -/
def result (w : EWord) (i : Int) (v : Val) : Nat :=
  if w.tc.toNat ≤ 6 then intResult w.tc.toNat w.sat i else arith w.tc.toNat w.rnd.toNat w.sat 0 v

/-- Whether BOOL code x is true. -/
def truth (x : Nat) : Nat := if x = 0 then 0 else 1

/-- The code of element (r, j) that a command writes into d, from the codes x and y of that element in a and b: the element-wise
commands whose sources and destination are all integer tiles or all floating tiles (R178, R179, R184). -/
def element (i : Instr) (x y : Nat) : Option Nat :=
  let num (t : Nat) (c : Nat) : Int := intCode t c
  match i with
  | .vadd _ _ _ _ _ w => some (result w (num w.ta.toNat x + num w.tb.toNat y)
      (Val.add w.rnd.toNat (decodeT w.ta.toNat x) (decodeT w.tb.toNat y)))
  | .vsub _ _ _ _ _ w => some (result w (num w.ta.toNat x - num w.tb.toNat y)
      (Val.add w.rnd.toNat (decodeT w.ta.toNat x) (decodeT w.tb.toNat y).negate))
  | .vmul _ _ _ _ _ w => some (result w (num w.ta.toNat x * num w.tb.toNat y) (Val.mul (decodeT w.ta.toNat x) (decodeT w.tb.toNat y)))
  | .vmin _ _ _ _ _ w => some (if w.tc.toNat ≤ 6 then (if num w.tc.toNat y < num w.tc.toNat x then y else x) else fminT w.tc.toNat false x y)
  | .vmax _ _ _ _ _ w => some (if w.tc.toNat ≤ 6 then (if num w.tc.toNat x < num w.tc.toNat y then y else x) else fminT w.tc.toNat true x y)
  | .vand _ _ _ _ _ w => some (if w.tc = 14 then truth x * truth y else x &&& y)
  | .vor _ _ _ _ _ w => some (if w.tc = 14 then max (truth x) (truth y) else x ||| y)
  | .vxor _ _ _ _ _ w => some (if w.tc = 14 then (truth x + truth y) % 2 else x ^^^ y)
  | .vshl _ _ _ _ _ w => some (if typeBits w.tc.toNat ≤ y then 0 else x * 2 ^ y)
  | .vabs _ _ _ _ _ w => some (if w.tc.toNat ≤ 6 then intResult w.tc.toNat w.sat (num w.tc.toNat x).natAbs else x % 2 ^ (typeBits w.tc.toNat - 1))
  | .vneg _ _ _ _ _ w => some (if w.tc.toNat ≤ 6 then intResult w.tc.toNat w.sat (-(num w.tc.toNat x)) else x ^^^ 2 ^ (typeBits w.tc.toNat - 1))
  | .tlay _ _ _ _ _ _ => some x
  | _ => none

/-- The command is started, of an active area of a program, sends no signal, and is not rounded at random. -/
def completes (s : State) (key : Nat) (c : Cmd) : Prop :=
  s.cmdOf c.id = some (key, c) ∧ c.started = true ∧ c.sig = .none ∧ (∀ ar, s.area c.uid = some ar → ar.kind = .user ∧ ar.phase = .active)

end Sys2Proof.Claims

/-- R162, R178, R179: the element-wise commands. When a started command completes, every element of its destination has the value of
its row, computed from the elements that its sources held before, wherever the destination lies; the command leaves its queue. -/
def Claims.ElementwiseResults : Prop :=
  ∀ (s : State) (key size r j v : Nat) (c : Cmd) (w : EWord) (D A B : Tv), Claims.completes s key c →
    s.tile1 c c.d = some D → s.tile1 c c.a = some A → D.tags = [] → D.d.wf = true → 1 ≤ D.d.rows → 1 ≤ D.d.cols →
    D.d.stride % 16 = 0 → D.d.foot ≤ size → size % 1024 = 0 → r < D.d.rows → j < D.d.cols → D.d.type = w.tc.toNat → w.rnd.toNat ≤ 3 →
    ((∃ k f d a b, c.instr ∈ [Instr.vabs k f d a b w, .vneg k f d a b w, .tlay k f d a b w]) ∨
      ((∃ k f d a b, c.instr ∈ [Instr.vadd k f d a b w, .vsub k f d a b w, .vmul k f d a b w, .vmin k f d a b w, .vmax k f d a b w,
        .vand k f d a b w, .vor k f d a b w, .vxor k f d a b w, .vshl k f d a b w]) ∧ s.tile1 c c.b = some B ∧
        (w.ta.toNat ≤ 6 ↔ w.tc.toNat ≤ 6) ∧ (w.tb.toNat ≤ 6 ↔ w.tc.toNat ≤ 6))) →
    Claims.element c.instr (s.at A r j) (s.at B r j) = some v →
      ∃ t, exec (.engineCommandComplete c.id) s = .next t ∧ t.elem D.base D.d r j = v % 2 ^ typeBits D.d.type ∧ t.cmdOf c.id = none ∧
        t.mem = s.mem ∧ t.row = s.row

/-- The tiles of a command: `T` is well-formed and fits a slot of `size` bytes without a barrier word. -/
def Claims.fits (T : Tv) (size : Nat) : Prop :=
  T.tags = [] ∧ T.d.wf = true ∧ 1 ≤ T.d.rows ∧ 1 ≤ T.d.cols ∧ T.d.stride % 16 = 0 ∧ T.d.foot ≤ size ∧ size % 1024 = 0

/-- R168: MMAI forms the exact sum of the products of a row and a column, and of the old element with acc, and writes its low 32 bits,
or with sat the nearest INT32. -/
def Claims.IntegerMatrixProduct : Prop :=
  ∀ (s : State) (key size i j : Nat) (c : Cmd) (k : Cond) (f d a b : BitVec 3) (w : EWord) (D A B : Tv), Claims.completes s key c →
    c.instr = .mmai k f d a b w → s.tile1 c c.d = some D → s.tile1 c c.a = some A → s.tile1 c c.b = some B → Claims.fits D size →
    D.d.type = 4 → w.ta.toNat ≤ 6 → w.tb.toNat ≤ 6 → i < D.d.rows → j < D.d.cols →
      let sum := ((List.range A.d.cols).map (fun n =>
        Claims.intCode w.ta.toNat (s.at A i n) * Claims.intCode w.tb.toNat (s.at B n j))).sum
      let acc := if w.acc then Claims.intCode 4 (s.at D i j) else 0
      ∃ t, exec (.engineCommandComplete c.id) s = .next t ∧ t.elem D.base D.d i j = Claims.intResult 4 w.sat (acc + sum)

/-- R172: CXSORT writes each row of a in order, rising for f = 0 and falling otherwise, and into c the column that each key came from;
the columns of a row are all different. FP32 keys order by sign and magnitude. -/
def Claims.SortedRows : Prop :=
  ∀ (s : State) (key size size2 r : Nat) (c : Cmd) (k : Cond) (f d a b : BitVec 3) (w : EWord) (D A E : Tv), Claims.completes s key c →
    c.instr = .cxsort k f d a b w → s.tile1 c c.d = some D → s.tile1 c c.a = some A → s.tile1 c c.c = some E →
    Claims.fits D size → Claims.fits E size2 → (D.base + size ≤ E.base ∨ E.base + size2 ≤ D.base) →
    w.ta.toNat = 4 ∨ w.ta.toNat = 9 → D.d.type = w.ta.toNat → A.d.type = w.ta.toNat → E.d.type = 4 →
    A.d.cols = D.d.cols → E.d.cols = D.d.cols → E.d.rows = D.d.rows → D.d.cols ≤ 128 → r < D.d.rows →
      let ord (x : Nat) : Int := if w.ta.toNat = 4 then Claims.intCode 4 x else Claims.zkey32 x
      ∃ t, exec (.engineCommandComplete c.id) s = .next t ∧
        (∀ j, j < D.d.cols → t.elem E.base E.d r j < D.d.cols ∧ t.elem D.base D.d r j = s.at A r (t.elem E.base E.d r j)) ∧
        (∀ i j, i < j → j < D.d.cols → t.elem E.base E.d r i ≠ t.elem E.base E.d r j ∧
          (f = 0 → ord (t.elem D.base D.d r i) ≤ ord (t.elem D.base D.d r j)) ∧
          (f ≠ 0 → ord (t.elem D.base D.d r j) ≤ ord (t.elem D.base D.d r i)))

/-- Tile slots and the fences of the engine queues. Which handle a new slot gets is the device's choice, a free value in the model (log 10).
-/
def Obligations.SlotsAndQueueFences : Prop := Claims.SlotAllocation ∧ Claims.SlotFreeingAndFences

/-- The issue of matrix and vector commands. That a TCVT takes an MXFP6 row whose columns are no multiple of 32 is the model's choice (log
92). -/
def Obligations.EngineCommandIssue : Prop := Claims.MatrixCommandIssue ∧ Claims.VectorCommandIssue

namespace Sys2Proof.Claims

/-- The completion of command `c` leaves v in element (r, j) of its tile D, and takes the command out of its queue. -/
def sets (s : State) (c : Cmd) (D : Tv) (r j v : Nat) : Prop :=
  ∃ t, exec (.engineCommandComplete c.id) s = .next t ∧ t.elem D.base D.d r j = v % 2 ^ typeBits D.d.type ∧ t.cmdOf c.id = none

/-- The command is started and its destination D, a tile without barrier words in a slot of `size` bytes, has an element (r, j). -/
def writes (s : State) (key size : Nat) (c : Cmd) (D : Tv) (r j : Nat) : Prop :=
  completes s key c ∧ s.tile1 c c.d = some D ∧ Claims.fits D size ∧ r < D.d.rows ∧ j < D.d.cols

/-- Floating types, or integer types, on both sides. -/
def oneClass (x y : BitVec 4) : Prop := (x.toNat ≤ 6 ↔ y.toNat ≤ 6)

/-- The relation of VCMP between two floating values (R94): false for a NaN, but for ne and unord. -/
def floatRelation (cond : Nat) (x y : Val) : Prop :=
  let un := x.isNan = true ∨ y.isNan = true
  match cond with
  | 0 => ¬un ∧ ¬x.lt y = true ∧ ¬y.lt x = true
  | 1 => un ∨ x.lt y = true ∨ y.lt x = true
  | 2 => ¬un ∧ x.lt y = true
  | 3 => ¬un ∧ ¬y.lt x = true
  | 4 => ¬un ∧ y.lt x = true
  | 5 => ¬un ∧ ¬x.lt y = true
  | 6 => un
  | _ => ¬un

/-- The relation of VCMP between two integers, codes 0 to 5. -/
def intRelation (cond : Nat) (x y : Int) : Prop :=
  match cond with
  | 0 => x = y
  | 1 => x ≠ y
  | 2 => x < y
  | 3 => x ≤ y
  | 4 => y < x
  | _ => y ≤ x

/-- The smaller (`mx` false) or the larger of two values: a NaN gives way to the other, −0 lies below +0, and of equals it is the first
(R103). -/
def pickVal (mx : Bool) (v w : Val) : Val :=
  let before (x y : Val) : Bool := x.lt y || (x.isZero && y.isZero && x.neg && !y.neg)
  if v.isNan then (if w.isNan then .nan false 0x400000 else w)
  else if w.isNan then v
  else if (if mx then before v w else before w v) then w else v

/-- The smaller or the larger of two codes of type t (R179). -/
def pickOf (t : Nat) (mx : Bool) (x y : Nat) : Nat :=
  if t ≤ 6 then (if (if mx then intCode t x < intCode t y else intCode t y < intCode t x) then y else x) else fminT t mx x y

/-- The operations of VSCL and of the broadcasts on integers and on floating values: 0 a + b, 1 a − b, 2 a × b, 3 the smaller,
4 the larger, 5 b − a (R180, R182). -/
def opInt (op : Nat) (x y : Int) : Int :=
  match op with
  | 0 => x + y
  | 1 => x - y
  | 2 => x * y
  | 3 => min x y
  | 4 => max x y
  | _ => y - x

def opVal (op mode : Nat) (x y : Val) : Val :=
  match op with
  | 0 => x.add mode y
  | 1 => x.add mode y.negate
  | 2 => x.mul y
  | 3 => pickVal false x y
  | 4 => pickVal true x y
  | _ => y.add mode x.negate

/-- A list of numbers taken together from its first on. -/
def gather {α : Type} (f : α → α → α) (d : α) : List α → α
  | [] => d
  | x :: r => r.foldl f x

/-- A step of a floating reduction (R183): a sum rounds to FP32 each time; 1 and 2 keep the larger or the smaller. -/
def reduceVal (f : Nat) (x y : Val) : Val :=
  if f = 0 then decodeT 9 (roundFP32 0 0 (x.add 0 y)) else pickVal (decide (f = 1)) x y

def reduceInt (f : Nat) (x y : Int) : Int := if f = 0 then x + y else if f = 1 then max x y else min x y

/-- The order of CXSORT and CXMERGE (R172): signed integers, or FP32 codes by sign and magnitude. -/
def sortOrder (t x : Nat) : Int := if t = 4 then intCode 4 x else zkey32 x

/-- A companion value of VRR as a code of INT32 or FP32. -/
def companion (t : Nat) (n : Int) : Nat := if t = 4 then intResult 4 false n else roundT t 0 false 0 (.ofInt n)

end Sys2Proof.Claims

/-- R165, R171, R184, R185: TZERO, TFILL, TTRN, VSEL, VPERM and VIOTA move codes or write indices. -/
def Claims.CodesAreMoved : Prop :=
  ∀ (s : State) (key size r j : Nat) (c : Cmd) (k : Cond) (f d a b : BitVec 3) (x : SReg) (w : EWord) (D A B E : Tv),
    Claims.writes s key size c D r j → w.rnd.toNat ≤ 3 →
    (c.instr = .tzero k f d a b w → Claims.sets s c D r j 0) ∧
    (c.instr = .tfill k f d a x w → Claims.sets s c D r j c.b.desc.toNat) ∧
    (c.instr = .ttrn k f d a b w → s.tile1 c c.a = some A → Claims.sets s c D r j (s.at A j r)) ∧
    (c.instr = .viota k f d a b w → D.d.type = w.tc.toNat → f.toNat ≤ 2 →
      let n : Int := ((if f = 0 then r * D.d.cols + j else if f = 1 then r else j : Nat) : Int)
      Claims.sets s c D r j (if w.tc.toNat ≤ 6 then Claims.intResult w.tc.toNat w.sat n else roundT w.tc.toNat w.rnd.toNat w.sat 0 (.ofInt n))) ∧
    (s.tile1 c c.a = some A → s.tile1 c c.b = some B →
      (c.instr = .vsel k f d a b w → s.tile1 c c.c = some E →
        Claims.sets s c D r j (if s.at E r j ≠ 0 then s.at A r j else s.at B r j)) ∧
      (c.instr = .vperm k f d a b w → f.toNat ≤ 1 →
        let n := Claims.intCode 4 (s.at B r j)
        let lim := if f = 0 then A.d.cols else A.d.rows
        (0 ≤ n → n < lim → Claims.sets s c D r j (if f = 0 then s.at A r n.toNat else s.at A n.toNat j)) ∧
        (n < 0 ∨ lim ≤ n → Claims.sets s c D r j 0)))

/-- R179: VSHR shifts zeros in for `.lsr` and the sign bit for `.asr`; VCMP writes the BOOL of its relation. -/
def Claims.ShiftsAndCompares : Prop :=
  ∀ (s : State) (key size r j : Nat) (c : Cmd) (k : Cond) (f d a b : BitVec 3) (w : EWord) (D A B : Tv),
    Claims.writes s key size c D r j → s.tile1 c c.a = some A → s.tile1 c c.b = some B →
    (c.instr = .vshr k f d a b w → w.tc.toNat ≤ 6 → D.d.type = w.tc.toNat → A.d.type = w.tc.toNat → f.toNat ≤ 1 →
      let n := typeBits w.tc.toNat
      let x := s.at A r j
      let signed : Int := if 2 ^ (n - 1) ≤ x then (x : Int) - (2 : Int) ^ n else x
      (f = 0 → Claims.sets s c D r j (x / 2 ^ s.at B r j)) ∧
      (f = 1 → Claims.sets s c D r j ((signed / (2 : Int) ^ s.at B r j) % (2 : Int) ^ n).toNat)) ∧
    (c.instr = .vcmp k f d a b w → D.d.type = 14 →
      (w.ta.toNat ≤ 6 → f.toNat ≤ 5 → ∃ v, (v = 0 ∨ v = 1) ∧ Claims.sets s c D r j v ∧
        (v = 1 ↔ Claims.intRelation f.toNat (Claims.intCode w.ta.toNat (s.at A r j)) (Claims.intCode w.ta.toNat (s.at B r j)))) ∧
      (7 ≤ w.ta.toNat → w.ta.toNat ≤ 11 → ∃ v, (v = 0 ∨ v = 1) ∧ Claims.sets s c D r j v ∧
        (v = 1 ↔ Claims.floatRelation f.toNat (decodeT w.ta.toNat (s.at A r j)) (decodeT w.ta.toNat (s.at B r j)))))

/-- R172: CXMERGE takes the head of a unless the head of b comes strictly earlier in the order, element by element, and writes into c the
column from which each key came, b's columns behind those of a. -/
def Claims.RowsAreMerged : Prop :=
  ∀ (s : State) (key size size2 r j : Nat) (c : Cmd) (k : Cond) (f d a b : BitVec 3) (w : EWord) (D A B E : Tv),
    Claims.writes s key size c D r j → c.instr = .cxmerge k f d a b w →
    s.tile1 c c.a = some A → s.tile1 c c.b = some B → s.tile1 c c.c = some E →
    Claims.fits E size2 → (D.base + size ≤ E.base ∨ E.base + size2 ≤ D.base) → w.ta.toNat = 4 ∨ w.ta.toNat = 9 → D.d.type = w.ta.toNat →
    A.d.type = w.ta.toNat → B.d.type = w.ta.toNat → E.d.type = 4 → D.d.cols = A.d.cols + B.d.cols → E.d.cols = D.d.cols →
    E.d.rows = D.d.rows → D.d.cols ≤ 256 →
      let before (x y : Nat) : Prop := if f = 0 then Claims.sortOrder w.ta.toNat x < Claims.sortOrder w.ta.toNat y
        else Claims.sortOrder w.ta.toNat y < Claims.sortOrder w.ta.toNat x
      ∃ t, exec (.engineCommandComplete c.id) s = .next t ∧
        (let src (i : Nat) : Nat := t.elem E.base E.d r i
         let na := ((List.range j).filter (fun i => src i < A.d.cols)).length
         let nb := j - na
         let fromB : Prop := nb < B.d.cols ∧ (na = A.d.cols ∨ before (s.at B r nb) (s.at A r na))
         (fromB → src j = A.d.cols + nb ∧ t.elem D.base D.d r j = s.at B r nb) ∧
         (¬fromB → src j = na ∧ t.elem D.base D.d r j = s.at A r na))

/-- R188: VTBL writes the 256 entries of its user table, each with the poison of the elements it came from. -/
def Claims.TablesAreLoaded : Prop :=
  ∀ (s : State) (key i : Nat) (c : Cmd) (k : Cond) (f d a b : BitVec 3) (w : EWord) (A : Tv), Claims.completes s key c →
    c.instr = .vtbl k f d a b w → s.tile1 c c.a = some A → A.d.type = 9 → f.toNat = 6 ∨ f.toNat = 7 → i < 256 →
      ∃ t, exec (.engineCommandComplete c.id) s = .next t ∧
        t.funAt c.hid f.toNat i = (s.at A 0 i, s.at A 1 i, s.psnAt A 0 i || s.psnAt A 1 i)

/-- R178–R183: VFMA, VSCL, VCLMP and the broadcasts combine exactly and round once; VRSUM and VCSUM combine a row or a column in the order
of its index, a floating sum rounded to FP32 at each step. -/
def Claims.CombinationsRoundOnce : Prop :=
  ∀ (s : State) (key size r j : Nat) (c : Cmd) (k : Cond) (f d a b : BitVec 3) (x : SReg) (w : EWord) (D A B E : Tv),
    Claims.writes s key size c D r j → s.tile1 c c.a = some A → D.d.type = w.tc.toNat → w.rnd.toNat ≤ 3 → Claims.oneClass w.ta w.tc →
    let u := s.at A r j
    let int (t : BitVec 4) (y : Nat) : Int := Claims.intCode t.toNat y
    let val (t : BitVec 4) (y : Nat) : Val := decodeT t.toNat y
    (c.instr = .vfma k f d a b w → s.tile1 c c.b = some B → s.tile1 c c.c = some E → Claims.oneClass w.tb w.tc →
      Claims.sets s c D r j (Claims.result w (int w.ta u * int w.tb (s.at B r j) + int w.tc (s.at E r j))
        (((val w.ta u).mul (val w.tb (s.at B r j))).add w.rnd.toNat (val w.tc (s.at E r j))))) ∧
    (c.instr = .vscl k f d a x w → f.toNat ≤ 4 →
      let op := if f = 0 then 2 else if f = 1 then 0 else if f = 2 then 5 else f.toNat
      Claims.sets s c D r j (Claims.result w (Claims.opInt op (int w.ta u) c.b.desc.toInt)
        (Claims.opVal op w.rnd.toNat (val w.ta u) (decodeT 9 (Claims.low32 c.b.desc))))) ∧
    (c.instr = .vclmp k f d a b w → s.tile1 c c.b = some B → w.tc.toNat ≤ 11 →
      Claims.sets s c D r j (Claims.pickOf w.tc.toNat false (Claims.pickOf w.tc.toNat true u (s.at B 0 0)) (s.at B 0 1))) ∧
    (c.instr = .vbcr k f d a b w → s.tile1 c c.b = some B → Claims.oneClass w.tb w.tc → f.toNat ≤ 4 →
      Claims.sets s c D r j (Claims.result w (Claims.opInt f.toNat (int w.ta u) (int w.tb (s.at B 0 j)))
        (Claims.opVal f.toNat w.rnd.toNat (val w.ta u) (val w.tb (s.at B 0 j))))) ∧
    (c.instr = .vbcc k f d a b w → s.tile1 c c.b = some B → Claims.oneClass w.tb w.tc → f.toNat ≤ 4 →
      Claims.sets s c D r j (Claims.result w (Claims.opInt f.toNat (int w.ta u) (int w.tb (s.at B r 0)))
        (Claims.opVal f.toNat w.rnd.toNat (val w.ta u) (val w.tb (s.at B r 0))))) ∧
    (let sum (l : List Nat) : Nat :=
      let old := s.at D r j
      Claims.result w
        (Claims.gather (Claims.reduceInt f.toNat) 0 ((if w.acc then [int w.tc old] else []) ++ l.map (int w.ta)))
        (Claims.gather (Claims.reduceVal f.toNat) (.fin false 0 0) ((if w.acc then [val w.tc old] else []) ++ l.map (val w.ta)))
     (c.instr = .vrsum k f d a b w → 1 ≤ A.d.cols → f.toNat ≤ 2 →
        Claims.sets s c D r j (sum ((List.range A.d.cols).map (fun i => s.at A r i)))) ∧
     (c.instr = .vcsum k f d a b w → 1 ≤ A.d.rows → f.toNat ≤ 2 →
        Claims.sets s c D r j (sum ((List.range A.d.rows).map (fun i => s.at A i j)))))

/-- R190: VRR writes the reduced argument and its companion, both computed from the element. Where x minus its floor is no FP32 value,
`.exp2` gives the value next below or above it: the model's choice (log 84). -/
def Claims.ArgumentsAreReduced : Prop :=
  ∀ (s : State) (key size size2 r j : Nat) (c : Cmd) (k : Cond) (f d a b : BitVec 3) (w : EWord) (D A E : Tv),
    Claims.writes s key size c D r j → c.instr = .vrr k f d a b w → s.tile1 c c.a = some A → s.tile1 c c.c = some E → Claims.fits E size2 →
    (D.base + size ≤ E.base ∨ E.base + size2 ≤ D.base) → D.d.type = 9 → E.d.type = w.tb.toNat → E.d.rows = D.d.rows → E.d.cols = D.d.cols →
    w.tb.toNat = 4 ∨ w.tb.toNat = 9 → f.toNat ≤ 4 →
      ∃ t u v, exec (.engineCommandComplete c.id) s = .next t ∧ t.elem D.base D.d r j = u ∧ t.elem E.base E.d r j = v ∧
        (∀ n m e, decodeT 9 (s.at A r j) = .fin n m e →
          let x := Claims.real n m e
          (f = 0 →
            let y := max (-200) (min x 200)
            v = Claims.companion w.tb.toNat ⌊y⌋ ∧ u < 0x3F800000 ∧
              (Claims.magnitude 23 (-149) u = y - ⌊y⌋ ∨
                Claims.magnitude 23 (-149) u < y - ⌊y⌋ ∧ y - ⌊y⌋ < Claims.magnitude 23 (-149) (u + 1) ∨
                0 < u ∧ Claims.magnitude 23 (-149) (u - 1) < y - ⌊y⌋ ∧ y - ⌊y⌋ < Claims.magnitude 23 (-149) u)) ∧
          (f = 1 → 0 < x → ∃ q : Int, 1 ≤ x / (2 : ℚ) ^ q ∧ x / (2 : ℚ) ^ q < 2 ∧ v = Claims.companion w.tb.toNat q ∧ u < 0x3F800000 ∧
            Claims.magnitude 23 (-149) u = x / (2 : ℚ) ^ q - 1) ∧
          (f = 1 → x = 0 → u = 0xFF800000 ∧ v = 0) ∧
          (f = 2 → 0 < x → ∃ q : Int, 1 ≤ x / (2 : ℚ) ^ (2 * q) ∧ x / (2 : ℚ) ^ (2 * q) < 4 ∧ v = Claims.companion w.tb.toNat (-q) ∧
            u < 0x3F800000 ∧ Claims.magnitude 23 (-149) u = x / (2 : ℚ) ^ (2 * q) / 4) ∧
          (f = 2 → x = 0 → u = (if n then 0xFF800000 else 0x7F800000) ∧ v = 0) ∧
          (f = 1 ∨ f = 2 → x < 0 → u = 0x7FC00000 ∧ v = 0) ∧
          (3 ≤ f.toNat → w.tb = 9 → v = (if n then 0xBF800000 else 0x3F800000) ∧
            ∃ q, Claims.roundsToCode 9 0 0 false false ((|x| / (if f = 3 then 8 else 16) : ℚ) : ℝ) q ∧ u = min q 0x3F7FFFFF)) ∧
        ((decodeT 9 (s.at A r j)).isNan = true → u = 0x7FC00000 ∧ (w.tb = 9 → v = if 3 ≤ f.toNat then 0x3F800000 else 0) ∧
          (w.tb = 4 → f.toNat ≤ 2 → v = 0)) ∧
        (∀ n, decodeT 9 (s.at A r j) = .inf n →
          (f = 0 → u = 0 ∧ v = Claims.companion w.tb.toNat (if n then -200 else 200)) ∧
          (f = 1 → u = (if n then 0x7FC00000 else 0x7F800000) ∧ v = 0) ∧
          (f = 2 → u = (if n then 0x7FC00000 else 0) ∧ v = 0) ∧
          (3 ≤ f.toNat → w.tb = 9 → u = 0x3F7FFFFF ∧ v = if n then 0xBF800000 else 0x3F800000))

/-- R191: VFN passes a value outside [0, 1) through, takes the line of entry ⌊256u⌋ of its table inside, scales by the third tile, and
rounds once. -/
def Claims.FunctionsAreEvaluated : Prop :=
  ∀ (s : State) (key size r j : Nat) (c : Cmd) (k : Cond) (f d a b : BitVec 3) (w : EWord) (D A B : Tv),
    Claims.writes s key size c D r j → c.instr = .vfn k f d a b w → s.tile1 c c.a = some A → (w.tb ≠ 0 → s.tile1 c c.b = some B) →
    D.d.type = w.tc.toNat → 7 ≤ w.tc.toNat → w.tc.toNat ≤ 11 → w.rnd.toNat ≤ 3 →
      let scaled (y : Val) : Val := if w.tb = 4 then y.scale (Claims.intCode 4 (s.at B r j)) else if w.tb = 9 then y.mul (decodeT 9 (s.at B r j)) else y
      let gives (y : Val) : Prop := Claims.sets s c D r j (arith w.tc.toNat w.rnd.toNat w.sat 0 (scaled y))
      (w.tb = 0 ∨ w.tb = 4 ∨ w.tb = 9 →
        ((∀ n m e, decodeT 9 (s.at A r j) ≠ .fin n m e) → gives (decodeT 9 (s.at A r j))) ∧
        (∀ n m e, decodeT 9 (s.at A r j) = .fin n m e →
          (Claims.real n m e < 0 ∨ 1 ≤ Claims.real n m e → gives (.fin n m e)) ∧
          (0 ≤ Claims.real n m e → Claims.real n m e < 1 →
            let line := s.funAt c.hid f.toNat ⌊256 * Claims.real n m e⌋.toNat
            gives (((decodeT 9 line.1).mul (.fin false m e)).add w.rnd.toNat (decodeT 9 line.2.1)))))

namespace Sys2Proof.Claims

/-- The value that TCVT and VCVT convert at row r and column j (R65, R171): the source code's, an element of an MX block with its scale,
or a packed element of four or six bits. -/
def converted (s : State) (f : Nat) (w : EWord) (A E : Tv) (r j : Nat) : Val :=
  let scale := (s.scaleAt E r (j / 32)).1
  let packed := s.at A r (3 * (j / 4)) + 2 ^ 8 * s.at A r (3 * (j / 4) + 1) + 2 ^ 16 * s.at A r (3 * (j / 4) + 2)
  let six := packed / 2 ^ (6 * (j % 4)) % 2 ^ 6
  match f with
  | 0 => if w.ta = 12 then decodeMX (s.at A r j) scale else decodeT w.ta.toNat (s.at A r j)
  | 1 => let x := s.at A r (j / 2) / 2 ^ (4 * (j % 2)) % 16
         .ofInt (if 8 ≤ x then (x : Int) - 16 else x)
  | 2 => e2m3.decode six
  | 3 => e3m2.decode six
  | _ => if scale = 255 then .nan false 0x400000 else (e2m3.decode six).scale ((scale : Int) - 127)

end Sys2Proof.Claims

/-- R171, R186: TCVT and VCVT write the conversion of each element's value, and for an MXFP4 destination the elements and the scale of each
block of 32. -/
def Claims.TilesAreConverted : Prop :=
  ∀ (s : State) (key size size2 r j : Nat) (c : Cmd) (k : Cond) (f d a b : BitVec 3) (w : EWord) (D A C E : Tv),
    Claims.writes s key size c D r j → c.instr = .tcvt k f d a b w ∨ (f = 0 ∧ c.instr = .vcvt k f d a b w) → f.toNat ≤ 4 →
    s.tile1 c c.a = some A → (f = 4 ∨ f = 0 ∧ w.ta = 12 → s.tile1 c c.c = some C) → D.d.type = w.tc.toNat → w.rnd.toNat ≤ 3 →
      let value (r j : Nat) : Val := Claims.converted s f.toNat w A C r j
      (w.tc ≠ 12 → f = 0 → w.ta ≠ 12 →
        Claims.sets s c D r j (convert w.ta.toNat w.tc.toNat w.rnd.toNat w.sat 0 (s.at A r j))) ∧
      (w.tc ≠ 12 → f ≠ 0 ∨ w.ta = 12 → Claims.sets s c D r j (roundT w.tc.toNat w.rnd.toNat w.sat 0 (value r j))) ∧
      (w.tc = 12 → s.tile1 c c.e = some E → Claims.fits E size2 → (D.base + size ≤ E.base ∨ E.base + size2 ≤ D.base) → E.d.type = 13 →
        E.d.rows = D.d.rows → E.d.cols = (D.d.cols + 31) / 32 →
          let first := 32 * (j / 32)
          let block := (List.range (min 32 (D.d.cols - first))).map (fun i => (value r (first + i), 0))
          ∃ t, exec (.engineCommandComplete c.id) s = .next t ∧
            t.elem D.base D.d r j = (encodeMX w.rnd.toNat block).1.getD (j % 32) 0 % 16 ∧
            t.elem E.base E.d r (j / 32) = (encodeMX w.rnd.toNat block).2 % 256)

namespace Sys2Proof.Claims

/-- One chunk of MMA from its terms, the accumulator the first (R167): NaN, an infinity, a zero, or the sum of the terms truncated to
multiples of 2^(E − 34), where E is the greatest exponent among them, rounded once. -/
def mmaStep (sat : Bool) (ts : List Val) (x : Val) : Prop :=
  let bad : Prop := (∃ t ∈ ts, t.isNan = true) ∨ (Val.inf true ∈ ts ∧ Val.inf false ∈ ts)
  let zeros : Prop := ∀ t ∈ ts, t.isZero = true
  (bad → x.isNan = true) ∧
  (∀ n, ¬bad → Val.inf n ∈ ts → x = .inf n) ∧
  (zeros → x = .fin (ts.all Val.neg) 0 0) ∧
  (¬bad → (∀ n, Val.inf n ∉ ts) → ¬zeros → ∀ E : Int,
    (∃ n m e, Val.fin n m e ∈ ts ∧ m ≠ 0 ∧ Int.log 2 (size m e) = E) →
    (∀ n m e, Val.fin n m e ∈ ts → m ≠ 0 → Int.log 2 (size m e) ≤ E) →
      let part (t : Val) : ℚ := match t with
        | .fin n m e => (if n then -1 else 1) * ⌊size m e / (2 : ℚ) ^ (E - 34)⌋ * (2 : ℚ) ^ (E - 34)
        | _ => 0
      let sum := (ts.map part).sum
      ∃ y, x = decodeT 9 y ∧ roundsToCode 9 0 0 sat (decide (sum < 0)) ((|sum| : ℚ) : ℝ) y)

/-- The chunks of up to 32 products, in order, from the accumulator `acc` to the element's code y. -/
def mmaSteps (sat : Bool) : Nat → Val → List Val → Nat → Prop
  | 0, acc, _, y => y = arith 9 0 sat 0 acc
  | n + 1, acc, ts, y => ∃ x, mmaStep sat (acc :: ts.take 32) x ∧ mmaSteps sat n x (ts.drop 32) y

end Sys2Proof.Claims

/-- R167, R169, R170: MMA accumulates products chunk by chunk; MMAX writes the exact sum of 32 products of E2M1 codes; SCACC adds a
product scaled by two MX scales, with one rounding, and gives NaN for the scale 0xFF. -/
def Claims.FloatMatrixProducts : Prop :=
  ∀ (s : State) (key size i j : Nat) (c : Cmd) (k : Cond) (f d a b : BitVec 3) (w : EWord) (D A B E : Tv),
    Claims.writes s key size c D i j → s.tile1 c c.a = some A → s.tile1 c c.b = some B → D.d.type = 9 →
    (c.instr = .mma k f d a b w → A.d.cols ≤ 128 →
      let products := (List.range A.d.cols).map (fun n => (decodeT w.ta.toNat (s.at A i n)).mul (decodeT w.tb.toNat (s.at B n j)))
      let acc := if w.acc then decodeT 9 (s.at D i j) else .fin false 0 0
      ∃ y, Claims.mmaSteps w.sat ((A.d.cols + 31) / 32) acc products y ∧ Claims.sets s c D i j y) ∧
    (c.instr = .mmax k f d a b w →
      let real (x : Nat) : ℚ := match decodeT 12 x with | .fin n m e => Claims.real n m e | _ => 0
      let sum := ((List.range 32).map (fun n => real (s.at A i n) * real (s.at B j n))).sum
      ∃ y n m e, Claims.sets s c D i j y ∧ y < 2 ^ 32 ∧ decodeT 9 y = .fin n m e ∧ Claims.real n m e = sum ∧ (sum = 0 → y = 0)) ∧
    (c.instr = .scacc k f d a b w → s.tile1 c c.c = some E →
      let x := (s.scaleAt B i f.toNat).1
      let y := (s.scaleAt E j f.toNat).1
      Claims.sets s c D i j (if x = 255 ∨ y = 255 then 0x7FC00000
        else arith 9 0 w.sat 0 ((decodeT 9 (s.at D i j)).add 0 ((decodeT 9 (s.at A i j)).scale ((x : Int) + y - 254)))))

/-- What performed engine commands leave in their tiles and tables: codes moved, merged and compared, integer results, tables. -/
def Obligations.EngineResults : Prop :=
  Claims.FilledTilesRead ∧ Claims.ElementwiseResults ∧ Claims.IntegerMatrixProduct ∧ Claims.SortedRows ∧ Claims.CodesAreMoved ∧
    Claims.ShiftsAndCompares ∧ Claims.RowsAreMerged ∧ Claims.TablesAreLoaded

/-- What the arithmetic of the engines leaves in their tiles: combinations, reductions, functions, conversions and products. Where x minus
its floor is no FP32 value, which neighbour `.exp2` gives is the model's choice (log 84). -/
def Obligations.EngineArithmetic : Prop :=
  Claims.CombinationsRoundOnce ∧ Claims.ArgumentsAreReduced ∧ Claims.FunctionsAreEvaluated ∧ Claims.TilesAreConverted ∧
    Claims.FloatMatrixProducts

/-! ## Copies -/

namespace Sys2Proof.Claims

/-- The pages of the addresses `l` are in the hearth's TLB with the permission (R202, R206). -/
def paged (s : State) (ar : Area) (k : Cell) (need : Need) (l : List Word) : Prop :=
  ∀ a ∈ l, inTileWindow a = false ∧ canonical a = true ∧
    ∃ t ∈ (s.hearth k.hid).tlb, s.cached k.hid ar.ctx (a.toNat % 2 ^ 55) = some t ∧ t.allows need = true

/-- The different translations of the pages of `l`, as a command keeps them. -/
def translations (s : State) (ar : Area) (k : Cell) (l : List Word) : List Trans :=
  l.foldl (fun got a => match s.cached k.hid ar.ctx (a.toNat % 2 ^ 55) with
    | some t => if got.contains t then got else t :: got
    | none => got) []

/-- The first address in each page of `n` bytes at `a`. -/
def pagesOf (a : Word) (n : Nat) : List Word :=
  (List.range ((a.toNat + n - 1) / 65536 - a.toNat / 65536 + 1)).map (fun i =>
    if i = 0 then a else BitVec.ofNat 64 ((a.toNat / 65536 + i) * 65536))

/-- s[b] names the signal `g` of a copy of the tile `d` (R231): none for s0, a tagged barrier word of the hearth, or with ctr a
counter word, to which no access of the cell is still to be performed, and in its low bits what to add. -/
def signals (s : State) (ar : Area) (k : Cell) (b : SReg) (ctr : Bool) (d : Desc) (g : Signal) : Prop :=
  let a := k.sreg b
  k.spsn b = false ∧
  ((b = 0 ∧ g = .none) ∨
   (b ≠ 0 ∧ ctr = false ∧ a.toNat % 8 = 0 ∧ ∃ key off x, s.windowSlot s.cur.1 ar.ctx a = some (key, off) ∧ s.slots.find key = some x ∧
      x.hid = k.hid ∧ off ∈ x.tags ∧ g = .barrier key off) ∨
   (b ≠ 0 ∧ ctr = true ∧ ∃ n t, (a.toNat % 8 = 0 ∧ n = 1 ∨ a.toNat % 8 = 1 ∧ n = d.bytes ∨ a.toNat % 8 = 2 ∧ n = d.rows * d.cols) ∧
      paged s ar k .both [a - BitVec.ofNat 64 (a.toNat % 8)] ∧
      s.cached k.hid ar.ctx ((a.toNat - a.toNat % 8) % 2 ^ 55) = some t ∧
      k.clashes [t] ((a.toNat - a.toNat % 8) % 2 ^ 55) 8 = false ∧
      g = .counter (t.pa ((a.toNat - a.toNat % 8) % 2 ^ 55)) t.key n))

/-- What the issue of a copy leaves when the copy queue has room. -/
def copied (s : State) (ar : Area) (k : Cell) (i : Instr) (pri : BitVec 2) (uses : List Use) (fill : Cmd → Cmd) : State :=
  let cmd := fill { s.newCmd ar k i pri.toNat with
    restoring := decide (ar.kind = .restore), names := s.keysOf s.cur.1 ar k uses, outs := s.keysOf s.cur.1 ar k (uses.filter (·.wr)) }
  ((s.enqueue 2 cmd).setLayouts s.cur.1 ar k uses).finish k 2 id

end Sys2Proof.Claims

/-- R228–R232, R164, R346: CPYIN, CPYOUT, CPYT, CPYX, TLD and TST of an application that is not voted enter the copy queue with what
they captured, when their address is a multiple of 16 on readable or writable pages, their signal is in order, their tile passes its
checks and no access of the cell to their bytes is still to be performed (R258); one to the device itself comes behind every access of
the cell, for its bytes are not known at issue, which is the model's choice (log 51). -/
def Claims.CopyCommandIssue : Prop :=
  ∀ (s : State) (ar : Area) (k : Cell) (c : Cond) (pri : BitVec 2) (ctr : Bool) (d a2 : TReg) (a b : SReg) (m : MWord) (g : Signal),
    ar.isVoted = false → (s.queue k.hid 2).length < 32 →
    let x := descOf (k.dreg d)
    let A := k.addr a m
    let src : List Use := [⟨d, true, false⟩]
    let dst : List Use := [⟨d, false, true⟩]
    let img := Claims.pagesOf A (x.memFoot x.stride)
    let raw := Claims.pagesOf A x.foot
    let free (l : List Word) (n : Nat) : Prop := k.clashes (Claims.translations s ar k l) (A.toNat % 2 ^ 55) n = false
    let copy (l : List Word) (q : Cmd) : Cmd :=
      { q with d := ⟨k.dreg d, k.dpsn d⟩, addr := A, pages := Claims.translations s ar k l, pitch := x.stride, sig := g,
               names := q.names ++ g.slots }
    let plain (l : List Word) (q : Cmd) : Cmd :=
      { q with d := ⟨k.dreg d, k.dpsn d⟩, addr := A, pages := Claims.translations s ar k l }
    (s.issues c [a, b] ar k → k.spsn a = false → Claims.signals s ar k b ctr x g → A.toNat % 16 = 0 →
      (Claims.usable s ar k dst → Claims.paged s ar k .read img → free img (x.memFoot x.stride) →
        exec (.cpyin c pri ctr d a b m) s = .next (Claims.copied s ar k (.cpyin c pri ctr d a b m) pri dst (copy img))) ∧
      (Claims.usable s ar k src → Claims.paged s ar k .write img → free img (x.memFoot x.stride) →
        exec (.cpyout c pri ctr d a b m) s = .next (Claims.copied s ar k (.cpyout c pri ctr d a b m) pri src (copy img)))) ∧
    (s.issues c [a, b] ar k → k.spsn a = false → inTileWindow (k.sreg a) = false → m.offset.toNat % 2 ^ 12 ≠ s.fabdev ∨ Claims.behind k →
      (ctr = false ∧ Claims.signals s ar k b false x g) ∨
        (ctr = true ∧ k.spsn b = false ∧ b ≠ 0 ∧ (k.sreg b).toNat % 8 = 0 ∧ g = .counter (k.sreg b).toNat none 1) →
      Claims.usable s ar k src →
        exec (.cpyx c pri ctr d a b m) s = .next (Claims.copied s ar k (.cpyx c pri ctr d a b m) pri src (fun q =>
          { q with d := ⟨k.dreg d, k.dpsn d⟩, addr := k.sreg a, pitch := x.stride, sig := g, names := q.names ++ g.slots }))) ∧
    (s.issues c [b] ar k → Claims.signals s ar k b ctr x g →
      Claims.usable s ar k [⟨d, false, true⟩, ⟨a2, true, false⟩] → Claims.ty k d = Claims.ty k a2 → Claims.alike k d a2 →
        exec (.cpyt c pri ctr d a2 b m) s = .next (Claims.copied s ar k (.cpyt c pri ctr d a2 b m) pri
          [⟨d, false, true⟩, ⟨a2, true, false⟩] (fun q => { q with
            d := ⟨k.dreg d, k.dpsn d⟩, a := ⟨k.dreg a2, k.dpsn a2⟩, sig := g, names := q.names ++ g.slots }))) ∧
    (s.issues c [a] ar k → k.spsn a = false → A.toNat % 16 = 0 →
      (Claims.usable s ar k dst → Claims.paged s ar k .read raw → free raw x.foot →
        exec (.tld c pri d a m) s = .next (Claims.copied s ar k (.tld c pri d a m) pri dst (plain raw))) ∧
      (Claims.usable s ar k src → Claims.paged s ar k .write raw → free raw x.foot →
        exec (.tst c pri a d m) s = .next (Claims.copied s ar k (.tst c pri a d m) pri src (plain raw))))

/-- R233: GATHER, SCATTER and SCATADD read their index tile at issue, one signed row index for each row of d, and enter the copy
queue with the byte offsets index × stride, once no access of the cell to their rows is still to be performed. -/
def Claims.IndexedCopyIssue : Prop :=
  ∀ (s : State) (ar : Area) (k : Cell) (c : Cond) (pri : BitVec 2) (d b : TReg) (a : SReg) (m : MWord) (key : Nat) (sl : Slot),
    s.issues c [a] ar k → ar.isVoted = false → ar.kind ≠ .restore → k.spsn a = false → (s.queue k.hid 2).length < 32 →
    let x := descOf (k.dreg d)
    let y := descOf (k.dreg b)
    let A := k.addr a m
    let index (r : Nat) : Int :=
      Claims.intCode y.type (if y.rows = 1 then s.elem sl.base y 0 r else s.elem sl.base y r 0)
    let offs : List Int := (List.range x.rows).map (fun r => index r * x.stride)
    let pages := offs.flatMap (fun o => Claims.pagesOf (A + BitVec.ofInt 64 o) (elemBytes x.type x.cols))
    let cmd (i : Instr) (use : Use) : Cmd := { s.newCmd ar k i pri.toNat with
      names := s.keysOf s.cur.1 ar k [use, ⟨b, true, false⟩], outs := if use.wr then s.keysOf s.cur.1 ar k [use] else []
      d := ⟨k.dreg d, k.dpsn d⟩, addr := A, pages := Claims.translations s ar k pages, rows := offs }
    let enters (i : Instr) (use : Use) : Prop :=
      exec i s = .next (((s.enqueue 2 (cmd i use)).setLayouts s.cur.1 ar k [use]).finish k 2 id)
    (∀ o ∈ offs, k.clashes (Claims.translations s ar k pages) ((A + BitVec.ofInt 64 o).toNat % 2 ^ 55) (elemBytes x.type x.cols) = false) →
    A.toNat % 16 = 0 → inTileWindow A = false → x.layout ≠ 1 → y.type = 4 ∨ y.type = 6 →
    (y.rows = x.rows ∧ y.cols = 1) ∨ (y.rows = 1 ∧ y.cols = x.rows) →
    s.slotOf s.cur.1 ar.ctx y.handle = some (key, sl) → sl.moving = none → y.elems.any (fun p => s.blockPoison sl.base y p.1 p.2) = false →
    s.queues.any (fun q => q.2.any (fun e => k.cmds.any (fun p => p.2 = e.id) && e.outs.contains key)) = false →
      (Claims.usable s ar k [⟨d, false, true⟩, ⟨b, true, false⟩] → Claims.paged s ar k .read pages →
        enters (.gather c pri d a b m) ⟨d, false, true⟩) ∧
      (Claims.usable s ar k [⟨d, true, false⟩, ⟨b, true, false⟩] → Claims.paged s ar k .both pages →
        enters (.scatter c pri d a b m) ⟨d, true, false⟩ ∧
        (x.type ∈ [4, 5, 6, 9] → enters (.scatadd c pri d a b m) ⟨d, true, false⟩))

/-- R231, R233, R237: a started CPYIN that lands whole leaves in every element of its tile the value of the memory image at base +
row × pitch + column bytes, and keeps the tile that it does not write. -/
def Claims.CopyInLandsItsImage : Prop :=
  ∀ (s : State) (key size r j n : Nat) (c : Cmd) (D : Tv) (k : Cond) (pri : BitVec 2) (ctr : Bool) (d : TReg) (a b : SReg) (m : MWord),
    s.cmdOf c.id = some (key, c) → c.id < 2 ^ 64 → c.started = true → c.sig = .none → c.landed = 0 →
    c.instr = .cpyin k pri ctr d a b m → s.tile1 c c.d = some D → Claims.fits D size →
    D.d.rows * D.d.cols ≤ n → r < D.d.rows → j < D.d.cols →
      ∃ t, exec (.copyPartLanded c.id n) s = .next t ∧
        t.elem D.base D.d r j = (s.imageElem c D.d r j).1 % 2 ^ typeBits D.d.type ∧
        (∀ p, (p < D.base ∨ D.base + size ≤ p) → t.tile.get 0 p = s.tile.get 0 p) ∧ t.mem = s.mem

/-! ## The steps of the engine queues -/

/-- R159, R160, R162: the head of a queue starts unless it has started or a slot that it names is on its way; a fence leaves all its
queues when it heads each of them; a started command that has landed is performed, sends its signal and leaves. -/
def Claims.QueueSteps : Prop :=
  ∀ (s : State) (h q : Nat) (c : Cmd) (rest : List Cmd), s.queue h q = c :: rest →
    (c.fence = none → c.started = false → s.awaitsTile c = false → (∀ k p x d a b m, c.instr ≠ .cpyx k p x d a b m) →
      exec (.engineCommandStart h q) s = .next (s.modCmd c.id (fun c => { c with started := true }))) ∧
    (c.fence = none → c.started = true ∨ s.awaitsTile c = true → exec (.engineCommandStart h q) s = .next s) ∧
    (∀ f, c.fence = some f →
      ((∀ i, i < 4 → f.getLsbD i = true → ∃ e r, s.queue h i = e :: r ∧ e.id = c.id) →
        exec (.engineCommandStart h q) s = .next { s with
          queues := (s.queues.map (fun p => (p.1, p.2.filter (fun e => e.id ≠ c.id)))).filter (fun p => p.2 ≠ []) }) ∧
      ((∃ i, i < 4 ∧ f.getLsbD i = true ∧ ∀ e ∈ (s.queue h i).head?, e.id ≠ c.id) → exec (.engineCommandStart h q) s = .next s)) ∧
    (∀ key, s.cmdOf c.id = some (key, c) → c.started = true → (c.lands = true → c.total ≤ c.landed) →
      (c.remote = true → c.total ≤ c.landed) → s.portOpen c = true → (∀ k p d a b m, c.instr ≠ .subscr k p d a b m) → (∀ k p a b, c.instr ≠ .accfl k p a b) →
        exec (.engineCommandComplete c.id) s = .next (((s.perform c).wakeErrors.signalCounter c).finishCmd key c))

/-- R231, R240: a counter signal that has arrived adds at its home, saturating, and its area no longer waits for it; an acknowledgement of a
CPYX lands the copy whole, and one of a remote counter add ends the wait for it. A refusal of the add is logged with the code that the
device sent, which is a free value (log 71, the model's choice). -/
def Claims.SignalsAndAcknowledgements : Prop :=
  ∀ (s : State) (m : Msg) (uid : Nat), s.arrived m.id = some m →
    (∀ ar, s.area uid = some ar → ar.kind = .user ∧ ar.phase = .active) →
    let dropped : State := { s with msgs := s.msgs.filter (fun x => x.id ≠ m.id) }
    (∀ pa n rs, m.body = .signal pa none n uid rs → pa < 2 ^ 47 →
      ∃ t, exec (.counterSignal m.id) s = .next t ∧
        ofLe (readTab t.mem pa 8) = min (ofLe (readTab s.mem pa 8) + n) (2 ^ 64 - 1) ∧ t.msgs = dropped.msgs ∧
        (∀ x, (x < pa ∨ pa + 8 ≤ x) → t.mem.get 0 x = s.mem.get 0 x)) ∧
    (∀ port dev job va n, m.body = .remoteAdd port dev job va n uid →
      exec (.remoteAcknowledgement m.id true) s = .next dropped ∧
      ∀ ar, s.area uid = some ar → exec (.remoteAcknowledgement m.id false) s = .next
        (dropped.tickFree.log ar.ctx 11 (s.freeVal.toNat % 256) ar.op (ar.ctx * 2 ^ 58 + ar.pos) va.toNat 0)) ∧
    (∀ port dev job bytes c key, m.body = .remoteWrite port dev job bytes c.id → s.cmdOf c.id = some (key, c) → c.sig = .none →
      exec (.remoteAcknowledgement m.id true) s = .next (dropped.modCmd c.id (fun c => { c with landed := c.total })))

/-! ## Streams -/

/-- R244–R248: SLOTREL sends the notice of a live ring slot to its chimney; UNSUBS of a stream none of whose slots awaits a push ends it;
either raises TILE_BOUNDS without such a stream, and the first one after a fault raises STREAM_FAULT with its address. That an index
beyond the ring raises TILE_BOUNDS while a fault is still to be reported, and that a slot with a notice or a write-back on its way awaits
its push at UNSUBS, are the model's choices (log 54). -/
def Claims.StreamInstructions : Prop :=
  ∀ (s : State) (ar : Area) (k : Cell) (c : Cond) (a b : SReg) (st : Nat) (x : Sub), ar.isVoted = false → k.spsn a = false →
    k.spsn b = false →
    (s.issues c [a, b] ar k → s.liveStream ar k (k.sreg a) (k.sreg b).toNat = none → exec (.slotrel c a b) s = .next (s.raise 0x20 0)) ∧
    (s.issues c [a, b] ar k → s.liveStream ar k (k.sreg a) (k.sreg b).toNat = some (st, x) →
      (x.faulted = none → exec (.slotrel c a b) s = .next (({ s with
        nextUid := s.nextUid + 1
        msgs := s.msgs ++ [⟨s.nextUid, 3, 0, 0, k.hid, sliceRouter (st / 64 * 64), k.hid, 0, false, .notice st (k.sreg b).toNat⟩] } : State).finish k 1 id)) ∧
      (∀ f, x.faulted = some f → x.reported = false →
        exec (.slotrel c a b) s = .next (({ s with subs := s.subs.upd st (fun x => { x with reported := true }) } : State).raise 0x31 f)) ∧
      (x.faulted ≠ none → x.reported = true → exec (.slotrel c a b) s = .next (s.finish k 1 id))) ∧
    (s.issues c [a] ar k → s.liveStream ar k (k.sreg a) 0 = none → exec (.unsubs c a) s = .next (s.raise 0x20 0)) ∧
    (s.issues c [a] ar k → s.liveStream ar k (k.sreg a) 0 = some (st, x) → x.faulted = none →
      (∀ i, i < x.ring.length → (i ∈ x.full ∧ (∀ n ∈ s.msgs, n.body ≠ .notice st i) ∧ ∀ p ∈ x.wb, p.1 ≠ i) ∨
        (x.push.find i).isSome = true ∨ x.desc.toNat / 2 ^ 320 % 2 ^ 32 ≤ x.next.getD i 0) →
        exec (.unsubs c a) s =
          .next ((({ s with subs := s.subs.upd st (fun x => { x with dead := true }) } : State).sweepSub st).finish k 1 id))

/-- R245: a freed-slot notice that has arrived frees the slot of its ring and starts the push that the slot awaits, and is gone; a late one
for an entry taken anew too, the model's choice (log 54). -/
def Claims.FreedSlotNotices : Prop :=
  ∀ (s : State) (m : Msg) (st i : Nat), s.arrived m.id = some m → m.body = .notice st i →
    exec (.freedSlotNotice m.id) s = .next ((({ s with
      msgs := s.msgs.filter (fun x => x.id ≠ m.id)
      subs := s.subs.upd st (fun x => { x with full := x.full.filter (· ≠ i) }) } : State)).startPush st i)

namespace Sys2Proof.Claims

/-- The state after the issuing cell has read 64 bytes of a descriptor at `l`: at a home in device memory its slice was accessed. -/
def read64 (s : State) (hid : Nat) (l : Loc) : State :=
  match l with
  | .dev pa _ => (s.touch pa hid 3 none 0).meetLine hid (pa / 64)
  | _ => s

/-- The translation of an access, if it used one, stands in the TLB of the hearth. -/
def near (s : State) (hid : Nat) (t : Option Trans) : Prop := ∀ x, t = some x → x ∈ (s.hearth hid).tlb

/-- The issuing cell awaits the command `id` in register `d`; nothing awaits a write to s0. -/
def awaiting (s : State) (d : SReg) (id : Nat) : State :=
  if d = 0 then s else s.modCur (fun z => { z with pend := z.pend ++ [(d, id)] })

end Sys2Proof.Claims

/-- R244, R247: a SUBSCR whose descriptor, slots and barriers pass their checks and a SLOTWB of a live ring slot enter the copy queue; the
register of a SUBSCR is awaited from then on. Its descriptor lies here in two readable lines of cached pages, behind the cell's performed
accesses. -/
def Claims.StreamCommandIssue : Prop :=
  ∀ (s : State) (ar : Area) (k : Cell) (c : Cond) (pri : BitVec 2) (d a b : SReg) (m : MWord), ar.isVoted = false → k.spsn a = false →
    k.spsn b = false → (s.queue k.hid 2).length < 32 →
    let A := k.addr a m
    (∀ (l1 l2 : Loc) (t1 t2 : Option Trans), s.issues c [d, a, b] ar k → k.sreg b = 0 → Claims.behind k →
      Claims.near s k.hid t1 → Claims.near s k.hid t2 →
      Claims.home s s.cur.1 ar.ctx k.hid A 64 .read l1 t1 → Claims.home s s.cur.1 ar.ctx k.hid (A + 64) 64 .read l2 t2 →
      (s.readLoc l1 64).2 = false → (s.readLoc l2 64).2 = false →
      let x : BitVec 1024 := BitVec.ofNat 1024 (ofLe (s.readLoc l1 64).1 + 2 ^ 512 * ofLe (s.readLoc l2 64).1)
      let ds := (List.range (x.toNat / 2 ^ 176 % 16)).map (fun i => descOf (streamDesc x i))
      streamOk x = true → x.toNat % 16 = 0 →
      (∀ y ∈ ds, ∃ key z, s.slotOf s.cur.1 ar.ctx y.handle = some (key, z) ∧ z.hid = k.hid ∧ y.foot ≤ z.units * 1024 ∧
        z.meetsTag 0 y.foot = false) →
        let keys := ds.filterMap (fun y => (s.slotOf s.cur.1 ar.ctx y.handle).map (·.1))
        let s2 := Claims.read64 (Claims.read64 s k.hid l1) k.hid l2
        let q : Cmd := { s.newCmd ar k (.subscr c pri d a b m) pri.toNat with names := keys, outs := keys, key := x.toNat }
        exec (.subscr c pri d a b m) s = .next ((Claims.awaiting (s2.enqueue 2 q) d q.id).finish k 2 id)) ∧
    (∀ (st key : Nat) (x : Sub) (y : Slot), s.issues c [a, b] ar k → A.toNat % 16 = 0 →
      let i := (k.sreg b).toNat / 2 ^ 16 % 8
      let w := streamDesc x.desc i
      let p := x.desc.toNat / 2 ^ 128 % 2 ^ 32
      let img := Claims.pagesOf A ((descOf w).memFoot p)
      s.liveStream ar k (k.sreg b) i = some (st, x) → x.faulted = none → Claims.paged s ar k .write img →
      k.clashes (Claims.translations s ar k img) (A.toNat % 2 ^ 55) ((descOf w).memFoot p) = false →
      s.slotOf s.cur.1 ar.ctx (descOf w).handle = some (key, y) → y.hid = k.hid → (descOf w).foot ≤ y.units * 1024 →
      ((descOf w).strict = true → y.layout.toNat = (descOf w).layout) →
        let q : Cmd := { s.newCmd ar k (.slotwb c pri a b m) pri.toNat with
          d := ⟨w, false⟩, addr := A, pages := Claims.translations s ar k img, pitch := p, names := [key], scal := k.sreg b }
        exec (.slotwb c pri a b m) s =
          .next (((s.enqueue 2 q).modSub st (fun z => { z with wb := z.wb ++ [(i, q.id)] })).finish k 2 id))

/-! ## Events and the banks -/

namespace Sys2Proof.Claims

/-- s[a] is the key of `n` neurons of the bound population `x` (Table 15.3). -/
def bank (s : State) (ar : Area) (k : Cell) (a : SReg) (n : Nat) (x : Pop) : Prop :=
  let w := (k.sreg a).toNat
  k.spsn a = false ∧ w / 2 ^ 60 = 4 ∧ w / 2 ^ 32 % 2 ^ 28 = 0 ∧ s.pops.find (ar.ctx * 256 + w % 256) = some x ∧ x.gone = false ∧
    w / 256 % 2 ^ 24 + n ≤ x.count + 1

end Sys2Proof.Claims

/-- R281–R283: EVSEND, EVSENDT, ACCRD, ACCWR and ACCFL enter the event queue with their key and value when the key names neurons of a
bound population; EVSENDT refuses a tick below the horizon, and EVSEND and EVSENDT then a hearth that is full (EVENT_OVERFLOW). Which of
two failing checks names the fault is the model's choice (log 35). The register of an ACCRD is awaited from then on. EVWAIT goes on when
the tick lies below the horizon, no event at or before it is pending, and no insertion of a fire that such an event caused waits
for its place. -/
def Claims.EventInstructions : Prop :=
  ∀ (s : State) (ar : Area) (k : Cell) (c : Cond) (pri : BitVec 2) (d a b e : SReg) (x : Pop), k.spsn b = false → k.spsn e = false →
    let w := (k.sreg a).toNat
    let room := (s.queue k.hid 3).length < 32
    let now := (s.part (s.lead (k.hid / 256))).horizon
    let cmd (i : Instr) : Cmd := { s.newCmd ar k i pri.toNat with scal := k.sreg a, addr := k.sreg b }
    let send (i : Instr) (n t : Nat) : State :=
      ((s.enqueue 3 { s.newCmd ar k i pri.toNat with time := t }).emit k.hid s.nextUid ar.ctx (w % 256) (w / 256 % 2 ^ 24) t
        ((k.sreg b).extractLsb' 0 32) .sender).finish k n id
    (ar.isVoted = false → room → Claims.bank s ar k a 1 x →
      (s.issues c [a, b] ar k →
        ((s.hearth (x.home (w / 256 % 2 ^ 24))).full = false →
          exec (.evsend c pri a b) s = .next (send (.evsend c pri a b) 1 now)) ∧
        ((s.hearth (x.home (w / 256 % 2 ^ 24))).full = true → exec (.evsend c pri a b) s = .next (s.raise 0x51 0)) ∧
        exec (.accwr c pri a b) s = .next ((s.enqueue 3 (cmd (.accwr c pri a b))).finish k 1 id)) ∧
      (s.issues c [a, b, e] ar k →
        ((k.sreg e).toNat % 2 ^ 32 < now → exec (.evsendt c pri a b e) s = .next (s.raise 0x50 0)) ∧
        (now ≤ (k.sreg e).toNat % 2 ^ 32 → (s.hearth (x.home (w / 256 % 2 ^ 24))).full = false →
          exec (.evsendt c pri a b e) s = .next (send (.evsendt c pri a b e) 2 ((k.sreg e).toNat % 2 ^ 32))) ∧
        (now ≤ (k.sreg e).toNat % 2 ^ 32 → (s.hearth (x.home (w / 256 % 2 ^ 24))).full = true →
          exec (.evsendt c pri a b e) s = .next (s.raise 0x51 0)))) ∧
    (ar.isVoted = false → room → s.issues c [a, b] ar k → Claims.bank s ar k a (k.sreg b).toNat x →
      exec (.accfl c pri a b) s = .next ((s.enqueue 3 (cmd (.accfl c pri a b))).finish k 1 id)) ∧
    (room → s.issues c [d, a] ar k → Claims.bank s ar k a 1 x →
      exec (.accrd c pri d a) s = .next ((Claims.awaiting
        (s.enqueue 3 { s.newCmd ar k (.accrd c pri d a) pri.toNat with scal := k.sreg a }) d s.nextUid).finish k 1 id)) ∧
    (s.issues c [a] ar k → k.spsn a = false →
      let t := w % 2 ^ 32
      let asked := (s.part (s.lead (k.hid / 256))).inserts
      let past := (t < 2 ^ 32 - 2 ∧ t < now ∧ (∀ v ∈ s.events, s.lead (v.hid / 256) = s.lead (k.hid / 256) → t < v.time) ∧
          ∀ v ∈ asked, ∀ u, v.tick = some u → t < u.1) ∨
        (2 ^ 32 - 2 ≤ t ∧ now = 2 ^ 32 - 1 ∧ (∀ v ∈ s.events, s.lead (v.hid / 256) ≠ s.lead (k.hid / 256)) ∧
          ∀ v ∈ asked, v.tick = none)
      (past → exec (.evwait c a) s = .next (s.finish k 1 id)) ∧
      (¬past → exec (.evwait c a) s = .next (s.waitOn .horizon 0 (BitVec.ofNat 64 t))))

/-- R282, R271: POPSET with s[b] = 0 enters the event queue to unbind; with the address of a dynamics descriptor that passes its rules
it takes entries on its hearths at once, and its binding is installed when it is performed. -/
def Claims.PopulationBinding : Prop :=
  ∀ (s : State) (ar : Area) (k : Cell) (c : Cond) (pri : BitVec 2) (a b : SReg) (l : Loc) (t : Option Trans) (hs : List Nat),
    s.issues c [a, b] ar k → ar.isVoted = false → k.spsn a = false → k.spsn b = false → (s.queue k.hid 3).length < 32 →
    let w := (k.sreg a).toNat
    w / 2 ^ 56 = 2 * 16 → w / 2 ^ 8 % 2 ^ 24 = 0 →
    let q : Cmd := { s.newCmd ar k (.popset c pri a b) pri.toNat with scal := k.sreg a, addr := k.sreg b }
    (k.sreg b = 0 → exec (.popset c pri a b) s = .next ((s.enqueue 3 q).finish k 1 id)) ∧
    (k.sreg b ≠ 0 → Claims.behind k → Claims.near s k.hid t →
      Claims.home s s.cur.1 ar.ctx k.hid (k.sreg b) 64 .read l t → (s.readLoc l 64).2 = false →
      let s1 := Claims.read64 s k.hid l
      let x : BitVec 512 := BitVec.ofNat 512 (ofLe (s.readLoc l 64).1)
      let set := s.hearthSet (s.leadOf k.hid) (x.toNat / 2 ^ 48 % 2 ^ 10) (x.toNat / 2 ^ 64 % 2 ^ 11)
      let key := ar.ctx * 256 + w % 256
      (s.dynOk ar.ctx (s.leadOf k.hid) x = false → exec (.popset c pri a b) s = .next (s1.raise 0x21 0)) ∧
      (s.dynOk ar.ctx (s.leadOf k.hid) x = true → s.pops.find key = none →
        s.placeSet ((w / 2 ^ 32 % 2 ^ 24 + 1 + set.length - 1) / set.length) set [] = some hs →
          let y : Pop := ⟨w / 2 ^ 32 % 2 ^ 24, x, hs, false, s.nextUid, 0, false⟩
          exec (.popset c pri a b) s =
            .next (({ s1.enqueue 3 q with pops := (s1.enqueue 3 q).pops.set key y } : State).finish k 1 id)))

/-- R274, R278, R279, R354: an event whose packet has come to its hearth goes into the ember queue below its spill point, otherwise into the
ring, or into the rest of the queue when the ring is full, and waits when there is no room; one whose entries have moved is sent on.
The first event of a hearth by time, key and arrival is delivered once its time lies below the horizon: it is gone, and within the
refractory time of its neuron nothing else happens; otherwise the new state, the tick and one arrival more stand in the entry, which
fires when its rule says so; rule 0 looks at the state as it is stored (log 55, the model's choice). Without a population that is installed in
this hearth and has the neuron it is dropped and logged. A fire that looks for pages in no TLB begins again behind their walks, which have
begun (log 72). -/
def Claims.EventArrivalAndDelivery : Prop :=
  ∀ (s : State) (h : Nat) (e : Ev),
    (∀ m : Msg, s.events.find? (fun v => v.id = e.id) = some e → e.place = .mesh → s.arrival (.event e.id) = some m →
      let put (p : Place) : State := { s with
        nextUid := s.nextUid + 1
        msgs := s.msgs.filter (fun x => x.id ≠ m.id)
        events := s.events.map (fun v => if v.id = e.id then { v with place := p, arrived := s.nextUid } else v) }
      let n := s.evCount e.hid .queue
      let spill := min 4096 (s.hearth e.hid).spill
      (m.dst = e.hid →
        (n < spill → exec (.eventArrival e.id) s = .next (put .queue)) ∧
        (spill ≤ n → s.evCount e.hid .ring < 65536 → exec (.eventArrival e.id) s = .next (put .ring)) ∧
        (spill ≤ n → 65536 ≤ s.evCount e.hid .ring → n < 4096 → exec (.eventArrival e.id) s = .next (put .queue)) ∧
        (4096 ≤ n → 65536 ≤ s.evCount e.hid .ring → exec (.eventArrival e.id) s = .next s)) ∧
      (m.dst ≠ e.hid → exec (.eventArrival e.id) s = .next { s with
        nextUid := s.nextUid + 1
        msgs := s.msgs.filter (fun x => x.id ≠ m.id) ++ [⟨s.nextUid, 4, 0, 0, m.dst, e.hid, m.dst, 0, false, .event e.id⟩] })) ∧
    (s.firstEvent h = some e → e.time < (s.part (s.lead (h / 256))).horizon → (e.place = .queue ∨ e.place = .ring) →
      let gone (t : State) : State := { t with
        events := t.events.filter (fun v => v.id ≠ e.id)
        msgs := t.msgs.filter (fun v => v.body ≠ .event e.id) }
      let ends (t : State) : Prop := exec (.eventDelivery h) s = .next (if t.missed = [] then t else s.behindWalks t)
      ((∀ x, s.pops.find (e.ctx * 256 + e.pop) = some x → x.gone = true ∨ x.installed = false ∨ h ∉ x.members ∨ x.count < e.neuron) →
        ends (gone (s.logDrop e.ctx e.hi e.lo))) ∧
      (∀ x : Pop, s.pops.find (e.ctx * 256 + e.pop) = some x → x.gone = false → x.installed = true → h ∈ x.members → e.neuron ≤ x.count →
        let y := s.acc e.ctx e.pop e.neuron x
        (y.rvalid = true → e.time ≤ y.trefr → ends (gone (s.count h 0x13 1))) ∧
        ((y.rvalid = false ∨ y.trefr < e.time) →
          let v := if x.desc.toNat % 4 = 0 then integFloat x y.state.toNat (e.time - y.tlast) e.value.toNat
            else integInt x y.state.toNat (e.time - y.tlast) e.value.toNat
          let z : Acc := { y with state := BitVec.ofNat 32 v, tlast := e.time, arrivals := min (y.arrivals + 1) (2 ^ 24 - 1) }
          let s1 : State := { s with accs := s.accs.put x.fresh ((e.ctx * 256 + e.pop) * 2 ^ 24 + e.neuron) z }
          let due := y.poison = false ∧
            ((x.desc.toNat / 64 % 4 = 0 ∧ x.meets v = true) ∨ (x.desc.toNat / 64 % 4 = 1 ∧ x.desc.toNat / 2 ^ 96 % 2 ^ 24 ≤ z.arrivals))
          (¬due → ends (gone (s1.count h 0x13 1))) ∧
          (due → ends (gone ((s1.fire e.ctx e.pop e.neuron e.time x true).count h 0x13 1))))))

/-- R274: the new state of an INT32 neuron: the leak moves the old state toward 0 by α for each tick, the input is added, added with its
weight, or wins as the greater, and the result is clamped to 32 bits. -/
def Claims.IntegerIntegration : Prop :=
  ∀ (x : Pop) (v d w : Nat),
    let fld (lo n : Nat) : Nat := x.desc.toNat / 2 ^ lo % 2 ^ n
    let y := Claims.intCode 4 v
    let drop := Claims.intCode 4 (fld 128 32) * d
    0 ≤ Claims.intCode 4 (fld 128 32) →
    let leaked : Int := if fld 4 2 ≠ 2 then y else if (y.natAbs : Int) ≤ drop then 0 else if 0 ≤ y then y - drop else y + drop
    let sum : Int := if fld 2 2 = 0 then leaked + Claims.intCode 4 w
      else if fld 2 2 = 1 then leaked + Claims.intCode 4 w * Claims.intCode 4 (fld 224 32) else max leaked (Claims.intCode 4 w)
    Claims.intCode 4 (integInt x v d w) = max (-(2 ^ 31)) (min sum (2 ^ 31 - 1))

/-- The issue of copies, plain and indexed, and what a copy into a tile lands. That a CPYX to the
device itself comes behind every access of its cell is the model's choice (log 51). -/
def Obligations.Copies : Prop := Claims.CopyCommandIssue ∧ Claims.IndexedCopyIssue ∧ Claims.CopyInLandsItsImage

/-- The order of an engine queue, the steps of its commands, their signals and acknowledgements. The code of a failure that a peer reports
is a free value (log 71). -/
def Obligations.QueuesAndSignals : Prop := Claims.QueueOrder ∧ Claims.QueueSteps ∧ Claims.SignalsAndAcknowledgements

/-- The stream instructions, freed-slot notices and stream commands. The order of the checks of SLOTREL, SLOTWB and UNSUBS, a slot index
beyond the ring while a stream fault is pending, and an UNSUBS that awaits a push under way are the model's choices (log 54). -/
def Obligations.Streams : Prop := Claims.StreamInstructions ∧ Claims.FreedSlotNotices ∧ Claims.StreamCommandIssue

/-- The event instructions and the binding of populations. That ACCFL takes an empty range that begins at most one behind the last neuron is
the model's choice (log 35). -/
def Obligations.EventIssue : Prop := Claims.EventInstructions ∧ Claims.PopulationBinding

/-- The arrival, the delivery and the integration of events. How a
state leaks to nothing, what a maximum with a NaN gives, and where accesses that need a walk wait are the model's choices (logs 55 and 72). -/
def Obligations.EventDelivery : Prop := Claims.EventArrivalAndDelivery ∧ Claims.IntegerIntegration

/-! ## System instructions, the ends of a trap, saving and restoring -/

namespace Sys2Proof.Claims

/-- The control registers of a trap operator with their values (Table 19.1): the record `t` of the held area `h` and its cell `x`. -/
def trapRegs (h : Area) (t : TrapRec) (x : Cell) : List (BitVec 12 × Nat) :=
  [(0x000, t.fault.toNat + 2 ^ 8 * t.code.toNat + 2 ^ 16 * t.copy.toNat + (if t.noinstr then 2 ^ 18 else 0) + (if t.brk then 2 ^ 19 else 0)),
   (0x001, t.fcix), (0x002, t.fpc.toNat % 2 ^ 14), (0x003, t.faddr.toNat), (0x004, h.ctx * 2 ^ 58 + h.pos), (0x005, h.stamp),
   (0x006, t.fword0.toNat), (0x007, t.fword1.toNat), (0x120, x.q.toNat), (0x130, x.psn.toNat)] ++
  (List.range 32).map (fun i => (BitVec.ofNat 12 (0x100 + i), (x.sreg (BitVec.ofNat 5 i)).toNat)) ++
  (List.range 8).map (fun i => (BitVec.ofNat 12 (0x128 + i), (x.dreg (BitVec.ofNat 3 i)).toNat))

/-- The control registers of a context and of a hearth (Table 19.1). -/
def ctxRegs (s : State) (x : Ctx) (k : Cell) : List (BitVec 12 × Nat) :=
  [(0x200, if x.strict then 1 else 0), (0x201, if x.brk then 1 else 0), (0x202, x.trace.toNat), (0x203, x.logbase.toNat),
   (0x204, x.logsize), (0x205, if x.hangpol then 1 else 0), (0x206, (s.hearth k.hid).seed.toNat)]

/-- What a write of `v` makes of a register of the held cell: a scalar, the predicates, a descriptor, the poison flags. -/
def cellWrites (v : Word) : List (BitVec 12 × (Cell → Cell)) :=
  [(0x120, fun x => { x with q := v.extractLsb' 0 8 ||| 1, psn := x.psn &&& 0x00FFFFFFFFFF#48 }),
   (0x130, fun x => { x with psn := v.extractLsb' 0 48 &&& 0xFEFFFFFFFFFE#48 })] ++
  (List.range 32).map (fun i => (BitVec.ofNat 12 (0x100 + i), fun x => x.setS (BitVec.ofNat 5 i) v false)) ++
  (List.range 8).map (fun i => (BitVec.ofNat 12 (0x128 + i), fun x => x.setD (BitVec.ofNat 3 i) v false))

/-- What a write of `v` makes of a register of the context; logsize holds powers of two from 16 to 2^24 alone. -/
def ctxWrites (v : Word) : List (BitVec 12 × (Ctx → Ctx)) :=
  [(0x200, fun x => { x with strict := v.getLsbD 0 }), (0x201, fun x => { x with brk := v.getLsbD 0 }),
   (0x202, fun x => { x with trace := v.extractLsb' 0 2 }), (0x203, fun x => { x with logbase := v &&& 0xFFFFFFFFFFFFFFC0#64 }),
   (0x204, fun x => if v.toNat ∈ (List.range 21).map (fun i => 2 ^ (i + 4)) then { x with logsize := v.toNat } else x),
   (0x205, fun x => { x with hangpol := v.getLsbD 0 })]

/-- The invocation of the issuing cell is a trap operator's, for the held area `h` with record `t`; the named cell is `x` of area `n`:
of `h` itself, or of the shadow copy in which the fault was (R318). -/
def serves (ar : Area) (s : State) (u : Nat) (h : Area) (t : TrapRec) (n : Nat) (x : Cell) : Prop :=
  ar.kind = .trap u ∧ s.area u = some h ∧ h.trap = some t ∧ (t.copy = 0 → n = u) ∧
  ∃ b, s.area n = some b ∧ b.cells.find t.fcix = some x ∧
    (t.copy ≠ 0 → b.kind = .shadow t.copy.toNat u ∧ ∀ p ∈ s.areas, p.2.kind = .shadow t.copy.toNat u → p.1 = n)

end Sys2Proof.Claims

/-- R301, R306, R332: CAPRD reads a word of the context's capacity record, 0 past word 7; RDCTR reads a counter of the hearth, with f = 1
once the cell has nothing outstanding but prefetches; SUSRD packs the score, the status and the flags of a unit, and status 3 for no unit. -/
def Claims.StatusReads : Prop :=
  ∀ (s : State) (ar : Area) (k : Cell) (c : Cond) (f : BitVec 3) (d a : SReg), s.issues c [d, a] ar k →
    let w := (k.sreg a).toNat
    let gives (i : Instr) (v : Nat) : Prop := exec i s = .next (s.finish k 1 (fun x => x.setS d (BitVec.ofNat 64 v) (k.spsn a)))
    (∀ x, s.ctx ar.ctx = some x → gives (.caprd c d a) (if w ≤ 7 then x.capRec.toNat / 2 ^ (64 * w) % 2 ^ 64 else 0)) ∧
    ((f = 0 ∨ ((∀ o ∈ k.ops, o.kind = .pref) ∧ k.cmds = [])) →
      (∀ n, n = w % 256 → n ≠ 0 → n ≠ 3 → gives (.rdctr c f d a) ((s.hearth k.hid).ctrs.get 0 n)) ∧
      (w % 256 = 3 → gives (.rdctr c f d a)
        ((s.hearth k.hid).ctrs.get 0 3 + (s.part (s.leadOf k.hid)).sweep - (s.hearth k.hid).sweepBase)) ∧
      (w % 256 = 0 → gives (.rdctr c f d a)
        (((s.hearth k.hid).cycles + (s.ref - max (s.hearth k.hid).clockRef s.refReset) * (s.hearth k.hid).clock) / 36))) ∧
    (ar.privileged = true → ∀ u, u = w % 2 ^ 16 →
      (unitOk u = false → gives (.susrd c d a) (3 * 2 ^ 16)) ∧
      (unitOk u = true → gives (.susrd c d a) ((s.unit u).score % 2 ^ 16 +
        2 ^ 16 * (if (s.unit u).health = .retired then 2 else if s.leased u || (s.unit u).hot then 1 else 0) +
        (if (s.unit u).early then 2 ^ 18 else 0) + (if s.nospare u then 2 ^ 19 else 0))))

/-- R318: in a trap operator CSRRD reads every register of the record and of the named cell, in every privileged area those of the
context and the hearth's generator; CSRWR writes the held area's pc, the named cell and the context, and clears the poison of the
register that it writes; a generator written 0 takes its reset value. -/
def Claims.ControlRegisters : Prop :=
  ∀ (s : State) (ar : Area) (k : Cell) (c : Cond) (d a : SReg) (x : Ctx), ar.privileged = true → s.ctx ar.ctx = some x →
    (s.issues c [d] ar k →
      (∀ p ∈ Claims.ctxRegs s x k, exec (.csrrd c d p.1) s = .next (s.finish k 2 (fun y => y.setS d (BitVec.ofNat 64 p.2) false))) ∧
      (∀ u h t n z, Claims.serves ar s u h t n z → ∀ p ∈ Claims.trapRegs h t z,
        exec (.csrrd c d p.1) s = .next (s.finish k 2 (fun y => y.setS d (BitVec.ofNat 64 p.2) false)))) ∧
    (s.issues c [a] ar k → k.spsn a = false →
      let v := k.sreg a
      (∀ p ∈ Claims.ctxWrites v, exec (.csrwr c a p.1) s = .next ((s.modCtx ar.ctx p.2).finish k 2 id)) ∧
      exec (.csrwr c a 0x206) s = .next ((s.modHearth k.hid (fun h => { h with
        seed := if v = 0 then 0x9E3779B97F4A7C15#64 else v })).finish k 2 id) ∧
      (∀ u h t n z, Claims.serves ar s u h t n z →
        (∀ p ∈ Claims.cellWrites v, exec (.csrwr c a p.1) s = .next ((s.modCell n t.fcix p.2).finish k 2 id)) ∧
        exec (.csrwr c a 0x002) s = .next ((s.modArea u (fun h => { h with
          trap := some { t with fpc := v &&& 0x3FFC#64 } })).finish k 2 id)))

/-- The status reads and the control registers. -/
def Obligations.StatusAndControl : Prop := Claims.StatusReads ∧ Claims.ControlRegisters

/-- R139, R333, R334, R343, R348: MARK appends an entry of kind 3 to the journal with the value and, in the bit above it, its poison, whose
place there is the model's choice (log 14); HOSTSIG writes the next entry of the context's ring and its count, where the host takes both
writes, which is a free value (log 88, the model's choice), and sends the interrupt; TLBINV leaves no translation of the range in any TLB of
the hearths; OPLD asks for an operator that is neither resident nor loading, once for a ROM form that several contexts ask for. -/
def Obligations.SystemEffects : Prop :=
  ∀ (s : State) (ar : Area) (k : Cell) (c : Cond) (a b : SReg) (x : Ctx), s.ctx ar.ctx = some x →
    let w := (k.sreg a).toNat
    (ar.privileged = true → s.issues c [a] ar k → ∃ t : State, ∃ e : BitVec 512, exec (.mark c a) s = .next (t.finish k 1 id) ∧
      ({ t with journal := s.journal, jseq := s.jseq } : State) = s ∧ t.jseq = s.jseq + 1 ∧
      t.journal.find (t.jseq % 65536) = some e ∧ (∀ i, i ≠ t.jseq % 65536 → t.journal.find i = s.journal.find i) ∧
      e.toNat % 2 ^ 32 = t.jseq % 2 ^ 32 ∧ e.toNat / 2 ^ 32 % 16 = 3 ∧ e.toNat / 2 ^ 52 % 64 = ar.ctx % 64 ∧
      e.toNat / 2 ^ 384 = w + (if k.spsn a then 2 ^ 64 else 0)) ∧
    (k.posted = false →
      (s.issues c [a, b] ar k → ar.isVoted = false → x.ring = 0 → exec (.hostsig c a b) s = .next (s.finish k 1 id)) ∧
      (s.issues c [a, b] ar k → ar.isVoted = false → x.ring ≠ 0 →
        let slot := x.ring + 64 + 16 * (x.sigs % 2 ^ x.ringLog)
        let written := Config.hostFault s.free = 0 ∧ Config.hostFault (s.free + 1) = 0
        ∃ t : State, exec (.hostsig c a b) s = .next (t.finish k 1 id) ∧ t.irqs = BitVec.ofNat 6 w :: s.irqs ∧
          t.ctx ar.ctx = some { x with sigs := (x.sigs + 1) % 2 ^ 64 } ∧ t.areas = s.areas ∧ t.row = s.row ∧
          (written → ofLe (readTab t.hostMem x.ring 8) = (x.sigs + 1) % 2 ^ 64 ∧
            ofLe (readTab t.hostMem slot 16) = s.ctxSweep ar.ctx % 2 ^ 36 + (if k.spsn b then 2 ^ 51 else 0) + w % 64 * 2 ^ 52 +
              ar.ctx % 64 * 2 ^ 58 + (k.sreg b).toNat * 2 ^ 64 ∧
            (∀ p, (p < x.ring ∨ x.ring + 8 ≤ p) → (p < slot ∨ slot + 16 ≤ p) → t.hostMem.get 0 p = s.hostMem.get 0 p) ∧
            t.mem = s.mem)) ∧
      (ar.privileged = true → s.issues c [a, b] ar k → k.spsn a = false → k.spsn b = false →
        let n := (k.sreg b).toNat % 2 ^ 16
        let lo := if n = 0 then 0 else w % 2 ^ 55 / 65536 * 65536
        let hi := if n = 0 then 2 ^ 55 else lo + n * 65536
        ∃ t : State, exec (.tlbinv c a b) s = .next (t.finish k 1 id) ∧
          ({ t with hearths := s.hearths, dtlb := s.dtlb } : State) = s ∧
          ∀ h, ∀ e ∈ (t.hearth h).tlb, e.ctx = ar.ctx →
            let size := if e.big then 2 ^ 29 else 2 ^ 16
            e.vpage * size + size ≤ lo ∨ hi ≤ e.vpage * size)) ∧
    (s.issues c [a] ar k →
      let op := w % 2 ^ 12
      let loading := ∃ l, (s.hearth k.hid).load = some l ∧ l.ctx = opCtx ar.ctx op ∧ l.op = op
      (k.spsn a = true ∨ s.isResident k.hid ar.ctx op = true ∨ loading ∨ s.readEntry ar.ctx op = none →
        exec (.opld c a) s = .next (s.finish k 1 id)) ∧
      (k.spsn a = false → s.isResident k.hid ar.ctx op = false → ¬loading → s.readEntry ar.ctx op ≠ none →
        exec (.opld c a) s = .next ((s.modHearth k.hid (fun h => { h with
          oplds := h.oplds.filter (fun o => !(opCtx o.ctx o.op = opCtx ar.ctx op && o.op = op)) ++
            [⟨ar.ctx, op, (s.part (s.leadOf k.hid)).sweep⟩] })).finish k 1 id)))

/-- R320, R321: the returns from a trap end the invocation, its accesses performed and met by the held area. RESUME lets the held area go on
at the saved pc and SKIP behind the faulting instruction, in the named cell alone; DISCARD ends it unchanged; KILL freezes its context with
the trap's fault. A held voted area starts on fresh copies, and a skip ends it (R310); that a resume does so too where the hold was at a
COMMIT is the model's choice (log 32). They wait for posted operations. A save or restore operator may only kill, which freezes its context,
with area 0 in the dump, the model's choice (log 64); elsewhere they raise OPERATOR_INVALID. -/
def Obligations.TrapReturns : Prop :=
  ∀ (s : State) (ar : Area) (k : Cell) (c : Cond), ar.privileged = true → s.issues c [] ar k →
    (∀ u h t n x, Claims.serves ar s u h t n x → k.posted = false →
      let s0 : State := ((s.count k.hid 1 1).finishOps s.cur.1).eraseAreas [s.cur.1]
      let s1 := s0.meetArea h (s0.now k.hid)
      let goes (pc : Word) : State := (s1.modArea u (fun a => { a with phase := .active, trap := none })).modCell u t.fcix
        (fun y => { y with pc := pc, wait := none })
      (t.noinstr = false → t.brk = false → h.isVoted = false → t.fault ≠ 0x05 →
        exec (.tretResume c) s = .next (goes t.fpc) ∧
        exec (.tretSkip c) s = .next (goes (x.pc + 4 * (if t.fword0.toNat % 4 = 1 then 2 else if t.fword0.toNat % 4 = 2 then 3 else 1)))) ∧
      (t.noinstr = false → t.brk = false → h.isVoted = true →
        exec (.tretResume c) s = .next (s1.freshCopies u 0) ∧ exec (.tretSkip c) s = .next (s1.discardArea u)) ∧
      (t.brk = true → t.noinstr = false →
        exec (.tretResume c) s = .next (s1.endBreak u t.fcix) ∧ exec (.tretSkip c) s = .next (s1.endBreak u t.fcix)) ∧
      (t.brk = false → t.noinstr = true ∨ t.fault = 0x05 → exec (.tretSkip c) s = .next (s1.discardArea u)) ∧
      exec (.tretDiscard c) s = .next (s1.discardArea u) ∧
      exec (.tretKill c) s = .next ((((s1.logOverrun u).logEnd h 2).unclaim u).fatal h.ctx t.fault (h.ctx * 2 ^ 58 + h.pos) t.faddr t.fpc)) ∧
    ((∃ u, ar.kind = .trap u) → k.posted = true →
      ∀ i ∈ [(.tretResume c : Instr), .tretSkip c, .tretDiscard c, .tretKill c], exec i s = .next (s.waitOn .port 0 0)) ∧
    ((∀ u, ar.kind ≠ .trap u) →
      (∀ i ∈ [(.tretResume c : Instr), .tretSkip c, .tretDiscard c], exec i s = .next (s.raise 0x42 0)) ∧
      (ar.kind = .save ∨ ar.kind = .restore →
        (k.posted = false → exec (.tretKill c) s = .next ((s.count k.hid 1 1).fatal ar.ctx 0 0 0 0)) ∧
        (k.posted = true → exec (.tretKill c) s = .next (s.waitOn .port 0 0))) ∧
      (ar.kind ≠ .save → ar.kind ≠ .restore → exec (.tretKill c) s = .next (s.raise 0x42 0)))

namespace Sys2Proof.Claims

/-- The bytes `n` from s[a] on as a range that the save and restore instructions reach. -/
def span (s : State) (ar : Area) (k : Cell) (a : SReg) (n : Nat) : List Piece :=
  piecesOf (translations s ar k (pagesOf (k.sreg a) n)) ar.ctx (n / 65536 + 2) ((k.sreg a).toNat % 2 ^ 55) n

/-- The suspended areas of programs that have cells in the hearth of a save operator and are not yet stored. -/
def unstored (s : State) (ar : Area) (k : Cell) : List (Nat × Area) :=
  (s.userAreas ar.ctx).filter (fun p => p.2.phase = .suspended && p.2.hids.contains k.hid && !ar.taken.contains (p.1 * 1024 + k.hid))

/-- A live slot of the context whose payload leaves the cell's hearth or comes to it. -/
def carried (ar : Area) (k : Cell) (p : Nat × Slot) : Prop :=
  p.1 / 2 ^ 20 = ar.ctx ∧ p.2.dying = false ∧ ∃ m, p.2.moving = some m ∧ (p.2.hid = k.hid ∨ m.hid = k.hid)

end Sys2Proof.Claims

/-- R323, R325: in a save operator SAVEC stores the image of its hearth, once no slot leaves it or is on its way to it, at a multiple of 64;
AREARD stores the record of the hearth's cells of the next suspended area and answers its size with 1 above it; only its header, with 2,
when a cell has inserted more than 56 symbols; and 0 when none is left. Both come behind the cell's performed accesses. In any other area
both raise OPERATOR_INVALID. The open bytes of an image and the checks of its range are the model's choice (log 59). -/
def Claims.SaveInstructions : Prop :=
  ∀ (s : State) (ar : Area) (k : Cell) (c : Cond) (d a : SReg), ar.privileged = true →
    (ar.kind ≠ .save → (s.issues c [a] ar k → exec (.savec c a) s = .next (s.raise 0x42 0)) ∧
      (s.issues c [d, a] ar k → exec (.areard c d a) s = .next (s.raise 0x42 0))) ∧
    (ar.kind = .save → k.spsn a = false → Claims.behind k →
      (s.issues c [a] ar k → (∃ p ∈ s.slots, Claims.carried ar k p) →
        ∃ p ∈ s.slots, Claims.carried ar k p ∧ exec (.savec c a) s = .next (s.waitOn .tile 0 (BitVec.ofNat 64 (p.1 % 2 ^ 20)))) ∧
      (∀ n, n = s.saveLen ar.ctx k.hid → s.issues c [a] ar k → (∀ p ∈ s.slots, ¬Claims.carried ar k p) →
        ((k.sreg a).toNat % 64 ≠ 0 → exec (.savec c a) s = .next (s.raise 0x12 (k.sreg a))) ∧
        ((k.sreg a).toNat % 64 = 0 → Claims.paged s ar k .write (Claims.pagesOf (k.sreg a) n) →
          let ps := Claims.span s ar k a n
          let t : State := { s.writePieces ps (s.saveImage ar.ctx k.hid) with free := s.free + 512 }
          exec (.savec c a) s = .next ((t.wrotePieces k.hid ps).finish k 1 id))) ∧
      (s.issues c [d, a] ar k →
        (Claims.unstored s ar k = [] → exec (.areard c d a) s = .next (s.finish k 1 (fun x => x.setS d 0 false))) ∧
        (∀ u b, (u, b) ∈ Claims.unstored s ar k → (∀ p ∈ Claims.unstored s ar k, p ≠ (u, b) → b.pos < p.2.pos) →
          let mine := b.cells.filter (fun p => p.2.hid = k.hid)
          let header := b.header mine.length ((mine.head?.map (·.1)).getD 0)
          let stores (n : Nat) (bs : List Byte) (v : Nat) : Prop :=
            Claims.paged s ar k .write (Claims.pagesOf (k.sreg a) n) →
              let ps := Claims.span s ar k a n
              exec (.areard c d a) s = .next ((((s.writePieces ps bs).wrotePieces k.hid ps).modArea s.cur.1
                (fun x => { x with taken := x.taken ++ [u * 1024 + k.hid] })).finish k 1 (fun x => x.setS d (BitVec.ofNat 64 (n + v)) false))
          ((∀ p ∈ b.cells, p.2.rw.n ≤ 56) → stores (64 + 1024 * mine.length) (header ++ mine.flatMap (fun p => p.2.record)) (2 ^ 62)) ∧
          ((∃ p ∈ b.cells, 56 < p.2.rw.n) → stores 64 header (2 ^ 63)))))

/-- R326, R10: in a restore operator RESTC checks its image, a symbol that no cell may hold among it, remakes the hearth's slots and barrier
words, and waits until its symbols stand in the row; AREAWR claims the application at the position of s[b] for the record at s[a] and gives
its cells in the hearth the recorded registers, after an earlier record of the same area those that are left. A record or image that does
not fit raises OPERATOR_INVALID. What the manifest and the record leave open, which of their fields are checked, and where, are the model's
choices (logs 59, 60, 61 and 94). -/
def Claims.RestoreInstructions : Prop :=
  ∀ (s : State) (ar : Area) (k : Cell) (c : Cond) (a b : SReg), ar.kind = .restore → k.spsn a = false → Claims.behind k →
    Claims.paged s ar k .read (Claims.pagesOf (k.sreg a) 64) →
    let bad (z : State) : Host.Outcome State Fault Refusal := .next (z.raise 0x42 (k.sreg a))
    let head := ofLe (s.readPieces (Claims.span s ar k a 64))
    (s.issues c [a] ar k →
      (∀ w, k.wait = some w → w.kind = .restore → w.granted ≠ none → exec (.restc c a) s = .next (s.finish k 1 id)) ∧
      (k.wait = none →
        let nsym := head / 2 ^ 96 % 2 ^ 32
        let nslot := head / 2 ^ 128 % 2 ^ 32
        let nbar := head / 2 ^ 160 % 2 ^ 32
        let n := 4160 + 8 * (nslot + nbar)
        let ok := head % 2 ^ 16 = 1 ∧ head / 2 ^ 16 % 64 = ar.ctx ∧ head / 2 ^ 64 % 2 ^ 32 = n ∧ nsym ≤ 256
        (¬ok → exec (.restc c a) s = bad s) ∧
        (ok → Claims.paged s ar k .read (Claims.pagesOf (k.sreg a) n) →
          let bs := s.readPieces (Claims.span s ar k a n)
          let s1 := s.meetPieces k.hid (Claims.span s ar k a n)
          let word (i n : Nat) : Nat := ofLe ((bs.drop i).take n)
          let syms : List Restore := (List.range nsym).map (fun i =>
            let e := word (64 + 16 * i) 16
            ⟨ar.ctx, e / 2 ^ 72 % 2 ^ 40, symOfCode (e % 2 ^ 72), k.hid, s.cur.1, s.cur.2⟩)
          let slots := s1.remakeSlots ar.ctx k.hid ((List.range nslot).map (fun i => word (4160 + 8 * i) 8))
          ((∃ r ∈ syms, r.sym.storable = false) → exec (.restc c a) s = bad s1) ∧
          ((∀ r ∈ syms, r.sym.storable = true) →
            (slots = none → exec (.restc c a) s = bad s1) ∧
            (∀ t, slots = some t →
              let t1 := (List.range nbar).foldl (fun t i => t.retag ar.ctx (word (4160 + 8 * (nslot + i)) 8)) t
              (nsym = 0 → exec (.restc c a) s = .next (t1.finish k 1 id)) ∧
              (nsym ≠ 0 → exec (.restc c a) s = .next ((t1.modPart (t1.leadOf k.hid) (fun p => { p with
                restores := p.restores ++ syms })).waitOn .restore 0 0))))))) ∧
    (s.issues c [a, b] ar k → k.spsn b = false →
      let pos := (k.sreg b).toNat % 2 ^ 40
      let old := (s.userAreas ar.ctx).find? (fun p => p.2.pos = pos)
      (appAt pos (s.items ar.ctx) = none → exec (.areawr c a b) s = bad s) ∧
      (∀ app, appAt pos (s.items ar.ctx) = some app →
        let cells := (List.range app.length).zip (app.map (fun p => Cell.start p.1))
        let mine := cells.filter (fun p => p.2.hid = k.hid)
        let m := head / 2 ^ 37 % 2 ^ 9
        let first := head / 2 ^ 46 % 2 ^ 18
        let op := head / 2 ^ 2 % 2 ^ 12
        head / 2 ^ 186 % 64 = ar.ctx → (k.sreg b).toNat / 2 ^ 58 = ar.ctx → app.length = head / 2 ^ 18 % 2 ^ 19 →
        (∃ x y r, app = x :: y :: r ∧ y.2.value.toNat % 2 ^ 12 = op) → mine.length = m → mine.head?.map (·.1) = some first →
        Claims.paged s ar k .read (Claims.pagesOf (k.sreg a) (64 + 1024 * m)) →
          let ps := Claims.span s ar k a (64 + 1024 * m)
          let bs := s.readPieces ps
          let s1 := s.meetPieces k.hid ps
          let set (l : Tab Cell) : Tab Cell := l.map (fun p => if p.2.hid = k.hid then
            (p.1, cellOfRecord p.2.phys (ofLe ((bs.drop (64 + 1024 * (p.1 - first))).take 1024))) else p)
          (old = none → ∃ n : Area, exec (.areawr c a b) s =
              .next (({ s1 with nextUid := s.nextUid + 1, areas := s.areas.set s.nextUid n } : State).finish k 1 id) ∧
            n.ctx = ar.ctx ∧ n.kind = .user ∧ n.pos = pos ∧ n.stamp = head / 2 ^ 192 % 2 ^ 64 ∧ n.op = op ∧ n.phase = .suspended ∧
            n.taken = mine.map (·.1) ∧ n.cells = set cells) ∧
          (∀ u x, old = some (u, x) →
            ((∃ p ∈ mine, p.1 ∈ x.taken) → exec (.areawr c a b) s = bad s) ∧
            ((∀ p ∈ mine, p.1 ∉ x.taken) → exec (.areawr c a b) s = .next (({ s1 with
              nextUid := s.nextUid + 1
              areas := s.areas.set u { x with cells := set x.cells, taken := x.taken ++ mine.map (·.1) } } : State).finish k 1 id)))))

/-- The instructions of the save and restore operators. The alignment that SAVEC, RESTC, AREARD and AREAWR ask, what a restore leaves open,
a cell restored at a collective, and a stop code of 3 are the model's choices (logs 59, 60, 61 and 94). -/
def Obligations.SaveAndRestoreInstructions : Prop := Claims.SaveInstructions ∧ Claims.RestoreInstructions

/-! ## Host commands and the host link -/

namespace Sys2Proof.Claims

/-- Word `i` of a command's entry. -/
def word (e : BitVec 512) (i : Nat) : Nat := e.toNat / 2 ^ (64 * i) % 2 ^ 64

/-- The device takes the entry `e` at the head of queue `q` now, or took it before and it waited for another command; `t` is the state
with it taken (R340, R341). -/
def takes (s : State) (q : BitVec 6) (e : BitVec 512) (t : State) : Prop :=
  s.powered = true ∧ s.stage = 7 ∧
  (((s.hostq q.toNat).busy = none ∧ s.mayTake q.toNat = true ∧ s.entryAt q.toNat = e ∧ t = s.takeEntry q.toNat) ∨
   ((s.hostq q.toNat).busy = some e ∧ (s.hostq q.toNat).runs = false ∧ t = s))

/-- The entry `e` with opcode `op` is taken and runs in `t`: no command taken before it that names its context is left; its queue's
partition exists. -/
def ready (s : State) (q : BitVec 6) (e : BitVec 512) (op : Nat) (t : State) : Prop :=
  takes s q e t ∧ t.ctxBusy q.toNat e = false ∧ e.toNat % 2 ^ 8 = op ∧ t.parts.find (t.hostq q.toNat).die ≠ none

/-- The entry is ready and its reserved fields are zero: the bits outside the masks of operand words 1 to 6, two fields of word 0, and
the low bits of the address of its completion record. -/
def taken (s : State) (q : BitVec 6) (e : BitVec 512) (op : Nat) (masks : List Nat) (t : State) : Prop :=
  ready s q e op t ∧ operandsOk masks e = true ∧ word e 7 % 32 = 0

/-- The command ends with a status and a result in state `t`. -/
def ends (s : State) (q : BitVec 6) (e : BitVec 512) (i : Instr) (st r : Nat) (t : State) : Prop :=
  exec i s = .next (t.doneEntry q.toNat e st r)

/-- The context id of an entry. -/
def ctxOf (e : BitVec 512) : Nat := e.toNat / 2 ^ 16 % 64

/-- A word of 64 ones and the mask of a host address. -/
def full : Nat := 2 ^ 64 - 1
def hostMask : Nat := 2 ^ 47 - 1

/-- The commands with their opcodes and the masks of their operand words (Table 21.6). -/
def commands (q : BitVec 6) : List (Instr × Nat × List Nat) :=
  [(.createContext q, 0x01, [full, full, 0xFFFF0103, hostMask, 0x1F, 0]), (.destroyContext q, 0x02, []), (.loadOperators q, 0x03, []),
   (.loadExpr q, 0x04, [full, 0x81FF03FF, 0, 0, 0, 0]), (.start q, 0x05, []), (.preempt q, 0x06, []), (.resume q, 0x07, []),
   (.readExpr q, 0x08, [hostMask, full, 0, 0, 0, 0]),
   (.map q, 0x09, [full, 2 ^ 48 - 1, 0x1FFFFFF, 0x00FF00000000FFFC, hostMask, 0]), (.unmap q, 0x0A, [full, 0, 0x1FFFFFF, 0, 0, 0]),
   (.forceLease q, 0x0B, [0xFFFF, 0x1FF, 0xFFF, 0, 0, 0]), (.injectFault q, 0x0C, [0xFFFF, 0xFFFF0003, 0, 0, 0, 0]),
   (.queryCapacity q, 0x0E, [hostMask, full, 3, 0, 0, 0]), (.readRetirements q, 0x0F, [hostMask, full, 0, 0, 0, 0]),
   (.attest q, 0x10, [hostMask, hostMask, 0, 0, 0, 0]), (.readJournal q, 0x11, [0xFFFFFFFF, full, hostMask, 0, 0, 0])]

end Sys2Proof.Claims

/-- R340–R342: a command whose reserved bits are not zero, and one with an unassigned opcode, is taken and ends with INVALID (1); one
that names no context ends with NOCTX (3); one on a context that an earlier command still names is taken and waits; what is not the
entry to be taken next, nor a taken one that waited, does nothing. -/
def Obligations.CommandChecks : Prop :=
  ∀ (s t : State) (q : BitVec 6) (e : BitVec 512),
    (∀ p ∈ Claims.commands q,
      (s.powered = false ∨ s.stage ≠ 7 ∨
        ((s.hostq q.toNat).busy = none ∧ (s.mayTake q.toNat = false ∨ (s.entryAt q.toNat).toNat % 2 ^ 8 ≠ p.2.1)) ∨
        (∃ f, (s.hostq q.toNat).busy = some f ∧ ((s.hostq q.toNat).runs = true ∨ f.toNat % 2 ^ 8 ≠ p.2.1)) → exec p.1 s = .next s) ∧
      (Claims.takes s q e t → e.toNat % 2 ^ 8 = p.2.1 → t.ctxBusy q.toNat e = true → exec p.1 s = .next t) ∧
      (Claims.ready s q e p.2.1 t → operandsOk p.2.2 e = false ∨ Claims.word e 7 % 32 ≠ 0 → Claims.ends s q e p.1 1 0 t) ∧
      (Claims.taken s q e p.2.1 p.2.2 t → 0x02 ≤ p.2.1 → p.2.1 ≤ 0x0A → t.ctx (Claims.ctxOf e) = none →
        Claims.ends s q e p.1 3 0 t)) ∧
    (Claims.ready s q e (e.toNat % 2 ^ 8) t → e.toNat % 2 ^ 8 = 0 ∨ 0x11 < e.toNat % 2 ^ 8 →
      Claims.ends s q e (.unassignedCommandOpcode q) 1 0 t)

/-- R22, R24, R137, R322, R335: the commands on a context. CREATE_CONTEXT makes one that is never started, and STATE (4) when it
exists; DESTROY_CONTEXT removes it; LOAD_OPERATORS leaves no copy of its operators to be found; LOAD_EXPR places an image behind a MARK;
START latches the launch block and lets it run; PREEMPT and RESUME stay taken until they end; READ_EXPR writes the image of the
expression into host memory. Where an image goes whose MARK the context has already, and what START makes of a context that was
pre-empted, are the model's choices (logs 76 and 24). -/
def Obligations.ContextCommands : Prop :=
  ∀ (s t : State) (q : BitVec 6) (e : BitVec 512),
    let c := Claims.ctxOf e
    let w := Claims.word e
    (Claims.taken s q e 0x01 [Claims.full, Claims.full, 0xFFFF0103, Claims.hostMask, 0x1F, 0] t →
      t.leads (w 3 % 4) = true → w 2 % 65536 = 0 → (t.partRange (w 3 % 4)).1 ≤ w 2 → w 2 + 65536 ≤ (t.partRange (w 3 % 4)).2 →
      w 4 = 0 ∨ (w 4 % 64 = 0 ∧ 4 ≤ w 5 % 32 ∧ w 5 % 32 ≤ 20) →
        (t.ctx c ≠ none → Claims.ends s q e (.createContext q) 4 0 t) ∧
        (t.ctx c = none → ∃ x : Ctx, Claims.ends s q e (.createContext q) 0 0 { t with ctxs := t.ctxs.set c x } ∧
          x.part = w 3 % 4 ∧ x.root = w 2 ∧ x.lb = BitVec.ofNat 64 (w 1) ∧ x.privOk = (w 3).testBit 8 ∧
          x.job = w 3 / 2 ^ 16 % 2 ^ 16 ∧ x.ring = w 4 ∧ x.ringLog = w 5 % 32 ∧ x.status = .created ∧ x.launch = none ∧ x.sigs = 0)) ∧
    (∀ x, t.ctx c = some x →
      (Claims.taken s q e 0x02 [] t → ∃ t1 : State, Claims.ends s q e (.destroyContext q) 0 0 t1 ∧ t1.ctx c = none) ∧
      (Claims.taken s q e 0x03 [] t → Claims.ends s q e (.loadOperators q) 0 0 (t.invalidate c) ∧
        ∀ h, ∀ r ∈ ((t.invalidate c).hearth h).residents, r.ctx = some c → r.stale ≠ none) ∧
      (∀ (n : Nat) (hb bs : List Byte) (m : Nat) (ps : List Nat) (t1 : State),
        Claims.taken s q e 0x04 [Claims.full, 0x81FF03FF, 0, 0, 0, 0] t →
        x.status ≠ .frozen → x.status ≠ .dead → t.run c = [] → t.segsOf c = [] → x.holes = [] → w 2 / 2 ^ 31 % 2 = 0 →
        t.virtBytes c (BitVec.ofNat 64 (w 1)) 64 = some hb →
        ofLe hb = 1 + 2 ^ 64 * (64 + 16 * n) + 2 ^ 96 * n → 64 + 16 * n < 2 ^ 32 →
        t.virtBytes c (BitVec.ofNat 64 (w 1)) (64 + 16 * n) = some bs →
        let entry (i : Nat) : Nat := ofLe ((bs.drop (64 + 16 * i)).take 16)
        let ys := (List.range n).map (fun i => ({ symOfCode (entry i) with transit := false } : Sym))
        let t0 := t.touchRead c (BitVec.ofNat 64 (w 1)) (64 + 16 * n)
        let clear := ((t0.rowOf x.part).filter (fun p => p.2.kind = 11 && p.2.value.toNat = c)).foldl (fun t p => t.setSym p.1 Sym.empty) t0
        (∀ i, i < n → entry i / 2 ^ 64 % 4 = 0) → wfExpr ys = true → clear.exprDefault c x.part n = some (m :: ps) →
        (clear.setSym m ⟨11, false, false, BitVec.ofNat 64 c⟩).loadSyms c (BitVec.ofNat 64 (w 1)) 0 (ps.zip ys) = .ok t1 →
          Claims.ends s q e (.loadExpr q) 0 0 (t1.writeDepths 0 (t1.items c))) ∧
      (∀ bs : List Byte, Claims.taken s q e 0x05 [] t → (x.status = .created ∨ x.status = .preempted) → x.lb.toNat % 64 = 0 → t.virtBytes c x.lb 384 = some bs →
        let l := launchOf (ofLe bs)
        let t0 := t.touchRead c x.lb 384
        let t1 := t0.modCtx c (fun x => { x with launch := some l })
        launchOk (ofLe bs) = true → t0.launchMapped c x.lb l = true →
        (∀ op ∈ [l.trapop, l.saveop, l.restop] ++ (if l.notify then [l.notifop] else []), t1.plainOp c op = true) →
        (∀ h ∈ t0.partHearths x.part, l.carve ≤ ((t0.unreserve c).freeUnits h).length) →
          ∃ t2 y, Claims.ends s q e (.start q) 0 0 t2 ∧ t2.ctx c = some y ∧ y.status = .running ∧ y.launch = some l ∧
            y.base = (t0.part x.part).sweep ∧ y.idle = 0 ∧ y.capCount = 0 ∧ y.inuse = 0) ∧
      (Claims.taken s q e 0x06 [] t →
        (x.status ≠ .running → Claims.ends s q e (.preempt q) 4 0 t) ∧
        (x.status = .running → exec (.preempt q) s = .next ((t.modCtx c (fun y => { y with
          status := .preempting, since := (t.part x.part).sweep, waiter := some q.toNat })).modHostq q.toNat (fun y => { y with runs := true })))) ∧
      (Claims.taken s q e 0x07 [] t →
        (x.status ≠ .preempted → Claims.ends s q e (.resume q) 4 0 t) ∧
        (x.status = .preempted → exec (.resume q) s = .next (((t.modCtx c (fun y => { y with
          status := .restoring, waiter := some q.toNat })).requestOperator c .restore ((x.launch.map (·.restop)).getD 0)).modHostq q.toNat
            (fun y => { y with runs := true })))) ∧
      (∀ l, Claims.taken s q e 0x08 [Claims.hostMask, Claims.full, 0, 0, 0, 0] t → t.wholeExpr c = some l →
        let n := 64 + 16 * l.length
        (w 2 < n → Claims.ends s q e (.readExpr q) 5 n t) ∧
        (n ≤ w 2 → Claims.ends s q e (.readExpr q) 0 n (t.writeHost (w 1) (exprImage l)))))

/-- R203, R204, R344: MAP writes the leaf entries of its pages, device addresses only inside the partition; where the tables of a page
are there, its entry alone changes. UNMAP clears the leaf entries, drops the translations and cancels the subscriptions that read there.
A range that is not canonical, not aligned or in the tile window ends with INVALID, and so do pages outside the partition. The tags of an
encrypted page and of a cleared entry, which page becomes a table, and that an UNMAP of 0 pages has no effect are the model's choices
(logs 23, 25 and 97). -/
def Obligations.MapCommands : Prop :=
  ∀ (s t : State) (q : BitVec 6) (e : BitVec 512) (x : Ctx),
    let c := Claims.ctxOf e
    let w := Claims.word e
    let n := w 3 % 2 ^ 24
    let big := (w 3).testBit 24
    let size := if big then 2 ^ 29 else 2 ^ 16
    let lo := w 1 % 2 ^ 55
    let sound := w 1 % size = 0 ∧ canonical (BitVec.ofNat 64 (w 1)) = true ∧ lo + n * size ≤ 2 ^ 55 ∧
      (n = 0 ∨ lo + n * size ≤ 2 ^ 55 - 2 ^ 36)
    t.ctx c = some x →
    (Claims.taken s q e 0x09 [Claims.full, 2 ^ 48 - 1, 0x1FFFFFF, 0x00FF00000000FFFC, Claims.hostMask, 0] t →
      let inside : Prop :=
        (w 2 < 2 ^ 47 ∧ (t.partRange x.part).1 ≤ w 2 ∧ w 2 + n * size ≤ (t.partRange x.part).2) ∨ (2 ^ 47 ≤ w 2 ∧ w 2 + n * size ≤ 2 ^ 48)
      (¬sound ∨ w 2 % size ≠ 0 ∨ ¬inside → Claims.ends s q e (.map q) 1 0 t) ∧
      (sound → w 2 % size = 0 → inside →
        w 4 / 2 ^ 5 % 4 = 0 → w 4 / 2 ^ 9 % 2 ^ 7 = 0 → ((w 4).testBit 7 = false → w 4 / 2 ^ 48 % 2 ^ 8 = 0) →
          let t1 : State := if (w 4).testBit 7 = true ∧ w 5 ≠ 0 then
            { t with keys := t.keys.put 0 (w 4 / 2 ^ 48 % 2 ^ 8) (BitVec.ofNat 768 (ofLe (readTab t.hostMem (w 5) 96))) } else t
          Claims.ends s q e (.map q) 0 0 ((List.range n).foldl (fun t i =>
            (t.mapPage x (w 2 / 65536) (n * (size / 65536)) (lo + i * size) (w 2 + i * size + w 4 + 3) big).makeTags (w 2 + i * size + w 4 + 3) big) t1) ∧
          ∀ b2 b3, n = 1 → big = false → (w 4).testBit 7 = false →
            t.pteAt (x.root + 8 * (lo / 2 ^ 42 % 2 ^ 13)) % 4 = 1 →
            b2 = t.pteAt (x.root + 8 * (lo / 2 ^ 42 % 2 ^ 13)) / 2 ^ 16 % 2 ^ 32 * 65536 →
            t.pteAt (b2 + 8 * (lo / 2 ^ 29 % 2 ^ 13)) % 4 = 1 →
            b3 = t.pteAt (b2 + 8 * (lo / 2 ^ 29 % 2 ^ 13)) / 2 ^ 16 % 2 ^ 32 * 65536 →
              Claims.ends s q e (.map q) 0 0 (t.putPte (b3 + 8 * (lo / 2 ^ 16 % 2 ^ 13)) (w 2 + w 4 + 3)))) ∧
    (Claims.taken s q e 0x0A [Claims.full, 0, 0x1FFFFFF, 0, 0, 0] t →
      (¬sound → Claims.ends s q e (.unmap q) 1 0 t) ∧
      (sound → n = 0 → Claims.ends s q e (.unmap q) 0 0 t) ∧
      (sound → n ≠ 0 → Claims.ends s q e (.unmap q) 0 0
        ((((List.range n).foldl (fun t i => t.unmapPage x (lo + i * size) big) t).dropTrans c lo (lo + n * size)).cancelSubs c lo
          (lo + n * size))))

/-- R25, R297, R303, R313, R343, R345, R347: the commands on the device. FORCE_LEASE starts the lease of a unit or sets a trigger;
INJECT_FAULT forces test failures or errors; PARTITION cuts the device anew when no live context and no busy queue stands in the way, and
where leases of the involved partitions run it quiesces them and completes when the last has ended; QUERY_CAPACITY, READ_RETIREMENTS, ATTEST
and READ_JOURNAL write their reports into host memory. What INJECT_FAULT adds, what a recut resets and when it is made, and which entry a
first sequence number means are the model's choices (logs 75, 26 and 68). -/
def Obligations.DeviceCommands : Prop :=
  ∀ (s t : State) (q : BitVec 6) (e : BitVec 512),
    let w := Claims.word e
    (Claims.taken s q e 0x0B [0xFFFF, 0x1FF, 0xFFF, 0, 0, 0] t →
      (unitOk (w 1) = false ∨ (t.unit (w 1)).health = .retired ∨ t.nospare (w 1) = true → Claims.ends s q e (.forceLease q) 1 0 t) ∧
      (unitOk (w 1) = true → (t.unit (w 1)).health ≠ .retired → t.nospare (w 1) = false →
        ((w 2).testBit 8 = false → Claims.ends s q e (.forceLease q) 0 0
          ((t.modUnit (w 1) (fun y => { y with forced := y.forced ++ [w 2 % 2 ^ 8] })).takeTurn (w 1))) ∧
        ((w 2).testBit 8 = true → t.ctx (Claims.ctxOf e) ≠ none → Claims.ends s q e (.forceLease q) 0 0
          { t with triggers := t.triggers ++ [(Claims.ctxOf e, w 3, w 1, w 2 % 2 ^ 8)] }))) ∧
    (Claims.taken s q e 0x0C [0xFFFF, 0xFFFF0003, 0, 0, 0, 0] t →
      let n := w 2 / 2 ^ 16 % 2 ^ 16
      let errors (k : Nat) : State := t.modUnit (w 1) (fun y => { y with
        score := min (y.score + k) 65535, early := y.early || (y.health = .inService && decide (512 ≤ min (y.score + k) 65535)) })
      (unitOk (w 1) = false ∨ w 2 % 4 = 3 → Claims.ends s q e (.injectFault q) 1 0 t) ∧
      (unitOk (w 1) = true →
        (w 2 % 4 = 0 → Claims.ends s q e (.injectFault q) 0 0 (t.modUnit (w 1) (fun y => { y with inject := max y.inject n }))) ∧
        (t.ref < (t.halvings + 1) * (24 * 3600 * 3600000000) →
          (w 2 % 4 = 1 → Claims.ends s q e (.injectFault q) 0 0 (errors n)) ∧
          (w 2 % 4 = 2 → Claims.ends s q e (.injectFault q) 0 0 (errors (256 * n)))))) ∧
    (s.cutting = none → Claims.taken s q e 0x0D [3, 0, 0, 0, 0, 0] t →
      (w 1 = 3 → Claims.ends s q e (.partition q) 1 0 t) ∧
      (∀ n, w 1 ≤ 2 → n = 2 ^ w 1 →
        let live := ∃ p ∈ t.ctxs, p.2.status ≠ .dead ∧ p.2.part ∈ t.involved n
        let busy := ∃ p ∈ t.hq, p.1 ≠ q.toNat ∧ t.lead p.2.die ∈ t.involved n ∧ (p.2.head ≠ p.2.tail ∨ p.2.pending = true ∨ p.2.busy ≠ none)
        let leased := ∃ l ∈ t.leases, l.cause ≠ 3 ∧ ∃ d ∈ unitDies l.unit, t.lead d ∈ t.involved n
        (live → Claims.ends s q e (.partition q) 4 0 t) ∧ (¬live → busy → Claims.ends s q e (.partition q) 2 0 t) ∧
        (¬live → ¬busy → leased → exec (.partition q) s = .next ((t.quiesce q.toNat n).modHostq q.toNat (fun y => { y with runs := true })) ∧
          (t.quiesce q.toNat n).cutting = some (q.toNat, n)) ∧
        (¬live → ¬busy → ¬leased → Claims.ends s q e (.partition q) 0 0 (t.recut n)))) ∧
    (∀ k n, s.cutting = some (k, n) → s.powered = true → s.stage = 7 →
      (k ≠ q.toNat ∨ s.cutLeases n = true → exec (.partition q) s = .next s) ∧
      (k = q.toNat → s.cutLeases n = false → (s.hostq k).busy = some e →
        exec (.partition q) s = .next ((s.recut n).doneEntry k e 0 0).startDue)) ∧
    (∀ (i : Instr) (bs : List Byte) (r : Nat),
      (Claims.taken s q e 0x0E [Claims.hostMask, Claims.full, 3, 0, 0, 0] t ∧ i = .queryCapacity q ∧ t.leads (w 3) = true ∧
        bs = leBytes 64 (t.capRecord (w 3) 7 0 0 0).toNat ++ t.leaseLog.flatMap (fun r => leBytes 32 r.toNat) ∧ r = bs.length) ∨
      (Claims.taken s q e 0x0F [Claims.hostMask, Claims.full, 0, 0, 0, 0] t ∧ i = .readRetirements q ∧ r = 0 ∧
        bs = leBytes 8 (t.retireStore.length + (if t.retireFull then 2 ^ 63 else 0)) ++ t.retireStore.flatMap signedRecord) →
        (w 2 < bs.length → Claims.ends s q e i 5 0 t) ∧
        (bs.length ≤ w 2 → Claims.ends s q e i 0 r (t.writeHost (w 1) bs))) ∧
    (Claims.taken s q e 0x10 [Claims.hostMask, Claims.hostMask, 0, 0, 0, 0] t →
      let r := t.attestation (ofLe (readTab t.hostMem (w 1) 64))
      Claims.ends s q e (.attest q) 0 0
        (t.writeHost (w 2) (r ++ leBytes 1280 (Config.signature r).toNat ++ leBytes 1793 Config.publicKey.toNat))) ∧
    (Claims.taken s q e 0x11 [0xFFFFFFFF, Claims.full, Claims.hostMask, 0, 0, 0] t →
      let oldest := (t.heldEntries.head?.map (fun p => p.1 % 2 ^ 32)).getD 0
      let copies (l : List (Nat × BitVec 512)) : Prop :=
        Claims.ends s q e (.readJournal q) 0 oldest (t.writeHost (w 3) ((l.take (w 2)).flatMap (fun p => leBytes 64 p.2.toNat)))
      (∀ n, n ≤ t.jseq + 65536 → t.jseq + 65536 < n + 2 ^ 32 → n % 2 ^ 32 = w 1 → copies (t.heldEntries.filter (fun p => decide (n ≤ p.1)))) ∧
      ((∀ n, n ≤ t.jseq + 65536 → n % 2 ^ 32 ≠ w 1) → copies []))

/-- A request of a host agent may be performed: the host is linked, and no earlier request of its agent comes before it: a write or an
atomic before a release, any request that acquires before every later one (R338). -/
def Claims.due (s : State) (r : HostReq) : Prop :=
  s.hostReqs.find? (fun x => x.id = r.id) = some r ∧ s.powered = true ∧ 6 ≤ s.stage ∧
  ∀ e ∈ s.hostReqs, e.agent = r.agent → e.id < r.id → e.ord ≠ .acquire ∧
    (r.ord = .release → (∀ a bs, e.ask ≠ .write a bs) ∧ ∀ op w a x y, e.ask ≠ .atomic op w a x y)

/-- R337, R338, R339, R346: once the windows are placed, a posted write of the host stores its bytes, those beyond the device memory are
lost; a read returns the bytes, all ones beyond it, or those of QBASE and QCFG; an atomic returns the old value and writes the new. A
request that must wait for an earlier one does nothing yet. A peer's write and counter add go through the page tables of its job's
context, and are refused where these do not allow them. What a read finds that the spec does not say, what the host's requests wait for,
and which context a job reaches are the model's choices (logs 67, 21, 73 and 52). -/
def Claims.HostAccesses : Prop :=
  ∀ (s : State) (r : HostReq) (addr n : Nat) (bs : List Byte) (op : HostAtomic) (wide : Bool) (x y : Word),
    let bound := 0x8DC0000000
    let left := s.hostReqs.filter (fun e => e.id ≠ r.id)
    (Claims.due s r →
      (r.ask = .write addr bs → ∃ t, exec (.hostPostedWrite r.id) s = .next t ∧ t.hostReqs = left ∧
        (∀ i, i < bs.length → addr + i < bound → t.mem.get 0 (addr + i) = bs.getD i 0) ∧
        (∀ p, (p < addr ∨ addr + bs.length ≤ p ∨ bound ≤ p) → t.mem.get 0 p = s.mem.get 0 p)) ∧
      (r.ask = .read addr n → ∃ t, exec (.hostRead r.id) s = .next t ∧
        ({ t with hostReply := s.hostReply, hostReqs := s.hostReqs, hostClk := s.hostClk, slices := s.slices } : State) = s ∧ t.hostReqs = left ∧
        t.hostReply.length = n ∧ ∀ i, i < n → t.hostReply.getD i 0 = if addr + i < bound then s.mem.get 0 (addr + i) else 0xFF#8) ∧
      (r.ask = .readReg addr n → ∃ t, exec (.hostRead r.id) s = .next t ∧
        ({ t with hostReply := s.hostReply, hostReqs := s.hostReqs, free := s.free } : State) = s ∧ t.hostReqs = left ∧
        t.hostReply.length = n ∧
        ∀ i q, i < n → q < 64 →
          (64 * q ≤ addr + i → addr + i < 64 * q + 8 →
            (t.hostReply.getD i 0).toNat = (s.hostq q).base.toNat / 2 ^ (8 * (addr + i - 64 * q)) % 2 ^ 8) ∧
          (64 * q + 8 ≤ addr + i → addr + i < 64 * q + 16 →
            (t.hostReply.getD i 0).toNat = (s.hostq q).cfg.toNat / 2 ^ (8 * (addr + i - 64 * q - 8)) % 2 ^ 8)) ∧
      (∀ k, k = (if wide then 8 else 4) → r.ask = .atomic op wide addr x y → addr + k ≤ bound → ∃ t, exec (.hostAtomic r.id) s = .next t ∧
        t.hostReqs = left ∧ t.hostReply = readTab s.mem addr k ∧
        (let old := ofLe (readTab s.mem addr k)
         let new := match op with
          | .add => old + x.toNat
          | .swap => x.toNat
          | .cas => if old = x.toNat % 256 ^ k then y.toNat else old
         ofLe (readTab t.mem addr k) = new % 256 ^ k) ∧
        (∀ p, (p < addr ∨ addr + k ≤ p) → t.mem.get 0 p = s.mem.get 0 p))) ∧
    ((∀ e, s.hostReqs.find? (fun e => e.id = n) = some e → ¬Claims.due s e) →
      ∀ i ∈ [(.hostPostedWrite n : Instr), .hostRead n, .hostAtomic n], exec i s = .next s) ∧
    (∀ job va : Nat, s.stage = 7 →
      let refused : State := { s with fabAcks := (job, false) :: s.fabAcks }
      let A : Word := BitVec.ofNat 64 (va / 8 * 8)
      (s.jobCtx job = none → (bs ≠ [] → exec (.remoteWrite job va bs) s = .next refused) ∧ exec (.remoteCounterAdd job va x) s = .next refused) ∧
      (∀ c, s.jobCtx job = some c →
        (∀ ts, bs ≠ [] → s.jobPages job (rangePages (BitVec.ofNat 64 va) bs.length) [] = .ok ts →
          let ps := piecesOf ts c (bs.length / 65536 + 2) (va % 2 ^ 55) bs.length
          let s1 := ps.foldl (fun s p => s.touchPlain p.1 p.2 true) (ts.foldl (fun s t => s.tagPage t) s)
          let t := (s1.writePieces ps bs).peerWrote job ps
          exec (.remoteWrite job va bs) s = .next { t with fabAcks := (job, true) :: t.fabAcks }) ∧
        (∀ f, bs ≠ [] → s.jobPages job (rangePages (BitVec.ofNat 64 va) bs.length) [] = .error f →
          exec (.remoteWrite job va bs) s = .next refused) ∧
        (inTileWindow A = true ∨ (∃ f, s.translateDev c A .both = .error f) → exec (.remoteCounterAdd job va x) s = .next refused) ∧
        (∀ p pa, inTileWindow A = false → s.translateDev c A .both = .ok p → Loc.phys p (va / 8 * 8 % 2 ^ 55) = .dev pa none → pa < 2 ^ 47 →
          ∃ t, exec (.remoteCounterAdd job va x) s = .next t ∧ t.fabAcks = (job, true) :: s.fabAcks ∧
            ofLe (readTab t.mem pa 8) = min (ofLe (readTab s.mem pa 8) + x.toNat) (2 ^ 64 - 1) ∧
            ∀ i, (i < pa ∨ pa + 8 ≤ i) → t.mem.get 0 i = s.mem.get 0 i)))

/-- R6, R339, R340, R355: a notification of an unmapped queue latches the greatest tail; one of a mapped queue moves its tail on, is
ignored when it does not, and disables the queue when it passes the ring; a queue that awaits a slot is mapped and an idle one gives
its slot up. Queue registers hold while their queue is enabled; the management registers keep to their ranges. Neither a notification nor a
write is performed before an earlier read with acquire of its agent. Which slot a queue takes and what a value out of range does are the
model's choices (logs 22, 68 and 74). -/
def Claims.HostQueues : Prop :=
  ∀ (s : State) (agent : Nat) (q : BitVec 6) (tail v : Word) (x : HostQ), s.hostq q.toNat = x →
    (s.agentHeld agent = true → exec (.qnotify agent q tail) s = .next s) ∧ (s.agentHeld agent = false →
    (s.powered = true → 6 ≤ s.stage → x.mapped = false ∨ s.stage ≠ 7 →
      exec (.qnotify agent q tail) s = .next ((s.modHostq q.toNat (fun y => { y with
        pending := true, ltail := if y.pending then max y.ltail tail.toNat else tail.toNat })).putHeader q.toNat)) ∧
    (s.powered = true → s.stage = 7 → x.mapped = true →
      (tail.toNat ≤ x.head → exec (.qnotify agent q tail) s = .next s) ∧
      (x.head < tail.toNat → tail.toNat ≤ x.head + 2 ^ (x.cfg.toNat % 32) →
        exec (.qnotify agent q tail) s = .next (s.modHostq q.toNat (fun y => { y with tail := tail.toNat }))) ∧
      (x.head + 2 ^ (x.cfg.toNat % 32) < tail.toNat → ∃ t, exec (.qnotify agent q tail) s = .next t ∧
        (t.hostq q.toNat).enabled = false ∧ ({ t.hostq q.toNat with cfg := x.cfg } : HostQ) = x ∧ t.jseq = s.jseq + 1)) ∧
    (s.stage = 7 → s.slotsMapped < 16 → s.mapOrder.find? (fun i => (s.hostq i).awaits) = some q.toNat → x.ltail ≤ x.head →
      exec (.queueMap q.toNat) s = .next ((({ s with lastMapped := q.toNat }.modHostq q.toNat (fun y => { y with
        mapped := true, pending := false, slot := s.freeQSlot }))).putHeader q.toNat)) ∧
    (s.stage = 7 → s.slotsMapped < 16 → s.mapOrder.find? (fun i => (s.hostq i).awaits) = some q.toNat → x.head < x.ltail →
      x.ltail ≤ x.head + 2 ^ (x.cfg.toNat % 32) →
      exec (.queueMap q.toNat) s = .next ((({ s with lastMapped := q.toNat }.modHostq q.toNat (fun y => { y with
        mapped := true, pending := false, slot := s.freeQSlot, tail := x.ltail }))).putHeader q.toNat)) ∧
    (x.mapped = true → x.head = x.tail → s.hq.any (fun p => p.1 ≠ q.toNat && p.2.awaits) = true →
      exec (.queueSlotIdleUnmap q.toNat) s = .next (s.modHostq q.toNat (fun y => { y with mapped := false }))) ∧
    (s.powered = true →
      (6 ≤ s.stage → x.enabled = false →
        exec (.registerWrite agent (.qbase q) v) s = .next (s.modHostq q.toNat (fun y => { y with base := v &&& 0xFFFFFFFFFFFFF000#64 })) ∧
        exec (.registerWrite agent (.qcfg q) v) s = .next (s.modHostq q.toNat (fun y => { y with cfg := v &&& 0x8000031F#64 }))) ∧
      (x.enabled = true → exec (.registerWrite agent (.qbase q) v) s = .next s ∧ exec (.registerWrite agent (.qcfg q) v) s = .next s) ∧
      (∀ r ∈ [DevReg.ident, .pmeas, .stage], exec (.registerWrite agent r v) s = .next s) ∧
      exec (.registerWrite agent .pcap v) s = .next (if 1600 ≤ v.toNat ∧ v.toNat ≤ 3200 then { s with pcap := v.toNat } else s) ∧
      exec (.registerWrite agent .scrub v) s = .next (if 1 ≤ v.toNat ∧ v.toNat ≤ 168 then { s with scrub := v.toNat } else s) ∧
      exec (.registerWrite agent .fabdev v) s = .next (if s.stage ≤ 4 then { s with fabdev := v.toNat % 2 ^ 12 } else s) ∧
      (∃ t, exec (.registerWrite agent .rota v) s = .next t ∧ ({ t with rota := s.rota } : State) = s ∧
        ∀ i, i < 4 → t.rota.toNat / 2 ^ (16 * i) % 2 ^ 16 =
          if v.toNat / 2 ^ (16 * i) % 2 ^ 16 = 0 then s.rota.toNat / 2 ^ (16 * i) % 2 ^ 16 else v.toNat / 2 ^ (16 * i) % 2 ^ 16)))

/-- The host windows, the traffic of peers, and the queue and management registers. The slot that a mapped queue gets and how its commands
come to be taken, the context that a job names, poison over the link, the journal of a disabled queue, register reads that the manual does
not name, a write of 0 to a period and the agents of host requests are the model's choices (logs 21, 22, 52, 67, 68, 73 and 74). -/
def Obligations.HostLink : Prop := Claims.HostAccesses ∧ Claims.HostQueues

/-! ## The package -/

/-- R299, R303, R354–R357: power-up begins a cold reset; without power only the nonvolatile store is kept; writing 5AH to the reset
register or asserting the reset input resets a powered device warm, which keeps the journal, the lease log and the nonvolatile store and
forgets every context; bring-up goes stage by stage, stops with an alert when verification fails, clears the stacks only in a cold
reset, writes the route table of the ports in service, and restores the retired units and the saved scores. What a reset keeps beside what
the spec names, and which channels serve after it, are the model's choices (logs 15 and 70). -/
def Obligations.PackageResets : Prop :=
  ∀ (s : State) (v : Word) (ok : Bool),
    (s.powered = true → exec .powerUp s = .next s) ∧
    (s.powered = false → ∃ t, exec .powerUp s = .next t ∧ t.powered = true ∧ t.stage = 0 ∧ t.cold = true ∧ t.ctxs = [] ∧ t.mem = [] ∧
      t.journal = [] ∧ t.retireStore = s.retireStore ∧ t.savedScores = s.savedScores ∧ t.hostMem = s.hostMem) ∧
    (∀ i ∈ [Instr.lossOfPower, .thermalTrip], ∃ t, exec i s = .next t ∧ t.powered = false ∧ t.mem = [] ∧ t.journal = [] ∧ t.ctxs = [] ∧
      t.retireStore = s.retireStore ∧ t.savedScores = s.savedScores ∧ t.hostMem = s.hostMem) ∧
    (s.powered = true → ∀ i ∈ [Instr.resetRegisterWrite 0x5A, .resetInput true], i = .resetRegisterWrite 0x5A ∨ s.resetHeld = false →
      ∃ t, exec i s = .next t ∧ t.powered = true ∧ t.stage = 0 ∧ t.cold = false ∧ t.ctxs = [] ∧ t.areas = [] ∧ t.hearths = [] ∧
        t.journal = s.journal ∧ t.jseq = s.jseq ∧ t.leaseLog = s.leaseLog ∧ t.retireStore = s.retireStore ∧ t.pcap = 3200 ∧
        t.fabdev = 0 ∧ t.i3cAddr = s.i3cAddr ∧ t.resetHeld = (s.resetHeld || decide (i = .resetInput true)) ∧
        (∀ u, s.units.wf LUnit.reset = true → (t.unit u).health = (s.unit u).health) ∧
        (s.mem.wf 0 = true → s.chanMap = [] → s.spare = [] → s.units = [] → s.leases = [] → s.cut = 1 → (s.part 0).dies = 4 →
          ∀ pa, t.mem.get 0 pa = s.mem.get 0 pa)) ∧
    (v ≠ 0x5A → exec (.resetRegisterWrite v) s = .next s) ∧
    (exec (.resetInput false) s = .next (if s.tap = .extest ∧ s.stage ≠ 0 then { s with resetHeld := false, tap := .bypass }
      else { s with resetHeld := false })) ∧
    (s.powered = true → s.resetHeld = false → s.alert = false → s.stage < 7 →
      (s.stage = 1 → exec (.bringupStageComplete false) s = .next { s with alert := true }) ∧
      (s.stage ≠ 1 ∨ ok = true → ∃ t, exec (.bringupStageComplete ok) s = .next t ∧ t.stage = s.stage + 1 ∧ t.ctxs = s.ctxs ∧
        (s.stage = 2 → s.cold = true → t.mem = []) ∧ (s.stage ≠ 2 ∨ s.cold = false → t.mem = s.mem) ∧
        (s.stage = 4 → t.unrouted = s.retiredOf 2) ∧ (s.stage ≠ 4 → t.unrouted = s.unrouted) ∧
        (s.stage = 3 → ∀ r ∈ s.retireStore, (t.unit (r.toNat / 2 ^ 16 % 2 ^ 16)).health = .retired) ∧
        (s.stage = 6 → t.cut = 1 ∧ t.parts = [(0, Part.reset 4)] ∧ t.hearths = []))) ∧
    (s.powered = false ∨ s.resetHeld = true ∨ s.alert = true ∨ 7 ≤ s.stage → exec (.bringupStageComplete ok) s = .next s) ∧
    (∃ t, exec .orderlyShutdown s = .next t ∧ ({ t with savedScores := s.savedScores } : State) = s ∧
      (s.units.wf LUnit.reset = true → ∀ u, t.savedScores.get 0 u = (s.unit u).score))

/-- R350–R356: the coolant and the inlet set the alert and the effective cap; the power controller lowers the clock of one of the busiest
hearths by 100 MHz above the cap and raises that of one of the slowest below 95 % of it, within 1.2 GHz and 3.6 GHz, and of what it and a
hot junction ask for in one millisecond the lower clock applies (log 63, the model's choice); the spill point of an ember queue moves within
its range; BYPASS, IDCODE, SAMPLE/PRELOAD and EXTEST select their registers, EXTEST only in reset or at stage 0. -/
def Obligations.PowerAndScan : Prop :=
  ∀ (s : State) (h w n : Nat) (ok : Bool) (a : BitVec 7),
    let clock := (s.hearth h).clock
    let cap := s.pcap - 50 * (s.inletDeg - 40)
    let now := (s.hearth h).asked.1 = s.ref / 3600000
    let before (g : Nat) : Nat := if (s.hearth g).asked.1 = s.ref / 3600000 then (s.hearth g).asked.2 else (s.hearth g).clock
    let asked (other : Nat) : Nat := if now then other else 36
    let served (g : Nat) : Prop := (s.unit g).health = .inService
    let busiest := ∀ p ∈ s.busyLast, served p.1 → 12 < before p.1 → p.2 ≤ s.busyLast.get 0 h
    let slowest := ∀ p ∈ s.hearths, served p.1 → clock ≤ p.2.clock
    let clockAt (m watts : Nat) (i : Instr) : Prop := ∃ t, exec i s = .next t ∧ ({ t with hearths := s.hearths, watts := s.watts } : State) = s ∧
      t.watts = watts ∧ (t.hearth h).clock = m ∧ (∀ g, g ≠ h → t.hearth g = s.hearth g) ∧ t.hearthCycles h = s.hearthCycles h
    (s.stage = 7 → h < 1024 →
      (12 < before h → clockAt (min (asked (s.hearth h).pclk) (before h - 1)) s.watts (.junctionClockStep h)) ∧
      (before h ≤ 12 → exec (.junctionClockStep h) s = .next s) ∧
      (cap < w → 12 < before h → busiest → clockAt (min (before h - 1) (asked (s.hearth h).jclk)) w (.powerControllerStep w h)) ∧
      (100 * w < 95 * cap → before h < 36 → slowest → clockAt (min (before h + 1) (asked (s.hearth h).jclk)) w (.powerControllerStep w h)) ∧
      ((95 * cap ≤ 100 * w ∧ w ≤ cap) ∨ (cap < w ∧ ¬busiest) ∨ (w ≤ cap ∧ ¬slowest) → exec (.powerControllerStep w h) s = .next { s with watts := w }) ∧
      (2048 ≤ n → n ≤ 4096 → exec (.emberSpillAdjust h n) s = .next (s.modHearth h (fun x => { x with spill := n }))) ∧
      (n < 2048 ∨ 4096 < n → exec (.emberSpillAdjust h n) s = .next s)) ∧
    exec .coolantOutOfRange s = .next { s with inletOut := true } ∧
    exec (.inletTemperatureChange n ok) s = .next { s with inletDeg := n, inletOut := !ok || decide (n < 15) || decide (45 < n) } ∧
    exec (.linkRetune n) s = .next s ∧
    exec .bypass s = .next { s with tap := .bypass } ∧ exec .idcode s = .next { s with tap := .idcode } ∧
    exec .samplePreload s = .next { s with tap := .samplePreload } ∧
    exec .extest s = .next { s with tap := if s.resetHeld = true ∨ s.stage = 0 then .extest else .bypass } ∧
    exec (.i3cDynamicAddress a) s = .next (if s.powered = true then { s with i3cAddr := a } else s)

/-! ## Leases -/

namespace Sys2Proof.Claims

/-- A day of the reference count; no halving of the scores is due (R299). -/
def day : Nat := 24 * 3600 * 3600000000
def undue (s : State) : Prop := s.ref < (s.halvings + 1) * day

/-- The unit has an early lease that may start (R299). -/
def early (s : State) (u : Nat) : Prop := (s.unit u).early = true ∧ (s.unit u).holdoff = false

/-- The lease of unit `u` with `cause` and `pset` begins at `stage`: a capacity change (R304), and its control traffic. -/
def begins (s : State) (u cause pset : Nat) (stage : LeaseStage) : State :=
  let l : Lease := ⟨u, cause, pset, stage, (s.unit u).score, s.unitSweep u, s.ref, s.ref, 0, 0, 0, false, 0⟩
  (({ s with leases := s.leases ++ [l] } : State).capChange (if cause = 3 then 4 else 0) u).sendControl

end Sys2Proof.Claims

/-- R289–R300, R313: units of a class take their turns in increasing index, a unit whose early lease is due out of turn; a turn starts the
unit's lease when a place is free, or leaves it due, behind an early lease of its class and while its partition is quiesced for a cut; a run
of the patterns that passes returns the unit, halving its score at the outer margins, one that fails adds 2,048 and is repeated, and the
second failure, or a score of 4,096, retires the unit, and then the turns that waited start; a unit that is out for heat waits for its
clearance; an hour later an abandoned lease is retried. The hours, and the order of the turns that wait, are the model's choices (log 63).
-/
def Obligations.LeaseTurnsAndTests : Prop :=
  ∀ (s : State) (u : Nat) (run : TestRun),
    let cls := unitClass u
    let next := s.nextTurnOf cls = some u
    let s1 : State := { s with rotaNext := s.rotaNext.put 0 cls ((unitIndex u + 1) % classSize cls) }
    (next → s.rotaNext.get 0 cls < classSize cls → s.leasable u = true ∧ ∀ v, unitClass v = cls → s.leasable v = true →
      (unitIndex u + classSize cls - s.rotaNext.get 0 cls) % classSize cls ≤ (unitIndex v + classSize cls - s.rotaNext.get 0 cls) % classSize cls) ∧
    (s.stage = 7 → s.leasable u = true → ∀ p ∈ ([(.leaseRotaTurn u, if s.nextTurnOf cls = some u then s1 else s), (.leaseRetryTimer u, s)] : List (Instr × State)),
      (p.1 = .leaseRotaTurn u → next ∨ Claims.early s u) → (p.1 = .leaseRetryTimer u → (s.unit u).retry = true) →
      let ahead := ∃ q ∈ s.units, q.1 ≠ u ∧ unitClass q.1 = cls ∧ q.2.early = true ∧ q.2.holdoff = false ∧ s.leasable q.1 = true ∧
        s.placeFree q.1 = true
      let waits := s.placeFree u = false ∨ (∃ l ∈ s.leases, l.unit = u ∧ l.stage ≠ .waitHeat) ∨
        (∃ d ∈ unitDies u, s.quiesced d = true) ∨ (ahead ∧ ¬Claims.early s u ∧ (s.unit u).forced = [])
      (waits → exec p.1 s = .next (p.2.modUnit u (fun x => { x with due := true }))) ∧
      (¬waits → ∀ cause pset,
        cause = (if (s.unit u).forced ≠ [] then 2 else if (s.unit u).early = true ∧ (s.unit u).holdoff = false then 1 else 0) →
        pset = (s.unit u).forced.headD 0 →
        exec p.1 s = .next (Claims.begins (p.2.modUnit u (fun x => { x with
          due := decide (1 < x.forced.length), retry := false, forced := x.forced.drop 1
          early := if cause = 1 then false else x.early, holdoff := x.holdoff || decide (cause = 1) })) u cause pset
          (if cls = 0 then (if ∃ l ∈ s.leases, l.unit = u ∧ l.stage = .waitHeat then .test false else .withdrawal)
           else if cls = 2 ∨ (cls = 1 ∧ s.slotOfChan (unitIndex u) ≠ none) then .evacuation else .test false)))) ∧
    (s.stage ≠ 7 ∨ (¬next ∧ ¬Claims.early s u) → exec (.leaseRotaTurn u) s = .next s) ∧
    (s.stage ≠ 7 ∨ (s.unit u).retry = false → exec (.leaseRetryTimer u) s = .next s) ∧
    exec (.earlyLeaseHoldoffExpiry u) s = .next (s.modUnit u (fun x => { x with holdoff := false })) ∧
    (∀ (l : Lease) (second : Bool), s.leases.find? (fun l => l.unit = u && l.cause ≠ 3) = some l → l.stage = .test second → Claims.undue s →
      let forced := 0 < (s.unit u).inject
      let score := min ((s.unit u).score + 2048) 65535
      (¬forced → run.nominal = true → ∃ t : State,
        (t.unit u).health = (s.unit u).health ∧
        (t.unit u).score = (if second then (s.unit u).score else if run.outer then (s.unit u).score / 2
          else min ((s.unit u).score + 128) 65535) ∧
        ((s.unit u).hot = false → exec (.leaseTestComplete u run) s = .next t.startDue ∧ t.lseq = s.lseq + 1 ∧
          t.leases = s.leases.filter (fun m => !(m.unit = u && m.cause ≠ 3))) ∧
        ((s.unit u).hot = true → exec (.leaseTestComplete u run) s = .next t ∧ t.lseq = s.lseq ∧ t.leases = s.leases.map (fun m =>
          if m.unit = u && m.cause ≠ 3 then { l with
            ttest := l.ttest + run.micros, stage := .waitHeat, result := if second ∨ run.outer = false then 1 else 0 } else m))) ∧
      (forced ∨ run.nominal = false → second = false → score < 4096 → ∃ t, exec (.leaseTestComplete u run) s = .next t ∧
        (t.unit u).score = score ∧ (t.unit u).inject = (s.unit u).inject - 1 ∧ (t.unit u).health = (s.unit u).health ∧
        ∃ m, t.leases.find? (fun m => m.unit = u && m.cause ≠ 3) = some m ∧ m.stage = .test true ∧ m.ttest = l.ttest + run.micros ∧
          m.forced = decide (0 < (s.unit u).inject) ∧ m.detail = (if 0 < (s.unit u).inject then 0xFFFF000000000000#64 else run.detail) ∧
          m.cause = l.cause ∧ m.sc0 = l.sc0 ∧ m.t0 = l.t0) ∧
      (forced ∨ run.nominal = false → second = true ∨ 4096 ≤ score → ∃ t : State, exec (.leaseTestComplete u run) s = .next t.startDue ∧
        (t.unit u).health = .retired ∧ t.leases = s.leases.filter (fun m => m.unit ≠ u) ∧
        t.lseq = s.lseq + (if ∃ m ∈ s.leases, m.unit = u ∧ m.cause = 3 then 2 else 1) ∧
        (s.retireStore.length < 1024 → t.retireStore.length = s.retireStore.length + 1) ∧
        (1024 ≤ s.retireStore.length → t.retireStore = s.retireStore ∧ t.retireFull = true)))

/-- R296, R352: a hearth above 110 °C is emptied for heat, or its thermal evacuation joins the lease that it meets; it stays out until
its clearance, with which a lease that waited for it ends. -/
def Claims.ThermalEvacuations : Prop :=
  ∀ (s : State) (h : Nat), h < 1024 →
    (s.stage = 7 → (s.unit h).health = .inService → (s.unit h).hot = false →
      let t := s.modUnit h (fun x => { x with hot := true })
      (s.leases.find? (fun l => l.unit = h) = none → exec (.hearthOver110c h) s = .next (Claims.begins t h 3 0xFF .withdrawal)) ∧
      (∀ l, s.leases.find? (fun l => l.unit = h) = some l → exec (.hearthOver110c h) s = .next (Claims.begins t h 3 0xFF
        (if l.stage = .withdrawal then .withdrawal else if l.stage = .evacuation then .evacuation else .waitHeat)))) ∧
    (s.stage ≠ 7 ∨ (s.unit h).health = .retired ∨ (s.unit h).hot = true → exec (.hearthOver110c h) s = .next s) ∧
    (∀ l, s.leases.find? (fun l => l.unit = h && l.cause = 3 && l.stage = .waitHeat) = some l →
      let t : State := (((s.modUnit h (fun x => { x with hot := false })).logLease l 0).dropLease h true).capChange 5 h
      ((∀ m ∈ s.leases, m.unit = h → m.stage = .waitHeat → m.cause = 3) → exec (.thermalClearance h) s = .next t.startDue) ∧
      (∀ m, s.leases.find? (fun m => m.unit = h && m.cause ≠ 3 && m.stage = .waitHeat) = some m →
        exec (.thermalClearance h) s = .next
          (((((t.logLease m m.result).dropLease h false).resetHearth h).capChange (1 + m.result) h).startDue))) ∧
    ((∀ l ∈ s.leases, l.unit = h → l.cause = 3 → l.stage ≠ .waitHeat) → exec (.thermalClearance h) s = .next s)

/-- R298, R299: link retries add one to the score of a lane group or a port; at whole days every score halves and is saved, and a halving
that is due comes before an increment. -/
def Claims.ScoresAndHalvings : Prop :=
  ∀ (s : State) (u : Nat),
    let halved : Tab LUnit := (s.units.map (fun p => (p.1, { p.2 with score := p.2.score / 2 }))).filter (fun p => p.2 ≠ LUnit.reset)
    let t : State := { s with
      halvings := s.halvings + 1
      units := halved
      savedScores := (halved.map (fun p => (p.1, p.2.score))).filter (fun p => p.2 ≠ 0) }
    (Claims.undue s → exec .scoreHalving s = .next s) ∧
    ((s.halvings + 1) * Claims.day ≤ s.ref → exec .scoreHalving s = .next t ∧
      (s.units.wf LUnit.reset = true → ∀ v, t.unit v = { s.unit v with score := (s.unit v).score / 2 } ∧
        t.savedScores.get 0 v = (s.unit v).score / 2)) ∧
    (unitOk u = true → 2 ≤ unitClass u →
      (Claims.undue s → exec (.linkRetry u) s = .next (s.modUnit u (fun x => { x with
        score := min (x.score + 1) 65535, early := x.early || (x.health = .inService && decide (512 ≤ min (x.score + 1) 65535)) }))) ∧
      ((s.halvings + 1) * Claims.day ≤ s.ref → s.ref < (s.halvings + 2) * Claims.day → exec (.linkRetry u) s = exec (.linkRetry u) t))

/-- R197, R291–R293: an evacuation is complete when the hearth holds nothing, and then the areas that waited for it and waiting turns start;
a leased channel moves granule by granule into the spare; the traffic of a port that has drained goes on through the lowest port of its die
in service that reaches the same peer, or waits for the port, and comes back by the same drain; how traffic finds its way is the model's
choice (log 16). -/
def Claims.EvacuationsAndDrains : Prop :=
  ∀ (s : State) (h u : Nat),
    ((∃ l ∈ s.leases, l.unit = h ∧ l.stage = .evacuation) →
      (s.holdsSomething h = true → exec (.evacuationComplete h) s = .next s) ∧
      (s.holdsSomething h = false → exec (.evacuationComplete h) s = .next ((({ s with leases := s.leases.map (fun l =>
        if l.unit = h ∧ l.stage = .evacuation then { l with t1 := s.ref, stage := if l.cause = 3 then .waitHeat else .test false }
        else l) } : State).endEvac h).startAreas).startDue)) ∧
    (∀ l, s.leases.find? (fun l => unitClass l.unit = 1 && unitIndex l.unit / 64 = h && l.stage = .evacuation) = some l →
      let t := s.cleanGranule (unitIndex l.unit) l.granules
      let step (f : Lease → Lease) : List Lease := s.leases.map (fun m => if m.unit = l.unit then f m else m)
      (l.granules + 1 < 1572864 → exec (.granuleMigration h) s =
        .next { t with leases := step (fun m => { m with granules := l.granules + 1 }) }) ∧
      (∀ k, 1572864 ≤ l.granules + 1 → s.slotOfChan (unitIndex l.unit) = some k → exec (.granuleMigration h) s = .next { t with
        chanMap := s.chanMap.set (h * 64 + k) (h * 64 + s.spareOf h)
        leases := step (fun m => { m with granules := l.granules + 1, t1 := s.ref, stage := .test false }) })) ∧
    (unitClass u = 2 →
      let stands (v : Nat) : Prop := v ∈ unitPeers u ∧ s.inService v = true ∧ Config.portPeer (unitIndex v) = Config.portPeer (unitIndex u)
      let moved (d : Nat) : Tab Nat := Tab.set (s.portTo.map (fun p => (p.1, if p.2 = unitIndex u then d else p.2))) (unitIndex u) d
      let drained (d : Nat) : State := { s with
        portTo := (moved d).filter (fun p => p.1 ≠ p.2)
        leases := s.leases.map (fun l => if l.unit = u then { l with t1 := s.ref, stage := .test false } else l) }
      ((∃ l ∈ s.leases, l.unit = u ∧ l.stage = .evacuation) → s.portBusy (unitIndex u) = false →
        ∃ v, exec (.portDrainComplete u) s = .next (drained (unitIndex v)) ∧
          (stands v ∧ (∀ w, stands w → v ≤ w) ∨ (∀ w, ¬stands w) ∧ v = u)) ∧
      (s.portBusy (unitIndex u) = true → exec (.portDrainComplete u) s = .next s) ∧
      (s.inService u = true → s.portBusy (s.portTo.get (unitIndex u) (unitIndex u)) = false →
        exec (.portTrafficReturn u) s = .next { s with portTo := s.portTo.erase (unitIndex u) }))

/-- R124, R304, R305: a tile in transit whose old slot no command and no landing push waits for stands in its new slot, byte for byte; a
capacity change reaches its counter, which releases its record, or the log, and then its notifier, whose discovery lies behind both. -/
def Claims.MigrationsAndCapacitySignals : Prop :=
  ∀ (s : State) (c : Nat),
    (∀ (n : Nat) (m : Move) (x : Slot), s.slots.find (c * 2 ^ 20 + n) = some x → x.moving = some m → x.dying = false →
      (∀ q ∈ s.queues, q.1 / 4 = x.hid → ∀ e ∈ q.2, e.id < m.mark → (c * 2 ^ 20 + n) ∉ e.names) →
      (∀ p ∈ s.subs, p.2.ctx = c → ∀ q ∈ p.2.push, 0 < q.2.landed → p.2.ring.getD q.1 nullHandle ≠ n) →
        ∃ t, exec (.tileMigrationComplete c n) s = .next t ∧
          t.slots.find (c * 2 ^ 20 + n) = some { x with hid := m.hid, unit := m.unit, moving := none, displaced := m.displaced } ∧
          (∀ j, j < x.units * 1024 → t.tile.get 0 (m.hid * 1572864 + m.unit * 1024 + j) = s.tile.get 0 (x.hid * 1572864 + x.unit * 1024 + j)) ∧
          t.mem = s.mem) ∧
    (∀ (x : Ctx) (l : Launch) (kind unit seq : Nat) (note : Bool) (r : List (Nat × Nat × Nat × Bool)), s.ctx c = some x →
      x.capDue = (kind, unit, seq, note) :: r → x.launch = some l →
      let z := s.modCtx c (fun x => { x with capDue := r })
      let noted (t : State) : State := if note then t.insertion c (notifyApp l.notifop kind unit seq) true none else t
      let at_ := z.virtTime c (BitVec.ofNat 64 l.caprec) 64
      (∀ t, z.signalVirt c (BitVec.ofNat 64 l.capctr) 1 at_ = .ok t →
        exec (.capacityCounterSignal c) s = .next (noted (t.reachTo x.part (t.virtTime c (BitVec.ofNat 64 l.capctr) 8)))) ∧
      (∀ e, z.signalVirt c (BitVec.ofNat 64 l.capctr) 1 at_ = .error e →
        exec (.capacityCounterSignal c) s = .next (noted (z.log c 13 e.toNat 0 0 l.capctr seq))))

/-- The stages of leases and thermal evacuations, scores, and what moves during them. Which peer a port has and where its traffic goes is
the model's choice (log 16). -/
def Obligations.LeaseStages : Prop :=
  Claims.ThermalEvacuations ∧ Claims.ScoresAndHalvings ∧ Claims.EvacuationsAndDrains ∧ Claims.MigrationsAndCapacitySignals

/-! ## Slices, page walks and packets -/

namespace Sys2Proof.Claims

/-- What a reader finds of the stored line `line` when the errors `err` lie on its 88 symbols (R217). -/
def found (s : State) (line : Nat) (err : BitVec 704) : LineRead :=
  let w := lineCode ((List.range 64).map (fun i => (s.mem.get 0 (64 * line + i)).toNat)) (s.linePoison.get false line)
  decodeLine ((List.range 88).map (fun i => w.getD i 0 ^^^ (err.toNat / 2 ^ (8 * i) % 2 ^ 8)))

/-- From `s` to `t` a reader left the bytes `data` and the poison `p` in a line, and nothing else of device memory changed. -/
def kept (s t : State) (line : Nat) (data : List Nat) (p : Bool) : Prop :=
  (∀ i, i < 64 → t.mem.get 0 (64 * line + i) = BitVec.ofNat 8 (data.getD i 0)) ∧ t.linePoison.get false line = p ∧
  (∀ a, a / 64 ≠ line → t.mem.get 0 a = s.mem.get 0 a) ∧ (∀ x, x ≠ line → t.linePoison.get false x = s.linePoison.get false x)

/-- The line is the last one of an encrypted page. -/
def endsPage (s : State) (line : Nat) : Prop := ∃ t, s.tags.find (s.tagKey line) = some t ∧ line + 1 = s.tagKey line * 1024 + t.lines

/-- The channel that the slice of a device address reads. -/
def channel (s : State) (pa : Nat) : Nat := s.chanOf (s.homeOf pa)

end Sys2Proof.Claims

/-- R217, R218: lines of zeros: an error in symbols of one pin group is corrected, in two groups detected, and the poison pattern is
told from both. -/
def Claims.LineCodeDecodes : Prop :=
  let zeros := List.replicate 64 0
  let hit (l : List Nat) : List Nat := (List.range 88).map (fun i => if i ∈ l then 0xFF else 0)
  (∀ l ∈ [[0], [9, 15], [63], [64], [87]], decodeLine (hit l) = .corrected zeros) ∧
  (∀ l ∈ [[0, 8], [63, 64], [5, 87]], decodeLine (hit l) = .lost ((hit l).take 64)) ∧
  decodeLine (lineCode zeros true) = .poison zeros ∧ decodeLine (lineCode zeros false) = .clean zeros

/-- R193, R298: a corrected error of a tile store adds one to its hearth's score and counter, and one that is not corrected adds 256 and
marks its chunk. -/
def Claims.TileStoreErrors : Prop :=
  ∀ (s : State) (h c a : Nat), s.powered = true → h < 1024 → c < 98304 → Claims.undue s →
    (∃ t, s.upset (.tileCorrected h) = t ∧ t.tile = s.tile ∧ t.tilePoison = s.tilePoison ∧
      (t.unit h).score = min ((s.unit h).score + 1) 65535 ∧
      (t.hearth h).ctrs.get 0 0x12 = ((s.hearth h).ctrs.get 0 0x12 + 1) % 2 ^ 64) ∧
    (∃ t, s.upset (.tileChunk h c) = t ∧ t.tile = s.tile ∧ (t.unit h).score = min ((s.unit h).score + 256) 65535 ∧
      t.tilePoison.get false a = (decide (a / 32 = h * 98304 + c) || s.tilePoison.get false a) ∧
      t.badScale.get false a = (decide (a / 16 = h * 98304 + c) || s.badScale.get false a))

/-- R198, R199, R217–R219, R298: the line of an engine or a chimney: a hit makes it the one used last, with the access's priority unless
that is 7, and dirty when it is written, and changes nothing else but a counter and the packets that carry it; a read that misses reads the
channel, as the scrubber does: what the code corrects is written back and adds one to the channel's score, what it cannot correct is
poisoned and adds 256. A staged line leaves when it has waited, and its channel is read for the parts not written. -/
def Claims.SliceSteps : Prop :=
  ∀ (s : State) (pa req line ch : Nat) (evict : BitVec 3) (write : Bool),
    let z := s.slice (Claims.channel s pa)
    let s0 := s.carryLine pa req
    (s.stage = 7 → pa < 4 * dieBytes → s.engineLine pa req = true →
      (∀ y, z.lines.find? (fun y => y.line = pa / 64) = some y → ∀ err, exec (.sliceAccess (.line pa req evict write) err) s =
        .next (s0.modSlice (Claims.channel s pa) (fun x => { x with
          lines := ({ y with prio := if evict = 7 then y.prio else evict.toNat, dirty := y.dirty || write } : SliceLine) ::
            z.lines.filter (fun p => p.line ≠ pa / 64) }))) ∧
      (∃ t, exec (.sliceAccess (.line pa req evict write) 0) s = .next t ∧ ({ t with
        slices := s.slices, hearths := s.hearths, msgs := s.msgs, nextUid := s.nextUid } : State) = s)) ∧
    (s.stage = 7 → pa < 4 * dieBytes → Claims.undue s → ∀ err : BitVec 704, err ≠ 0 →
      ∀ i ∈ [(.sliceAccess (.line pa req evict false) err : Instr), .scrubLineRead (pa / 64) err],
      (i = .sliceAccess (.line pa req evict false) err → s.engineLine pa req = true ∧ ∀ y ∈ z.lines, y.line ≠ pa / 64) →
      (i = .scrubLineRead (pa / 64) err → ¬Claims.endsPage s (pa / 64)) →
        let unit := 4096 + Claims.channel s (64 * (pa / 64))
        (∀ data, Claims.found s (pa / 64) err = .corrected data → ∃ t, exec i s = .next t ∧ Claims.kept s t (pa / 64) data false ∧
          (t.unit unit).score = min ((s.unit unit).score + 1) 65535) ∧
        (∀ data, Claims.found s (pa / 64) err = .lost data → ∃ t, exec i s = .next t ∧ Claims.kept s t (pa / 64) data true ∧
          (t.unit unit).score = min ((s.unit unit).score + 256) 65535)) ∧
    (s.stage = 7 → 64 * line < 4 * dieBytes → ¬Claims.endsPage s line → exec (.scrubLineRead line 0) s = .next s) ∧
    ((∀ p ∈ (s.slice ch).staged, p.1 ≠ line) → ∀ err, exec (.stagingLineTimeout ch line err) s = .next s) ∧
    ((∃ p ∈ (s.slice ch).staged, p.1 = line) →
      exec (.stagingLineTimeout ch line 0) s = .next (s.modSlice ch (fun x => { x with staged := x.staged.filter (fun p => p.1 ≠ line) })) ∧
      ∀ err : BitVec 704, err ≠ 0 → Claims.undue s → ∀ data, Claims.found s line err = .lost data →
        ∃ t, exec (.stagingLineTimeout ch line err) s = .next t ∧ Claims.kept s t line data true ∧
          (t.unit (4096 + ch)).score = min ((s.unit (4096 + ch)).score + 256) 65535)

/-- R221: a scrub of the last line of an encrypted page, of 64 KiB or of 512 MiB, poisons the page and logs the failure when its tag
differs; how the address enters the tag is the model's choice (log 96). -/
def Claims.PageTagsAreChecked : Prop :=
  ∀ (s : State) (line page : Nat) (tag : PageTag), s.stage = 7 → 64 * line < 4 * dieBytes → page = s.tagKey line →
    s.tags.find page = some tag → line + 1 = page * 1024 + tag.lines →
    (s.tagNow page tag.lines tag.key = tag.tag → exec (.scrubLineRead line 0) s = .next s) ∧
    (s.tagNow page tag.lines tag.key ≠ tag.tag → ∃ t, exec (.scrubLineRead line 0) s = .next t ∧ t.mem = s.mem ∧
      t.integrity = page :: s.integrity ∧
      (∀ i, page * 1024 ≤ i → i < page * 1024 + tag.lines → t.linePoison.get false i = true) ∧
      (∀ i, (i < page * 1024 ∨ page * 1024 + tag.lines ≤ i) → t.linePoison.get false i = s.linePoison.get false i))

/-- R225: a packet at the head of its input queue ages up to 63, one behind another does not; a router's output picks, of the packets at
the heads, one of age 63 on the lowest port, and without one a packet of the class in its turn, or of the next class that has one, of those
of one virtual channel that on the lowest port, which is the model's choice (log 48). -/
def Claims.RoutersPickPackets : Prop :=
  (∀ (s : State) (m : Msg) (pre post : List Msg), s.msgs = pre ++ m :: post → (∀ x ∈ pre ++ post, x.id ≠ m.id) → m.here = false →
    ((∀ x ∈ pre, m.behind x = false) → exec (.routerPacketAging m.id) s = .next { s with
      msgs := pre ++ { m with age := min 63 (m.age + 1) } :: post }) ∧
    ((∃ x ∈ pre, m.behind x = true) → exec (.routerPacketAging m.id) s = .next s)) ∧
  (∀ (a b : Arbiter) (l : List Msg) (m : Msg), pickPacket a l = some (m, b) → m ∈ l ∧
    ((∃ x ∈ l, x.age = 63) → m.age = 63 ∧ (∀ x ∈ l, x.age = 63 → m.port ≤ x.port) ∧ b = a) ∧
    ((∀ x ∈ l, x.age ≠ 63) → b.cls = m.cls ∧
      ((∃ x ∈ l, x.cls = a.cls) → 0 < a.credit → m.cls = a.cls ∧ b.credit = a.credit - 1) ∧
      ((∀ x ∈ l, x.cls ≠ a.cls) ∨ a.credit = 0 → (∀ x ∈ l, x.cls < 6) → a.cls < 6 → b.credit = clsWeight m.cls - 1 ∧
        ∀ x ∈ l, (m.cls + 5 - a.cls) % 6 ≤ (x.cls + 5 - a.cls) % 6) ∧
      ((∃ x ∈ l, x.cls = m.cls ∧ x.vc = 1 - a.last.get 0 m.cls) → m.vc = 1 - a.last.get 0 m.cls) ∧
      (∀ x ∈ l, x.cls = m.cls → x.vc = m.vc → m.port ≤ x.port)))

/-- R205, R207, R215, R28: a page walk that has come to its table and ends fills the TLBs of the hearths that wait and of their die, its
cells execute their instructions again and its prefetches leave; one that fails raises its fault in the cell that waits. What a walk reads,
and which packets carry it, are the model's choices (logs 17 and 72). -/
def Claims.PageWalksEnd : Prop :=
  ∀ (s : State) (id : Nat) (w : Walk), s.walks.find? (fun w => w.id = id) = some w →
    let s0 : State := { s with walks := s.walks.filter (fun y => y.id ≠ id), msgs := s.msgs.filter (fun m => m.body ≠ .walk id) }
    let s1 := (s.walkers id).foldl (fun s c => s.modCell c.1 c.2.1 (fun k => { k with wait := none })) (s0.readTables w)
    let come := (∀ m ∈ s.msgs, m.body ≠ .walk id) ∨ (s.arrival (.walk id)).isSome = true
    (¬come → exec (.pageWalkComplete id) s = .next s) ∧
    (come → ∀ t, s1.walk w.ctx (w.vpage * 65536) = .ok t → exec (.pageWalkComplete id) s =
      .next ((w.hids.foldl (fun s h => (s.fillTlb h t).wakePrefs w.ctx h w.vpage (some t)) s1).resumePushes w.die)) ∧
    (come → ∀ f, s1.walk w.ctx (w.vpage * 65536) = .error f →
      let s2 := ((w.hids.foldl (fun s h => s.wakePrefs w.ctx h w.vpage none) s1).failPushes w).resumePushes w.die
      (s.walkers id = [] → exec (.pageWalkComplete id) s = .next s2) ∧
      (∀ u i a ar, s.walkers id = [(u, i, a)] → s2.area u = some ar → ar.phase = .active →
        exec (.pageWalkComplete id) s = .next (({ s2 with cur := (u, i) } : State).raise f a)))

/-- Errors of the stores, accesses of the slices, the scrubber, page tags, routers and page walks. The sets of lines and what merges in a
stage (log 18), the errors that come about in the stores (log 11), error patterns and their lines (log 69), the layout of an address in a
page's tag (log 96), which of several heads goes first (log 48), and the packets of walks (logs 17 and 72) are the model's choices. -/
def Obligations.MemorySystemSteps : Prop :=
  Claims.LineCodeDecodes ∧ Claims.TileStoreErrors ∧ Claims.SliceSteps ∧ Claims.PageTagsAreChecked ∧ Claims.RoutersPickPackets ∧
    Claims.PageWalksEnd

/-! ## Sweeps, loads, placements, the watchdogs and the ends of contexts -/

/-- R13, R15: the first-true pass leaves the areas that are there and claims only innermost applications of the context: an area that it
adds is found, carries the sweep as its stamp, and its cells are an opening `(`, what lies behind it, and the first `)`, in order. -/
def Obligations.DiscoveryClaimsApplications : Prop :=
  ∀ (s : State) (c : Nat), (∀ p ∈ s.areas, p.1 < s.nextUid) →
    (∀ u a, s.area u = some a → (s.discover c).area u = some a) ∧
    (∀ u a, s.area u = none → (s.discover c).area u = some a →
      a.ctx = c ∧ a.kind = .user ∧ a.phase = .found ∧ a.stamp = s.ctxSweep c ∧
      ∃ (p q : Nat) (y z : Sym) (mid : List (Nat × Sym)), y.kind = 1 ∧ z.kind = 2 ∧ (∀ m ∈ mid, m.2.kind ≠ 1 ∧ m.2.kind ≠ 2) ∧
        a.cells.map (fun k => k.2.phys) = p :: mid.map (·.1) ++ [q] ∧ a.cells.map (·.1) = List.range a.cells.length ∧
        (a.pos, Item.sym p y) ∈ s.items c ∧ (∃ n, (n, Item.sym q z) ∈ s.items c) ∧
        (∀ m ∈ mid, ∃ n, (n, Item.sym m.1 m.2) ∈ s.items c))

/-- R13, R134–R139, R307: the sweep of a partition with nothing to do adds one to its sweep number, sends its control traffic (the model's
choice, log 17) and changes nothing else; before stage 7, and while a cut quiesces it, there is no sweep. A fetch that ends makes its
operator resident, run last in the sweep of that end, which is the model's choice (log 40), and starts areas, or holds the areas that wait
for it, and begins again behind the walks that it needs; a request for an operator lapses after 256 sweeps; a voted area without placement
for 1,024 sweeps is held with OPERATOR_INVALID. -/
def Obligations.SweepsAndLoads : Prop :=
  ∀ (s : State) (l h c op u : Nat),
    (s.stage = 7 → s.ctxs = [] → s.areas = [] → s.leases = [] → s.triggers = [] → s.events = [] → s.hearths = [] → s.row = [] →
      (∃ p, s.parts.find l = some p ∧ p.dir = [] ∧ p.inserts = [] ∧ p.restores = []) →
        s.cutting = none → exec (.sweep l) s = .next (s.modPart l (fun p => { p with sweep := p.sweep + 1 })).sendControl) ∧
    (s.stage ≠ 7 ∨ s.parts.find l = none ∨ s.quiesced l = true → exec (.sweep l) s = .next s) ∧
    (∀ x : Load, (s.hearth h).load = some x →
      let idle := s.modHearth h (fun y => { y with load := none })
      let ends (t : State) : Prop := exec (.microprogramFetchComplete h) s = .next (if t.missed = [] then t else s.behindWalks t)
      (∀ bs t, (x.ctx = none ∧ bs = [] ∧ t = idle) ∨
          (∃ k, x.ctx = some k ∧ idle.fetchBytes h k 3 x.entry.addr x.entry.len = (some bs, t)) →
        ends (((t.modHearth h (fun y => { y with
          residents := y.residents ++ [⟨x.ctx, x.op, x.entry, bs, x.ents, (t.part (t.leadOf h)).sweep, none⟩]
          oplds := y.oplds.filter (fun o => !(opCtx o.ctx o.op = x.ctx && o.op = x.op)) })).count h 6 1).startAreas)) ∧
      (∀ k t, x.ctx = some k → idle.fetchBytes h k 3 x.entry.addr x.entry.len = (none, t) → ends (t.failLoad h x.ctx x.op))) ∧
    (exec (.opldRequestExpiry h c op) s = .next (s.modHearth h (fun x => { x with oplds := x.oplds.filter (fun o =>
      !(o.ctx = c && o.op = op && decide (o.begun + 256 ≤ (s.part (s.leadOf h)).sweep))) }))) ∧
    (∀ a e, s.area u = some a → a.kind = .user → a.phase = .found → a.entry = some e → e.voted = true → s.shadows u = [] →
      (a.since + 1024 ≤ s.ctxSweep a.ctx → exec (.votedPlacementTimeout u) s = .next (s.holdNoInstr u 0x42 0)) ∧
      (s.ctxSweep a.ctx < a.since + 1024 → exec (.votedPlacementTimeout u) s = .next s))

/-- R13: the prefix pass writes into every bracket of a run the depth at which it stands, from the changes of the symbols and segments
before it; it leaves every other symbol and cell as it is. -/
def Claims.DepthsAreWritten : Prop :=
  ∀ (s : State) (c : Nat),
    let cells := (s.items c).filterMap (fun q => match q.2 with | .sym p _ => some p | .seg _ => none)
    cells.Nodup →
      (∀ (l1 l2 : List (Nat × Item)) (n p : Nat) (y : Sym), s.items c = l1 ++ (n, .sym p y) :: l2 →
        let d : Int := (l1.map (fun q => match q.2 with
          | .sym _ z => if z.kind = 1 ∨ z.kind = 3 then 1 else if z.kind = 2 ∨ z.kind = 4 then -1 else 0
          | .seg g => g.net)).sum
        let at_ (d : Int) : Sym := { y with value := BitVec.ofNat 64 (d.toNat % 2 ^ 40) }
        (y.kind = 1 ∨ y.kind = 3 → (s.discover c).sym p = at_ d) ∧
        (y.kind = 2 ∨ y.kind = 4 → (s.discover c).sym p = at_ (d - 1)) ∧
        (y.kind ≠ 1 → y.kind ≠ 2 → y.kind ≠ 3 → y.kind ≠ 4 → (s.discover c).sym p = s.sym p)) ∧
      (∀ p, p ∉ cells → (s.discover c).sym p = s.sym p)

/-- R121, R122: the things of a gap that fits take as many of its usable cells, in rising order, and each hearth is filled from its low end.
Where every hearth has cells enough for the things that count in it, each keeps its own. What counts where, beyond the gap, is the model's
choice (log 59). -/
def Claims.GapsAreCompacted : Prop :=
  ∀ (s : State) (lo hi : Nat) (homes : List Nat), homes.length ≤ s.gapSize lo hi →
    let ps := s.gapPlaces lo hi homes
    let want (h : Nat) : Nat := (homes.filter (fun g => min (max g (hidOf lo)) (hidOf (hi - 1)) = h)).length
    ps.length = homes.length ∧ ps.Pairwise (· < ·) ∧ (∀ p ∈ ps, p ∈ s.gapCells lo hi (hidOf p)) ∧
    (∀ p ∈ ps, ∀ q ∈ s.gapCells lo hi (hidOf p), q < p → q ∈ ps) ∧
    ((∀ h, want h ≤ (s.gapCells lo hi h).length) → ∀ h, (ps.filter (fun p => hidOf p = h)).length = want h)

/-- R84, R121: what the pass placed: each symbol stands at its new cell, the cells that it left are EMPTY, the fixed symbols and other
partitions are untouched, and the cells of areas go with their symbols, registers and all. -/
def Claims.SymbolsMoveWithTheirCells : Prop :=
  ∀ (s : State) (l : Nat) (got : List (Nat × Tok)),
    (∀ q ∈ got, (∃ p y n b, q.2.thing = .cell p y n b) ∨ ∃ y b, q.2.thing = .loaded y b) → (got.map (·.1)).Nodup →
    (∀ q ∈ got, q.1 ∉ s.pins l) → (∀ p ∈ s.areas, p.2.growth = 0) →
      let t := s.applyMove l got []
      let moves := got.filterMap (fun q => match q.2.thing with | .cell p _ _ _ => some (p, q.1) | _ => none)
      let dest (p : Nat) : Nat := ((moves.find? (fun m => m.1 = p)).map (·.2)).getD p
      let inside (p : Nat) : Prop := l * 65536 ≤ p ∧ p < (l + (s.part l).dies) * 65536
      (∀ q ∈ got, (∀ p y n b, q.2.thing = .cell p y n b → t.sym q.1 = y) ∧ (∀ y b, q.2.thing = .loaded y b → t.sym q.1 = y)) ∧
      (∀ p, p ∉ got.map (·.1) → inside p → p ∉ s.pins l → (t.sym p).kind = 0) ∧
      (∀ p, p ∉ got.map (·.1) → ¬inside p ∨ p ∈ s.pins l → t.sym p = s.sym p) ∧
      (∀ u a, s.area u = some a → t.area u = some (if a.kind = .user
        then { a with cells := a.cells.map (fun q => (q.1, { q.2 with phys := dest q.2.phys })) } else a))

/-- R123, R127, R129, R130, R131: a segment that goes out enters the directory with its summary, and its record brings the same symbols
back. The number of the sweep in the record is the partition's, the model's choice (log 95). -/
def Claims.SegmentsComeBack : Prop :=
  ∀ (s : State) (c lpos r swp : Nat) (b : Launch) (ys : List Sym) (notes : List Nat) (bs : List Byte) (tr : Bool), s.launch c = some b →
    c < 64 → lpos < 2 ^ 40 → ys.length ≤ 448 → (∀ y ∈ ys, y.kind ≠ 0 ∧ (y.valueOk = true ∨ isOpen y = true ∨ isClose y = true)) →
    (∀ i y z, ys[i]? = some y → ys[i + 1]? = some z → y.kind = 1 → z.kind = 5) →
      let g : Seg := ⟨c, lpos, ys.length, (depths ys).1, (depths ys).2, ys.any (fun y => y.kind = 1), ys.any (fun y => y.kind = 2), r, lpos,
        false, notes⟩
      (∀ l, (s.parts.find l).isSome = true → ((s.putSegment l c lpos r ys notes).part l).dir = (s.part l).dir ++ [g]) ∧
      (s.peekVirt c (b.recAddr r) 4096 = .ok (bs, tr) → bs.take (64 + 9 * ys.length) = segRecord g swp ys →
        s.loadSegment g = some (ys, false))

/-- R123: symbols that are swept out to free `k` cells leave the row alone for now, keep MARKs and the cells of areas where they are, and
leave the order of the rest; what is not freed is lacking. That MARKs and records reserved for insertions are left alone is the model's
choice (log 27). -/
def Claims.SweepOutFreesCells : Prop :=
  ∀ (s t : State) (l k lack : Nat) (resv : List Nat) (ts stay spilt : List Tok),
    (ts.filterMap (fun x => match x.thing with | .cell p _ _ _ => some p | _ => none)).Nodup →
    s.sweepOut l k resv ts = (t, stay, spilt, lack) →
      t.row = s.row ∧ stay.Sublist ts ∧ stay.length + k = ts.length + lack ∧
      (∀ x ∈ ts, ∀ p y n, x.thing = .cell p y n true → x ∈ stay) ∧
      (∀ x ∈ spilt, x ∈ ts ∧ ((∃ u, x.thing = .growth u) ∨ ∃ i j y, x.thing = .ins i j y))

/-- R130: a segment is taken in when its gap has cells for its symbols, in its place among the things of the gap, and leaves the directory;
else it stays out. Where its symbols count is the model's choice (log 91). -/
def Claims.SegmentsAreTakenIn : Prop :=
  ∀ (s0 s : State) (l base top max : Nat) (pins : List Nat) (got : List (Seg × List Sym)) (g : Seg) (ts : List Tok) (x : Tok),
    ts.find? (fun t => t.thing = .seg g) = some x →
      let lo := (gapBounds base top pins x.gap).1
      let hi := (gapBounds base top pins x.gap).2
      let n := (solid (ts.filter (fun t => t.gap = x.gap))).length
      (s.gapSize lo hi < n + g.count → s0.takeIn l base top pins (max + 1) got [g] s ts = (s, ts)) ∧
      (∀ ys bad, n + g.count ≤ s.gapSize lo hi → s.loadSegment g = some (ys, bad) → joinsWell (s0.items g.ctx) got g ys = true →
        ∃ t, s0.takeIn l base top pins (max + 1) got [g] s ts = (t, expandSeg g ys ts) ∧ g ∉ (t.part l).dir ∧ t.row = s.row)

/-- R13, R121: the sweep of a partition with one running context leaves in its row what the prefix pass and the move pass leave, the
transit bits of its tiles aside. -/
def Claims.SweepsMoveTheRow : Prop :=
  ∀ (s : State) (l c : Nat) (x : Ctx) (p : Part), s.stage = 7 → s.quiesced l = false → s.parts.find l = some p → s.ctxs = [(c, x)] →
    x.part = l → x.status = .running → s.leases = [] → s.triggers = [] →
      let m := (((s.modPart l (fun p => { p with sweep := p.sweep + 1 })).sendControl).discover c).movePass l
      ∃ t, exec (.sweep l) s = .next t ∧
        ∀ q, (t.sym q).kind = (m.sym q).kind ∧ (t.sym q).value = (m.sym q).value ∧ (t.sym q).poison = (m.sym q).poison

/-- The depths of a sweep, the places of its move pass, and segments going out and coming in. Where a restored symbol beyond its gap counts
is the model's choice (log 59). -/
def Obligations.MovePassAndSegments : Prop :=
  Claims.DepthsAreWritten ∧ Claims.GapsAreCompacted ∧ Claims.SymbolsMoveWithTheirCells ∧ Claims.SegmentsComeBack ∧
    Claims.SweepOutFreesCells ∧ Claims.SegmentsAreTakenIn ∧ Claims.SweepsMoveTheRow

namespace Sys2Proof.Claims

/-- An object of an expression: an atom, or a sequence of objects between `<` and `>`. -/
inductive Obj : List Sym → Prop
  | atom (y : Sym) : y.kind ≠ 1 → y.kind ≠ 2 → y.kind ≠ 3 → y.kind ≠ 4 → Obj [y]
  | seq (a b : Sym) (xs : List (List Sym)) : a.kind = 3 → b.kind = 4 → (∀ x ∈ xs, Obj x) → Obj (a :: xs.flatten ++ [b])

/-- An application and a sequence, as new symbols. -/
def app (f : List Sym) (xs : List (List Sym)) : List Sym := ⟨1, false, false, 0⟩ :: f ++ xs.flatten ++ [⟨2, false, false, 0⟩]
def sq (xs : List (List Sym)) : List Sym := ⟨3, false, false, 0⟩ :: xs.flatten ++ [⟨4, false, false, 0⟩]

/-- The combining forms: id, operands and result (Table 7.2), for an OPER `f`, another `g`, an INT `n`, an object `x` and the objects
`xs` of a sequence. -/
def forms (f g n x : List Sym) (i : Int) (xs : List (List Sym)) : List (Nat × List (List Sym) × Option (List Sym)) :=
  [(0xF00, [f, sq xs], some (sq (xs.map (fun y => app f [y])))),
   (0xF02, [f, g, x], some (app f [app g [x]])), (0xF03, [f, g, x], some (sq [app f [x], app g [x]])),
   (0xF04, [n, x, sq xs], some (if i ≠ 0 then x else sq xs)), (0xF04, [n, f, g, x], some (app (if i ≠ 0 then f else g) [x])),
   (0xF05, [n, sq xs], if 1 ≤ i then xs[i.toNat - 1]? else none), (0xF06, [x], some x), (0xF07, [x, sq xs], some x),
   (0xF08, [sq xs], some [⟨6, false, false, BitVec.ofNat 64 xs.length⟩]),
   (0xF09, [x, sq xs], some (sq (xs.map (fun y => sq [x, y])))), (0xF0A, [sq xs, x], some (sq (xs.map (fun y => sq [y, x])))),
   (0xF0C, [x, sq xs], some (sq (x :: xs))), (0xF0D, [sq xs, x], some (sq (xs ++ [x])))]

end Sys2Proof.Claims

/-- R140: an active area of a combining form whose operands are of the form's shapes ends with the result of Table 7.2 stated by its
cells, which all commit; an operand of the wrong shape, or a pick outside its sequence, holds the area with OPERATOR_INVALID. Which cell
the hold names, and the brackets of a result, are the model's choices (log 42). -/
def Obligations.CombiningForms : Prop :=
  (∀ xs : List (List Sym), (∀ x ∈ xs, Claims.Obj x) → splitObjs xs.flatten 0 [] = xs) ∧
  (∀ (f g n : Sym) (x : List Sym) (xs : List (List Sym)), f.kind = 5 → g.kind = 5 → n.kind = 6 → Claims.Obj x →
    (∀ z ∈ xs, Claims.Obj z) → ∀ p ∈ Claims.forms [f] [g] [n] x n.value.toInt xs,
      badOperand (formShape p.1 p.2.1.length) p.2.1 0 = none ∧ formResult p.1 p.2.1 = p.2.2) ∧
  (∀ (s : State) (u : Nat) (a : Area) (y z w : Sym) (os : List (List Sym)), s.area u = some a → a.kind = .user → a.phase = .active →
    0xF00 ≤ a.op → a.op ≤ 0xF0D → s.inTransit a = false → ((s.ctx a.ctx).map Ctx.live).getD false = true →
    a.cells.map (fun p => s.sym p.2.phys) = y :: z :: os.flatten ++ [w] → (∀ o ∈ os, Claims.Obj o) →
      (∀ i, badOperand (formShape a.op os.length) os 0 = some i →
        exec (.combiningFormApplied u) s = .next (s.holdNoInstr u 0x42 (2 + ((os.take i).map List.length).sum))) ∧
      (badOperand (formShape a.op os.length) os 0 = none → (∀ o ∈ os.head?, ∀ v ∈ o, v.poison = false) →
        (formResult a.op os = none → exec (.combiningFormApplied u) s = .next (s.holdNoInstr u 0x42 2)) ∧
        (∀ ys, formResult a.op os = some ys →
          exec (.combiningFormApplied u) s = .next ((s.modArea u (fun a => stateForm a ys)).ended u (a.cells.length - 1)))))

/-- R17, R316, R322, R327–R329: a context that waits as long as its interval is frozen with HANG, one whose area is held longer with
WATCHDOG; the oldest requested invocation starts on a free supervisor cell of its hearth; a pre-emption takes effect with the
sweep after its command, and its save operator is asked for when all its areas are suspended; the oldest dump is written, journalled,
and its context torn down. What a dump lists of a context that goes on, when a pre-emption takes effect, what an invocation's area has
in its registers, and which supervisor cell is taken are the model's choices (logs 64, 77, 89 and 10). -/
def Obligations.ContextEnds : Prop :=
  ∀ (s : State) (c u h : Nat) (x : Ctx) (l : Launch), s.ctx c = some x → x.launch = some l →
    let interval := if l.wdog = 0 then 1048576 else l.wdog
    let frozen (f : BitVec 8) (area : Nat) (addr pc : Word) (s : State) : State :=
      { s.modCtx c (fun y => { y with status := .frozen }) with dumps := s.dumps ++ [⟨c, f, area, addr, pc, false, f = 0x60, s.ctxSweep c⟩] }
    (x.status = .running → interval ≤ x.idle → exec (.hang c) s = .next (frozen 0x60 0 0 0 s)) ∧
    (x.status ≠ .running ∨ x.idle < interval → exec (.hang c) s = .next s) ∧
    (∀ a, s.area u = some a → a.ctx = c → x.status ≠ .dead → x.status ≠ .frozen →
      (∀ t, interval < s.ctxSweep c - a.since → a.kind = .user → a.phase = .held → a.trap = some t →
        exec (.watchdog u) s = .next (frozen 0x61 (c * 2 ^ 58 + a.pos) t.faddr t.fpc (s.unclaim u))) ∧
      (interval < s.ctxSweep c - a.since → a.kind = .save ∨ a.kind = .restore → exec (.watchdog u) s = .next (frozen 0x61 0 0 0 s)) ∧
      (s.ctxSweep c - a.since ≤ interval → exec (.watchdog u) s = .next s)) ∧
    (∀ a r k, s.areas = [(u, a)] → a.ctx = c → a.kind.supervisor = true → x.live = true →
      (∃ p ∈ a.cells, p.2.hid = h ∧ p.2.sup = none) → s.copyFor h u c a.op = some r →
      s.freeSup h = some k →
        let s1 := match a.kind with | .trap v => s.finishOps v | _ => s
        k < 4 ∧ k ∉ s.busySup h ∧ exec (.supervisorInvocationStart h) s = .next (s1.tickFree.sendControl.modArea u (fun a => { a with
          phase := .active
          entry := some (a.entry.getD r.entry)
          code := a.code.set h r.code
          cells := a.cells.map (fun p => if p.2.hid = h then (p.1, { p.2 with sup := some k }) else p) }))) ∧
    (x.status = .preempting → x.since < (s.part x.part).sweep → exec (.preemptionEffect c) s = .next
      ((s.userAreas c).foldl (fun s p => s.stopArea p.1 none) (s.modCtx c (fun y => { y with status := .stopping })))) ∧
    (x.status = .preempting → (s.part x.part).sweep ≤ x.since → exec (.preemptionEffect c) s = .next s) ∧
    (x.status = .stopping → (∀ p ∈ s.userAreas c, p.2.phase = .suspended) → s.evacuatesCells c = false →
      exec (.saveOperatorStart c) s = .next ((s.modCtx c (fun y => { y with status := .saving })).requestOperator c .save l.saveop)) ∧
    (∀ (d : Dump) (r : List Dump), s.dumps = d :: r → d.ctx = c → d.cut = false → d.hang = false ∨ x.hangpol = false →
      let room := (l.hangsize - 64) / 64
      let es := s.dumpEntries d
      let n := min room es.length
      let head := dumpHeader d es.length n (decide (room < es.length))
      let out : List (Nat × List Byte) :=
        ((List.range n).zip es).map (fun p => (l.hangaddr + 64 + 64 * p.1, p.2)) ++ [(l.hangaddr, head)]
      let rest (t : State) (st : Nat) : State :=
        (({ t with dumps := r } : State).journalAdd 4 st 0 c 0 d.fault.toNat 0 (t.sweepOf c) 0).teardown c
      (l.hangsize < 64 → exec .dumpWrite s = .next (rest s 8)) ∧
      (64 ≤ l.hangsize → ∀ t, s.dumpBlocks c out = (t, true) → exec .dumpWrite s = .next (rest t 0)))
end

