-- ==== Sys2Proof/Laws/Encode.lean ====
section
/-!
SUPPORT. The encoder's arms, one equation for each constructor, and the fields of a word 0.
-/

namespace Sys2Proof

theorem condOf_word0 (f : BitVec 3) (b a d : BitVec 5) (c : Cond) (op : BitVec 8) (len : BitVec 2) :
    condOf (word0 f b a d c op len) = c := by
  obtain ⟨n, q⟩ := c
  simp only [condOf, word0, Cond.mk.injEq]
  constructor
  · simp only [BitVec.getLsbD_append, BitVec.getLsbD_ofBool]; simp
  · ext i hi
    simp only [BitVec.getElem_extractLsb', BitVec.getLsbD_append]
    have h1 : ¬ (10 + i < 2) := by omega
    have h2 : ¬ (10 + i - 2 < 8) := by omega
    have h3 : 10 + i - 2 - 8 < 3 := by omega
    have h4 : 10 + i - 2 - 8 = i := by omega
    rw [if_neg h1, if_neg h2, if_pos h3, h4, BitVec.getLsbD_eq_getElem hi]

theorem condOf_iword (imm : BitVec 8) (a d : BitVec 5) (c : Cond) (op : BitVec 8) : condOf (iword imm a d c op) = c := by
  obtain ⟨n, q⟩ := c
  simp only [condOf, iword, Cond.mk.injEq]
  constructor
  · simp only [BitVec.getLsbD_append, BitVec.getLsbD_ofBool]; simp
  · ext i hi
    simp only [BitVec.getElem_extractLsb', BitVec.getLsbD_append]
    have h1 : ¬ (10 + i < 2) := by omega
    have h2 : ¬ (10 + i - 2 < 8) := by omega
    have h3 : 10 + i - 2 - 8 < 3 := by omega
    have h4 : 10 + i - 2 - 8 = i := by omega
    rw [if_neg h1, if_neg h2, if_pos h3, h4, BitVec.getLsbD_eq_getElem hi]

theorem condOf_jword (off : BitVec 18) (c : Cond) (op : BitVec 8) : condOf (jword off c op) = c := by
  obtain ⟨n, q⟩ := c
  simp only [condOf, jword, Cond.mk.injEq]
  constructor
  · simp only [BitVec.getLsbD_append, BitVec.getLsbD_ofBool]; simp
  · ext i hi
    simp only [BitVec.getElem_extractLsb', BitVec.getLsbD_append]
    have h1 : ¬ (10 + i < 2) := by omega
    have h2 : ¬ (10 + i - 2 < 8) := by omega
    have h3 : 10 + i - 2 - 8 < 3 := by omega
    have h4 : 10 + i - 2 - 8 = i := by omega
    rw [if_neg h1, if_neg h2, if_pos h3, h4, BitVec.getLsbD_eq_getElem hi]

theorem encode_nop c : encode (.nop c) = [word0 (0 : BitVec 3) (0 : BitVec 5) (0 : BitVec 5) (0 : BitVec 5) c (0x00 : BitVec 8) 0] := rfl
theorem encode_commit c : encode (.commit c) = [word0 (0 : BitVec 3) (0 : BitVec 5) (0 : BitVec 5) (0 : BitVec 5) c (0x01 : BitVec 8) 0] := rfl
theorem encode_discard c : encode (.discard c) = [word0 (0 : BitVec 3) (0 : BitVec 5) (0 : BitVec 5) (0 : BitVec 5) c (0x02 : BitVec 8) 0] := rfl
theorem encode_yield c : encode (.yield c) = [word0 (0 : BitVec 3) (0 : BitVec 5) (0 : BitVec 5) (0 : BitVec 5) c (0x03 : BitVec 8) 0] := rfl
theorem encode_trap c code : encode (.trap c code) = [iword code (0 : BitVec 5) (0 : BitVec 5) c (0x04 : BitVec 8)] := rfl
theorem encode_brkpt c : encode (.brkpt c) = [word0 (0 : BitVec 3) (0 : BitVec 5) (0 : BitVec 5) (0 : BitVec 5) c (0x05 : BitVec 8) 0] := rfl
theorem encode_br c off : encode (.br c off) = [jword off c (0x06 : BitVec 8)] := rfl
theorem encode_call c off : encode (.call c off) = [jword off c (0x07 : BitVec 8)] := rfl
theorem encode_brx c a : encode (.brx c a) = [word0 (0 : BitVec 3) (0 : BitVec 5) a (0 : BitVec 5) c (0x08 : BitVec 8) 0] := rfl
theorem encode_retn c a : encode (.retn c a) = [word0 (0 : BitVec 3) (0 : BitVec 5) a (0 : BitVec 5) c (0x09 : BitVec 8) 0] := rfl
theorem encode_cmp c f d a b : encode (.cmp c f d a b) = [word0 f b a ((0 : BitVec 2) ++ d) c (0x10 : BitVec 8) 0] := rfl
theorem encode_fcmp c f d a b : encode (.fcmp c f d a b) = [word0 f b a ((0 : BitVec 2) ++ d) c (0x11 : BitVec 8) 0] := rfl
theorem encode_pand c d a b : encode (.pand c d a b) = [word0 (0 : BitVec 3) ((0 : BitVec 2) ++ b) ((0 : BitVec 2) ++ a) ((0 : BitVec 2) ++ d) c (0x12 : BitVec 8) 0] := rfl
theorem encode_por c d a b : encode (.por c d a b) = [word0 (0 : BitVec 3) ((0 : BitVec 2) ++ b) ((0 : BitVec 2) ++ a) ((0 : BitVec 2) ++ d) c (0x13 : BitVec 8) 0] := rfl
theorem encode_pxor c d a b : encode (.pxor c d a b) = [word0 (0 : BitVec 3) ((0 : BitVec 2) ++ b) ((0 : BitVec 2) ++ a) ((0 : BitVec 2) ++ d) c (0x14 : BitVec 8) 0] := rfl
theorem encode_pnot c d a : encode (.pnot c d a) = [word0 (0 : BitVec 3) (0 : BitVec 5) ((0 : BitVec 2) ++ a) ((0 : BitVec 2) ++ d) c (0x15 : BitVec 8) 0] := rfl
theorem encode_pmov c d a : encode (.pmov c d a) = [word0 (0 : BitVec 3) (0 : BitVec 5) ((0 : BitVec 2) ++ a) ((0 : BitVec 2) ++ d) c (0x16 : BitVec 8) 0] := rfl
theorem encode_sel c f d a b : encode (.sel c f d a b) = [word0 f b a d c (0x17 : BitVec 8) 0] := rfl
theorem encode_cmpiEq c d a imm : encode (.cmpiEq c d a imm) = [iword imm a ((0 : BitVec 2) ++ d) c (0x18 : BitVec 8)] := rfl
theorem encode_cmpiNe c d a imm : encode (.cmpiNe c d a imm) = [iword imm a ((0 : BitVec 2) ++ d) c (0x19 : BitVec 8)] := rfl
theorem encode_cmpiLt c d a imm : encode (.cmpiLt c d a imm) = [iword imm a ((0 : BitVec 2) ++ d) c (0x1A : BitVec 8)] := rfl
theorem encode_cmpiLe c d a imm : encode (.cmpiLe c d a imm) = [iword imm a ((0 : BitVec 2) ++ d) c (0x1B : BitVec 8)] := rfl
theorem encode_cmpiGt c d a imm : encode (.cmpiGt c d a imm) = [iword imm a ((0 : BitVec 2) ++ d) c (0x1C : BitVec 8)] := rfl
theorem encode_cmpiGe c d a imm : encode (.cmpiGe c d a imm) = [iword imm a ((0 : BitVec 2) ++ d) c (0x1D : BitVec 8)] := rfl
theorem encode_cmpiLtu c d a imm : encode (.cmpiLtu c d a imm) = [iword imm a ((0 : BitVec 2) ++ d) c (0x1E : BitVec 8)] := rfl
theorem encode_cmpiGeu c d a imm : encode (.cmpiGeu c d a imm) = [iword imm a ((0 : BitVec 2) ++ d) c (0x1F : BitVec 8)] := rfl
theorem encode_add c d a b : encode (.add c d a b) = [word0 (0 : BitVec 3) b a d c (0x20 : BitVec 8) 0] := rfl
theorem encode_sub c d a b : encode (.sub c d a b) = [word0 (0 : BitVec 3) b a d c (0x21 : BitVec 8) 0] := rfl
theorem encode_mul c d a b : encode (.mul c d a b) = [word0 (0 : BitVec 3) b a d c (0x22 : BitVec 8) 0] := rfl
theorem encode_mulhi c d a b : encode (.mulhi c d a b) = [word0 (0 : BitVec 3) b a d c (0x23 : BitVec 8) 0] := rfl
theorem encode_mulhiu c d a b : encode (.mulhiu c d a b) = [word0 (0 : BitVec 3) b a d c (0x24 : BitVec 8) 0] := rfl
theorem encode_div c d a b : encode (.div c d a b) = [word0 (0 : BitVec 3) b a d c (0x25 : BitVec 8) 0] := rfl
theorem encode_divu c d a b : encode (.divu c d a b) = [word0 (0 : BitVec 3) b a d c (0x26 : BitVec 8) 0] := rfl
theorem encode_rem c d a b : encode (.rem c d a b) = [word0 (0 : BitVec 3) b a d c (0x27 : BitVec 8) 0] := rfl
theorem encode_remu c d a b : encode (.remu c d a b) = [word0 (0 : BitVec 3) b a d c (0x28 : BitVec 8) 0] := rfl
theorem encode_and c d a b : encode (.and c d a b) = [word0 (0 : BitVec 3) b a d c (0x29 : BitVec 8) 0] := rfl
theorem encode_or c d a b : encode (.or c d a b) = [word0 (0 : BitVec 3) b a d c (0x2A : BitVec 8) 0] := rfl
theorem encode_xor c d a b : encode (.xor c d a b) = [word0 (0 : BitVec 3) b a d c (0x2B : BitVec 8) 0] := rfl
theorem encode_shl c d a b : encode (.shl c d a b) = [word0 (0 : BitVec 3) b a d c (0x2C : BitVec 8) 0] := rfl
theorem encode_shr c d a b : encode (.shr c d a b) = [word0 (0 : BitVec 3) b a d c (0x2D : BitVec 8) 0] := rfl
theorem encode_sra c d a b : encode (.sra c d a b) = [word0 (0 : BitVec 3) b a d c (0x2E : BitVec 8) 0] := rfl
theorem encode_rol c d a b : encode (.rol c d a b) = [word0 (0 : BitVec 3) b a d c (0x2F : BitVec 8) 0] := rfl
theorem encode_min c d a b : encode (.min c d a b) = [word0 (0 : BitVec 3) b a d c (0x30 : BitVec 8) 0] := rfl
theorem encode_max c d a b : encode (.max c d a b) = [word0 (0 : BitVec 3) b a d c (0x31 : BitVec 8) 0] := rfl
theorem encode_minu c d a b : encode (.minu c d a b) = [word0 (0 : BitVec 3) b a d c (0x32 : BitVec 8) 0] := rfl
theorem encode_maxu c d a b : encode (.maxu c d a b) = [word0 (0 : BitVec 3) b a d c (0x33 : BitVec 8) 0] := rfl
theorem encode_abs c d a : encode (.abs c d a) = [word0 (0 : BitVec 3) (0 : BitVec 5) a d c (0x34 : BitVec 8) 0] := rfl
theorem encode_neg c d a : encode (.neg c d a) = [word0 (0 : BitVec 3) (0 : BitVec 5) a d c (0x35 : BitVec 8) 0] := rfl
theorem encode_clz c d a : encode (.clz c d a) = [word0 (0 : BitVec 3) (0 : BitVec 5) a d c (0x36 : BitVec 8) 0] := rfl
theorem encode_ctz c d a : encode (.ctz c d a) = [word0 (0 : BitVec 3) (0 : BitVec 5) a d c (0x37 : BitVec 8) 0] := rfl
theorem encode_popc c d a : encode (.popc c d a) = [word0 (0 : BitVec 3) (0 : BitVec 5) a d c (0x38 : BitVec 8) 0] := rfl
theorem encode_sext c f d a : encode (.sext c f d a) = [word0 f (0 : BitVec 5) a d c (0x39 : BitVec 8) 0] := rfl
theorem encode_zext c f d a : encode (.zext c f d a) = [word0 f (0 : BitVec 5) a d c (0x3A : BitVec 8) 0] := rfl
theorem encode_mov c d a : encode (.mov c d a) = [word0 (0 : BitVec 3) (0 : BitVec 5) a d c (0x3B : BitVec 8) 0] := rfl
theorem encode_addi c d a imm : encode (.addi c d a imm) = [iword imm a d c (0x40 : BitVec 8)] := rfl
theorem encode_andi c d a imm : encode (.andi c d a imm) = [iword imm a d c (0x41 : BitVec 8)] := rfl
theorem encode_ori c d a imm : encode (.ori c d a imm) = [iword imm a d c (0x42 : BitVec 8)] := rfl
theorem encode_xori c d a imm : encode (.xori c d a imm) = [iword imm a d c (0x43 : BitVec 8)] := rfl
theorem encode_shli c d a n : encode (.shli c d a n) = [iword ((0 : BitVec 2) ++ n) a d c (0x44 : BitVec 8)] := rfl
theorem encode_shri c d a n : encode (.shri c d a n) = [iword ((0 : BitVec 2) ++ n) a d c (0x45 : BitVec 8)] := rfl
theorem encode_srai c d a n : encode (.srai c d a n) = [iword ((0 : BitVec 2) ++ n) a d c (0x46 : BitVec 8)] := rfl
theorem encode_roli c d a n : encode (.roli c d a n) = [iword ((0 : BitVec 2) ++ n) a d c (0x47 : BitVec 8)] := rfl
theorem encode_movi c d imm : encode (.movi c d imm) = [iword imm (0 : BitVec 5) d c (0x48 : BitVec 8)] := rfl
theorem encode_fadd c rnd d a b : encode (.fadd c rnd d a b) = [word0 rnd b a d c (0x50 : BitVec 8) 0] := rfl
theorem encode_fsub c rnd d a b : encode (.fsub c rnd d a b) = [word0 rnd b a d c (0x51 : BitVec 8) 0] := rfl
theorem encode_fmul c rnd d a b : encode (.fmul c rnd d a b) = [word0 rnd b a d c (0x52 : BitVec 8) 0] := rfl
theorem encode_fdiv c rnd d a b : encode (.fdiv c rnd d a b) = [word0 rnd b a d c (0x53 : BitVec 8) 0] := rfl
theorem encode_fsqrt c f d a : encode (.fsqrt c f d a) = [word0 f (0 : BitVec 5) a d c (0x54 : BitVec 8) 0] := rfl
theorem encode_fmin c d a b : encode (.fmin c d a b) = [word0 (0 : BitVec 3) b a d c (0x55 : BitVec 8) 0] := rfl
theorem encode_fmax c d a b : encode (.fmax c d a b) = [word0 (0 : BitVec 3) b a d c (0x56 : BitVec 8) 0] := rfl
theorem encode_fabs c d a : encode (.fabs c d a) = [word0 (0 : BitVec 3) (0 : BitVec 5) a d c (0x57 : BitVec 8) 0] := rfl
theorem encode_fneg c d a : encode (.fneg c d a) = [word0 (0 : BitVec 3) (0 : BitVec 5) a d c (0x58 : BitVec 8) 0] := rfl
theorem encode_fclass c d a : encode (.fclass c d a) = [word0 (0 : BitVec 3) (0 : BitVec 5) a d c (0x59 : BitVec 8) 0] := rfl
theorem encode_symrd c d : encode (.symrd c d) = [word0 (0 : BitVec 3) (0 : BitVec 5) (0 : BitVec 5) d c (0x60 : BitVec 8) 0] := rfl
theorem encode_symkd c d : encode (.symkd c d) = [word0 (0 : BitVec 3) (0 : BitVec 5) (0 : BitVec 5) d c (0x61 : BitVec 8) 0] := rfl
theorem encode_mksym c k d a : encode (.mksym c k d a) = [word0 (0 : BitVec 3) ((0 : BitVec 1) ++ k) a d c (0x62 : BitVec 8) 0] := rfl
theorem encode_movs c d x : encode (.movs c d x) = [word0 (0 : BitVec 3) (0 : BitVec 5) x d c (0x63 : BitVec 8) 0] := rfl
theorem encode_symget c f d a : encode (.symget c f d a) = [word0 f (0 : BitVec 5) a d c (0x64 : BitVec 8) 0] := rfl
theorem encode_bcast c d a b : encode (.bcast c d a b) = [word0 (0 : BitVec 3) b a d c (0x65 : BitVec 8) 0] := rfl
theorem encode_reduceInt c f d a : encode (.reduceInt c f d a) = [word0 f (0 : BitVec 5) a d c (0x66 : BitVec 8) 0] := rfl
theorem encode_reduceFp32 c f d a : encode (.reduceFp32 c f d a) = [word0 f (0 : BitVec 5) a d c (0x67 : BitVec 8) 0] := rfl
theorem encode_scanInt c f d a : encode (.scanInt c f d a) = [word0 f (0 : BitVec 5) a d c (0x68 : BitVec 8) 0] := rfl
theorem encode_scanFp32 c f d a : encode (.scanFp32 c f d a) = [word0 f (0 : BitVec 5) a d c (0x69 : BitVec 8) 0] := rfl
theorem encode_count c d a : encode (.count c d a) = [word0 (0 : BitVec 3) (0 : BitVec 5) ((0 : BitVec 2) ++ a) d c (0x6A : BitVec 8) 0] := rfl
theorem encode_first c d a : encode (.first c d a) = [word0 (0 : BitVec 3) (0 : BitVec 5) ((0 : BitVec 2) ++ a) d c (0x6B : BitVec 8) 0] := rfl
theorem encode_areabar c : encode (.areabar c) = [word0 (0 : BitVec 3) (0 : BitVec 5) (0 : BitVec 5) (0 : BitVec 5) c (0x6C : BitVec 8) 0] := rfl
theorem encode_emit c k a : encode (.emit c k a) = [word0 (0 : BitVec 3) (0 : BitVec 5) a ((0 : BitVec 1) ++ k) c (0x6D : BitVec 8) 0] := rfl
theorem encode_emitn c k a b : encode (.emitn c k a b) = [word0 (0 : BitVec 3) b a ((0 : BitVec 1) ++ k) c (0x6E : BitVec 8) 0] := rfl
theorem encode_insert c a : encode (.insert c a) = [word0 (0 : BitVec 3) (0 : BitVec 5) a (0 : BitVec 5) c (0x6F : BitVec 8) 0] := rfl
theorem encode_delete c : encode (.delete c) = [word0 (0 : BitVec 3) (0 : BitVec 5) (0 : BitVec 5) (0 : BitVec 5) c (0x70 : BitVec 8) 0] := rfl
theorem encode_opld c a : encode (.opld c a) = [word0 (0 : BitVec 3) (0 : BitVec 5) a (0 : BitVec 5) c (0x71 : BitVec 8) 0] := rfl
theorem encode_movd c d a : encode (.movd c d a) = [word0 (0 : BitVec 3) (0 : BitVec 5) a ((0 : BitVec 2) ++ d) c (0x72 : BitVec 8) 0] := rfl
theorem encode_movds c d a : encode (.movds c d a) = [word0 (0 : BitVec 3) (0 : BitVec 5) ((0 : BitVec 2) ++ a) d c (0x73 : BitVec 8) 0] := rfl
theorem encode_dset c f d a : encode (.dset c f d a) = [word0 f (0 : BitVec 5) a ((0 : BitVec 2) ++ d) c (0x74 : BitVec 8) 0] := rfl
theorem encode_talloc c d a : encode (.talloc c d a) = [word0 (0 : BitVec 3) (0 : BitVec 5) a ((0 : BitVec 2) ++ d) c (0x75 : BitVec 8) 0] := rfl
theorem encode_tfree c a : encode (.tfree c a) = [word0 (0 : BitVec 3) (0 : BitVec 5) ((0 : BitVec 2) ++ a) (0 : BitVec 5) c (0x76 : BitVec 8) 0] := rfl
theorem encode_qfence c m : encode (.qfence c m) = [word0 (0 : BitVec 3) ((0 : BitVec 1) ++ m) (0 : BitVec 5) (0 : BitVec 5) c (0x77 : BitVec 8) 0] := rfl
theorem encode_qwait c m : encode (.qwait c m) = [word0 (0 : BitVec 3) ((0 : BitVec 1) ++ m) (0 : BitVec 5) (0 : BitVec 5) c (0x78 : BitVec 8) 0] := rfl
theorem encode_slotrel c a b : encode (.slotrel c a b) = [word0 (0 : BitVec 3) b a (0 : BitVec 5) c (0x79 : BitVec 8) 0] := rfl
theorem encode_unsubs c a : encode (.unsubs c a) = [word0 (0 : BitVec 3) (0 : BitVec 5) a (0 : BitVec 5) c (0x7A : BitVec 8) 0] := rfl
theorem encode_binit c a b : encode (.binit c a b) = [word0 (0 : BitVec 3) b a (0 : BitVec 5) c (0x7B : BitVec 8) 0] := rfl
theorem encode_barv c a : encode (.barv c a) = [word0 (0 : BitVec 3) (0 : BitVec 5) a (0 : BitVec 5) c (0x7C : BitVec 8) 0] := rfl
theorem encode_bexp c a b : encode (.bexp c a b) = [word0 (0 : BitVec 3) b a (0 : BitVec 5) c (0x7D : BitVec 8) 0] := rfl
theorem encode_bwait c d a b : encode (.bwait c d a b) = [word0 (0 : BitVec 3) b a ((0 : BitVec 2) ++ d) c (0x7E : BitVec 8) 0] := rfl
theorem encode_btry c d a b : encode (.btry c d a b) = [word0 (0 : BitVec 3) b a ((0 : BitVec 2) ++ d) c (0x7F : BitVec 8) 0] := rfl
theorem encode_fence c scope ord : encode (.fence c scope ord) = [word0 scope ((0 : BitVec 3) ++ ord) (0 : BitVec 5) (0 : BitVec 5) c (0x80 : BitVec 8) 0] := rfl
theorem encode_popset c pri a b : encode (.popset c pri a b) = [word0 ((0 : BitVec 1) ++ pri) b a (0 : BitVec 5) c (0x81 : BitVec 8) 0] := rfl
theorem encode_evsend c pri a b : encode (.evsend c pri a b) = [word0 ((0 : BitVec 1) ++ pri) b a (0 : BitVec 5) c (0x82 : BitVec 8) 0] := rfl
theorem encode_accrd c pri d a : encode (.accrd c pri d a) = [word0 ((0 : BitVec 1) ++ pri) (0 : BitVec 5) a d c (0x83 : BitVec 8) 0] := rfl
theorem encode_accwr c pri a b : encode (.accwr c pri a b) = [word0 ((0 : BitVec 1) ++ pri) b a (0 : BitVec 5) c (0x84 : BitVec 8) 0] := rfl
theorem encode_accfl c pri a b : encode (.accfl c pri a b) = [word0 ((0 : BitVec 1) ++ pri) b a (0 : BitVec 5) c (0x85 : BitVec 8) 0] := rfl
theorem encode_evwait c a : encode (.evwait c a) = [word0 (0 : BitVec 3) (0 : BitVec 5) a (0 : BitVec 5) c (0x86 : BitVec 8) 0] := rfl
theorem encode_caprd c d a : encode (.caprd c d a) = [word0 (0 : BitVec 3) (0 : BitVec 5) a d c (0x87 : BitVec 8) 0] := rfl
theorem encode_susrd c d a : encode (.susrd c d a) = [word0 (0 : BitVec 3) (0 : BitVec 5) a d c (0x88 : BitVec 8) 0] := rfl
theorem encode_tretResume c : encode (.tretResume c) = [word0 (0 : BitVec 3) (0 : BitVec 5) (0 : BitVec 5) (0 : BitVec 5) c (0x89 : BitVec 8) 0] := rfl
theorem encode_tretSkip c : encode (.tretSkip c) = [word0 (1 : BitVec 3) (0 : BitVec 5) (0 : BitVec 5) (0 : BitVec 5) c (0x89 : BitVec 8) 0] := rfl
theorem encode_tretDiscard c : encode (.tretDiscard c) = [word0 (2 : BitVec 3) (0 : BitVec 5) (0 : BitVec 5) (0 : BitVec 5) c (0x89 : BitVec 8) 0] := rfl
theorem encode_tretKill c : encode (.tretKill c) = [word0 (3 : BitVec 3) (0 : BitVec 5) (0 : BitVec 5) (0 : BitVec 5) c (0x89 : BitVec 8) 0] := rfl
theorem encode_areard c d a : encode (.areard c d a) = [word0 (0 : BitVec 3) (0 : BitVec 5) a d c (0x8A : BitVec 8) 0] := rfl
theorem encode_areawr c a b : encode (.areawr c a b) = [word0 (0 : BitVec 3) b a (0 : BitVec 5) c (0x8B : BitVec 8) 0] := rfl
theorem encode_savec c a : encode (.savec c a) = [word0 (0 : BitVec 3) (0 : BitVec 5) a (0 : BitVec 5) c (0x8C : BitVec 8) 0] := rfl
theorem encode_restc c a : encode (.restc c a) = [word0 (0 : BitVec 3) (0 : BitVec 5) a (0 : BitVec 5) c (0x8D : BitVec 8) 0] := rfl
theorem encode_tlbinv c a b : encode (.tlbinv c a b) = [word0 (0 : BitVec 3) b a (0 : BitVec 5) c (0x8E : BitVec 8) 0] := rfl
theorem encode_rdctr c f d a : encode (.rdctr c f d a) = [word0 f (0 : BitVec 5) a d c (0x8F : BitVec 8) 0] := rfl
theorem encode_mark c a : encode (.mark c a) = [word0 (0 : BitVec 3) (0 : BitVec 5) a (0 : BitVec 5) c (0x90 : BitVec 8) 0] := rfl
theorem encode_hostsig c a b : encode (.hostsig c a b) = [word0 (0 : BitVec 3) b a (0 : BitVec 5) c (0x91 : BitVec 8) 0] := rfl
theorem encode_brc c f a b off : encode (.brc c f a b off) = [word0 f b a (0 : BitVec 5) c (0x00 : BitVec 8) 1, (off ++ (0 : BitVec 14))] := rfl
theorem encode_loop c d off : encode (.loop c d off) = [word0 (0 : BitVec 3) (0 : BitVec 5) (0 : BitVec 5) d c (0x01 : BitVec 8) 1, (off ++ (0 : BitVec 14))] := rfl
theorem encode_bext c d a w lo : encode (.bext c d a w lo) = [word0 (0 : BitVec 3) (0 : BitVec 5) a d c (0x02 : BitVec 8) 1, ((0 : BitVec 20) ++ w ++ lo)] := rfl
theorem encode_bins c d a w lo : encode (.bins c d a w lo) = [word0 (0 : BitVec 3) (0 : BitVec 5) a d c (0x03 : BitVec 8) 1, ((0 : BitVec 20) ++ w ++ lo)] := rfl
theorem encode_ffma c rnd d a b e : encode (.ffma c rnd d a b e) = [word0 rnd b a d c (0x04 : BitVec 8) 1, ((0 : BitVec 27) ++ e)] := rfl
theorem encode_fcvt c d a sat rnd dt st : encode (.fcvt c d a sat rnd dt st) = [word0 (0 : BitVec 3) (0 : BitVec 5) a d c (0x05 : BitVec 8) 1, ((0 : BitVec 20) ++ BitVec.ofBool sat ++ rnd ++ dt ++ st)] := rfl
theorem encode_evsendt c pri a b e : encode (.evsendt c pri a b e) = [word0 ((0 : BitVec 1) ++ pri) b a (0 : BitVec 5) c (0x06 : BitVec 8) 1, ((0 : BitVec 27) ++ e)] := rfl
theorem encode_csrrd c d num : encode (.csrrd c d num) = [word0 (0 : BitVec 3) (0 : BitVec 5) (0 : BitVec 5) d c (0x08 : BitVec 8) 1, ((0 : BitVec 20) ++ num)] := rfl
theorem encode_csrwr c a num : encode (.csrwr c a num) = [word0 (0 : BitVec 3) (0 : BitVec 5) a (0 : BitVec 5) c (0x09 : BitVec 8) 1, ((0 : BitVec 20) ++ num)] := rfl
theorem encode_ld c d a m : encode (.ld c d a m) = [word0 (0 : BitVec 3) (0 : BitVec 5) a d c (0x10 : BitVec 8) 1, mwordBits m] := rfl
theorem encode_st c a b m : encode (.st c a b m) = [word0 (0 : BitVec 3) b a (0 : BitVec 5) c (0x11 : BitVec 8) 1, mwordBits m] := rfl
theorem encode_pref c a m : encode (.pref c a m) = [word0 (0 : BitVec 3) (0 : BitVec 5) a (0 : BitVec 5) c (0x12 : BitVec 8) 1, mwordBits m] := rfl
theorem encode_aadd c d a b m : encode (.aadd c d a b m) = [word0 (0 : BitVec 3) b a d c (0x13 : BitVec 8) 1, mwordBits m] := rfl
theorem encode_afadd c d a b m : encode (.afadd c d a b m) = [word0 (0 : BitVec 3) b a d c (0x14 : BitVec 8) 1, mwordBits m] := rfl
theorem encode_amin c d a b m : encode (.amin c d a b m) = [word0 (0 : BitVec 3) b a d c (0x15 : BitVec 8) 1, mwordBits m] := rfl
theorem encode_amax c d a b m : encode (.amax c d a b m) = [word0 (0 : BitVec 3) b a d c (0x16 : BitVec 8) 1, mwordBits m] := rfl
theorem encode_aand c d a b m : encode (.aand c d a b m) = [word0 (0 : BitVec 3) b a d c (0x17 : BitVec 8) 1, mwordBits m] := rfl
theorem encode_aor c d a b m : encode (.aor c d a b m) = [word0 (0 : BitVec 3) b a d c (0x18 : BitVec 8) 1, mwordBits m] := rfl
theorem encode_axor c d a b m : encode (.axor c d a b m) = [word0 (0 : BitVec 3) b a d c (0x19 : BitVec 8) 1, mwordBits m] := rfl
theorem encode_aswp c d a b m : encode (.aswp c d a b m) = [word0 (0 : BitVec 3) b a d c (0x1A : BitVec 8) 1, mwordBits m] := rfl
theorem encode_acas c d a b m : encode (.acas c d a b m) = [word0 (0 : BitVec 3) b a d c (0x1B : BitVec 8) 1, mwordBits m] := rfl
theorem encode_waita c f a b m : encode (.waita c f a b m) = [word0 f b a (0 : BitVec 5) c (0x1C : BitVec 8) 1, mwordBits m] := rfl
theorem encode_cpyin c pri ctr d a b m : encode (.cpyin c pri ctr d a b m) = [word0 (BitVec.ofBool ctr ++ pri) b a ((0 : BitVec 2) ++ d) c (0x20 : BitVec 8) 1, mwordBits m] := rfl
theorem encode_cpyout c pri ctr d a b m : encode (.cpyout c pri ctr d a b m) = [word0 (BitVec.ofBool ctr ++ pri) b a ((0 : BitVec 2) ++ d) c (0x21 : BitVec 8) 1, mwordBits m] := rfl
theorem encode_cpyt c pri ctr d a b m : encode (.cpyt c pri ctr d a b m) = [word0 (BitVec.ofBool ctr ++ pri) b ((0 : BitVec 2) ++ a) ((0 : BitVec 2) ++ d) c (0x22 : BitVec 8) 1, mwordBits m] := rfl
theorem encode_cpyx c pri ctr d a b m : encode (.cpyx c pri ctr d a b m) = [word0 (BitVec.ofBool ctr ++ pri) b a ((0 : BitVec 2) ++ d) c (0x23 : BitVec 8) 1, mwordBits m] := rfl
theorem encode_gather c pri d a b m : encode (.gather c pri d a b m) = [word0 ((0 : BitVec 1) ++ pri) ((0 : BitVec 2) ++ b) a ((0 : BitVec 2) ++ d) c (0x24 : BitVec 8) 1, mwordBits m] := rfl
theorem encode_scatter c pri d a b m : encode (.scatter c pri d a b m) = [word0 ((0 : BitVec 1) ++ pri) ((0 : BitVec 2) ++ b) a ((0 : BitVec 2) ++ d) c (0x25 : BitVec 8) 1, mwordBits m] := rfl
theorem encode_scatadd c pri d a b m : encode (.scatadd c pri d a b m) = [word0 ((0 : BitVec 1) ++ pri) ((0 : BitVec 2) ++ b) a ((0 : BitVec 2) ++ d) c (0x26 : BitVec 8) 1, mwordBits m] := rfl
theorem encode_subscr c pri d a b m : encode (.subscr c pri d a b m) = [word0 ((0 : BitVec 1) ++ pri) b a d c (0x27 : BitVec 8) 1, mwordBits m] := rfl
theorem encode_slotwb c pri a b m : encode (.slotwb c pri a b m) = [word0 ((0 : BitVec 1) ++ pri) b a (0 : BitVec 5) c (0x28 : BitVec 8) 1, mwordBits m] := rfl
theorem encode_cadd c a b m : encode (.cadd c a b m) = [word0 (0 : BitVec 3) b a (0 : BitVec 5) c (0x29 : BitVec 8) 1, mwordBits m] := rfl
theorem encode_cwait c a b m : encode (.cwait c a b m) = [word0 (0 : BitVec 3) b a (0 : BitVec 5) c (0x2A : BitVec 8) 1, mwordBits m] := rfl
theorem encode_tld c pri d a m : encode (.tld c pri d a m) = [word0 ((0 : BitVec 1) ++ pri) (0 : BitVec 5) a ((0 : BitVec 2) ++ d) c (0x2B : BitVec 8) 1, mwordBits m] := rfl
theorem encode_tst c pri a b m : encode (.tst c pri a b m) = [word0 ((0 : BitVec 1) ++ pri) ((0 : BitVec 2) ++ b) a (0 : BitVec 5) c (0x2C : BitVec 8) 1, mwordBits m] := rfl
theorem encode_mma c f d a b w : encode (.mma c f d a b w) = [word0 f ((0 : BitVec 2) ++ b) ((0 : BitVec 2) ++ a) ((0 : BitVec 2) ++ d) c (0x40 : BitVec 8) 1, ewordBits w] := rfl
theorem encode_mmai c f d a b w : encode (.mmai c f d a b w) = [word0 f ((0 : BitVec 2) ++ b) ((0 : BitVec 2) ++ a) ((0 : BitVec 2) ++ d) c (0x41 : BitVec 8) 1, ewordBits w] := rfl
theorem encode_mmax c f d a b w : encode (.mmax c f d a b w) = [word0 f ((0 : BitVec 2) ++ b) ((0 : BitVec 2) ++ a) ((0 : BitVec 2) ++ d) c (0x42 : BitVec 8) 1, ewordBits w] := rfl
theorem encode_scacc c f d a b w : encode (.scacc c f d a b w) = [word0 f ((0 : BitVec 2) ++ b) ((0 : BitVec 2) ++ a) ((0 : BitVec 2) ++ d) c (0x43 : BitVec 8) 1, ewordBits w] := rfl
theorem encode_ttrn c f d a b w : encode (.ttrn c f d a b w) = [word0 f ((0 : BitVec 2) ++ b) ((0 : BitVec 2) ++ a) ((0 : BitVec 2) ++ d) c (0x44 : BitVec 8) 1, ewordBits w] := rfl
theorem encode_tcvt c f d a b w : encode (.tcvt c f d a b w) = [word0 f ((0 : BitVec 2) ++ b) ((0 : BitVec 2) ++ a) ((0 : BitVec 2) ++ d) c (0x45 : BitVec 8) 1, ewordBits w] := rfl
theorem encode_cxsort c f d a b w : encode (.cxsort c f d a b w) = [word0 f ((0 : BitVec 2) ++ b) ((0 : BitVec 2) ++ a) ((0 : BitVec 2) ++ d) c (0x46 : BitVec 8) 1, ewordBits w] := rfl
theorem encode_cxmerge c f d a b w : encode (.cxmerge c f d a b w) = [word0 f ((0 : BitVec 2) ++ b) ((0 : BitVec 2) ++ a) ((0 : BitVec 2) ++ d) c (0x47 : BitVec 8) 1, ewordBits w] := rfl
theorem encode_tzero c f d a b w : encode (.tzero c f d a b w) = [word0 f ((0 : BitVec 2) ++ b) ((0 : BitVec 2) ++ a) ((0 : BitVec 2) ++ d) c (0x48 : BitVec 8) 1, ewordBits w] := rfl
theorem encode_tfill c f d a b w : encode (.tfill c f d a b w) = [word0 f b ((0 : BitVec 2) ++ a) ((0 : BitVec 2) ++ d) c (0x49 : BitVec 8) 1, ewordBits w] := rfl
theorem encode_tlay c f d a b w : encode (.tlay c f d a b w) = [word0 f ((0 : BitVec 2) ++ b) ((0 : BitVec 2) ++ a) ((0 : BitVec 2) ++ d) c (0x4A : BitVec 8) 1, ewordBits w] := rfl
theorem encode_vadd c f d a b w : encode (.vadd c f d a b w) = [word0 f ((0 : BitVec 2) ++ b) ((0 : BitVec 2) ++ a) ((0 : BitVec 2) ++ d) c (0x60 : BitVec 8) 1, ewordBits w] := rfl
theorem encode_vsub c f d a b w : encode (.vsub c f d a b w) = [word0 f ((0 : BitVec 2) ++ b) ((0 : BitVec 2) ++ a) ((0 : BitVec 2) ++ d) c (0x61 : BitVec 8) 1, ewordBits w] := rfl
theorem encode_vmul c f d a b w : encode (.vmul c f d a b w) = [word0 f ((0 : BitVec 2) ++ b) ((0 : BitVec 2) ++ a) ((0 : BitVec 2) ++ d) c (0x62 : BitVec 8) 1, ewordBits w] := rfl
theorem encode_vfma c f d a b w : encode (.vfma c f d a b w) = [word0 f ((0 : BitVec 2) ++ b) ((0 : BitVec 2) ++ a) ((0 : BitVec 2) ++ d) c (0x63 : BitVec 8) 1, ewordBits w] := rfl
theorem encode_vmin c f d a b w : encode (.vmin c f d a b w) = [word0 f ((0 : BitVec 2) ++ b) ((0 : BitVec 2) ++ a) ((0 : BitVec 2) ++ d) c (0x64 : BitVec 8) 1, ewordBits w] := rfl
theorem encode_vmax c f d a b w : encode (.vmax c f d a b w) = [word0 f ((0 : BitVec 2) ++ b) ((0 : BitVec 2) ++ a) ((0 : BitVec 2) ++ d) c (0x65 : BitVec 8) 1, ewordBits w] := rfl
theorem encode_vabs c f d a b w : encode (.vabs c f d a b w) = [word0 f ((0 : BitVec 2) ++ b) ((0 : BitVec 2) ++ a) ((0 : BitVec 2) ++ d) c (0x66 : BitVec 8) 1, ewordBits w] := rfl
theorem encode_vneg c f d a b w : encode (.vneg c f d a b w) = [word0 f ((0 : BitVec 2) ++ b) ((0 : BitVec 2) ++ a) ((0 : BitVec 2) ++ d) c (0x67 : BitVec 8) 1, ewordBits w] := rfl
theorem encode_vand c f d a b w : encode (.vand c f d a b w) = [word0 f ((0 : BitVec 2) ++ b) ((0 : BitVec 2) ++ a) ((0 : BitVec 2) ++ d) c (0x68 : BitVec 8) 1, ewordBits w] := rfl
theorem encode_vor c f d a b w : encode (.vor c f d a b w) = [word0 f ((0 : BitVec 2) ++ b) ((0 : BitVec 2) ++ a) ((0 : BitVec 2) ++ d) c (0x69 : BitVec 8) 1, ewordBits w] := rfl
theorem encode_vxor c f d a b w : encode (.vxor c f d a b w) = [word0 f ((0 : BitVec 2) ++ b) ((0 : BitVec 2) ++ a) ((0 : BitVec 2) ++ d) c (0x6A : BitVec 8) 1, ewordBits w] := rfl
theorem encode_vshl c f d a b w : encode (.vshl c f d a b w) = [word0 f ((0 : BitVec 2) ++ b) ((0 : BitVec 2) ++ a) ((0 : BitVec 2) ++ d) c (0x6B : BitVec 8) 1, ewordBits w] := rfl
theorem encode_vshr c f d a b w : encode (.vshr c f d a b w) = [word0 f ((0 : BitVec 2) ++ b) ((0 : BitVec 2) ++ a) ((0 : BitVec 2) ++ d) c (0x6C : BitVec 8) 1, ewordBits w] := rfl
theorem encode_vcmp c f d a b w : encode (.vcmp c f d a b w) = [word0 f ((0 : BitVec 2) ++ b) ((0 : BitVec 2) ++ a) ((0 : BitVec 2) ++ d) c (0x6D : BitVec 8) 1, ewordBits w] := rfl
theorem encode_vsel c f d a b w : encode (.vsel c f d a b w) = [word0 f ((0 : BitVec 2) ++ b) ((0 : BitVec 2) ++ a) ((0 : BitVec 2) ++ d) c (0x6E : BitVec 8) 1, ewordBits w] := rfl
theorem encode_vcvt c f d a b w : encode (.vcvt c f d a b w) = [word0 f ((0 : BitVec 2) ++ b) ((0 : BitVec 2) ++ a) ((0 : BitVec 2) ++ d) c (0x6F : BitVec 8) 1, ewordBits w] := rfl
theorem encode_vscl c f d a b w : encode (.vscl c f d a b w) = [word0 f b ((0 : BitVec 2) ++ a) ((0 : BitVec 2) ++ d) c (0x70 : BitVec 8) 1, ewordBits w] := rfl
theorem encode_vclmp c f d a b w : encode (.vclmp c f d a b w) = [word0 f ((0 : BitVec 2) ++ b) ((0 : BitVec 2) ++ a) ((0 : BitVec 2) ++ d) c (0x71 : BitVec 8) 1, ewordBits w] := rfl
theorem encode_vbcr c f d a b w : encode (.vbcr c f d a b w) = [word0 f ((0 : BitVec 2) ++ b) ((0 : BitVec 2) ++ a) ((0 : BitVec 2) ++ d) c (0x72 : BitVec 8) 1, ewordBits w] := rfl
theorem encode_vbcc c f d a b w : encode (.vbcc c f d a b w) = [word0 f ((0 : BitVec 2) ++ b) ((0 : BitVec 2) ++ a) ((0 : BitVec 2) ++ d) c (0x73 : BitVec 8) 1, ewordBits w] := rfl
theorem encode_vrsum c f d a b w : encode (.vrsum c f d a b w) = [word0 f ((0 : BitVec 2) ++ b) ((0 : BitVec 2) ++ a) ((0 : BitVec 2) ++ d) c (0x74 : BitVec 8) 1, ewordBits w] := rfl
theorem encode_vcsum c f d a b w : encode (.vcsum c f d a b w) = [word0 f ((0 : BitVec 2) ++ b) ((0 : BitVec 2) ++ a) ((0 : BitVec 2) ++ d) c (0x75 : BitVec 8) 1, ewordBits w] := rfl
theorem encode_vrr c f d a b w : encode (.vrr c f d a b w) = [word0 f ((0 : BitVec 2) ++ b) ((0 : BitVec 2) ++ a) ((0 : BitVec 2) ++ d) c (0x76 : BitVec 8) 1, ewordBits w] := rfl
theorem encode_vfn c f d a b w : encode (.vfn c f d a b w) = [word0 f ((0 : BitVec 2) ++ b) ((0 : BitVec 2) ++ a) ((0 : BitVec 2) ++ d) c (0x77 : BitVec 8) 1, ewordBits w] := rfl
theorem encode_vtbl c f d a b w : encode (.vtbl c f d a b w) = [word0 f ((0 : BitVec 2) ++ b) ((0 : BitVec 2) ++ a) ((0 : BitVec 2) ++ d) c (0x78 : BitVec 8) 1, ewordBits w] := rfl
theorem encode_viota c f d a b w : encode (.viota c f d a b w) = [word0 f ((0 : BitVec 2) ++ b) ((0 : BitVec 2) ++ a) ((0 : BitVec 2) ++ d) c (0x79 : BitVec 8) 1, ewordBits w] := rfl
theorem encode_vperm c f d a b w : encode (.vperm c f d a b w) = [word0 f ((0 : BitVec 2) ++ b) ((0 : BitVec 2) ++ a) ((0 : BitVec 2) ++ d) c (0x7A : BitVec 8) 1, ewordBits w] := rfl
theorem encode_lit c f d lit : encode (.lit c f d lit) = [word0 f (0 : BitVec 5) (0 : BitVec 5) d c (0x00 : BitVec 8) 2, 0, lit] := rfl
theorem encode_lith c d lit : encode (.lith c d lit) = [word0 (0 : BitVec 3) (0 : BitVec 5) (0 : BitVec 5) d c (0x01 : BitVec 8) 2, 0, lit] := rfl

end Sys2Proof
end

