-- ==== Sys2Proof/Laws/Exec.lean ====
section
/-!
SUPPORT. The arms of `exec`, one equation for each constructor, so that a proof about one instruction never unfolds the whole table.
-/

namespace Sys2Proof.Machine

theorem exec_nop c (s : State) : exec (.nop c) s = execNop c s := rfl
theorem exec_commit c (s : State) : exec (.commit c) s = execCommit c s := rfl
theorem exec_discard c (s : State) : exec (.discard c) s = execDiscard c s := rfl
theorem exec_yield c (s : State) : exec (.yield c) s = execYield c s := rfl
theorem exec_trap c code (s : State) : exec (.trap c code) s = execTrap c code s := rfl
theorem exec_brkpt c (s : State) : exec (.brkpt c) s = execBrkpt c s := rfl
theorem exec_br c off (s : State) : exec (.br c off) s = execBr c off s := rfl
theorem exec_call c off (s : State) : exec (.call c off) s = execCall c off s := rfl
theorem exec_brx c a (s : State) : exec (.brx c a) s = execBrx c a s := rfl
theorem exec_retn c a (s : State) : exec (.retn c a) s = execRetn c a s := rfl
theorem exec_cmp c f d a b (s : State) : exec (.cmp c f d a b) s = execCmp c f d a b s := rfl
theorem exec_fcmp c f d a b (s : State) : exec (.fcmp c f d a b) s = execFcmp c f d a b s := rfl
theorem exec_pand c d a b (s : State) : exec (.pand c d a b) s = execPand c d a b s := rfl
theorem exec_por c d a b (s : State) : exec (.por c d a b) s = execPor c d a b s := rfl
theorem exec_pxor c d a b (s : State) : exec (.pxor c d a b) s = execPxor c d a b s := rfl
theorem exec_pnot c d a (s : State) : exec (.pnot c d a) s = execPnot c d a s := rfl
theorem exec_pmov c d a (s : State) : exec (.pmov c d a) s = execPmov c d a s := rfl
theorem exec_sel c f d a b (s : State) : exec (.sel c f d a b) s = execSel c f d a b s := rfl
theorem exec_cmpiEq c d a imm (s : State) : exec (.cmpiEq c d a imm) s = execCmpiEq c d a imm s := rfl
theorem exec_cmpiNe c d a imm (s : State) : exec (.cmpiNe c d a imm) s = execCmpiNe c d a imm s := rfl
theorem exec_cmpiLt c d a imm (s : State) : exec (.cmpiLt c d a imm) s = execCmpiLt c d a imm s := rfl
theorem exec_cmpiLe c d a imm (s : State) : exec (.cmpiLe c d a imm) s = execCmpiLe c d a imm s := rfl
theorem exec_cmpiGt c d a imm (s : State) : exec (.cmpiGt c d a imm) s = execCmpiGt c d a imm s := rfl
theorem exec_cmpiGe c d a imm (s : State) : exec (.cmpiGe c d a imm) s = execCmpiGe c d a imm s := rfl
theorem exec_cmpiLtu c d a imm (s : State) : exec (.cmpiLtu c d a imm) s = execCmpiLtu c d a imm s := rfl
theorem exec_cmpiGeu c d a imm (s : State) : exec (.cmpiGeu c d a imm) s = execCmpiGeu c d a imm s := rfl
theorem exec_add c d a b (s : State) : exec (.add c d a b) s = execAdd c d a b s := rfl
theorem exec_sub c d a b (s : State) : exec (.sub c d a b) s = execSub c d a b s := rfl
theorem exec_mul c d a b (s : State) : exec (.mul c d a b) s = execMul c d a b s := rfl
theorem exec_mulhi c d a b (s : State) : exec (.mulhi c d a b) s = execMulhi c d a b s := rfl
theorem exec_mulhiu c d a b (s : State) : exec (.mulhiu c d a b) s = execMulhiu c d a b s := rfl
theorem exec_div c d a b (s : State) : exec (.div c d a b) s = execDiv c d a b s := rfl
theorem exec_divu c d a b (s : State) : exec (.divu c d a b) s = execDivu c d a b s := rfl
theorem exec_rem c d a b (s : State) : exec (.rem c d a b) s = execRem c d a b s := rfl
theorem exec_remu c d a b (s : State) : exec (.remu c d a b) s = execRemu c d a b s := rfl
theorem exec_and c d a b (s : State) : exec (.and c d a b) s = execAnd c d a b s := rfl
theorem exec_or c d a b (s : State) : exec (.or c d a b) s = execOr c d a b s := rfl
theorem exec_xor c d a b (s : State) : exec (.xor c d a b) s = execXor c d a b s := rfl
theorem exec_shl c d a b (s : State) : exec (.shl c d a b) s = execShl c d a b s := rfl
theorem exec_shr c d a b (s : State) : exec (.shr c d a b) s = execShr c d a b s := rfl
theorem exec_sra c d a b (s : State) : exec (.sra c d a b) s = execSra c d a b s := rfl
theorem exec_rol c d a b (s : State) : exec (.rol c d a b) s = execRol c d a b s := rfl
theorem exec_min c d a b (s : State) : exec (.min c d a b) s = execMin c d a b s := rfl
theorem exec_max c d a b (s : State) : exec (.max c d a b) s = execMax c d a b s := rfl
theorem exec_minu c d a b (s : State) : exec (.minu c d a b) s = execMinu c d a b s := rfl
theorem exec_maxu c d a b (s : State) : exec (.maxu c d a b) s = execMaxu c d a b s := rfl
theorem exec_abs c d a (s : State) : exec (.abs c d a) s = execAbs c d a s := rfl
theorem exec_neg c d a (s : State) : exec (.neg c d a) s = execNeg c d a s := rfl
theorem exec_clz c d a (s : State) : exec (.clz c d a) s = execClz c d a s := rfl
theorem exec_ctz c d a (s : State) : exec (.ctz c d a) s = execCtz c d a s := rfl
theorem exec_popc c d a (s : State) : exec (.popc c d a) s = execPopc c d a s := rfl
theorem exec_sext c f d a (s : State) : exec (.sext c f d a) s = execSext c f d a s := rfl
theorem exec_zext c f d a (s : State) : exec (.zext c f d a) s = execZext c f d a s := rfl
theorem exec_mov c d a (s : State) : exec (.mov c d a) s = execMov c d a s := rfl
theorem exec_addi c d a imm (s : State) : exec (.addi c d a imm) s = execAddi c d a imm s := rfl
theorem exec_andi c d a imm (s : State) : exec (.andi c d a imm) s = execAndi c d a imm s := rfl
theorem exec_ori c d a imm (s : State) : exec (.ori c d a imm) s = execOri c d a imm s := rfl
theorem exec_xori c d a imm (s : State) : exec (.xori c d a imm) s = execXori c d a imm s := rfl
theorem exec_shli c d a n (s : State) : exec (.shli c d a n) s = execShli c d a n s := rfl
theorem exec_shri c d a n (s : State) : exec (.shri c d a n) s = execShri c d a n s := rfl
theorem exec_srai c d a n (s : State) : exec (.srai c d a n) s = execSrai c d a n s := rfl
theorem exec_roli c d a n (s : State) : exec (.roli c d a n) s = execRoli c d a n s := rfl
theorem exec_movi c d imm (s : State) : exec (.movi c d imm) s = execMovi c d imm s := rfl
theorem exec_fadd c rnd d a b (s : State) : exec (.fadd c rnd d a b) s = execFadd c rnd d a b s := rfl
theorem exec_fsub c rnd d a b (s : State) : exec (.fsub c rnd d a b) s = execFsub c rnd d a b s := rfl
theorem exec_fmul c rnd d a b (s : State) : exec (.fmul c rnd d a b) s = execFmul c rnd d a b s := rfl
theorem exec_fdiv c rnd d a b (s : State) : exec (.fdiv c rnd d a b) s = execFdiv c rnd d a b s := rfl
theorem exec_fsqrt c f d a (s : State) : exec (.fsqrt c f d a) s = execFsqrt c f d a s := rfl
theorem exec_fmin c d a b (s : State) : exec (.fmin c d a b) s = execFmin c d a b s := rfl
theorem exec_fmax c d a b (s : State) : exec (.fmax c d a b) s = execFmax c d a b s := rfl
theorem exec_fabs c d a (s : State) : exec (.fabs c d a) s = execFabs c d a s := rfl
theorem exec_fneg c d a (s : State) : exec (.fneg c d a) s = execFneg c d a s := rfl
theorem exec_fclass c d a (s : State) : exec (.fclass c d a) s = execFclass c d a s := rfl
theorem exec_symrd c d (s : State) : exec (.symrd c d) s = execSymrd c d s := rfl
theorem exec_symkd c d (s : State) : exec (.symkd c d) s = execSymkd c d s := rfl
theorem exec_mksym c k d a (s : State) : exec (.mksym c k d a) s = execMksym c k d a s := rfl
theorem exec_movs c d x (s : State) : exec (.movs c d x) s = execMovs c d x s := rfl
theorem exec_symget c f d a (s : State) : exec (.symget c f d a) s = execSymget c f d a s := rfl
theorem exec_bcast c d a b (s : State) : exec (.bcast c d a b) s = execBcast c d a b s := rfl
theorem exec_reduceInt c f d a (s : State) : exec (.reduceInt c f d a) s = execReduceInt c f d a s := rfl
theorem exec_reduceFp32 c f d a (s : State) : exec (.reduceFp32 c f d a) s = execReduceFp32 c f d a s := rfl
theorem exec_scanInt c f d a (s : State) : exec (.scanInt c f d a) s = execScanInt c f d a s := rfl
theorem exec_scanFp32 c f d a (s : State) : exec (.scanFp32 c f d a) s = execScanFp32 c f d a s := rfl
theorem exec_count c d a (s : State) : exec (.count c d a) s = execCount c d a s := rfl
theorem exec_first c d a (s : State) : exec (.first c d a) s = execFirst c d a s := rfl
theorem exec_areabar c (s : State) : exec (.areabar c) s = execAreabar c s := rfl
theorem exec_emit c k a (s : State) : exec (.emit c k a) s = execEmit c k a s := rfl
theorem exec_emitn c k a b (s : State) : exec (.emitn c k a b) s = execEmitn c k a b s := rfl
theorem exec_insert c a (s : State) : exec (.insert c a) s = execInsert c a s := rfl
theorem exec_delete c (s : State) : exec (.delete c) s = execDelete c s := rfl
theorem exec_opld c a (s : State) : exec (.opld c a) s = execOpld c a s := rfl
theorem exec_movd c d a (s : State) : exec (.movd c d a) s = execMovd c d a s := rfl
theorem exec_movds c d a (s : State) : exec (.movds c d a) s = execMovds c d a s := rfl
theorem exec_dset c f d a (s : State) : exec (.dset c f d a) s = execDset c f d a s := rfl
theorem exec_talloc c d a (s : State) : exec (.talloc c d a) s = execTalloc c d a s := rfl
theorem exec_tfree c a (s : State) : exec (.tfree c a) s = execTfree c a s := rfl
theorem exec_qfence c m (s : State) : exec (.qfence c m) s = execQfence c m s := rfl
theorem exec_qwait c m (s : State) : exec (.qwait c m) s = execQwait c m s := rfl
theorem exec_slotrel c a b (s : State) : exec (.slotrel c a b) s = execSlotrel c a b s := rfl
theorem exec_unsubs c a (s : State) : exec (.unsubs c a) s = execUnsubs c a s := rfl
theorem exec_binit c a b (s : State) : exec (.binit c a b) s = execBinit c a b s := rfl
theorem exec_barv c a (s : State) : exec (.barv c a) s = execBarv c a s := rfl
theorem exec_bexp c a b (s : State) : exec (.bexp c a b) s = execBexp c a b s := rfl
theorem exec_bwait c d a b (s : State) : exec (.bwait c d a b) s = execBwait c d a b s := rfl
theorem exec_btry c d a b (s : State) : exec (.btry c d a b) s = execBtry c d a b s := rfl
theorem exec_fence c scope ord (s : State) : exec (.fence c scope ord) s = execFence c scope ord s := rfl
theorem exec_popset c pri a b (s : State) : exec (.popset c pri a b) s = execPopset c pri a b s := rfl
theorem exec_evsend c pri a b (s : State) : exec (.evsend c pri a b) s = execEvsend c pri a b s := rfl
theorem exec_accrd c pri d a (s : State) : exec (.accrd c pri d a) s = execAccrd c pri d a s := rfl
theorem exec_accwr c pri a b (s : State) : exec (.accwr c pri a b) s = execAccwr c pri a b s := rfl
theorem exec_accfl c pri a b (s : State) : exec (.accfl c pri a b) s = execAccfl c pri a b s := rfl
theorem exec_evwait c a (s : State) : exec (.evwait c a) s = execEvwait c a s := rfl
theorem exec_caprd c d a (s : State) : exec (.caprd c d a) s = execCaprd c d a s := rfl
theorem exec_susrd c d a (s : State) : exec (.susrd c d a) s = execSusrd c d a s := rfl
theorem exec_tretResume c (s : State) : exec (.tretResume c) s = execTretResume c s := rfl
theorem exec_tretSkip c (s : State) : exec (.tretSkip c) s = execTretSkip c s := rfl
theorem exec_tretDiscard c (s : State) : exec (.tretDiscard c) s = execTretDiscard c s := rfl
theorem exec_tretKill c (s : State) : exec (.tretKill c) s = execTretKill c s := rfl
theorem exec_areard c d a (s : State) : exec (.areard c d a) s = execAreard c d a s := rfl
theorem exec_areawr c a b (s : State) : exec (.areawr c a b) s = execAreawr c a b s := rfl
theorem exec_savec c a (s : State) : exec (.savec c a) s = execSavec c a s := rfl
theorem exec_restc c a (s : State) : exec (.restc c a) s = execRestc c a s := rfl
theorem exec_tlbinv c a b (s : State) : exec (.tlbinv c a b) s = execTlbinv c a b s := rfl
theorem exec_rdctr c f d a (s : State) : exec (.rdctr c f d a) s = execRdctr c f d a s := rfl
theorem exec_mark c a (s : State) : exec (.mark c a) s = execMark c a s := rfl
theorem exec_hostsig c a b (s : State) : exec (.hostsig c a b) s = execHostsig c a b s := rfl
theorem exec_brc c f a b off (s : State) : exec (.brc c f a b off) s = execBrc c f a b off s := rfl
theorem exec_loop c d off (s : State) : exec (.loop c d off) s = execLoop c d off s := rfl
theorem exec_bext c d a w lo (s : State) : exec (.bext c d a w lo) s = execBext c d a w lo s := rfl
theorem exec_bins c d a w lo (s : State) : exec (.bins c d a w lo) s = execBins c d a w lo s := rfl
theorem exec_ffma c rnd d a b e (s : State) : exec (.ffma c rnd d a b e) s = execFfma c rnd d a b e s := rfl
theorem exec_fcvt c d a sat rnd dt st (s : State) : exec (.fcvt c d a sat rnd dt st) s = execFcvt c d a sat rnd dt st s := rfl
theorem exec_evsendt c pri a b e (s : State) : exec (.evsendt c pri a b e) s = execEvsendt c pri a b e s := rfl
theorem exec_csrrd c d num (s : State) : exec (.csrrd c d num) s = execCsrrd c d num s := rfl
theorem exec_csrwr c a num (s : State) : exec (.csrwr c a num) s = execCsrwr c a num s := rfl
theorem exec_ld c d a m (s : State) : exec (.ld c d a m) s = execLd c d a m s := rfl
theorem exec_st c a b m (s : State) : exec (.st c a b m) s = execSt c a b m s := rfl
theorem exec_pref c a m (s : State) : exec (.pref c a m) s = execPref c a m s := rfl
theorem exec_aadd c d a b m (s : State) : exec (.aadd c d a b m) s = execAadd c d a b m s := rfl
theorem exec_afadd c d a b m (s : State) : exec (.afadd c d a b m) s = execAfadd c d a b m s := rfl
theorem exec_amin c d a b m (s : State) : exec (.amin c d a b m) s = execAmin c d a b m s := rfl
theorem exec_amax c d a b m (s : State) : exec (.amax c d a b m) s = execAmax c d a b m s := rfl
theorem exec_aand c d a b m (s : State) : exec (.aand c d a b m) s = execAand c d a b m s := rfl
theorem exec_aor c d a b m (s : State) : exec (.aor c d a b m) s = execAor c d a b m s := rfl
theorem exec_axor c d a b m (s : State) : exec (.axor c d a b m) s = execAxor c d a b m s := rfl
theorem exec_aswp c d a b m (s : State) : exec (.aswp c d a b m) s = execAswp c d a b m s := rfl
theorem exec_acas c d a b m (s : State) : exec (.acas c d a b m) s = execAcas c d a b m s := rfl
theorem exec_waita c f a b m (s : State) : exec (.waita c f a b m) s = execWaita c f a b m s := rfl
theorem exec_cpyin c pri ctr d a b m (s : State) : exec (.cpyin c pri ctr d a b m) s = execCpyin c pri ctr d a b m s := rfl
theorem exec_cpyout c pri ctr d a b m (s : State) : exec (.cpyout c pri ctr d a b m) s = execCpyout c pri ctr d a b m s := rfl
theorem exec_cpyt c pri ctr d a b m (s : State) : exec (.cpyt c pri ctr d a b m) s = execCpyt c pri ctr d a b m s := rfl
theorem exec_cpyx c pri ctr d a b m (s : State) : exec (.cpyx c pri ctr d a b m) s = execCpyx c pri ctr d a b m s := rfl
theorem exec_gather c pri d a b m (s : State) : exec (.gather c pri d a b m) s = execGather c pri d a b m s := rfl
theorem exec_scatter c pri d a b m (s : State) : exec (.scatter c pri d a b m) s = execScatter c pri d a b m s := rfl
theorem exec_scatadd c pri d a b m (s : State) : exec (.scatadd c pri d a b m) s = execScatadd c pri d a b m s := rfl
theorem exec_subscr c pri d a b m (s : State) : exec (.subscr c pri d a b m) s = execSubscr c pri d a b m s := rfl
theorem exec_slotwb c pri a b m (s : State) : exec (.slotwb c pri a b m) s = execSlotwb c pri a b m s := rfl
theorem exec_cadd c a b m (s : State) : exec (.cadd c a b m) s = execCadd c a b m s := rfl
theorem exec_cwait c a b m (s : State) : exec (.cwait c a b m) s = execCwait c a b m s := rfl
theorem exec_tld c pri d a m (s : State) : exec (.tld c pri d a m) s = execTld c pri d a m s := rfl
theorem exec_tst c pri a b m (s : State) : exec (.tst c pri a b m) s = execTst c pri a b m s := rfl
theorem exec_mma c f d a b w (s : State) : exec (.mma c f d a b w) s = execMma c f d a b w s := rfl
theorem exec_mmai c f d a b w (s : State) : exec (.mmai c f d a b w) s = execMmai c f d a b w s := rfl
theorem exec_mmax c f d a b w (s : State) : exec (.mmax c f d a b w) s = execMmax c f d a b w s := rfl
theorem exec_scacc c f d a b w (s : State) : exec (.scacc c f d a b w) s = execScacc c f d a b w s := rfl
theorem exec_ttrn c f d a b w (s : State) : exec (.ttrn c f d a b w) s = execTtrn c f d a b w s := rfl
theorem exec_tcvt c f d a b w (s : State) : exec (.tcvt c f d a b w) s = execTcvt c f d a b w s := rfl
theorem exec_cxsort c f d a b w (s : State) : exec (.cxsort c f d a b w) s = execCxsort c f d a b w s := rfl
theorem exec_cxmerge c f d a b w (s : State) : exec (.cxmerge c f d a b w) s = execCxmerge c f d a b w s := rfl
theorem exec_tzero c f d a b w (s : State) : exec (.tzero c f d a b w) s = execTzero c f d a b w s := rfl
theorem exec_tfill c f d a b w (s : State) : exec (.tfill c f d a b w) s = execTfill c f d a b w s := rfl
theorem exec_tlay c f d a b w (s : State) : exec (.tlay c f d a b w) s = execTlay c f d a b w s := rfl
theorem exec_vadd c f d a b w (s : State) : exec (.vadd c f d a b w) s = execVadd c f d a b w s := rfl
theorem exec_vsub c f d a b w (s : State) : exec (.vsub c f d a b w) s = execVsub c f d a b w s := rfl
theorem exec_vmul c f d a b w (s : State) : exec (.vmul c f d a b w) s = execVmul c f d a b w s := rfl
theorem exec_vfma c f d a b w (s : State) : exec (.vfma c f d a b w) s = execVfma c f d a b w s := rfl
theorem exec_vmin c f d a b w (s : State) : exec (.vmin c f d a b w) s = execVmin c f d a b w s := rfl
theorem exec_vmax c f d a b w (s : State) : exec (.vmax c f d a b w) s = execVmax c f d a b w s := rfl
theorem exec_vabs c f d a b w (s : State) : exec (.vabs c f d a b w) s = execVabs c f d a b w s := rfl
theorem exec_vneg c f d a b w (s : State) : exec (.vneg c f d a b w) s = execVneg c f d a b w s := rfl
theorem exec_vand c f d a b w (s : State) : exec (.vand c f d a b w) s = execVand c f d a b w s := rfl
theorem exec_vor c f d a b w (s : State) : exec (.vor c f d a b w) s = execVor c f d a b w s := rfl
theorem exec_vxor c f d a b w (s : State) : exec (.vxor c f d a b w) s = execVxor c f d a b w s := rfl
theorem exec_vshl c f d a b w (s : State) : exec (.vshl c f d a b w) s = execVshl c f d a b w s := rfl
theorem exec_vshr c f d a b w (s : State) : exec (.vshr c f d a b w) s = execVshr c f d a b w s := rfl
theorem exec_vcmp c f d a b w (s : State) : exec (.vcmp c f d a b w) s = execVcmp c f d a b w s := rfl
theorem exec_vsel c f d a b w (s : State) : exec (.vsel c f d a b w) s = execVsel c f d a b w s := rfl
theorem exec_vcvt c f d a b w (s : State) : exec (.vcvt c f d a b w) s = execVcvt c f d a b w s := rfl
theorem exec_vscl c f d a b w (s : State) : exec (.vscl c f d a b w) s = execVscl c f d a b w s := rfl
theorem exec_vclmp c f d a b w (s : State) : exec (.vclmp c f d a b w) s = execVclmp c f d a b w s := rfl
theorem exec_vbcr c f d a b w (s : State) : exec (.vbcr c f d a b w) s = execVbcr c f d a b w s := rfl
theorem exec_vbcc c f d a b w (s : State) : exec (.vbcc c f d a b w) s = execVbcc c f d a b w s := rfl
theorem exec_vrsum c f d a b w (s : State) : exec (.vrsum c f d a b w) s = execVrsum c f d a b w s := rfl
theorem exec_vcsum c f d a b w (s : State) : exec (.vcsum c f d a b w) s = execVcsum c f d a b w s := rfl
theorem exec_vrr c f d a b w (s : State) : exec (.vrr c f d a b w) s = execVrr c f d a b w s := rfl
theorem exec_vfn c f d a b w (s : State) : exec (.vfn c f d a b w) s = execVfn c f d a b w s := rfl
theorem exec_vtbl c f d a b w (s : State) : exec (.vtbl c f d a b w) s = execVtbl c f d a b w s := rfl
theorem exec_viota c f d a b w (s : State) : exec (.viota c f d a b w) s = execViota c f d a b w s := rfl
theorem exec_vperm c f d a b w (s : State) : exec (.vperm c f d a b w) s = execVperm c f d a b w s := rfl
theorem exec_lit c f d lit (s : State) : exec (.lit c f d lit) s = execLit c f d lit s := rfl
theorem exec_lith c d lit (s : State) : exec (.lith c d lit) s = execLith c d lit s := rfl
theorem exec_createContext queue (s : State) : exec (.createContext queue) s = execCreateContext queue s := rfl
theorem exec_destroyContext queue (s : State) : exec (.destroyContext queue) s = execDestroyContext queue s := rfl
theorem exec_loadOperators queue (s : State) : exec (.loadOperators queue) s = execLoadOperators queue s := rfl
theorem exec_loadExpr queue (s : State) : exec (.loadExpr queue) s = execLoadExpr queue s := rfl
theorem exec_start queue (s : State) : exec (.start queue) s = execStart queue s := rfl
theorem exec_preempt queue (s : State) : exec (.preempt queue) s = execPreempt queue s := rfl
theorem exec_resume queue (s : State) : exec (.resume queue) s = execResume queue s := rfl
theorem exec_readExpr queue (s : State) : exec (.readExpr queue) s = execReadExpr queue s := rfl
theorem exec_map queue (s : State) : exec (.map queue) s = execMap queue s := rfl
theorem exec_unmap queue (s : State) : exec (.unmap queue) s = execUnmap queue s := rfl
theorem exec_forceLease queue (s : State) : exec (.forceLease queue) s = execForceLease queue s := rfl
theorem exec_injectFault queue (s : State) : exec (.injectFault queue) s = execInjectFault queue s := rfl
theorem exec_partition queue (s : State) : exec (.partition queue) s = execPartition queue s := rfl
theorem exec_queryCapacity queue (s : State) : exec (.queryCapacity queue) s = execQueryCapacity queue s := rfl
theorem exec_readRetirements queue (s : State) : exec (.readRetirements queue) s = execReadRetirements queue s := rfl
theorem exec_attest queue (s : State) : exec (.attest queue) s = execAttest queue s := rfl
theorem exec_readJournal queue (s : State) : exec (.readJournal queue) s = execReadJournal queue s := rfl
theorem exec_qnotify agent queue tail (s : State) : exec (.qnotify agent queue tail) s = execQnotify agent queue tail s := rfl
theorem exec_resetRegisterWrite v (s : State) : exec (.resetRegisterWrite v) s = execResetRegisterWrite v s := rfl
theorem exec_registerWrite agent r v (s : State) : exec (.registerWrite agent r v) s = execRegisterWrite agent r v s := rfl
theorem exec_i3cDynamicAddress addr (s : State) : exec (.i3cDynamicAddress addr) s = execI3cDynamicAddress addr s := rfl
theorem exec_bypass (s : State) : exec (.bypass) s = execBypass s := rfl
theorem exec_idcode (s : State) : exec (.idcode) s = execIdcode s := rfl
theorem exec_samplePreload (s : State) : exec (.samplePreload) s = execSamplePreload s := rfl
theorem exec_extest (s : State) : exec (.extest) s = execExtest s := rfl
theorem exec_powerUp (s : State) : exec (.powerUp) s = execPowerUp s := rfl
theorem exec_resetInput held (s : State) : exec (.resetInput held) s = execResetInput held s := rfl
theorem exec_bringupStageComplete ok (s : State) : exec (.bringupStageComplete ok) s = execBringupStageComplete ok s := rfl
theorem exec_thermalTrip (s : State) : exec (.thermalTrip) s = execThermalTrip s := rfl
theorem exec_coolantOutOfRange (s : State) : exec (.coolantOutOfRange) s = execCoolantOutOfRange s := rfl
theorem exec_hearthOver110c hid (s : State) : exec (.hearthOver110c hid) s = execHearthOver110c hid s := rfl
theorem exec_thermalClearance hid (s : State) : exec (.thermalClearance hid) s = execThermalClearance hid s := rfl
theorem exec_junctionClockStep hid (s : State) : exec (.junctionClockStep hid) s = execJunctionClockStep hid s := rfl
theorem exec_powerControllerStep watts hid (s : State) : exec (.powerControllerStep watts hid) s = execPowerControllerStep watts hid s := rfl
theorem exec_linkRetune unit (s : State) : exec (.linkRetune unit) s = execLinkRetune unit s := rfl
theorem exec_emberSpillAdjust hid point (s : State) : exec (.emberSpillAdjust hid point) s = execEmberSpillAdjust hid point s := rfl
theorem exec_sweep die (s : State) : exec (.sweep die) s = execSweep die s := rfl
theorem exec_microprogramFetchComplete hid (s : State) : exec (.microprogramFetchComplete hid) s = execMicroprogramFetchComplete hid s := rfl
theorem exec_opldRequestExpiry hid ctx op (s : State) : exec (.opldRequestExpiry hid ctx op) s = execOpldRequestExpiry hid ctx op s := rfl
theorem exec_votedPlacementTimeout uid (s : State) : exec (.votedPlacementTimeout uid) s = execVotedPlacementTimeout uid s := rfl
theorem exec_hang ctx (s : State) : exec (.hang ctx) s = execHang ctx s := rfl
theorem exec_watchdog uid (s : State) : exec (.watchdog uid) s = execWatchdog uid s := rfl
theorem exec_collectiveComplete uid (s : State) : exec (.collectiveComplete uid) s = execCollectiveComplete uid s := rfl
theorem exec_supervisorInvocationStart hid (s : State) : exec (.supervisorInvocationStart hid) s = execSupervisorInvocationStart hid s := rfl
theorem exec_preemptionEffect ctx (s : State) : exec (.preemptionEffect ctx) s = execPreemptionEffect ctx s := rfl
theorem exec_saveOperatorStart ctx (s : State) : exec (.saveOperatorStart ctx) s = execSaveOperatorStart ctx s := rfl
theorem exec_dumpWrite (s : State) : exec (.dumpWrite) s = execDumpWrite s := rfl
theorem exec_engineCommandStart hid queue (s : State) : exec (.engineCommandStart hid queue) s = execEngineCommandStart hid queue s := rfl
theorem exec_engineCommandComplete id (s : State) : exec (.engineCommandComplete id) s = execEngineCommandComplete id s := rfl
theorem exec_copyPartLanded id n (s : State) : exec (.copyPartLanded id n) s = execCopyPartLanded id n s := rfl
theorem exec_counterSignal id (s : State) : exec (.counterSignal id) s = execCounterSignal id s := rfl
theorem exec_freedSlotNotice id (s : State) : exec (.freedSlotNotice id) s = execFreedSlotNotice id s := rfl
theorem exec_sliceAccess r err (s : State) : exec (.sliceAccess r err) s = execSliceAccess r err s := rfl
theorem exec_storeAcknowledged uid cix op (s : State) : exec (.storeAcknowledged uid cix op) s = execStoreAcknowledged uid cix op s := rfl
theorem exec_loadReply uid cix op (s : State) : exec (.loadReply uid cix op) s = execLoadReply uid cix op s := rfl
theorem exec_waitaPeriodicRead uid cix (s : State) : exec (.waitaPeriodicRead uid cix) s = execWaitaPeriodicRead uid cix s := rfl
theorem exec_stagingLineTimeout channel line err (s : State) : exec (.stagingLineTimeout channel line err) s = execStagingLineTimeout channel line err s := rfl
theorem exec_pageWalkComplete id (s : State) : exec (.pageWalkComplete id) s = execPageWalkComplete id s := rfl
theorem exec_routerPacketAging id (s : State) : exec (.routerPacketAging id) s = execRouterPacketAging id s := rfl
theorem exec_scrubLineRead line err (s : State) : exec (.scrubLineRead line err) s = execScrubLineRead line err s := rfl
theorem exec_scoreHalving (s : State) : exec (.scoreHalving) s = execScoreHalving s := rfl
theorem exec_eventArrival id (s : State) : exec (.eventArrival id) s = execEventArrival id s := rfl
theorem exec_eventDelivery hid (s : State) : exec (.eventDelivery hid) s = execEventDelivery hid s := rfl
theorem exec_tileMigrationComplete ctx handle (s : State) : exec (.tileMigrationComplete ctx handle) s = execTileMigrationComplete ctx handle s := rfl
theorem exec_granuleMigration stack (s : State) : exec (.granuleMigration stack) s = execGranuleMigration stack s := rfl
theorem exec_leaseRotaTurn unit (s : State) : exec (.leaseRotaTurn unit) s = execLeaseRotaTurn unit s := rfl
theorem exec_leaseRetryTimer unit (s : State) : exec (.leaseRetryTimer unit) s = execLeaseRetryTimer unit s := rfl
theorem exec_evacuationComplete hid (s : State) : exec (.evacuationComplete hid) s = execEvacuationComplete hid s := rfl
theorem exec_portDrainComplete unit (s : State) : exec (.portDrainComplete unit) s = execPortDrainComplete unit s := rfl
theorem exec_portTrafficReturn unit (s : State) : exec (.portTrafficReturn unit) s = execPortTrafficReturn unit s := rfl
theorem exec_leaseTestComplete unit run (s : State) : exec (.leaseTestComplete unit run) s = execLeaseTestComplete unit run s := rfl
theorem exec_capacityCounterSignal ctx (s : State) : exec (.capacityCounterSignal ctx) s = execCapacityCounterSignal ctx s := rfl
theorem exec_queueSlotIdleUnmap queue (s : State) : exec (.queueSlotIdleUnmap queue) s = execQueueSlotIdleUnmap queue s := rfl
theorem exec_queueMap queue (s : State) : exec (.queueMap queue) s = execQueueMap queue s := rfl
theorem exec_hostPostedWrite req (s : State) : exec (.hostPostedWrite req) s = execHostPostedWrite req s := rfl
theorem exec_hostRead req (s : State) : exec (.hostRead req) s = execHostRead req s := rfl
theorem exec_hostAtomic req (s : State) : exec (.hostAtomic req) s = execHostAtomic req s := rfl
theorem exec_remoteWrite job va bytes (s : State) : exec (.remoteWrite job va bytes) s = execRemoteWrite job va bytes s := rfl
theorem exec_remoteCounterAdd job va amount (s : State) : exec (.remoteCounterAdd job va amount) s = execRemoteCounterAdd job va amount s := rfl
theorem exec_remoteAcknowledgement id ok (s : State) : exec (.remoteAcknowledgement id ok) s = execRemoteAcknowledgement id ok s := rfl
theorem exec_encodingNotInstruction why (s : State) : exec (.encodingNotInstruction why) s = execEncodingNotInstruction why s := rfl
theorem exec_unassignedCommandOpcode queue (s : State) : exec (.unassignedCommandOpcode queue) s = execUnassignedCommandOpcode queue s := rfl
theorem exec_combiningFormApplied uid (s : State) : exec (.combiningFormApplied uid) s = execCombiningFormApplied uid s := rfl
theorem exec_linkRetry unit (s : State) : exec (.linkRetry unit) s = execLinkRetry unit s := rfl
theorem exec_lossOfPower (s : State) : exec (.lossOfPower) s = execLossOfPower s := rfl
theorem exec_orderlyShutdown (s : State) : exec (.orderlyShutdown) s = execOrderlyShutdown s := rfl
theorem exec_earlyLeaseHoldoffExpiry unit (s : State) : exec (.earlyLeaseHoldoffExpiry unit) s = execEarlyLeaseHoldoffExpiry unit s := rfl
theorem exec_inletTemperatureChange degrees inRange (s : State) : exec (.inletTemperatureChange degrees inRange) s = execInletTemperatureChange degrees inRange s := rfl

end Sys2Proof.Machine
end

