-- ==== Sys2Proof/Laws/State.lean ====
section
/-!
SUPPORT. What each named update leaves and sets of the fields of State, one lemma per field and update.
-/

namespace Sys2Proof.Machine

@[simp] theorem State.modPart_agenda (s : State) (l : Nat) (f : Part → Part) : (s.modPart l f).agenda = s.agenda := rfl
@[simp] theorem State.modPart_tick (s : State) (l : Nat) (f : Part → Part) : (s.modPart l f).tick = s.tick := rfl
@[simp] theorem State.modPart_free (s : State) (l : Nat) (f : Part → Part) : (s.modPart l f).free = s.free := rfl
@[simp] theorem State.modPart_nextUid (s : State) (l : Nat) (f : Part → Part) : (s.modPart l f).nextUid = s.nextUid := rfl
@[simp] theorem State.modPart_cur (s : State) (l : Nat) (f : Part → Part) : (s.modPart l f).cur = s.cur := rfl
@[simp] theorem State.modPart_mem (s : State) (l : Nat) (f : Part → Part) : (s.modPart l f).mem = s.mem := rfl
@[simp] theorem State.modPart_linePoison (s : State) (l : Nat) (f : Part → Part) : (s.modPart l f).linePoison = s.linePoison := rfl
@[simp] theorem State.modPart_lineTime (s : State) (l : Nat) (f : Part → Part) : (s.modPart l f).lineTime = s.lineTime := rfl
@[simp] theorem State.modPart_releases (s : State) (l : Nat) (f : Part → Part) : (s.modPart l f).releases = s.releases := rfl
@[simp] theorem State.modPart_hostMem (s : State) (l : Nat) (f : Part → Part) : (s.modPart l f).hostMem = s.hostMem := rfl
@[simp] theorem State.modPart_tile (s : State) (l : Nat) (f : Part → Part) : (s.modPart l f).tile = s.tile := rfl
@[simp] theorem State.modPart_tilePoison (s : State) (l : Nat) (f : Part → Part) : (s.modPart l f).tilePoison = s.tilePoison := rfl
@[simp] theorem State.modPart_badScale (s : State) (l : Nat) (f : Part → Part) : (s.modPart l f).badScale = s.badScale := rfl
@[simp] theorem State.modPart_row (s : State) (l : Nat) (f : Part → Part) : (s.modPart l f).row = s.row := rfl
@[simp] theorem State.modPart_areas (s : State) (l : Nat) (f : Part → Part) : (s.modPart l f).areas = s.areas := rfl
@[simp] theorem State.modPart_ctxs (s : State) (l : Nat) (f : Part → Part) : (s.modPart l f).ctxs = s.ctxs := rfl
@[simp] theorem State.modPart_parts (s : State) (l : Nat) (f : Part → Part) : (s.modPart l f).parts = s.parts.upd l f := rfl
@[simp] theorem State.modPart_hearths (s : State) (l : Nat) (f : Part → Part) : (s.modPart l f).hearths = s.hearths := rfl
@[simp] theorem State.modPart_slots (s : State) (l : Nat) (f : Part → Part) : (s.modPart l f).slots = s.slots := rfl
@[simp] theorem State.modPart_carves (s : State) (l : Nat) (f : Part → Part) : (s.modPart l f).carves = s.carves := rfl
@[simp] theorem State.modPart_queues (s : State) (l : Nat) (f : Part → Part) : (s.modPart l f).queues = s.queues := rfl
@[simp] theorem State.modPart_subs (s : State) (l : Nat) (f : Part → Part) : (s.modPart l f).subs = s.subs := rfl
@[simp] theorem State.modPart_msgs (s : State) (l : Nat) (f : Part → Part) : (s.modPart l f).msgs = s.msgs := rfl
@[simp] theorem State.modPart_arbiters (s : State) (l : Nat) (f : Part → Part) : (s.modPart l f).arbiters = s.arbiters := rfl
@[simp] theorem State.modPart_pops (s : State) (l : Nat) (f : Part → Part) : (s.modPart l f).pops = s.pops := rfl
@[simp] theorem State.modPart_accs (s : State) (l : Nat) (f : Part → Part) : (s.modPart l f).accs = s.accs := rfl
@[simp] theorem State.modPart_events (s : State) (l : Nat) (f : Part → Part) : (s.modPart l f).events = s.events := rfl
@[simp] theorem State.modPart_dtlb (s : State) (l : Nat) (f : Part → Part) : (s.modPart l f).dtlb = s.dtlb := rfl
@[simp] theorem State.modPart_walks (s : State) (l : Nat) (f : Part → Part) : (s.modPart l f).walks = s.walks := rfl
@[simp] theorem State.modPart_missed (s : State) (l : Nat) (f : Part → Part) : (s.modPart l f).missed = s.missed := rfl
@[simp] theorem State.modPart_slices (s : State) (l : Nat) (f : Part → Part) : (s.modPart l f).slices = s.slices := rfl
@[simp] theorem State.modPart_chanMap (s : State) (l : Nat) (f : Part → Part) : (s.modPart l f).chanMap = s.chanMap := rfl
@[simp] theorem State.modPart_spare (s : State) (l : Nat) (f : Part → Part) : (s.modPart l f).spare = s.spare := rfl
@[simp] theorem State.modPart_keys (s : State) (l : Nat) (f : Part → Part) : (s.modPart l f).keys = s.keys := rfl
@[simp] theorem State.modPart_tags (s : State) (l : Nat) (f : Part → Part) : (s.modPart l f).tags = s.tags := rfl
@[simp] theorem State.modPart_integrity (s : State) (l : Nat) (f : Part → Part) : (s.modPart l f).integrity = s.integrity := rfl
@[simp] theorem State.modPart_units (s : State) (l : Nat) (f : Part → Part) : (s.modPart l f).units = s.units := rfl
@[simp] theorem State.modPart_leases (s : State) (l : Nat) (f : Part → Part) : (s.modPart l f).leases = s.leases := rfl
@[simp] theorem State.modPart_leaseLog (s : State) (l : Nat) (f : Part → Part) : (s.modPart l f).leaseLog = s.leaseLog := rfl
@[simp] theorem State.modPart_lseq (s : State) (l : Nat) (f : Part → Part) : (s.modPart l f).lseq = s.lseq := rfl
@[simp] theorem State.modPart_triggers (s : State) (l : Nat) (f : Part → Part) : (s.modPart l f).triggers = s.triggers := rfl
@[simp] theorem State.modPart_retireStore (s : State) (l : Nat) (f : Part → Part) : (s.modPart l f).retireStore = s.retireStore := rfl
@[simp] theorem State.modPart_retireFull (s : State) (l : Nat) (f : Part → Part) : (s.modPart l f).retireFull = s.retireFull := rfl
@[simp] theorem State.modPart_savedScores (s : State) (l : Nat) (f : Part → Part) : (s.modPart l f).savedScores = s.savedScores := rfl
@[simp] theorem State.modPart_portTo (s : State) (l : Nat) (f : Part → Part) : (s.modPart l f).portTo = s.portTo := rfl
@[simp] theorem State.modPart_unrouted (s : State) (l : Nat) (f : Part → Part) : (s.modPart l f).unrouted = s.unrouted := rfl
@[simp] theorem State.modPart_rotaNext (s : State) (l : Nat) (f : Part → Part) : (s.modPart l f).rotaNext = s.rotaNext := rfl
@[simp] theorem State.modPart_hq (s : State) (l : Nat) (f : Part → Part) : (s.modPart l f).hq = s.hq := rfl
@[simp] theorem State.modPart_cutting (s : State) (l : Nat) (f : Part → Part) : (s.modPart l f).cutting = s.cutting := rfl
@[simp] theorem State.modPart_lastMapped (s : State) (l : Nat) (f : Part → Part) : (s.modPart l f).lastMapped = s.lastMapped := rfl
@[simp] theorem State.modPart_lastSlot (s : State) (l : Nat) (f : Part → Part) : (s.modPart l f).lastSlot = s.lastSlot := rfl
@[simp] theorem State.modPart_journal (s : State) (l : Nat) (f : Part → Part) : (s.modPart l f).journal = s.journal := rfl
@[simp] theorem State.modPart_jseq (s : State) (l : Nat) (f : Part → Part) : (s.modPart l f).jseq = s.jseq := rfl
@[simp] theorem State.modPart_irqs (s : State) (l : Nat) (f : Part → Part) : (s.modPart l f).irqs = s.irqs := rfl
@[simp] theorem State.modPart_hostReqs (s : State) (l : Nat) (f : Part → Part) : (s.modPart l f).hostReqs = s.hostReqs := rfl
@[simp] theorem State.modPart_hostClk (s : State) (l : Nat) (f : Part → Part) : (s.modPart l f).hostClk = s.hostClk := rfl
@[simp] theorem State.modPart_hostReply (s : State) (l : Nat) (f : Part → Part) : (s.modPart l f).hostReply = s.hostReply := rfl
@[simp] theorem State.modPart_fabAcks (s : State) (l : Nat) (f : Part → Part) : (s.modPart l f).fabAcks = s.fabAcks := rfl
@[simp] theorem State.modPart_dumps (s : State) (l : Nat) (f : Part → Part) : (s.modPart l f).dumps = s.dumps := rfl
@[simp] theorem State.modPart_stage (s : State) (l : Nat) (f : Part → Part) : (s.modPart l f).stage = s.stage := rfl
@[simp] theorem State.modPart_cut (s : State) (l : Nat) (f : Part → Part) : (s.modPart l f).cut = s.cut := rfl
@[simp] theorem State.modPart_powered (s : State) (l : Nat) (f : Part → Part) : (s.modPart l f).powered = s.powered := rfl
@[simp] theorem State.modPart_cold (s : State) (l : Nat) (f : Part → Part) : (s.modPart l f).cold = s.cold := rfl
@[simp] theorem State.modPart_pcap (s : State) (l : Nat) (f : Part → Part) : (s.modPart l f).pcap = s.pcap := rfl
@[simp] theorem State.modPart_watts (s : State) (l : Nat) (f : Part → Part) : (s.modPart l f).watts = s.watts := rfl
@[simp] theorem State.modPart_busyNow (s : State) (l : Nat) (f : Part → Part) : (s.modPart l f).busyNow = s.busyNow := rfl
@[simp] theorem State.modPart_busyLast (s : State) (l : Nat) (f : Part → Part) : (s.modPart l f).busyLast = s.busyLast := rfl
@[simp] theorem State.modPart_rota (s : State) (l : Nat) (f : Part → Part) : (s.modPart l f).rota = s.rota := rfl
@[simp] theorem State.modPart_scrub (s : State) (l : Nat) (f : Part → Part) : (s.modPart l f).scrub = s.scrub := rfl
@[simp] theorem State.modPart_fabdev (s : State) (l : Nat) (f : Part → Part) : (s.modPart l f).fabdev = s.fabdev := rfl
@[simp] theorem State.modPart_i3cAddr (s : State) (l : Nat) (f : Part → Part) : (s.modPart l f).i3cAddr = s.i3cAddr := rfl
@[simp] theorem State.modPart_tap (s : State) (l : Nat) (f : Part → Part) : (s.modPart l f).tap = s.tap := rfl
@[simp] theorem State.modPart_resetHeld (s : State) (l : Nat) (f : Part → Part) : (s.modPart l f).resetHeld = s.resetHeld := rfl
@[simp] theorem State.modPart_alert (s : State) (l : Nat) (f : Part → Part) : (s.modPart l f).alert = s.alert := rfl
@[simp] theorem State.modPart_inletDeg (s : State) (l : Nat) (f : Part → Part) : (s.modPart l f).inletDeg = s.inletDeg := rfl
@[simp] theorem State.modPart_inletOut (s : State) (l : Nat) (f : Part → Part) : (s.modPart l f).inletOut = s.inletOut := rfl
@[simp] theorem State.modPart_ref (s : State) (l : Nat) (f : Part → Part) : (s.modPart l f).ref = s.ref := rfl
@[simp] theorem State.modPart_refReset (s : State) (l : Nat) (f : Part → Part) : (s.modPart l f).refReset = s.refReset := rfl
@[simp] theorem State.modPart_halvings (s : State) (l : Nat) (f : Part → Part) : (s.modPart l f).halvings = s.halvings := rfl

@[simp] theorem State.modHearth_agenda (s : State) (h : Nat) (f : Hearth → Hearth) : (s.modHearth h f).agenda = s.agenda := rfl
@[simp] theorem State.modHearth_tick (s : State) (h : Nat) (f : Hearth → Hearth) : (s.modHearth h f).tick = s.tick := rfl
@[simp] theorem State.modHearth_free (s : State) (h : Nat) (f : Hearth → Hearth) : (s.modHearth h f).free = s.free := rfl
@[simp] theorem State.modHearth_nextUid (s : State) (h : Nat) (f : Hearth → Hearth) : (s.modHearth h f).nextUid = s.nextUid := rfl
@[simp] theorem State.modHearth_cur (s : State) (h : Nat) (f : Hearth → Hearth) : (s.modHearth h f).cur = s.cur := rfl
@[simp] theorem State.modHearth_mem (s : State) (h : Nat) (f : Hearth → Hearth) : (s.modHearth h f).mem = s.mem := rfl
@[simp] theorem State.modHearth_linePoison (s : State) (h : Nat) (f : Hearth → Hearth) : (s.modHearth h f).linePoison = s.linePoison := rfl
@[simp] theorem State.modHearth_lineTime (s : State) (h : Nat) (f : Hearth → Hearth) : (s.modHearth h f).lineTime = s.lineTime := rfl
@[simp] theorem State.modHearth_releases (s : State) (h : Nat) (f : Hearth → Hearth) : (s.modHearth h f).releases = s.releases := rfl
@[simp] theorem State.modHearth_hostMem (s : State) (h : Nat) (f : Hearth → Hearth) : (s.modHearth h f).hostMem = s.hostMem := rfl
@[simp] theorem State.modHearth_tile (s : State) (h : Nat) (f : Hearth → Hearth) : (s.modHearth h f).tile = s.tile := rfl
@[simp] theorem State.modHearth_tilePoison (s : State) (h : Nat) (f : Hearth → Hearth) : (s.modHearth h f).tilePoison = s.tilePoison := rfl
@[simp] theorem State.modHearth_badScale (s : State) (h : Nat) (f : Hearth → Hearth) : (s.modHearth h f).badScale = s.badScale := rfl
@[simp] theorem State.modHearth_row (s : State) (h : Nat) (f : Hearth → Hearth) : (s.modHearth h f).row = s.row := rfl
@[simp] theorem State.modHearth_areas (s : State) (h : Nat) (f : Hearth → Hearth) : (s.modHearth h f).areas = s.areas := rfl
@[simp] theorem State.modHearth_ctxs (s : State) (h : Nat) (f : Hearth → Hearth) : (s.modHearth h f).ctxs = s.ctxs := rfl
@[simp] theorem State.modHearth_parts (s : State) (h : Nat) (f : Hearth → Hearth) : (s.modHearth h f).parts = s.parts := rfl
@[simp] theorem State.modHearth_hearths (s : State) (h : Nat) (f : Hearth → Hearth) : (s.modHearth h f).hearths = s.hearths.put Hearth.reset h (f (s.hearth h)) := rfl
@[simp] theorem State.modHearth_slots (s : State) (h : Nat) (f : Hearth → Hearth) : (s.modHearth h f).slots = s.slots := rfl
@[simp] theorem State.modHearth_carves (s : State) (h : Nat) (f : Hearth → Hearth) : (s.modHearth h f).carves = s.carves := rfl
@[simp] theorem State.modHearth_queues (s : State) (h : Nat) (f : Hearth → Hearth) : (s.modHearth h f).queues = s.queues := rfl
@[simp] theorem State.modHearth_subs (s : State) (h : Nat) (f : Hearth → Hearth) : (s.modHearth h f).subs = s.subs := rfl
@[simp] theorem State.modHearth_msgs (s : State) (h : Nat) (f : Hearth → Hearth) : (s.modHearth h f).msgs = s.msgs := rfl
@[simp] theorem State.modHearth_arbiters (s : State) (h : Nat) (f : Hearth → Hearth) : (s.modHearth h f).arbiters = s.arbiters := rfl
@[simp] theorem State.modHearth_pops (s : State) (h : Nat) (f : Hearth → Hearth) : (s.modHearth h f).pops = s.pops := rfl
@[simp] theorem State.modHearth_accs (s : State) (h : Nat) (f : Hearth → Hearth) : (s.modHearth h f).accs = s.accs := rfl
@[simp] theorem State.modHearth_events (s : State) (h : Nat) (f : Hearth → Hearth) : (s.modHearth h f).events = s.events := rfl
@[simp] theorem State.modHearth_dtlb (s : State) (h : Nat) (f : Hearth → Hearth) : (s.modHearth h f).dtlb = s.dtlb := rfl
@[simp] theorem State.modHearth_walks (s : State) (h : Nat) (f : Hearth → Hearth) : (s.modHearth h f).walks = s.walks := rfl
@[simp] theorem State.modHearth_missed (s : State) (h : Nat) (f : Hearth → Hearth) : (s.modHearth h f).missed = s.missed := rfl
@[simp] theorem State.modHearth_slices (s : State) (h : Nat) (f : Hearth → Hearth) : (s.modHearth h f).slices = s.slices := rfl
@[simp] theorem State.modHearth_chanMap (s : State) (h : Nat) (f : Hearth → Hearth) : (s.modHearth h f).chanMap = s.chanMap := rfl
@[simp] theorem State.modHearth_spare (s : State) (h : Nat) (f : Hearth → Hearth) : (s.modHearth h f).spare = s.spare := rfl
@[simp] theorem State.modHearth_keys (s : State) (h : Nat) (f : Hearth → Hearth) : (s.modHearth h f).keys = s.keys := rfl
@[simp] theorem State.modHearth_tags (s : State) (h : Nat) (f : Hearth → Hearth) : (s.modHearth h f).tags = s.tags := rfl
@[simp] theorem State.modHearth_integrity (s : State) (h : Nat) (f : Hearth → Hearth) : (s.modHearth h f).integrity = s.integrity := rfl
@[simp] theorem State.modHearth_units (s : State) (h : Nat) (f : Hearth → Hearth) : (s.modHearth h f).units = s.units := rfl
@[simp] theorem State.modHearth_leases (s : State) (h : Nat) (f : Hearth → Hearth) : (s.modHearth h f).leases = s.leases := rfl
@[simp] theorem State.modHearth_leaseLog (s : State) (h : Nat) (f : Hearth → Hearth) : (s.modHearth h f).leaseLog = s.leaseLog := rfl
@[simp] theorem State.modHearth_lseq (s : State) (h : Nat) (f : Hearth → Hearth) : (s.modHearth h f).lseq = s.lseq := rfl
@[simp] theorem State.modHearth_triggers (s : State) (h : Nat) (f : Hearth → Hearth) : (s.modHearth h f).triggers = s.triggers := rfl
@[simp] theorem State.modHearth_retireStore (s : State) (h : Nat) (f : Hearth → Hearth) : (s.modHearth h f).retireStore = s.retireStore := rfl
@[simp] theorem State.modHearth_retireFull (s : State) (h : Nat) (f : Hearth → Hearth) : (s.modHearth h f).retireFull = s.retireFull := rfl
@[simp] theorem State.modHearth_savedScores (s : State) (h : Nat) (f : Hearth → Hearth) : (s.modHearth h f).savedScores = s.savedScores := rfl
@[simp] theorem State.modHearth_portTo (s : State) (h : Nat) (f : Hearth → Hearth) : (s.modHearth h f).portTo = s.portTo := rfl
@[simp] theorem State.modHearth_unrouted (s : State) (h : Nat) (f : Hearth → Hearth) : (s.modHearth h f).unrouted = s.unrouted := rfl
@[simp] theorem State.modHearth_rotaNext (s : State) (h : Nat) (f : Hearth → Hearth) : (s.modHearth h f).rotaNext = s.rotaNext := rfl
@[simp] theorem State.modHearth_hq (s : State) (h : Nat) (f : Hearth → Hearth) : (s.modHearth h f).hq = s.hq := rfl
@[simp] theorem State.modHearth_cutting (s : State) (h : Nat) (f : Hearth → Hearth) : (s.modHearth h f).cutting = s.cutting := rfl
@[simp] theorem State.modHearth_lastMapped (s : State) (h : Nat) (f : Hearth → Hearth) : (s.modHearth h f).lastMapped = s.lastMapped := rfl
@[simp] theorem State.modHearth_lastSlot (s : State) (h : Nat) (f : Hearth → Hearth) : (s.modHearth h f).lastSlot = s.lastSlot := rfl
@[simp] theorem State.modHearth_journal (s : State) (h : Nat) (f : Hearth → Hearth) : (s.modHearth h f).journal = s.journal := rfl
@[simp] theorem State.modHearth_jseq (s : State) (h : Nat) (f : Hearth → Hearth) : (s.modHearth h f).jseq = s.jseq := rfl
@[simp] theorem State.modHearth_irqs (s : State) (h : Nat) (f : Hearth → Hearth) : (s.modHearth h f).irqs = s.irqs := rfl
@[simp] theorem State.modHearth_hostReqs (s : State) (h : Nat) (f : Hearth → Hearth) : (s.modHearth h f).hostReqs = s.hostReqs := rfl
@[simp] theorem State.modHearth_hostClk (s : State) (h : Nat) (f : Hearth → Hearth) : (s.modHearth h f).hostClk = s.hostClk := rfl
@[simp] theorem State.modHearth_hostReply (s : State) (h : Nat) (f : Hearth → Hearth) : (s.modHearth h f).hostReply = s.hostReply := rfl
@[simp] theorem State.modHearth_fabAcks (s : State) (h : Nat) (f : Hearth → Hearth) : (s.modHearth h f).fabAcks = s.fabAcks := rfl
@[simp] theorem State.modHearth_dumps (s : State) (h : Nat) (f : Hearth → Hearth) : (s.modHearth h f).dumps = s.dumps := rfl
@[simp] theorem State.modHearth_stage (s : State) (h : Nat) (f : Hearth → Hearth) : (s.modHearth h f).stage = s.stage := rfl
@[simp] theorem State.modHearth_cut (s : State) (h : Nat) (f : Hearth → Hearth) : (s.modHearth h f).cut = s.cut := rfl
@[simp] theorem State.modHearth_powered (s : State) (h : Nat) (f : Hearth → Hearth) : (s.modHearth h f).powered = s.powered := rfl
@[simp] theorem State.modHearth_cold (s : State) (h : Nat) (f : Hearth → Hearth) : (s.modHearth h f).cold = s.cold := rfl
@[simp] theorem State.modHearth_pcap (s : State) (h : Nat) (f : Hearth → Hearth) : (s.modHearth h f).pcap = s.pcap := rfl
@[simp] theorem State.modHearth_watts (s : State) (h : Nat) (f : Hearth → Hearth) : (s.modHearth h f).watts = s.watts := rfl
@[simp] theorem State.modHearth_busyNow (s : State) (h : Nat) (f : Hearth → Hearth) : (s.modHearth h f).busyNow = s.busyNow := rfl
@[simp] theorem State.modHearth_busyLast (s : State) (h : Nat) (f : Hearth → Hearth) : (s.modHearth h f).busyLast = s.busyLast := rfl
@[simp] theorem State.modHearth_rota (s : State) (h : Nat) (f : Hearth → Hearth) : (s.modHearth h f).rota = s.rota := rfl
@[simp] theorem State.modHearth_scrub (s : State) (h : Nat) (f : Hearth → Hearth) : (s.modHearth h f).scrub = s.scrub := rfl
@[simp] theorem State.modHearth_fabdev (s : State) (h : Nat) (f : Hearth → Hearth) : (s.modHearth h f).fabdev = s.fabdev := rfl
@[simp] theorem State.modHearth_i3cAddr (s : State) (h : Nat) (f : Hearth → Hearth) : (s.modHearth h f).i3cAddr = s.i3cAddr := rfl
@[simp] theorem State.modHearth_tap (s : State) (h : Nat) (f : Hearth → Hearth) : (s.modHearth h f).tap = s.tap := rfl
@[simp] theorem State.modHearth_resetHeld (s : State) (h : Nat) (f : Hearth → Hearth) : (s.modHearth h f).resetHeld = s.resetHeld := rfl
@[simp] theorem State.modHearth_alert (s : State) (h : Nat) (f : Hearth → Hearth) : (s.modHearth h f).alert = s.alert := rfl
@[simp] theorem State.modHearth_inletDeg (s : State) (h : Nat) (f : Hearth → Hearth) : (s.modHearth h f).inletDeg = s.inletDeg := rfl
@[simp] theorem State.modHearth_inletOut (s : State) (h : Nat) (f : Hearth → Hearth) : (s.modHearth h f).inletOut = s.inletOut := rfl
@[simp] theorem State.modHearth_ref (s : State) (h : Nat) (f : Hearth → Hearth) : (s.modHearth h f).ref = s.ref := rfl
@[simp] theorem State.modHearth_refReset (s : State) (h : Nat) (f : Hearth → Hearth) : (s.modHearth h f).refReset = s.refReset := rfl
@[simp] theorem State.modHearth_halvings (s : State) (h : Nat) (f : Hearth → Hearth) : (s.modHearth h f).halvings = s.halvings := rfl

@[simp] theorem State.count_agenda (s : State) (h sel n : Nat) : (s.count h sel n).agenda = s.agenda := rfl
@[simp] theorem State.count_tick (s : State) (h sel n : Nat) : (s.count h sel n).tick = s.tick := rfl
@[simp] theorem State.count_free (s : State) (h sel n : Nat) : (s.count h sel n).free = s.free := rfl
@[simp] theorem State.count_nextUid (s : State) (h sel n : Nat) : (s.count h sel n).nextUid = s.nextUid := rfl
@[simp] theorem State.count_cur (s : State) (h sel n : Nat) : (s.count h sel n).cur = s.cur := rfl
@[simp] theorem State.count_mem (s : State) (h sel n : Nat) : (s.count h sel n).mem = s.mem := rfl
@[simp] theorem State.count_linePoison (s : State) (h sel n : Nat) : (s.count h sel n).linePoison = s.linePoison := rfl
@[simp] theorem State.count_lineTime (s : State) (h sel n : Nat) : (s.count h sel n).lineTime = s.lineTime := rfl
@[simp] theorem State.count_releases (s : State) (h sel n : Nat) : (s.count h sel n).releases = s.releases := rfl
@[simp] theorem State.count_hostMem (s : State) (h sel n : Nat) : (s.count h sel n).hostMem = s.hostMem := rfl
@[simp] theorem State.count_tile (s : State) (h sel n : Nat) : (s.count h sel n).tile = s.tile := rfl
@[simp] theorem State.count_tilePoison (s : State) (h sel n : Nat) : (s.count h sel n).tilePoison = s.tilePoison := rfl
@[simp] theorem State.count_badScale (s : State) (h sel n : Nat) : (s.count h sel n).badScale = s.badScale := rfl
@[simp] theorem State.count_row (s : State) (h sel n : Nat) : (s.count h sel n).row = s.row := rfl
@[simp] theorem State.count_areas (s : State) (h sel n : Nat) : (s.count h sel n).areas = s.areas := rfl
@[simp] theorem State.count_ctxs (s : State) (h sel n : Nat) : (s.count h sel n).ctxs = s.ctxs := rfl
@[simp] theorem State.count_parts (s : State) (h sel n : Nat) : (s.count h sel n).parts = s.parts := rfl
@[simp] theorem State.count_slots (s : State) (h sel n : Nat) : (s.count h sel n).slots = s.slots := rfl
@[simp] theorem State.count_carves (s : State) (h sel n : Nat) : (s.count h sel n).carves = s.carves := rfl
@[simp] theorem State.count_queues (s : State) (h sel n : Nat) : (s.count h sel n).queues = s.queues := rfl
@[simp] theorem State.count_subs (s : State) (h sel n : Nat) : (s.count h sel n).subs = s.subs := rfl
@[simp] theorem State.count_msgs (s : State) (h sel n : Nat) : (s.count h sel n).msgs = s.msgs := rfl
@[simp] theorem State.count_arbiters (s : State) (h sel n : Nat) : (s.count h sel n).arbiters = s.arbiters := rfl
@[simp] theorem State.count_pops (s : State) (h sel n : Nat) : (s.count h sel n).pops = s.pops := rfl
@[simp] theorem State.count_accs (s : State) (h sel n : Nat) : (s.count h sel n).accs = s.accs := rfl
@[simp] theorem State.count_events (s : State) (h sel n : Nat) : (s.count h sel n).events = s.events := rfl
@[simp] theorem State.count_dtlb (s : State) (h sel n : Nat) : (s.count h sel n).dtlb = s.dtlb := rfl
@[simp] theorem State.count_walks (s : State) (h sel n : Nat) : (s.count h sel n).walks = s.walks := rfl
@[simp] theorem State.count_missed (s : State) (h sel n : Nat) : (s.count h sel n).missed = s.missed := rfl
@[simp] theorem State.count_slices (s : State) (h sel n : Nat) : (s.count h sel n).slices = s.slices := rfl
@[simp] theorem State.count_chanMap (s : State) (h sel n : Nat) : (s.count h sel n).chanMap = s.chanMap := rfl
@[simp] theorem State.count_spare (s : State) (h sel n : Nat) : (s.count h sel n).spare = s.spare := rfl
@[simp] theorem State.count_keys (s : State) (h sel n : Nat) : (s.count h sel n).keys = s.keys := rfl
@[simp] theorem State.count_tags (s : State) (h sel n : Nat) : (s.count h sel n).tags = s.tags := rfl
@[simp] theorem State.count_integrity (s : State) (h sel n : Nat) : (s.count h sel n).integrity = s.integrity := rfl
@[simp] theorem State.count_units (s : State) (h sel n : Nat) : (s.count h sel n).units = s.units := rfl
@[simp] theorem State.count_leases (s : State) (h sel n : Nat) : (s.count h sel n).leases = s.leases := rfl
@[simp] theorem State.count_leaseLog (s : State) (h sel n : Nat) : (s.count h sel n).leaseLog = s.leaseLog := rfl
@[simp] theorem State.count_lseq (s : State) (h sel n : Nat) : (s.count h sel n).lseq = s.lseq := rfl
@[simp] theorem State.count_triggers (s : State) (h sel n : Nat) : (s.count h sel n).triggers = s.triggers := rfl
@[simp] theorem State.count_retireStore (s : State) (h sel n : Nat) : (s.count h sel n).retireStore = s.retireStore := rfl
@[simp] theorem State.count_retireFull (s : State) (h sel n : Nat) : (s.count h sel n).retireFull = s.retireFull := rfl
@[simp] theorem State.count_savedScores (s : State) (h sel n : Nat) : (s.count h sel n).savedScores = s.savedScores := rfl
@[simp] theorem State.count_portTo (s : State) (h sel n : Nat) : (s.count h sel n).portTo = s.portTo := rfl
@[simp] theorem State.count_unrouted (s : State) (h sel n : Nat) : (s.count h sel n).unrouted = s.unrouted := rfl
@[simp] theorem State.count_rotaNext (s : State) (h sel n : Nat) : (s.count h sel n).rotaNext = s.rotaNext := rfl
@[simp] theorem State.count_hq (s : State) (h sel n : Nat) : (s.count h sel n).hq = s.hq := rfl
@[simp] theorem State.count_cutting (s : State) (h sel n : Nat) : (s.count h sel n).cutting = s.cutting := rfl
@[simp] theorem State.count_lastMapped (s : State) (h sel n : Nat) : (s.count h sel n).lastMapped = s.lastMapped := rfl
@[simp] theorem State.count_lastSlot (s : State) (h sel n : Nat) : (s.count h sel n).lastSlot = s.lastSlot := rfl
@[simp] theorem State.count_journal (s : State) (h sel n : Nat) : (s.count h sel n).journal = s.journal := rfl
@[simp] theorem State.count_jseq (s : State) (h sel n : Nat) : (s.count h sel n).jseq = s.jseq := rfl
@[simp] theorem State.count_irqs (s : State) (h sel n : Nat) : (s.count h sel n).irqs = s.irqs := rfl
@[simp] theorem State.count_hostReqs (s : State) (h sel n : Nat) : (s.count h sel n).hostReqs = s.hostReqs := rfl
@[simp] theorem State.count_hostClk (s : State) (h sel n : Nat) : (s.count h sel n).hostClk = s.hostClk := rfl
@[simp] theorem State.count_hostReply (s : State) (h sel n : Nat) : (s.count h sel n).hostReply = s.hostReply := rfl
@[simp] theorem State.count_fabAcks (s : State) (h sel n : Nat) : (s.count h sel n).fabAcks = s.fabAcks := rfl
@[simp] theorem State.count_dumps (s : State) (h sel n : Nat) : (s.count h sel n).dumps = s.dumps := rfl
@[simp] theorem State.count_stage (s : State) (h sel n : Nat) : (s.count h sel n).stage = s.stage := rfl
@[simp] theorem State.count_cut (s : State) (h sel n : Nat) : (s.count h sel n).cut = s.cut := rfl
@[simp] theorem State.count_powered (s : State) (h sel n : Nat) : (s.count h sel n).powered = s.powered := rfl
@[simp] theorem State.count_cold (s : State) (h sel n : Nat) : (s.count h sel n).cold = s.cold := rfl
@[simp] theorem State.count_pcap (s : State) (h sel n : Nat) : (s.count h sel n).pcap = s.pcap := rfl
@[simp] theorem State.count_watts (s : State) (h sel n : Nat) : (s.count h sel n).watts = s.watts := rfl
@[simp] theorem State.count_busyNow (s : State) (h sel n : Nat) : (s.count h sel n).busyNow = s.busyNow := rfl
@[simp] theorem State.count_busyLast (s : State) (h sel n : Nat) : (s.count h sel n).busyLast = s.busyLast := rfl
@[simp] theorem State.count_rota (s : State) (h sel n : Nat) : (s.count h sel n).rota = s.rota := rfl
@[simp] theorem State.count_scrub (s : State) (h sel n : Nat) : (s.count h sel n).scrub = s.scrub := rfl
@[simp] theorem State.count_fabdev (s : State) (h sel n : Nat) : (s.count h sel n).fabdev = s.fabdev := rfl
@[simp] theorem State.count_i3cAddr (s : State) (h sel n : Nat) : (s.count h sel n).i3cAddr = s.i3cAddr := rfl
@[simp] theorem State.count_tap (s : State) (h sel n : Nat) : (s.count h sel n).tap = s.tap := rfl
@[simp] theorem State.count_resetHeld (s : State) (h sel n : Nat) : (s.count h sel n).resetHeld = s.resetHeld := rfl
@[simp] theorem State.count_alert (s : State) (h sel n : Nat) : (s.count h sel n).alert = s.alert := rfl
@[simp] theorem State.count_inletDeg (s : State) (h sel n : Nat) : (s.count h sel n).inletDeg = s.inletDeg := rfl
@[simp] theorem State.count_inletOut (s : State) (h sel n : Nat) : (s.count h sel n).inletOut = s.inletOut := rfl
@[simp] theorem State.count_ref (s : State) (h sel n : Nat) : (s.count h sel n).ref = s.ref := rfl
@[simp] theorem State.count_refReset (s : State) (h sel n : Nat) : (s.count h sel n).refReset = s.refReset := rfl
@[simp] theorem State.count_halvings (s : State) (h sel n : Nat) : (s.count h sel n).halvings = s.halvings := rfl

@[simp] theorem State.setSym_agenda (s : State) (p : Nat) (y : Sym) : (s.setSym p y).agenda = s.agenda := rfl
@[simp] theorem State.setSym_tick (s : State) (p : Nat) (y : Sym) : (s.setSym p y).tick = s.tick := rfl
@[simp] theorem State.setSym_free (s : State) (p : Nat) (y : Sym) : (s.setSym p y).free = s.free := rfl
@[simp] theorem State.setSym_nextUid (s : State) (p : Nat) (y : Sym) : (s.setSym p y).nextUid = s.nextUid := rfl
@[simp] theorem State.setSym_cur (s : State) (p : Nat) (y : Sym) : (s.setSym p y).cur = s.cur := rfl
@[simp] theorem State.setSym_mem (s : State) (p : Nat) (y : Sym) : (s.setSym p y).mem = s.mem := rfl
@[simp] theorem State.setSym_linePoison (s : State) (p : Nat) (y : Sym) : (s.setSym p y).linePoison = s.linePoison := rfl
@[simp] theorem State.setSym_lineTime (s : State) (p : Nat) (y : Sym) : (s.setSym p y).lineTime = s.lineTime := rfl
@[simp] theorem State.setSym_releases (s : State) (p : Nat) (y : Sym) : (s.setSym p y).releases = s.releases := rfl
@[simp] theorem State.setSym_hostMem (s : State) (p : Nat) (y : Sym) : (s.setSym p y).hostMem = s.hostMem := rfl
@[simp] theorem State.setSym_tile (s : State) (p : Nat) (y : Sym) : (s.setSym p y).tile = s.tile := rfl
@[simp] theorem State.setSym_tilePoison (s : State) (p : Nat) (y : Sym) : (s.setSym p y).tilePoison = s.tilePoison := rfl
@[simp] theorem State.setSym_badScale (s : State) (p : Nat) (y : Sym) : (s.setSym p y).badScale = s.badScale := rfl
@[simp] theorem State.setSym_row (s : State) (p : Nat) (y : Sym) : (s.setSym p y).row = s.row.put Sym.empty p y := rfl
@[simp] theorem State.setSym_areas (s : State) (p : Nat) (y : Sym) : (s.setSym p y).areas = s.areas := rfl
@[simp] theorem State.setSym_ctxs (s : State) (p : Nat) (y : Sym) : (s.setSym p y).ctxs = s.ctxs := rfl
@[simp] theorem State.setSym_parts (s : State) (p : Nat) (y : Sym) : (s.setSym p y).parts = s.parts := rfl
@[simp] theorem State.setSym_hearths (s : State) (p : Nat) (y : Sym) : (s.setSym p y).hearths = s.hearths := rfl
@[simp] theorem State.setSym_slots (s : State) (p : Nat) (y : Sym) : (s.setSym p y).slots = s.slots := rfl
@[simp] theorem State.setSym_carves (s : State) (p : Nat) (y : Sym) : (s.setSym p y).carves = s.carves := rfl
@[simp] theorem State.setSym_queues (s : State) (p : Nat) (y : Sym) : (s.setSym p y).queues = s.queues := rfl
@[simp] theorem State.setSym_subs (s : State) (p : Nat) (y : Sym) : (s.setSym p y).subs = s.subs := rfl
@[simp] theorem State.setSym_msgs (s : State) (p : Nat) (y : Sym) : (s.setSym p y).msgs = s.msgs := rfl
@[simp] theorem State.setSym_arbiters (s : State) (p : Nat) (y : Sym) : (s.setSym p y).arbiters = s.arbiters := rfl
@[simp] theorem State.setSym_pops (s : State) (p : Nat) (y : Sym) : (s.setSym p y).pops = s.pops := rfl
@[simp] theorem State.setSym_accs (s : State) (p : Nat) (y : Sym) : (s.setSym p y).accs = s.accs := rfl
@[simp] theorem State.setSym_events (s : State) (p : Nat) (y : Sym) : (s.setSym p y).events = s.events := rfl
@[simp] theorem State.setSym_dtlb (s : State) (p : Nat) (y : Sym) : (s.setSym p y).dtlb = s.dtlb := rfl
@[simp] theorem State.setSym_walks (s : State) (p : Nat) (y : Sym) : (s.setSym p y).walks = s.walks := rfl
@[simp] theorem State.setSym_missed (s : State) (p : Nat) (y : Sym) : (s.setSym p y).missed = s.missed := rfl
@[simp] theorem State.setSym_slices (s : State) (p : Nat) (y : Sym) : (s.setSym p y).slices = s.slices := rfl
@[simp] theorem State.setSym_chanMap (s : State) (p : Nat) (y : Sym) : (s.setSym p y).chanMap = s.chanMap := rfl
@[simp] theorem State.setSym_spare (s : State) (p : Nat) (y : Sym) : (s.setSym p y).spare = s.spare := rfl
@[simp] theorem State.setSym_keys (s : State) (p : Nat) (y : Sym) : (s.setSym p y).keys = s.keys := rfl
@[simp] theorem State.setSym_tags (s : State) (p : Nat) (y : Sym) : (s.setSym p y).tags = s.tags := rfl
@[simp] theorem State.setSym_integrity (s : State) (p : Nat) (y : Sym) : (s.setSym p y).integrity = s.integrity := rfl
@[simp] theorem State.setSym_units (s : State) (p : Nat) (y : Sym) : (s.setSym p y).units = s.units := rfl
@[simp] theorem State.setSym_leases (s : State) (p : Nat) (y : Sym) : (s.setSym p y).leases = s.leases := rfl
@[simp] theorem State.setSym_leaseLog (s : State) (p : Nat) (y : Sym) : (s.setSym p y).leaseLog = s.leaseLog := rfl
@[simp] theorem State.setSym_lseq (s : State) (p : Nat) (y : Sym) : (s.setSym p y).lseq = s.lseq := rfl
@[simp] theorem State.setSym_triggers (s : State) (p : Nat) (y : Sym) : (s.setSym p y).triggers = s.triggers := rfl
@[simp] theorem State.setSym_retireStore (s : State) (p : Nat) (y : Sym) : (s.setSym p y).retireStore = s.retireStore := rfl
@[simp] theorem State.setSym_retireFull (s : State) (p : Nat) (y : Sym) : (s.setSym p y).retireFull = s.retireFull := rfl
@[simp] theorem State.setSym_savedScores (s : State) (p : Nat) (y : Sym) : (s.setSym p y).savedScores = s.savedScores := rfl
@[simp] theorem State.setSym_portTo (s : State) (p : Nat) (y : Sym) : (s.setSym p y).portTo = s.portTo := rfl
@[simp] theorem State.setSym_unrouted (s : State) (p : Nat) (y : Sym) : (s.setSym p y).unrouted = s.unrouted := rfl
@[simp] theorem State.setSym_rotaNext (s : State) (p : Nat) (y : Sym) : (s.setSym p y).rotaNext = s.rotaNext := rfl
@[simp] theorem State.setSym_hq (s : State) (p : Nat) (y : Sym) : (s.setSym p y).hq = s.hq := rfl
@[simp] theorem State.setSym_cutting (s : State) (p : Nat) (y : Sym) : (s.setSym p y).cutting = s.cutting := rfl
@[simp] theorem State.setSym_lastMapped (s : State) (p : Nat) (y : Sym) : (s.setSym p y).lastMapped = s.lastMapped := rfl
@[simp] theorem State.setSym_lastSlot (s : State) (p : Nat) (y : Sym) : (s.setSym p y).lastSlot = s.lastSlot := rfl
@[simp] theorem State.setSym_journal (s : State) (p : Nat) (y : Sym) : (s.setSym p y).journal = s.journal := rfl
@[simp] theorem State.setSym_jseq (s : State) (p : Nat) (y : Sym) : (s.setSym p y).jseq = s.jseq := rfl
@[simp] theorem State.setSym_irqs (s : State) (p : Nat) (y : Sym) : (s.setSym p y).irqs = s.irqs := rfl
@[simp] theorem State.setSym_hostReqs (s : State) (p : Nat) (y : Sym) : (s.setSym p y).hostReqs = s.hostReqs := rfl
@[simp] theorem State.setSym_hostClk (s : State) (p : Nat) (y : Sym) : (s.setSym p y).hostClk = s.hostClk := rfl
@[simp] theorem State.setSym_hostReply (s : State) (p : Nat) (y : Sym) : (s.setSym p y).hostReply = s.hostReply := rfl
@[simp] theorem State.setSym_fabAcks (s : State) (p : Nat) (y : Sym) : (s.setSym p y).fabAcks = s.fabAcks := rfl
@[simp] theorem State.setSym_dumps (s : State) (p : Nat) (y : Sym) : (s.setSym p y).dumps = s.dumps := rfl
@[simp] theorem State.setSym_stage (s : State) (p : Nat) (y : Sym) : (s.setSym p y).stage = s.stage := rfl
@[simp] theorem State.setSym_cut (s : State) (p : Nat) (y : Sym) : (s.setSym p y).cut = s.cut := rfl
@[simp] theorem State.setSym_powered (s : State) (p : Nat) (y : Sym) : (s.setSym p y).powered = s.powered := rfl
@[simp] theorem State.setSym_cold (s : State) (p : Nat) (y : Sym) : (s.setSym p y).cold = s.cold := rfl
@[simp] theorem State.setSym_pcap (s : State) (p : Nat) (y : Sym) : (s.setSym p y).pcap = s.pcap := rfl
@[simp] theorem State.setSym_watts (s : State) (p : Nat) (y : Sym) : (s.setSym p y).watts = s.watts := rfl
@[simp] theorem State.setSym_busyNow (s : State) (p : Nat) (y : Sym) : (s.setSym p y).busyNow = s.busyNow := rfl
@[simp] theorem State.setSym_busyLast (s : State) (p : Nat) (y : Sym) : (s.setSym p y).busyLast = s.busyLast := rfl
@[simp] theorem State.setSym_rota (s : State) (p : Nat) (y : Sym) : (s.setSym p y).rota = s.rota := rfl
@[simp] theorem State.setSym_scrub (s : State) (p : Nat) (y : Sym) : (s.setSym p y).scrub = s.scrub := rfl
@[simp] theorem State.setSym_fabdev (s : State) (p : Nat) (y : Sym) : (s.setSym p y).fabdev = s.fabdev := rfl
@[simp] theorem State.setSym_i3cAddr (s : State) (p : Nat) (y : Sym) : (s.setSym p y).i3cAddr = s.i3cAddr := rfl
@[simp] theorem State.setSym_tap (s : State) (p : Nat) (y : Sym) : (s.setSym p y).tap = s.tap := rfl
@[simp] theorem State.setSym_resetHeld (s : State) (p : Nat) (y : Sym) : (s.setSym p y).resetHeld = s.resetHeld := rfl
@[simp] theorem State.setSym_alert (s : State) (p : Nat) (y : Sym) : (s.setSym p y).alert = s.alert := rfl
@[simp] theorem State.setSym_inletDeg (s : State) (p : Nat) (y : Sym) : (s.setSym p y).inletDeg = s.inletDeg := rfl
@[simp] theorem State.setSym_inletOut (s : State) (p : Nat) (y : Sym) : (s.setSym p y).inletOut = s.inletOut := rfl
@[simp] theorem State.setSym_ref (s : State) (p : Nat) (y : Sym) : (s.setSym p y).ref = s.ref := rfl
@[simp] theorem State.setSym_refReset (s : State) (p : Nat) (y : Sym) : (s.setSym p y).refReset = s.refReset := rfl
@[simp] theorem State.setSym_halvings (s : State) (p : Nat) (y : Sym) : (s.setSym p y).halvings = s.halvings := rfl

@[simp] theorem State.modUnit_agenda (s : State) (u : Nat) (f : LUnit → LUnit) : (s.modUnit u f).agenda = s.agenda := rfl
@[simp] theorem State.modUnit_tick (s : State) (u : Nat) (f : LUnit → LUnit) : (s.modUnit u f).tick = s.tick := rfl
@[simp] theorem State.modUnit_free (s : State) (u : Nat) (f : LUnit → LUnit) : (s.modUnit u f).free = s.free := rfl
@[simp] theorem State.modUnit_nextUid (s : State) (u : Nat) (f : LUnit → LUnit) : (s.modUnit u f).nextUid = s.nextUid := rfl
@[simp] theorem State.modUnit_cur (s : State) (u : Nat) (f : LUnit → LUnit) : (s.modUnit u f).cur = s.cur := rfl
@[simp] theorem State.modUnit_mem (s : State) (u : Nat) (f : LUnit → LUnit) : (s.modUnit u f).mem = s.mem := rfl
@[simp] theorem State.modUnit_linePoison (s : State) (u : Nat) (f : LUnit → LUnit) : (s.modUnit u f).linePoison = s.linePoison := rfl
@[simp] theorem State.modUnit_lineTime (s : State) (u : Nat) (f : LUnit → LUnit) : (s.modUnit u f).lineTime = s.lineTime := rfl
@[simp] theorem State.modUnit_releases (s : State) (u : Nat) (f : LUnit → LUnit) : (s.modUnit u f).releases = s.releases := rfl
@[simp] theorem State.modUnit_hostMem (s : State) (u : Nat) (f : LUnit → LUnit) : (s.modUnit u f).hostMem = s.hostMem := rfl
@[simp] theorem State.modUnit_tile (s : State) (u : Nat) (f : LUnit → LUnit) : (s.modUnit u f).tile = s.tile := rfl
@[simp] theorem State.modUnit_tilePoison (s : State) (u : Nat) (f : LUnit → LUnit) : (s.modUnit u f).tilePoison = s.tilePoison := rfl
@[simp] theorem State.modUnit_badScale (s : State) (u : Nat) (f : LUnit → LUnit) : (s.modUnit u f).badScale = s.badScale := rfl
@[simp] theorem State.modUnit_row (s : State) (u : Nat) (f : LUnit → LUnit) : (s.modUnit u f).row = s.row := rfl
@[simp] theorem State.modUnit_areas (s : State) (u : Nat) (f : LUnit → LUnit) : (s.modUnit u f).areas = s.areas := rfl
@[simp] theorem State.modUnit_ctxs (s : State) (u : Nat) (f : LUnit → LUnit) : (s.modUnit u f).ctxs = s.ctxs := rfl
@[simp] theorem State.modUnit_parts (s : State) (u : Nat) (f : LUnit → LUnit) : (s.modUnit u f).parts = s.parts := rfl
@[simp] theorem State.modUnit_hearths (s : State) (u : Nat) (f : LUnit → LUnit) : (s.modUnit u f).hearths = s.hearths := rfl
@[simp] theorem State.modUnit_slots (s : State) (u : Nat) (f : LUnit → LUnit) : (s.modUnit u f).slots = s.slots := rfl
@[simp] theorem State.modUnit_carves (s : State) (u : Nat) (f : LUnit → LUnit) : (s.modUnit u f).carves = s.carves := rfl
@[simp] theorem State.modUnit_queues (s : State) (u : Nat) (f : LUnit → LUnit) : (s.modUnit u f).queues = s.queues := rfl
@[simp] theorem State.modUnit_subs (s : State) (u : Nat) (f : LUnit → LUnit) : (s.modUnit u f).subs = s.subs := rfl
@[simp] theorem State.modUnit_msgs (s : State) (u : Nat) (f : LUnit → LUnit) : (s.modUnit u f).msgs = s.msgs := rfl
@[simp] theorem State.modUnit_arbiters (s : State) (u : Nat) (f : LUnit → LUnit) : (s.modUnit u f).arbiters = s.arbiters := rfl
@[simp] theorem State.modUnit_pops (s : State) (u : Nat) (f : LUnit → LUnit) : (s.modUnit u f).pops = s.pops := rfl
@[simp] theorem State.modUnit_accs (s : State) (u : Nat) (f : LUnit → LUnit) : (s.modUnit u f).accs = s.accs := rfl
@[simp] theorem State.modUnit_events (s : State) (u : Nat) (f : LUnit → LUnit) : (s.modUnit u f).events = s.events := rfl
@[simp] theorem State.modUnit_dtlb (s : State) (u : Nat) (f : LUnit → LUnit) : (s.modUnit u f).dtlb = s.dtlb := rfl
@[simp] theorem State.modUnit_walks (s : State) (u : Nat) (f : LUnit → LUnit) : (s.modUnit u f).walks = s.walks := rfl
@[simp] theorem State.modUnit_missed (s : State) (u : Nat) (f : LUnit → LUnit) : (s.modUnit u f).missed = s.missed := rfl
@[simp] theorem State.modUnit_slices (s : State) (u : Nat) (f : LUnit → LUnit) : (s.modUnit u f).slices = s.slices := rfl
@[simp] theorem State.modUnit_chanMap (s : State) (u : Nat) (f : LUnit → LUnit) : (s.modUnit u f).chanMap = s.chanMap := rfl
@[simp] theorem State.modUnit_spare (s : State) (u : Nat) (f : LUnit → LUnit) : (s.modUnit u f).spare = s.spare := rfl
@[simp] theorem State.modUnit_keys (s : State) (u : Nat) (f : LUnit → LUnit) : (s.modUnit u f).keys = s.keys := rfl
@[simp] theorem State.modUnit_tags (s : State) (u : Nat) (f : LUnit → LUnit) : (s.modUnit u f).tags = s.tags := rfl
@[simp] theorem State.modUnit_integrity (s : State) (u : Nat) (f : LUnit → LUnit) : (s.modUnit u f).integrity = s.integrity := rfl
@[simp] theorem State.modUnit_units (s : State) (u : Nat) (f : LUnit → LUnit) : (s.modUnit u f).units = s.units.put LUnit.reset u (f (s.unit u)) := rfl
@[simp] theorem State.modUnit_leases (s : State) (u : Nat) (f : LUnit → LUnit) : (s.modUnit u f).leases = s.leases := rfl
@[simp] theorem State.modUnit_leaseLog (s : State) (u : Nat) (f : LUnit → LUnit) : (s.modUnit u f).leaseLog = s.leaseLog := rfl
@[simp] theorem State.modUnit_lseq (s : State) (u : Nat) (f : LUnit → LUnit) : (s.modUnit u f).lseq = s.lseq := rfl
@[simp] theorem State.modUnit_triggers (s : State) (u : Nat) (f : LUnit → LUnit) : (s.modUnit u f).triggers = s.triggers := rfl
@[simp] theorem State.modUnit_retireStore (s : State) (u : Nat) (f : LUnit → LUnit) : (s.modUnit u f).retireStore = s.retireStore := rfl
@[simp] theorem State.modUnit_retireFull (s : State) (u : Nat) (f : LUnit → LUnit) : (s.modUnit u f).retireFull = s.retireFull := rfl
@[simp] theorem State.modUnit_savedScores (s : State) (u : Nat) (f : LUnit → LUnit) : (s.modUnit u f).savedScores = s.savedScores := rfl
@[simp] theorem State.modUnit_portTo (s : State) (u : Nat) (f : LUnit → LUnit) : (s.modUnit u f).portTo = s.portTo := rfl
@[simp] theorem State.modUnit_unrouted (s : State) (u : Nat) (f : LUnit → LUnit) : (s.modUnit u f).unrouted = s.unrouted := rfl
@[simp] theorem State.modUnit_rotaNext (s : State) (u : Nat) (f : LUnit → LUnit) : (s.modUnit u f).rotaNext = s.rotaNext := rfl
@[simp] theorem State.modUnit_hq (s : State) (u : Nat) (f : LUnit → LUnit) : (s.modUnit u f).hq = s.hq := rfl
@[simp] theorem State.modUnit_cutting (s : State) (u : Nat) (f : LUnit → LUnit) : (s.modUnit u f).cutting = s.cutting := rfl
@[simp] theorem State.modUnit_lastMapped (s : State) (u : Nat) (f : LUnit → LUnit) : (s.modUnit u f).lastMapped = s.lastMapped := rfl
@[simp] theorem State.modUnit_lastSlot (s : State) (u : Nat) (f : LUnit → LUnit) : (s.modUnit u f).lastSlot = s.lastSlot := rfl
@[simp] theorem State.modUnit_journal (s : State) (u : Nat) (f : LUnit → LUnit) : (s.modUnit u f).journal = s.journal := rfl
@[simp] theorem State.modUnit_jseq (s : State) (u : Nat) (f : LUnit → LUnit) : (s.modUnit u f).jseq = s.jseq := rfl
@[simp] theorem State.modUnit_irqs (s : State) (u : Nat) (f : LUnit → LUnit) : (s.modUnit u f).irqs = s.irqs := rfl
@[simp] theorem State.modUnit_hostReqs (s : State) (u : Nat) (f : LUnit → LUnit) : (s.modUnit u f).hostReqs = s.hostReqs := rfl
@[simp] theorem State.modUnit_hostClk (s : State) (u : Nat) (f : LUnit → LUnit) : (s.modUnit u f).hostClk = s.hostClk := rfl
@[simp] theorem State.modUnit_hostReply (s : State) (u : Nat) (f : LUnit → LUnit) : (s.modUnit u f).hostReply = s.hostReply := rfl
@[simp] theorem State.modUnit_fabAcks (s : State) (u : Nat) (f : LUnit → LUnit) : (s.modUnit u f).fabAcks = s.fabAcks := rfl
@[simp] theorem State.modUnit_dumps (s : State) (u : Nat) (f : LUnit → LUnit) : (s.modUnit u f).dumps = s.dumps := rfl
@[simp] theorem State.modUnit_stage (s : State) (u : Nat) (f : LUnit → LUnit) : (s.modUnit u f).stage = s.stage := rfl
@[simp] theorem State.modUnit_cut (s : State) (u : Nat) (f : LUnit → LUnit) : (s.modUnit u f).cut = s.cut := rfl
@[simp] theorem State.modUnit_powered (s : State) (u : Nat) (f : LUnit → LUnit) : (s.modUnit u f).powered = s.powered := rfl
@[simp] theorem State.modUnit_cold (s : State) (u : Nat) (f : LUnit → LUnit) : (s.modUnit u f).cold = s.cold := rfl
@[simp] theorem State.modUnit_pcap (s : State) (u : Nat) (f : LUnit → LUnit) : (s.modUnit u f).pcap = s.pcap := rfl
@[simp] theorem State.modUnit_watts (s : State) (u : Nat) (f : LUnit → LUnit) : (s.modUnit u f).watts = s.watts := rfl
@[simp] theorem State.modUnit_busyNow (s : State) (u : Nat) (f : LUnit → LUnit) : (s.modUnit u f).busyNow = s.busyNow := rfl
@[simp] theorem State.modUnit_busyLast (s : State) (u : Nat) (f : LUnit → LUnit) : (s.modUnit u f).busyLast = s.busyLast := rfl
@[simp] theorem State.modUnit_rota (s : State) (u : Nat) (f : LUnit → LUnit) : (s.modUnit u f).rota = s.rota := rfl
@[simp] theorem State.modUnit_scrub (s : State) (u : Nat) (f : LUnit → LUnit) : (s.modUnit u f).scrub = s.scrub := rfl
@[simp] theorem State.modUnit_fabdev (s : State) (u : Nat) (f : LUnit → LUnit) : (s.modUnit u f).fabdev = s.fabdev := rfl
@[simp] theorem State.modUnit_i3cAddr (s : State) (u : Nat) (f : LUnit → LUnit) : (s.modUnit u f).i3cAddr = s.i3cAddr := rfl
@[simp] theorem State.modUnit_tap (s : State) (u : Nat) (f : LUnit → LUnit) : (s.modUnit u f).tap = s.tap := rfl
@[simp] theorem State.modUnit_resetHeld (s : State) (u : Nat) (f : LUnit → LUnit) : (s.modUnit u f).resetHeld = s.resetHeld := rfl
@[simp] theorem State.modUnit_alert (s : State) (u : Nat) (f : LUnit → LUnit) : (s.modUnit u f).alert = s.alert := rfl
@[simp] theorem State.modUnit_inletDeg (s : State) (u : Nat) (f : LUnit → LUnit) : (s.modUnit u f).inletDeg = s.inletDeg := rfl
@[simp] theorem State.modUnit_inletOut (s : State) (u : Nat) (f : LUnit → LUnit) : (s.modUnit u f).inletOut = s.inletOut := rfl
@[simp] theorem State.modUnit_ref (s : State) (u : Nat) (f : LUnit → LUnit) : (s.modUnit u f).ref = s.ref := rfl
@[simp] theorem State.modUnit_refReset (s : State) (u : Nat) (f : LUnit → LUnit) : (s.modUnit u f).refReset = s.refReset := rfl
@[simp] theorem State.modUnit_halvings (s : State) (u : Nat) (f : LUnit → LUnit) : (s.modUnit u f).halvings = s.halvings := rfl

@[simp] theorem State.modCtx_agenda (s : State) (c : Nat) (f : Ctx → Ctx) : (s.modCtx c f).agenda = s.agenda := rfl
@[simp] theorem State.modCtx_tick (s : State) (c : Nat) (f : Ctx → Ctx) : (s.modCtx c f).tick = s.tick := rfl
@[simp] theorem State.modCtx_free (s : State) (c : Nat) (f : Ctx → Ctx) : (s.modCtx c f).free = s.free := rfl
@[simp] theorem State.modCtx_nextUid (s : State) (c : Nat) (f : Ctx → Ctx) : (s.modCtx c f).nextUid = s.nextUid := rfl
@[simp] theorem State.modCtx_cur (s : State) (c : Nat) (f : Ctx → Ctx) : (s.modCtx c f).cur = s.cur := rfl
@[simp] theorem State.modCtx_mem (s : State) (c : Nat) (f : Ctx → Ctx) : (s.modCtx c f).mem = s.mem := rfl
@[simp] theorem State.modCtx_linePoison (s : State) (c : Nat) (f : Ctx → Ctx) : (s.modCtx c f).linePoison = s.linePoison := rfl
@[simp] theorem State.modCtx_lineTime (s : State) (c : Nat) (f : Ctx → Ctx) : (s.modCtx c f).lineTime = s.lineTime := rfl
@[simp] theorem State.modCtx_releases (s : State) (c : Nat) (f : Ctx → Ctx) : (s.modCtx c f).releases = s.releases := rfl
@[simp] theorem State.modCtx_hostMem (s : State) (c : Nat) (f : Ctx → Ctx) : (s.modCtx c f).hostMem = s.hostMem := rfl
@[simp] theorem State.modCtx_tile (s : State) (c : Nat) (f : Ctx → Ctx) : (s.modCtx c f).tile = s.tile := rfl
@[simp] theorem State.modCtx_tilePoison (s : State) (c : Nat) (f : Ctx → Ctx) : (s.modCtx c f).tilePoison = s.tilePoison := rfl
@[simp] theorem State.modCtx_badScale (s : State) (c : Nat) (f : Ctx → Ctx) : (s.modCtx c f).badScale = s.badScale := rfl
@[simp] theorem State.modCtx_row (s : State) (c : Nat) (f : Ctx → Ctx) : (s.modCtx c f).row = s.row := rfl
@[simp] theorem State.modCtx_areas (s : State) (c : Nat) (f : Ctx → Ctx) : (s.modCtx c f).areas = s.areas := rfl
@[simp] theorem State.modCtx_ctxs (s : State) (c : Nat) (f : Ctx → Ctx) : (s.modCtx c f).ctxs = s.ctxs.upd c f := rfl
@[simp] theorem State.modCtx_parts (s : State) (c : Nat) (f : Ctx → Ctx) : (s.modCtx c f).parts = s.parts := rfl
@[simp] theorem State.modCtx_hearths (s : State) (c : Nat) (f : Ctx → Ctx) : (s.modCtx c f).hearths = s.hearths := rfl
@[simp] theorem State.modCtx_slots (s : State) (c : Nat) (f : Ctx → Ctx) : (s.modCtx c f).slots = s.slots := rfl
@[simp] theorem State.modCtx_carves (s : State) (c : Nat) (f : Ctx → Ctx) : (s.modCtx c f).carves = s.carves := rfl
@[simp] theorem State.modCtx_queues (s : State) (c : Nat) (f : Ctx → Ctx) : (s.modCtx c f).queues = s.queues := rfl
@[simp] theorem State.modCtx_subs (s : State) (c : Nat) (f : Ctx → Ctx) : (s.modCtx c f).subs = s.subs := rfl
@[simp] theorem State.modCtx_msgs (s : State) (c : Nat) (f : Ctx → Ctx) : (s.modCtx c f).msgs = s.msgs := rfl
@[simp] theorem State.modCtx_arbiters (s : State) (c : Nat) (f : Ctx → Ctx) : (s.modCtx c f).arbiters = s.arbiters := rfl
@[simp] theorem State.modCtx_pops (s : State) (c : Nat) (f : Ctx → Ctx) : (s.modCtx c f).pops = s.pops := rfl
@[simp] theorem State.modCtx_accs (s : State) (c : Nat) (f : Ctx → Ctx) : (s.modCtx c f).accs = s.accs := rfl
@[simp] theorem State.modCtx_events (s : State) (c : Nat) (f : Ctx → Ctx) : (s.modCtx c f).events = s.events := rfl
@[simp] theorem State.modCtx_dtlb (s : State) (c : Nat) (f : Ctx → Ctx) : (s.modCtx c f).dtlb = s.dtlb := rfl
@[simp] theorem State.modCtx_walks (s : State) (c : Nat) (f : Ctx → Ctx) : (s.modCtx c f).walks = s.walks := rfl
@[simp] theorem State.modCtx_missed (s : State) (c : Nat) (f : Ctx → Ctx) : (s.modCtx c f).missed = s.missed := rfl
@[simp] theorem State.modCtx_slices (s : State) (c : Nat) (f : Ctx → Ctx) : (s.modCtx c f).slices = s.slices := rfl
@[simp] theorem State.modCtx_chanMap (s : State) (c : Nat) (f : Ctx → Ctx) : (s.modCtx c f).chanMap = s.chanMap := rfl
@[simp] theorem State.modCtx_spare (s : State) (c : Nat) (f : Ctx → Ctx) : (s.modCtx c f).spare = s.spare := rfl
@[simp] theorem State.modCtx_keys (s : State) (c : Nat) (f : Ctx → Ctx) : (s.modCtx c f).keys = s.keys := rfl
@[simp] theorem State.modCtx_tags (s : State) (c : Nat) (f : Ctx → Ctx) : (s.modCtx c f).tags = s.tags := rfl
@[simp] theorem State.modCtx_integrity (s : State) (c : Nat) (f : Ctx → Ctx) : (s.modCtx c f).integrity = s.integrity := rfl
@[simp] theorem State.modCtx_units (s : State) (c : Nat) (f : Ctx → Ctx) : (s.modCtx c f).units = s.units := rfl
@[simp] theorem State.modCtx_leases (s : State) (c : Nat) (f : Ctx → Ctx) : (s.modCtx c f).leases = s.leases := rfl
@[simp] theorem State.modCtx_leaseLog (s : State) (c : Nat) (f : Ctx → Ctx) : (s.modCtx c f).leaseLog = s.leaseLog := rfl
@[simp] theorem State.modCtx_lseq (s : State) (c : Nat) (f : Ctx → Ctx) : (s.modCtx c f).lseq = s.lseq := rfl
@[simp] theorem State.modCtx_triggers (s : State) (c : Nat) (f : Ctx → Ctx) : (s.modCtx c f).triggers = s.triggers := rfl
@[simp] theorem State.modCtx_retireStore (s : State) (c : Nat) (f : Ctx → Ctx) : (s.modCtx c f).retireStore = s.retireStore := rfl
@[simp] theorem State.modCtx_retireFull (s : State) (c : Nat) (f : Ctx → Ctx) : (s.modCtx c f).retireFull = s.retireFull := rfl
@[simp] theorem State.modCtx_savedScores (s : State) (c : Nat) (f : Ctx → Ctx) : (s.modCtx c f).savedScores = s.savedScores := rfl
@[simp] theorem State.modCtx_portTo (s : State) (c : Nat) (f : Ctx → Ctx) : (s.modCtx c f).portTo = s.portTo := rfl
@[simp] theorem State.modCtx_unrouted (s : State) (c : Nat) (f : Ctx → Ctx) : (s.modCtx c f).unrouted = s.unrouted := rfl
@[simp] theorem State.modCtx_rotaNext (s : State) (c : Nat) (f : Ctx → Ctx) : (s.modCtx c f).rotaNext = s.rotaNext := rfl
@[simp] theorem State.modCtx_hq (s : State) (c : Nat) (f : Ctx → Ctx) : (s.modCtx c f).hq = s.hq := rfl
@[simp] theorem State.modCtx_cutting (s : State) (c : Nat) (f : Ctx → Ctx) : (s.modCtx c f).cutting = s.cutting := rfl
@[simp] theorem State.modCtx_lastMapped (s : State) (c : Nat) (f : Ctx → Ctx) : (s.modCtx c f).lastMapped = s.lastMapped := rfl
@[simp] theorem State.modCtx_lastSlot (s : State) (c : Nat) (f : Ctx → Ctx) : (s.modCtx c f).lastSlot = s.lastSlot := rfl
@[simp] theorem State.modCtx_journal (s : State) (c : Nat) (f : Ctx → Ctx) : (s.modCtx c f).journal = s.journal := rfl
@[simp] theorem State.modCtx_jseq (s : State) (c : Nat) (f : Ctx → Ctx) : (s.modCtx c f).jseq = s.jseq := rfl
@[simp] theorem State.modCtx_irqs (s : State) (c : Nat) (f : Ctx → Ctx) : (s.modCtx c f).irqs = s.irqs := rfl
@[simp] theorem State.modCtx_hostReqs (s : State) (c : Nat) (f : Ctx → Ctx) : (s.modCtx c f).hostReqs = s.hostReqs := rfl
@[simp] theorem State.modCtx_hostClk (s : State) (c : Nat) (f : Ctx → Ctx) : (s.modCtx c f).hostClk = s.hostClk := rfl
@[simp] theorem State.modCtx_hostReply (s : State) (c : Nat) (f : Ctx → Ctx) : (s.modCtx c f).hostReply = s.hostReply := rfl
@[simp] theorem State.modCtx_fabAcks (s : State) (c : Nat) (f : Ctx → Ctx) : (s.modCtx c f).fabAcks = s.fabAcks := rfl
@[simp] theorem State.modCtx_dumps (s : State) (c : Nat) (f : Ctx → Ctx) : (s.modCtx c f).dumps = s.dumps := rfl
@[simp] theorem State.modCtx_stage (s : State) (c : Nat) (f : Ctx → Ctx) : (s.modCtx c f).stage = s.stage := rfl
@[simp] theorem State.modCtx_cut (s : State) (c : Nat) (f : Ctx → Ctx) : (s.modCtx c f).cut = s.cut := rfl
@[simp] theorem State.modCtx_powered (s : State) (c : Nat) (f : Ctx → Ctx) : (s.modCtx c f).powered = s.powered := rfl
@[simp] theorem State.modCtx_cold (s : State) (c : Nat) (f : Ctx → Ctx) : (s.modCtx c f).cold = s.cold := rfl
@[simp] theorem State.modCtx_pcap (s : State) (c : Nat) (f : Ctx → Ctx) : (s.modCtx c f).pcap = s.pcap := rfl
@[simp] theorem State.modCtx_watts (s : State) (c : Nat) (f : Ctx → Ctx) : (s.modCtx c f).watts = s.watts := rfl
@[simp] theorem State.modCtx_busyNow (s : State) (c : Nat) (f : Ctx → Ctx) : (s.modCtx c f).busyNow = s.busyNow := rfl
@[simp] theorem State.modCtx_busyLast (s : State) (c : Nat) (f : Ctx → Ctx) : (s.modCtx c f).busyLast = s.busyLast := rfl
@[simp] theorem State.modCtx_rota (s : State) (c : Nat) (f : Ctx → Ctx) : (s.modCtx c f).rota = s.rota := rfl
@[simp] theorem State.modCtx_scrub (s : State) (c : Nat) (f : Ctx → Ctx) : (s.modCtx c f).scrub = s.scrub := rfl
@[simp] theorem State.modCtx_fabdev (s : State) (c : Nat) (f : Ctx → Ctx) : (s.modCtx c f).fabdev = s.fabdev := rfl
@[simp] theorem State.modCtx_i3cAddr (s : State) (c : Nat) (f : Ctx → Ctx) : (s.modCtx c f).i3cAddr = s.i3cAddr := rfl
@[simp] theorem State.modCtx_tap (s : State) (c : Nat) (f : Ctx → Ctx) : (s.modCtx c f).tap = s.tap := rfl
@[simp] theorem State.modCtx_resetHeld (s : State) (c : Nat) (f : Ctx → Ctx) : (s.modCtx c f).resetHeld = s.resetHeld := rfl
@[simp] theorem State.modCtx_alert (s : State) (c : Nat) (f : Ctx → Ctx) : (s.modCtx c f).alert = s.alert := rfl
@[simp] theorem State.modCtx_inletDeg (s : State) (c : Nat) (f : Ctx → Ctx) : (s.modCtx c f).inletDeg = s.inletDeg := rfl
@[simp] theorem State.modCtx_inletOut (s : State) (c : Nat) (f : Ctx → Ctx) : (s.modCtx c f).inletOut = s.inletOut := rfl
@[simp] theorem State.modCtx_ref (s : State) (c : Nat) (f : Ctx → Ctx) : (s.modCtx c f).ref = s.ref := rfl
@[simp] theorem State.modCtx_refReset (s : State) (c : Nat) (f : Ctx → Ctx) : (s.modCtx c f).refReset = s.refReset := rfl
@[simp] theorem State.modCtx_halvings (s : State) (c : Nat) (f : Ctx → Ctx) : (s.modCtx c f).halvings = s.halvings := rfl

@[simp] theorem State.modArea_agenda (s : State) (u : Nat) (f : Area → Area) : (s.modArea u f).agenda = s.agenda := rfl
@[simp] theorem State.modArea_tick (s : State) (u : Nat) (f : Area → Area) : (s.modArea u f).tick = s.tick := rfl
@[simp] theorem State.modArea_free (s : State) (u : Nat) (f : Area → Area) : (s.modArea u f).free = s.free := rfl
@[simp] theorem State.modArea_nextUid (s : State) (u : Nat) (f : Area → Area) : (s.modArea u f).nextUid = s.nextUid := rfl
@[simp] theorem State.modArea_cur (s : State) (u : Nat) (f : Area → Area) : (s.modArea u f).cur = s.cur := rfl
@[simp] theorem State.modArea_mem (s : State) (u : Nat) (f : Area → Area) : (s.modArea u f).mem = s.mem := rfl
@[simp] theorem State.modArea_linePoison (s : State) (u : Nat) (f : Area → Area) : (s.modArea u f).linePoison = s.linePoison := rfl
@[simp] theorem State.modArea_lineTime (s : State) (u : Nat) (f : Area → Area) : (s.modArea u f).lineTime = s.lineTime := rfl
@[simp] theorem State.modArea_releases (s : State) (u : Nat) (f : Area → Area) : (s.modArea u f).releases = s.releases := rfl
@[simp] theorem State.modArea_hostMem (s : State) (u : Nat) (f : Area → Area) : (s.modArea u f).hostMem = s.hostMem := rfl
@[simp] theorem State.modArea_tile (s : State) (u : Nat) (f : Area → Area) : (s.modArea u f).tile = s.tile := rfl
@[simp] theorem State.modArea_tilePoison (s : State) (u : Nat) (f : Area → Area) : (s.modArea u f).tilePoison = s.tilePoison := rfl
@[simp] theorem State.modArea_badScale (s : State) (u : Nat) (f : Area → Area) : (s.modArea u f).badScale = s.badScale := rfl
@[simp] theorem State.modArea_row (s : State) (u : Nat) (f : Area → Area) : (s.modArea u f).row = s.row := rfl
@[simp] theorem State.modArea_areas (s : State) (u : Nat) (f : Area → Area) : (s.modArea u f).areas = s.areas.upd u f := rfl
@[simp] theorem State.modArea_ctxs (s : State) (u : Nat) (f : Area → Area) : (s.modArea u f).ctxs = s.ctxs := rfl
@[simp] theorem State.modArea_parts (s : State) (u : Nat) (f : Area → Area) : (s.modArea u f).parts = s.parts := rfl
@[simp] theorem State.modArea_hearths (s : State) (u : Nat) (f : Area → Area) : (s.modArea u f).hearths = s.hearths := rfl
@[simp] theorem State.modArea_slots (s : State) (u : Nat) (f : Area → Area) : (s.modArea u f).slots = s.slots := rfl
@[simp] theorem State.modArea_carves (s : State) (u : Nat) (f : Area → Area) : (s.modArea u f).carves = s.carves := rfl
@[simp] theorem State.modArea_queues (s : State) (u : Nat) (f : Area → Area) : (s.modArea u f).queues = s.queues := rfl
@[simp] theorem State.modArea_subs (s : State) (u : Nat) (f : Area → Area) : (s.modArea u f).subs = s.subs := rfl
@[simp] theorem State.modArea_msgs (s : State) (u : Nat) (f : Area → Area) : (s.modArea u f).msgs = s.msgs := rfl
@[simp] theorem State.modArea_arbiters (s : State) (u : Nat) (f : Area → Area) : (s.modArea u f).arbiters = s.arbiters := rfl
@[simp] theorem State.modArea_pops (s : State) (u : Nat) (f : Area → Area) : (s.modArea u f).pops = s.pops := rfl
@[simp] theorem State.modArea_accs (s : State) (u : Nat) (f : Area → Area) : (s.modArea u f).accs = s.accs := rfl
@[simp] theorem State.modArea_events (s : State) (u : Nat) (f : Area → Area) : (s.modArea u f).events = s.events := rfl
@[simp] theorem State.modArea_dtlb (s : State) (u : Nat) (f : Area → Area) : (s.modArea u f).dtlb = s.dtlb := rfl
@[simp] theorem State.modArea_walks (s : State) (u : Nat) (f : Area → Area) : (s.modArea u f).walks = s.walks := rfl
@[simp] theorem State.modArea_missed (s : State) (u : Nat) (f : Area → Area) : (s.modArea u f).missed = s.missed := rfl
@[simp] theorem State.modArea_slices (s : State) (u : Nat) (f : Area → Area) : (s.modArea u f).slices = s.slices := rfl
@[simp] theorem State.modArea_chanMap (s : State) (u : Nat) (f : Area → Area) : (s.modArea u f).chanMap = s.chanMap := rfl
@[simp] theorem State.modArea_spare (s : State) (u : Nat) (f : Area → Area) : (s.modArea u f).spare = s.spare := rfl
@[simp] theorem State.modArea_keys (s : State) (u : Nat) (f : Area → Area) : (s.modArea u f).keys = s.keys := rfl
@[simp] theorem State.modArea_tags (s : State) (u : Nat) (f : Area → Area) : (s.modArea u f).tags = s.tags := rfl
@[simp] theorem State.modArea_integrity (s : State) (u : Nat) (f : Area → Area) : (s.modArea u f).integrity = s.integrity := rfl
@[simp] theorem State.modArea_units (s : State) (u : Nat) (f : Area → Area) : (s.modArea u f).units = s.units := rfl
@[simp] theorem State.modArea_leases (s : State) (u : Nat) (f : Area → Area) : (s.modArea u f).leases = s.leases := rfl
@[simp] theorem State.modArea_leaseLog (s : State) (u : Nat) (f : Area → Area) : (s.modArea u f).leaseLog = s.leaseLog := rfl
@[simp] theorem State.modArea_lseq (s : State) (u : Nat) (f : Area → Area) : (s.modArea u f).lseq = s.lseq := rfl
@[simp] theorem State.modArea_triggers (s : State) (u : Nat) (f : Area → Area) : (s.modArea u f).triggers = s.triggers := rfl
@[simp] theorem State.modArea_retireStore (s : State) (u : Nat) (f : Area → Area) : (s.modArea u f).retireStore = s.retireStore := rfl
@[simp] theorem State.modArea_retireFull (s : State) (u : Nat) (f : Area → Area) : (s.modArea u f).retireFull = s.retireFull := rfl
@[simp] theorem State.modArea_savedScores (s : State) (u : Nat) (f : Area → Area) : (s.modArea u f).savedScores = s.savedScores := rfl
@[simp] theorem State.modArea_portTo (s : State) (u : Nat) (f : Area → Area) : (s.modArea u f).portTo = s.portTo := rfl
@[simp] theorem State.modArea_unrouted (s : State) (u : Nat) (f : Area → Area) : (s.modArea u f).unrouted = s.unrouted := rfl
@[simp] theorem State.modArea_rotaNext (s : State) (u : Nat) (f : Area → Area) : (s.modArea u f).rotaNext = s.rotaNext := rfl
@[simp] theorem State.modArea_hq (s : State) (u : Nat) (f : Area → Area) : (s.modArea u f).hq = s.hq := rfl
@[simp] theorem State.modArea_cutting (s : State) (u : Nat) (f : Area → Area) : (s.modArea u f).cutting = s.cutting := rfl
@[simp] theorem State.modArea_lastMapped (s : State) (u : Nat) (f : Area → Area) : (s.modArea u f).lastMapped = s.lastMapped := rfl
@[simp] theorem State.modArea_lastSlot (s : State) (u : Nat) (f : Area → Area) : (s.modArea u f).lastSlot = s.lastSlot := rfl
@[simp] theorem State.modArea_journal (s : State) (u : Nat) (f : Area → Area) : (s.modArea u f).journal = s.journal := rfl
@[simp] theorem State.modArea_jseq (s : State) (u : Nat) (f : Area → Area) : (s.modArea u f).jseq = s.jseq := rfl
@[simp] theorem State.modArea_irqs (s : State) (u : Nat) (f : Area → Area) : (s.modArea u f).irqs = s.irqs := rfl
@[simp] theorem State.modArea_hostReqs (s : State) (u : Nat) (f : Area → Area) : (s.modArea u f).hostReqs = s.hostReqs := rfl
@[simp] theorem State.modArea_hostClk (s : State) (u : Nat) (f : Area → Area) : (s.modArea u f).hostClk = s.hostClk := rfl
@[simp] theorem State.modArea_hostReply (s : State) (u : Nat) (f : Area → Area) : (s.modArea u f).hostReply = s.hostReply := rfl
@[simp] theorem State.modArea_fabAcks (s : State) (u : Nat) (f : Area → Area) : (s.modArea u f).fabAcks = s.fabAcks := rfl
@[simp] theorem State.modArea_dumps (s : State) (u : Nat) (f : Area → Area) : (s.modArea u f).dumps = s.dumps := rfl
@[simp] theorem State.modArea_stage (s : State) (u : Nat) (f : Area → Area) : (s.modArea u f).stage = s.stage := rfl
@[simp] theorem State.modArea_cut (s : State) (u : Nat) (f : Area → Area) : (s.modArea u f).cut = s.cut := rfl
@[simp] theorem State.modArea_powered (s : State) (u : Nat) (f : Area → Area) : (s.modArea u f).powered = s.powered := rfl
@[simp] theorem State.modArea_cold (s : State) (u : Nat) (f : Area → Area) : (s.modArea u f).cold = s.cold := rfl
@[simp] theorem State.modArea_pcap (s : State) (u : Nat) (f : Area → Area) : (s.modArea u f).pcap = s.pcap := rfl
@[simp] theorem State.modArea_watts (s : State) (u : Nat) (f : Area → Area) : (s.modArea u f).watts = s.watts := rfl
@[simp] theorem State.modArea_busyNow (s : State) (u : Nat) (f : Area → Area) : (s.modArea u f).busyNow = s.busyNow := rfl
@[simp] theorem State.modArea_busyLast (s : State) (u : Nat) (f : Area → Area) : (s.modArea u f).busyLast = s.busyLast := rfl
@[simp] theorem State.modArea_rota (s : State) (u : Nat) (f : Area → Area) : (s.modArea u f).rota = s.rota := rfl
@[simp] theorem State.modArea_scrub (s : State) (u : Nat) (f : Area → Area) : (s.modArea u f).scrub = s.scrub := rfl
@[simp] theorem State.modArea_fabdev (s : State) (u : Nat) (f : Area → Area) : (s.modArea u f).fabdev = s.fabdev := rfl
@[simp] theorem State.modArea_i3cAddr (s : State) (u : Nat) (f : Area → Area) : (s.modArea u f).i3cAddr = s.i3cAddr := rfl
@[simp] theorem State.modArea_tap (s : State) (u : Nat) (f : Area → Area) : (s.modArea u f).tap = s.tap := rfl
@[simp] theorem State.modArea_resetHeld (s : State) (u : Nat) (f : Area → Area) : (s.modArea u f).resetHeld = s.resetHeld := rfl
@[simp] theorem State.modArea_alert (s : State) (u : Nat) (f : Area → Area) : (s.modArea u f).alert = s.alert := rfl
@[simp] theorem State.modArea_inletDeg (s : State) (u : Nat) (f : Area → Area) : (s.modArea u f).inletDeg = s.inletDeg := rfl
@[simp] theorem State.modArea_inletOut (s : State) (u : Nat) (f : Area → Area) : (s.modArea u f).inletOut = s.inletOut := rfl
@[simp] theorem State.modArea_ref (s : State) (u : Nat) (f : Area → Area) : (s.modArea u f).ref = s.ref := rfl
@[simp] theorem State.modArea_refReset (s : State) (u : Nat) (f : Area → Area) : (s.modArea u f).refReset = s.refReset := rfl
@[simp] theorem State.modArea_halvings (s : State) (u : Nat) (f : Area → Area) : (s.modArea u f).halvings = s.halvings := rfl

@[simp] theorem State.modCell_agenda (s : State) (u i : Nat) (f : Cell → Cell) : (s.modCell u i f).agenda = s.agenda := rfl
@[simp] theorem State.modCell_tick (s : State) (u i : Nat) (f : Cell → Cell) : (s.modCell u i f).tick = s.tick := rfl
@[simp] theorem State.modCell_free (s : State) (u i : Nat) (f : Cell → Cell) : (s.modCell u i f).free = s.free := rfl
@[simp] theorem State.modCell_nextUid (s : State) (u i : Nat) (f : Cell → Cell) : (s.modCell u i f).nextUid = s.nextUid := rfl
@[simp] theorem State.modCell_cur (s : State) (u i : Nat) (f : Cell → Cell) : (s.modCell u i f).cur = s.cur := rfl
@[simp] theorem State.modCell_mem (s : State) (u i : Nat) (f : Cell → Cell) : (s.modCell u i f).mem = s.mem := rfl
@[simp] theorem State.modCell_linePoison (s : State) (u i : Nat) (f : Cell → Cell) : (s.modCell u i f).linePoison = s.linePoison := rfl
@[simp] theorem State.modCell_lineTime (s : State) (u i : Nat) (f : Cell → Cell) : (s.modCell u i f).lineTime = s.lineTime := rfl
@[simp] theorem State.modCell_releases (s : State) (u i : Nat) (f : Cell → Cell) : (s.modCell u i f).releases = s.releases := rfl
@[simp] theorem State.modCell_hostMem (s : State) (u i : Nat) (f : Cell → Cell) : (s.modCell u i f).hostMem = s.hostMem := rfl
@[simp] theorem State.modCell_tile (s : State) (u i : Nat) (f : Cell → Cell) : (s.modCell u i f).tile = s.tile := rfl
@[simp] theorem State.modCell_tilePoison (s : State) (u i : Nat) (f : Cell → Cell) : (s.modCell u i f).tilePoison = s.tilePoison := rfl
@[simp] theorem State.modCell_badScale (s : State) (u i : Nat) (f : Cell → Cell) : (s.modCell u i f).badScale = s.badScale := rfl
@[simp] theorem State.modCell_row (s : State) (u i : Nat) (f : Cell → Cell) : (s.modCell u i f).row = s.row := rfl
@[simp] theorem State.modCell_areas (s : State) (u i : Nat) (f : Cell → Cell) : (s.modCell u i f).areas = s.areas.upd u (fun a => { a with cells := a.cells.upd i f }) := rfl
@[simp] theorem State.modCell_ctxs (s : State) (u i : Nat) (f : Cell → Cell) : (s.modCell u i f).ctxs = s.ctxs := rfl
@[simp] theorem State.modCell_parts (s : State) (u i : Nat) (f : Cell → Cell) : (s.modCell u i f).parts = s.parts := rfl
@[simp] theorem State.modCell_hearths (s : State) (u i : Nat) (f : Cell → Cell) : (s.modCell u i f).hearths = s.hearths := rfl
@[simp] theorem State.modCell_slots (s : State) (u i : Nat) (f : Cell → Cell) : (s.modCell u i f).slots = s.slots := rfl
@[simp] theorem State.modCell_carves (s : State) (u i : Nat) (f : Cell → Cell) : (s.modCell u i f).carves = s.carves := rfl
@[simp] theorem State.modCell_queues (s : State) (u i : Nat) (f : Cell → Cell) : (s.modCell u i f).queues = s.queues := rfl
@[simp] theorem State.modCell_subs (s : State) (u i : Nat) (f : Cell → Cell) : (s.modCell u i f).subs = s.subs := rfl
@[simp] theorem State.modCell_msgs (s : State) (u i : Nat) (f : Cell → Cell) : (s.modCell u i f).msgs = s.msgs := rfl
@[simp] theorem State.modCell_arbiters (s : State) (u i : Nat) (f : Cell → Cell) : (s.modCell u i f).arbiters = s.arbiters := rfl
@[simp] theorem State.modCell_pops (s : State) (u i : Nat) (f : Cell → Cell) : (s.modCell u i f).pops = s.pops := rfl
@[simp] theorem State.modCell_accs (s : State) (u i : Nat) (f : Cell → Cell) : (s.modCell u i f).accs = s.accs := rfl
@[simp] theorem State.modCell_events (s : State) (u i : Nat) (f : Cell → Cell) : (s.modCell u i f).events = s.events := rfl
@[simp] theorem State.modCell_dtlb (s : State) (u i : Nat) (f : Cell → Cell) : (s.modCell u i f).dtlb = s.dtlb := rfl
@[simp] theorem State.modCell_walks (s : State) (u i : Nat) (f : Cell → Cell) : (s.modCell u i f).walks = s.walks := rfl
@[simp] theorem State.modCell_missed (s : State) (u i : Nat) (f : Cell → Cell) : (s.modCell u i f).missed = s.missed := rfl
@[simp] theorem State.modCell_slices (s : State) (u i : Nat) (f : Cell → Cell) : (s.modCell u i f).slices = s.slices := rfl
@[simp] theorem State.modCell_chanMap (s : State) (u i : Nat) (f : Cell → Cell) : (s.modCell u i f).chanMap = s.chanMap := rfl
@[simp] theorem State.modCell_spare (s : State) (u i : Nat) (f : Cell → Cell) : (s.modCell u i f).spare = s.spare := rfl
@[simp] theorem State.modCell_keys (s : State) (u i : Nat) (f : Cell → Cell) : (s.modCell u i f).keys = s.keys := rfl
@[simp] theorem State.modCell_tags (s : State) (u i : Nat) (f : Cell → Cell) : (s.modCell u i f).tags = s.tags := rfl
@[simp] theorem State.modCell_integrity (s : State) (u i : Nat) (f : Cell → Cell) : (s.modCell u i f).integrity = s.integrity := rfl
@[simp] theorem State.modCell_units (s : State) (u i : Nat) (f : Cell → Cell) : (s.modCell u i f).units = s.units := rfl
@[simp] theorem State.modCell_leases (s : State) (u i : Nat) (f : Cell → Cell) : (s.modCell u i f).leases = s.leases := rfl
@[simp] theorem State.modCell_leaseLog (s : State) (u i : Nat) (f : Cell → Cell) : (s.modCell u i f).leaseLog = s.leaseLog := rfl
@[simp] theorem State.modCell_lseq (s : State) (u i : Nat) (f : Cell → Cell) : (s.modCell u i f).lseq = s.lseq := rfl
@[simp] theorem State.modCell_triggers (s : State) (u i : Nat) (f : Cell → Cell) : (s.modCell u i f).triggers = s.triggers := rfl
@[simp] theorem State.modCell_retireStore (s : State) (u i : Nat) (f : Cell → Cell) : (s.modCell u i f).retireStore = s.retireStore := rfl
@[simp] theorem State.modCell_retireFull (s : State) (u i : Nat) (f : Cell → Cell) : (s.modCell u i f).retireFull = s.retireFull := rfl
@[simp] theorem State.modCell_savedScores (s : State) (u i : Nat) (f : Cell → Cell) : (s.modCell u i f).savedScores = s.savedScores := rfl
@[simp] theorem State.modCell_portTo (s : State) (u i : Nat) (f : Cell → Cell) : (s.modCell u i f).portTo = s.portTo := rfl
@[simp] theorem State.modCell_unrouted (s : State) (u i : Nat) (f : Cell → Cell) : (s.modCell u i f).unrouted = s.unrouted := rfl
@[simp] theorem State.modCell_rotaNext (s : State) (u i : Nat) (f : Cell → Cell) : (s.modCell u i f).rotaNext = s.rotaNext := rfl
@[simp] theorem State.modCell_hq (s : State) (u i : Nat) (f : Cell → Cell) : (s.modCell u i f).hq = s.hq := rfl
@[simp] theorem State.modCell_cutting (s : State) (u i : Nat) (f : Cell → Cell) : (s.modCell u i f).cutting = s.cutting := rfl
@[simp] theorem State.modCell_lastMapped (s : State) (u i : Nat) (f : Cell → Cell) : (s.modCell u i f).lastMapped = s.lastMapped := rfl
@[simp] theorem State.modCell_lastSlot (s : State) (u i : Nat) (f : Cell → Cell) : (s.modCell u i f).lastSlot = s.lastSlot := rfl
@[simp] theorem State.modCell_journal (s : State) (u i : Nat) (f : Cell → Cell) : (s.modCell u i f).journal = s.journal := rfl
@[simp] theorem State.modCell_jseq (s : State) (u i : Nat) (f : Cell → Cell) : (s.modCell u i f).jseq = s.jseq := rfl
@[simp] theorem State.modCell_irqs (s : State) (u i : Nat) (f : Cell → Cell) : (s.modCell u i f).irqs = s.irqs := rfl
@[simp] theorem State.modCell_hostReqs (s : State) (u i : Nat) (f : Cell → Cell) : (s.modCell u i f).hostReqs = s.hostReqs := rfl
@[simp] theorem State.modCell_hostClk (s : State) (u i : Nat) (f : Cell → Cell) : (s.modCell u i f).hostClk = s.hostClk := rfl
@[simp] theorem State.modCell_hostReply (s : State) (u i : Nat) (f : Cell → Cell) : (s.modCell u i f).hostReply = s.hostReply := rfl
@[simp] theorem State.modCell_fabAcks (s : State) (u i : Nat) (f : Cell → Cell) : (s.modCell u i f).fabAcks = s.fabAcks := rfl
@[simp] theorem State.modCell_dumps (s : State) (u i : Nat) (f : Cell → Cell) : (s.modCell u i f).dumps = s.dumps := rfl
@[simp] theorem State.modCell_stage (s : State) (u i : Nat) (f : Cell → Cell) : (s.modCell u i f).stage = s.stage := rfl
@[simp] theorem State.modCell_cut (s : State) (u i : Nat) (f : Cell → Cell) : (s.modCell u i f).cut = s.cut := rfl
@[simp] theorem State.modCell_powered (s : State) (u i : Nat) (f : Cell → Cell) : (s.modCell u i f).powered = s.powered := rfl
@[simp] theorem State.modCell_cold (s : State) (u i : Nat) (f : Cell → Cell) : (s.modCell u i f).cold = s.cold := rfl
@[simp] theorem State.modCell_pcap (s : State) (u i : Nat) (f : Cell → Cell) : (s.modCell u i f).pcap = s.pcap := rfl
@[simp] theorem State.modCell_watts (s : State) (u i : Nat) (f : Cell → Cell) : (s.modCell u i f).watts = s.watts := rfl
@[simp] theorem State.modCell_busyNow (s : State) (u i : Nat) (f : Cell → Cell) : (s.modCell u i f).busyNow = s.busyNow := rfl
@[simp] theorem State.modCell_busyLast (s : State) (u i : Nat) (f : Cell → Cell) : (s.modCell u i f).busyLast = s.busyLast := rfl
@[simp] theorem State.modCell_rota (s : State) (u i : Nat) (f : Cell → Cell) : (s.modCell u i f).rota = s.rota := rfl
@[simp] theorem State.modCell_scrub (s : State) (u i : Nat) (f : Cell → Cell) : (s.modCell u i f).scrub = s.scrub := rfl
@[simp] theorem State.modCell_fabdev (s : State) (u i : Nat) (f : Cell → Cell) : (s.modCell u i f).fabdev = s.fabdev := rfl
@[simp] theorem State.modCell_i3cAddr (s : State) (u i : Nat) (f : Cell → Cell) : (s.modCell u i f).i3cAddr = s.i3cAddr := rfl
@[simp] theorem State.modCell_tap (s : State) (u i : Nat) (f : Cell → Cell) : (s.modCell u i f).tap = s.tap := rfl
@[simp] theorem State.modCell_resetHeld (s : State) (u i : Nat) (f : Cell → Cell) : (s.modCell u i f).resetHeld = s.resetHeld := rfl
@[simp] theorem State.modCell_alert (s : State) (u i : Nat) (f : Cell → Cell) : (s.modCell u i f).alert = s.alert := rfl
@[simp] theorem State.modCell_inletDeg (s : State) (u i : Nat) (f : Cell → Cell) : (s.modCell u i f).inletDeg = s.inletDeg := rfl
@[simp] theorem State.modCell_inletOut (s : State) (u i : Nat) (f : Cell → Cell) : (s.modCell u i f).inletOut = s.inletOut := rfl
@[simp] theorem State.modCell_ref (s : State) (u i : Nat) (f : Cell → Cell) : (s.modCell u i f).ref = s.ref := rfl
@[simp] theorem State.modCell_refReset (s : State) (u i : Nat) (f : Cell → Cell) : (s.modCell u i f).refReset = s.refReset := rfl
@[simp] theorem State.modCell_halvings (s : State) (u i : Nat) (f : Cell → Cell) : (s.modCell u i f).halvings = s.halvings := rfl

@[simp] theorem State.modCur_agenda (s : State) (f : Cell → Cell) : (s.modCur f).agenda = s.agenda := rfl
@[simp] theorem State.modCur_tick (s : State) (f : Cell → Cell) : (s.modCur f).tick = s.tick := rfl
@[simp] theorem State.modCur_free (s : State) (f : Cell → Cell) : (s.modCur f).free = s.free := rfl
@[simp] theorem State.modCur_nextUid (s : State) (f : Cell → Cell) : (s.modCur f).nextUid = s.nextUid := rfl
@[simp] theorem State.modCur_cur (s : State) (f : Cell → Cell) : (s.modCur f).cur = s.cur := rfl
@[simp] theorem State.modCur_mem (s : State) (f : Cell → Cell) : (s.modCur f).mem = s.mem := rfl
@[simp] theorem State.modCur_linePoison (s : State) (f : Cell → Cell) : (s.modCur f).linePoison = s.linePoison := rfl
@[simp] theorem State.modCur_lineTime (s : State) (f : Cell → Cell) : (s.modCur f).lineTime = s.lineTime := rfl
@[simp] theorem State.modCur_releases (s : State) (f : Cell → Cell) : (s.modCur f).releases = s.releases := rfl
@[simp] theorem State.modCur_hostMem (s : State) (f : Cell → Cell) : (s.modCur f).hostMem = s.hostMem := rfl
@[simp] theorem State.modCur_tile (s : State) (f : Cell → Cell) : (s.modCur f).tile = s.tile := rfl
@[simp] theorem State.modCur_tilePoison (s : State) (f : Cell → Cell) : (s.modCur f).tilePoison = s.tilePoison := rfl
@[simp] theorem State.modCur_badScale (s : State) (f : Cell → Cell) : (s.modCur f).badScale = s.badScale := rfl
@[simp] theorem State.modCur_row (s : State) (f : Cell → Cell) : (s.modCur f).row = s.row := rfl
@[simp] theorem State.modCur_areas (s : State) (f : Cell → Cell) : (s.modCur f).areas = s.areas.upd s.cur.1 (fun a => { a with cells := a.cells.upd s.cur.2 f }) := rfl
@[simp] theorem State.modCur_ctxs (s : State) (f : Cell → Cell) : (s.modCur f).ctxs = s.ctxs := rfl
@[simp] theorem State.modCur_parts (s : State) (f : Cell → Cell) : (s.modCur f).parts = s.parts := rfl
@[simp] theorem State.modCur_hearths (s : State) (f : Cell → Cell) : (s.modCur f).hearths = s.hearths := rfl
@[simp] theorem State.modCur_slots (s : State) (f : Cell → Cell) : (s.modCur f).slots = s.slots := rfl
@[simp] theorem State.modCur_carves (s : State) (f : Cell → Cell) : (s.modCur f).carves = s.carves := rfl
@[simp] theorem State.modCur_queues (s : State) (f : Cell → Cell) : (s.modCur f).queues = s.queues := rfl
@[simp] theorem State.modCur_subs (s : State) (f : Cell → Cell) : (s.modCur f).subs = s.subs := rfl
@[simp] theorem State.modCur_msgs (s : State) (f : Cell → Cell) : (s.modCur f).msgs = s.msgs := rfl
@[simp] theorem State.modCur_arbiters (s : State) (f : Cell → Cell) : (s.modCur f).arbiters = s.arbiters := rfl
@[simp] theorem State.modCur_pops (s : State) (f : Cell → Cell) : (s.modCur f).pops = s.pops := rfl
@[simp] theorem State.modCur_accs (s : State) (f : Cell → Cell) : (s.modCur f).accs = s.accs := rfl
@[simp] theorem State.modCur_events (s : State) (f : Cell → Cell) : (s.modCur f).events = s.events := rfl
@[simp] theorem State.modCur_dtlb (s : State) (f : Cell → Cell) : (s.modCur f).dtlb = s.dtlb := rfl
@[simp] theorem State.modCur_walks (s : State) (f : Cell → Cell) : (s.modCur f).walks = s.walks := rfl
@[simp] theorem State.modCur_missed (s : State) (f : Cell → Cell) : (s.modCur f).missed = s.missed := rfl
@[simp] theorem State.modCur_slices (s : State) (f : Cell → Cell) : (s.modCur f).slices = s.slices := rfl
@[simp] theorem State.modCur_chanMap (s : State) (f : Cell → Cell) : (s.modCur f).chanMap = s.chanMap := rfl
@[simp] theorem State.modCur_spare (s : State) (f : Cell → Cell) : (s.modCur f).spare = s.spare := rfl
@[simp] theorem State.modCur_keys (s : State) (f : Cell → Cell) : (s.modCur f).keys = s.keys := rfl
@[simp] theorem State.modCur_tags (s : State) (f : Cell → Cell) : (s.modCur f).tags = s.tags := rfl
@[simp] theorem State.modCur_integrity (s : State) (f : Cell → Cell) : (s.modCur f).integrity = s.integrity := rfl
@[simp] theorem State.modCur_units (s : State) (f : Cell → Cell) : (s.modCur f).units = s.units := rfl
@[simp] theorem State.modCur_leases (s : State) (f : Cell → Cell) : (s.modCur f).leases = s.leases := rfl
@[simp] theorem State.modCur_leaseLog (s : State) (f : Cell → Cell) : (s.modCur f).leaseLog = s.leaseLog := rfl
@[simp] theorem State.modCur_lseq (s : State) (f : Cell → Cell) : (s.modCur f).lseq = s.lseq := rfl
@[simp] theorem State.modCur_triggers (s : State) (f : Cell → Cell) : (s.modCur f).triggers = s.triggers := rfl
@[simp] theorem State.modCur_retireStore (s : State) (f : Cell → Cell) : (s.modCur f).retireStore = s.retireStore := rfl
@[simp] theorem State.modCur_retireFull (s : State) (f : Cell → Cell) : (s.modCur f).retireFull = s.retireFull := rfl
@[simp] theorem State.modCur_savedScores (s : State) (f : Cell → Cell) : (s.modCur f).savedScores = s.savedScores := rfl
@[simp] theorem State.modCur_portTo (s : State) (f : Cell → Cell) : (s.modCur f).portTo = s.portTo := rfl
@[simp] theorem State.modCur_unrouted (s : State) (f : Cell → Cell) : (s.modCur f).unrouted = s.unrouted := rfl
@[simp] theorem State.modCur_rotaNext (s : State) (f : Cell → Cell) : (s.modCur f).rotaNext = s.rotaNext := rfl
@[simp] theorem State.modCur_hq (s : State) (f : Cell → Cell) : (s.modCur f).hq = s.hq := rfl
@[simp] theorem State.modCur_cutting (s : State) (f : Cell → Cell) : (s.modCur f).cutting = s.cutting := rfl
@[simp] theorem State.modCur_lastMapped (s : State) (f : Cell → Cell) : (s.modCur f).lastMapped = s.lastMapped := rfl
@[simp] theorem State.modCur_lastSlot (s : State) (f : Cell → Cell) : (s.modCur f).lastSlot = s.lastSlot := rfl
@[simp] theorem State.modCur_journal (s : State) (f : Cell → Cell) : (s.modCur f).journal = s.journal := rfl
@[simp] theorem State.modCur_jseq (s : State) (f : Cell → Cell) : (s.modCur f).jseq = s.jseq := rfl
@[simp] theorem State.modCur_irqs (s : State) (f : Cell → Cell) : (s.modCur f).irqs = s.irqs := rfl
@[simp] theorem State.modCur_hostReqs (s : State) (f : Cell → Cell) : (s.modCur f).hostReqs = s.hostReqs := rfl
@[simp] theorem State.modCur_hostClk (s : State) (f : Cell → Cell) : (s.modCur f).hostClk = s.hostClk := rfl
@[simp] theorem State.modCur_hostReply (s : State) (f : Cell → Cell) : (s.modCur f).hostReply = s.hostReply := rfl
@[simp] theorem State.modCur_fabAcks (s : State) (f : Cell → Cell) : (s.modCur f).fabAcks = s.fabAcks := rfl
@[simp] theorem State.modCur_dumps (s : State) (f : Cell → Cell) : (s.modCur f).dumps = s.dumps := rfl
@[simp] theorem State.modCur_stage (s : State) (f : Cell → Cell) : (s.modCur f).stage = s.stage := rfl
@[simp] theorem State.modCur_cut (s : State) (f : Cell → Cell) : (s.modCur f).cut = s.cut := rfl
@[simp] theorem State.modCur_powered (s : State) (f : Cell → Cell) : (s.modCur f).powered = s.powered := rfl
@[simp] theorem State.modCur_cold (s : State) (f : Cell → Cell) : (s.modCur f).cold = s.cold := rfl
@[simp] theorem State.modCur_pcap (s : State) (f : Cell → Cell) : (s.modCur f).pcap = s.pcap := rfl
@[simp] theorem State.modCur_watts (s : State) (f : Cell → Cell) : (s.modCur f).watts = s.watts := rfl
@[simp] theorem State.modCur_busyNow (s : State) (f : Cell → Cell) : (s.modCur f).busyNow = s.busyNow := rfl
@[simp] theorem State.modCur_busyLast (s : State) (f : Cell → Cell) : (s.modCur f).busyLast = s.busyLast := rfl
@[simp] theorem State.modCur_rota (s : State) (f : Cell → Cell) : (s.modCur f).rota = s.rota := rfl
@[simp] theorem State.modCur_scrub (s : State) (f : Cell → Cell) : (s.modCur f).scrub = s.scrub := rfl
@[simp] theorem State.modCur_fabdev (s : State) (f : Cell → Cell) : (s.modCur f).fabdev = s.fabdev := rfl
@[simp] theorem State.modCur_i3cAddr (s : State) (f : Cell → Cell) : (s.modCur f).i3cAddr = s.i3cAddr := rfl
@[simp] theorem State.modCur_tap (s : State) (f : Cell → Cell) : (s.modCur f).tap = s.tap := rfl
@[simp] theorem State.modCur_resetHeld (s : State) (f : Cell → Cell) : (s.modCur f).resetHeld = s.resetHeld := rfl
@[simp] theorem State.modCur_alert (s : State) (f : Cell → Cell) : (s.modCur f).alert = s.alert := rfl
@[simp] theorem State.modCur_inletDeg (s : State) (f : Cell → Cell) : (s.modCur f).inletDeg = s.inletDeg := rfl
@[simp] theorem State.modCur_inletOut (s : State) (f : Cell → Cell) : (s.modCur f).inletOut = s.inletOut := rfl
@[simp] theorem State.modCur_ref (s : State) (f : Cell → Cell) : (s.modCur f).ref = s.ref := rfl
@[simp] theorem State.modCur_refReset (s : State) (f : Cell → Cell) : (s.modCur f).refReset = s.refReset := rfl
@[simp] theorem State.modCur_halvings (s : State) (f : Cell → Cell) : (s.modCur f).halvings = s.halvings := rfl

@[simp] theorem State.tickFree_agenda (s : State) : (s.tickFree).agenda = s.agenda := rfl
@[simp] theorem State.tickFree_tick (s : State) : (s.tickFree).tick = s.tick := rfl
@[simp] theorem State.tickFree_free (s : State) : (s.tickFree).free = s.free + 1 := rfl
@[simp] theorem State.tickFree_nextUid (s : State) : (s.tickFree).nextUid = s.nextUid := rfl
@[simp] theorem State.tickFree_cur (s : State) : (s.tickFree).cur = s.cur := rfl
@[simp] theorem State.tickFree_mem (s : State) : (s.tickFree).mem = s.mem := rfl
@[simp] theorem State.tickFree_linePoison (s : State) : (s.tickFree).linePoison = s.linePoison := rfl
@[simp] theorem State.tickFree_lineTime (s : State) : (s.tickFree).lineTime = s.lineTime := rfl
@[simp] theorem State.tickFree_releases (s : State) : (s.tickFree).releases = s.releases := rfl
@[simp] theorem State.tickFree_hostMem (s : State) : (s.tickFree).hostMem = s.hostMem := rfl
@[simp] theorem State.tickFree_tile (s : State) : (s.tickFree).tile = s.tile := rfl
@[simp] theorem State.tickFree_tilePoison (s : State) : (s.tickFree).tilePoison = s.tilePoison := rfl
@[simp] theorem State.tickFree_badScale (s : State) : (s.tickFree).badScale = s.badScale := rfl
@[simp] theorem State.tickFree_row (s : State) : (s.tickFree).row = s.row := rfl
@[simp] theorem State.tickFree_areas (s : State) : (s.tickFree).areas = s.areas := rfl
@[simp] theorem State.tickFree_ctxs (s : State) : (s.tickFree).ctxs = s.ctxs := rfl
@[simp] theorem State.tickFree_parts (s : State) : (s.tickFree).parts = s.parts := rfl
@[simp] theorem State.tickFree_hearths (s : State) : (s.tickFree).hearths = s.hearths := rfl
@[simp] theorem State.tickFree_slots (s : State) : (s.tickFree).slots = s.slots := rfl
@[simp] theorem State.tickFree_carves (s : State) : (s.tickFree).carves = s.carves := rfl
@[simp] theorem State.tickFree_queues (s : State) : (s.tickFree).queues = s.queues := rfl
@[simp] theorem State.tickFree_subs (s : State) : (s.tickFree).subs = s.subs := rfl
@[simp] theorem State.tickFree_msgs (s : State) : (s.tickFree).msgs = s.msgs := rfl
@[simp] theorem State.tickFree_arbiters (s : State) : (s.tickFree).arbiters = s.arbiters := rfl
@[simp] theorem State.tickFree_pops (s : State) : (s.tickFree).pops = s.pops := rfl
@[simp] theorem State.tickFree_accs (s : State) : (s.tickFree).accs = s.accs := rfl
@[simp] theorem State.tickFree_events (s : State) : (s.tickFree).events = s.events := rfl
@[simp] theorem State.tickFree_dtlb (s : State) : (s.tickFree).dtlb = s.dtlb := rfl
@[simp] theorem State.tickFree_walks (s : State) : (s.tickFree).walks = s.walks := rfl
@[simp] theorem State.tickFree_missed (s : State) : (s.tickFree).missed = s.missed := rfl
@[simp] theorem State.tickFree_slices (s : State) : (s.tickFree).slices = s.slices := rfl
@[simp] theorem State.tickFree_chanMap (s : State) : (s.tickFree).chanMap = s.chanMap := rfl
@[simp] theorem State.tickFree_spare (s : State) : (s.tickFree).spare = s.spare := rfl
@[simp] theorem State.tickFree_keys (s : State) : (s.tickFree).keys = s.keys := rfl
@[simp] theorem State.tickFree_tags (s : State) : (s.tickFree).tags = s.tags := rfl
@[simp] theorem State.tickFree_integrity (s : State) : (s.tickFree).integrity = s.integrity := rfl
@[simp] theorem State.tickFree_units (s : State) : (s.tickFree).units = s.units := rfl
@[simp] theorem State.tickFree_leases (s : State) : (s.tickFree).leases = s.leases := rfl
@[simp] theorem State.tickFree_leaseLog (s : State) : (s.tickFree).leaseLog = s.leaseLog := rfl
@[simp] theorem State.tickFree_lseq (s : State) : (s.tickFree).lseq = s.lseq := rfl
@[simp] theorem State.tickFree_triggers (s : State) : (s.tickFree).triggers = s.triggers := rfl
@[simp] theorem State.tickFree_retireStore (s : State) : (s.tickFree).retireStore = s.retireStore := rfl
@[simp] theorem State.tickFree_retireFull (s : State) : (s.tickFree).retireFull = s.retireFull := rfl
@[simp] theorem State.tickFree_savedScores (s : State) : (s.tickFree).savedScores = s.savedScores := rfl
@[simp] theorem State.tickFree_portTo (s : State) : (s.tickFree).portTo = s.portTo := rfl
@[simp] theorem State.tickFree_unrouted (s : State) : (s.tickFree).unrouted = s.unrouted := rfl
@[simp] theorem State.tickFree_rotaNext (s : State) : (s.tickFree).rotaNext = s.rotaNext := rfl
@[simp] theorem State.tickFree_hq (s : State) : (s.tickFree).hq = s.hq := rfl
@[simp] theorem State.tickFree_cutting (s : State) : (s.tickFree).cutting = s.cutting := rfl
@[simp] theorem State.tickFree_lastMapped (s : State) : (s.tickFree).lastMapped = s.lastMapped := rfl
@[simp] theorem State.tickFree_lastSlot (s : State) : (s.tickFree).lastSlot = s.lastSlot := rfl
@[simp] theorem State.tickFree_journal (s : State) : (s.tickFree).journal = s.journal := rfl
@[simp] theorem State.tickFree_jseq (s : State) : (s.tickFree).jseq = s.jseq := rfl
@[simp] theorem State.tickFree_irqs (s : State) : (s.tickFree).irqs = s.irqs := rfl
@[simp] theorem State.tickFree_hostReqs (s : State) : (s.tickFree).hostReqs = s.hostReqs := rfl
@[simp] theorem State.tickFree_hostClk (s : State) : (s.tickFree).hostClk = s.hostClk := rfl
@[simp] theorem State.tickFree_hostReply (s : State) : (s.tickFree).hostReply = s.hostReply := rfl
@[simp] theorem State.tickFree_fabAcks (s : State) : (s.tickFree).fabAcks = s.fabAcks := rfl
@[simp] theorem State.tickFree_dumps (s : State) : (s.tickFree).dumps = s.dumps := rfl
@[simp] theorem State.tickFree_stage (s : State) : (s.tickFree).stage = s.stage := rfl
@[simp] theorem State.tickFree_cut (s : State) : (s.tickFree).cut = s.cut := rfl
@[simp] theorem State.tickFree_powered (s : State) : (s.tickFree).powered = s.powered := rfl
@[simp] theorem State.tickFree_cold (s : State) : (s.tickFree).cold = s.cold := rfl
@[simp] theorem State.tickFree_pcap (s : State) : (s.tickFree).pcap = s.pcap := rfl
@[simp] theorem State.tickFree_watts (s : State) : (s.tickFree).watts = s.watts := rfl
@[simp] theorem State.tickFree_busyNow (s : State) : (s.tickFree).busyNow = s.busyNow := rfl
@[simp] theorem State.tickFree_busyLast (s : State) : (s.tickFree).busyLast = s.busyLast := rfl
@[simp] theorem State.tickFree_rota (s : State) : (s.tickFree).rota = s.rota := rfl
@[simp] theorem State.tickFree_scrub (s : State) : (s.tickFree).scrub = s.scrub := rfl
@[simp] theorem State.tickFree_fabdev (s : State) : (s.tickFree).fabdev = s.fabdev := rfl
@[simp] theorem State.tickFree_i3cAddr (s : State) : (s.tickFree).i3cAddr = s.i3cAddr := rfl
@[simp] theorem State.tickFree_tap (s : State) : (s.tickFree).tap = s.tap := rfl
@[simp] theorem State.tickFree_resetHeld (s : State) : (s.tickFree).resetHeld = s.resetHeld := rfl
@[simp] theorem State.tickFree_alert (s : State) : (s.tickFree).alert = s.alert := rfl
@[simp] theorem State.tickFree_inletDeg (s : State) : (s.tickFree).inletDeg = s.inletDeg := rfl
@[simp] theorem State.tickFree_inletOut (s : State) : (s.tickFree).inletOut = s.inletOut := rfl
@[simp] theorem State.tickFree_ref (s : State) : (s.tickFree).ref = s.ref := rfl
@[simp] theorem State.tickFree_refReset (s : State) : (s.tickFree).refReset = s.refReset := rfl
@[simp] theorem State.tickFree_halvings (s : State) : (s.tickFree).halvings = s.halvings := rfl

@[simp] theorem State.fresh_agenda (s : State) : (s.fresh).agenda = s.agenda := rfl
@[simp] theorem State.fresh_tick (s : State) : (s.fresh).tick = s.tick := rfl
@[simp] theorem State.fresh_free (s : State) : (s.fresh).free = s.free := rfl
@[simp] theorem State.fresh_nextUid (s : State) : (s.fresh).nextUid = s.nextUid + 1 := rfl
@[simp] theorem State.fresh_cur (s : State) : (s.fresh).cur = s.cur := rfl
@[simp] theorem State.fresh_mem (s : State) : (s.fresh).mem = s.mem := rfl
@[simp] theorem State.fresh_linePoison (s : State) : (s.fresh).linePoison = s.linePoison := rfl
@[simp] theorem State.fresh_lineTime (s : State) : (s.fresh).lineTime = s.lineTime := rfl
@[simp] theorem State.fresh_releases (s : State) : (s.fresh).releases = s.releases := rfl
@[simp] theorem State.fresh_hostMem (s : State) : (s.fresh).hostMem = s.hostMem := rfl
@[simp] theorem State.fresh_tile (s : State) : (s.fresh).tile = s.tile := rfl
@[simp] theorem State.fresh_tilePoison (s : State) : (s.fresh).tilePoison = s.tilePoison := rfl
@[simp] theorem State.fresh_badScale (s : State) : (s.fresh).badScale = s.badScale := rfl
@[simp] theorem State.fresh_row (s : State) : (s.fresh).row = s.row := rfl
@[simp] theorem State.fresh_areas (s : State) : (s.fresh).areas = s.areas := rfl
@[simp] theorem State.fresh_ctxs (s : State) : (s.fresh).ctxs = s.ctxs := rfl
@[simp] theorem State.fresh_parts (s : State) : (s.fresh).parts = s.parts := rfl
@[simp] theorem State.fresh_hearths (s : State) : (s.fresh).hearths = s.hearths := rfl
@[simp] theorem State.fresh_slots (s : State) : (s.fresh).slots = s.slots := rfl
@[simp] theorem State.fresh_carves (s : State) : (s.fresh).carves = s.carves := rfl
@[simp] theorem State.fresh_queues (s : State) : (s.fresh).queues = s.queues := rfl
@[simp] theorem State.fresh_subs (s : State) : (s.fresh).subs = s.subs := rfl
@[simp] theorem State.fresh_msgs (s : State) : (s.fresh).msgs = s.msgs := rfl
@[simp] theorem State.fresh_arbiters (s : State) : (s.fresh).arbiters = s.arbiters := rfl
@[simp] theorem State.fresh_pops (s : State) : (s.fresh).pops = s.pops := rfl
@[simp] theorem State.fresh_accs (s : State) : (s.fresh).accs = s.accs := rfl
@[simp] theorem State.fresh_events (s : State) : (s.fresh).events = s.events := rfl
@[simp] theorem State.fresh_dtlb (s : State) : (s.fresh).dtlb = s.dtlb := rfl
@[simp] theorem State.fresh_walks (s : State) : (s.fresh).walks = s.walks := rfl
@[simp] theorem State.fresh_missed (s : State) : (s.fresh).missed = s.missed := rfl
@[simp] theorem State.fresh_slices (s : State) : (s.fresh).slices = s.slices := rfl
@[simp] theorem State.fresh_chanMap (s : State) : (s.fresh).chanMap = s.chanMap := rfl
@[simp] theorem State.fresh_spare (s : State) : (s.fresh).spare = s.spare := rfl
@[simp] theorem State.fresh_keys (s : State) : (s.fresh).keys = s.keys := rfl
@[simp] theorem State.fresh_tags (s : State) : (s.fresh).tags = s.tags := rfl
@[simp] theorem State.fresh_integrity (s : State) : (s.fresh).integrity = s.integrity := rfl
@[simp] theorem State.fresh_units (s : State) : (s.fresh).units = s.units := rfl
@[simp] theorem State.fresh_leases (s : State) : (s.fresh).leases = s.leases := rfl
@[simp] theorem State.fresh_leaseLog (s : State) : (s.fresh).leaseLog = s.leaseLog := rfl
@[simp] theorem State.fresh_lseq (s : State) : (s.fresh).lseq = s.lseq := rfl
@[simp] theorem State.fresh_triggers (s : State) : (s.fresh).triggers = s.triggers := rfl
@[simp] theorem State.fresh_retireStore (s : State) : (s.fresh).retireStore = s.retireStore := rfl
@[simp] theorem State.fresh_retireFull (s : State) : (s.fresh).retireFull = s.retireFull := rfl
@[simp] theorem State.fresh_savedScores (s : State) : (s.fresh).savedScores = s.savedScores := rfl
@[simp] theorem State.fresh_portTo (s : State) : (s.fresh).portTo = s.portTo := rfl
@[simp] theorem State.fresh_unrouted (s : State) : (s.fresh).unrouted = s.unrouted := rfl
@[simp] theorem State.fresh_rotaNext (s : State) : (s.fresh).rotaNext = s.rotaNext := rfl
@[simp] theorem State.fresh_hq (s : State) : (s.fresh).hq = s.hq := rfl
@[simp] theorem State.fresh_cutting (s : State) : (s.fresh).cutting = s.cutting := rfl
@[simp] theorem State.fresh_lastMapped (s : State) : (s.fresh).lastMapped = s.lastMapped := rfl
@[simp] theorem State.fresh_lastSlot (s : State) : (s.fresh).lastSlot = s.lastSlot := rfl
@[simp] theorem State.fresh_journal (s : State) : (s.fresh).journal = s.journal := rfl
@[simp] theorem State.fresh_jseq (s : State) : (s.fresh).jseq = s.jseq := rfl
@[simp] theorem State.fresh_irqs (s : State) : (s.fresh).irqs = s.irqs := rfl
@[simp] theorem State.fresh_hostReqs (s : State) : (s.fresh).hostReqs = s.hostReqs := rfl
@[simp] theorem State.fresh_hostClk (s : State) : (s.fresh).hostClk = s.hostClk := rfl
@[simp] theorem State.fresh_hostReply (s : State) : (s.fresh).hostReply = s.hostReply := rfl
@[simp] theorem State.fresh_fabAcks (s : State) : (s.fresh).fabAcks = s.fabAcks := rfl
@[simp] theorem State.fresh_dumps (s : State) : (s.fresh).dumps = s.dumps := rfl
@[simp] theorem State.fresh_stage (s : State) : (s.fresh).stage = s.stage := rfl
@[simp] theorem State.fresh_cut (s : State) : (s.fresh).cut = s.cut := rfl
@[simp] theorem State.fresh_powered (s : State) : (s.fresh).powered = s.powered := rfl
@[simp] theorem State.fresh_cold (s : State) : (s.fresh).cold = s.cold := rfl
@[simp] theorem State.fresh_pcap (s : State) : (s.fresh).pcap = s.pcap := rfl
@[simp] theorem State.fresh_watts (s : State) : (s.fresh).watts = s.watts := rfl
@[simp] theorem State.fresh_busyNow (s : State) : (s.fresh).busyNow = s.busyNow := rfl
@[simp] theorem State.fresh_busyLast (s : State) : (s.fresh).busyLast = s.busyLast := rfl
@[simp] theorem State.fresh_rota (s : State) : (s.fresh).rota = s.rota := rfl
@[simp] theorem State.fresh_scrub (s : State) : (s.fresh).scrub = s.scrub := rfl
@[simp] theorem State.fresh_fabdev (s : State) : (s.fresh).fabdev = s.fabdev := rfl
@[simp] theorem State.fresh_i3cAddr (s : State) : (s.fresh).i3cAddr = s.i3cAddr := rfl
@[simp] theorem State.fresh_tap (s : State) : (s.fresh).tap = s.tap := rfl
@[simp] theorem State.fresh_resetHeld (s : State) : (s.fresh).resetHeld = s.resetHeld := rfl
@[simp] theorem State.fresh_alert (s : State) : (s.fresh).alert = s.alert := rfl
@[simp] theorem State.fresh_inletDeg (s : State) : (s.fresh).inletDeg = s.inletDeg := rfl
@[simp] theorem State.fresh_inletOut (s : State) : (s.fresh).inletOut = s.inletOut := rfl
@[simp] theorem State.fresh_ref (s : State) : (s.fresh).ref = s.ref := rfl
@[simp] theorem State.fresh_refReset (s : State) : (s.fresh).refReset = s.refReset := rfl
@[simp] theorem State.fresh_halvings (s : State) : (s.fresh).halvings = s.halvings := rfl

@[simp] theorem State.markConsumed_agenda (s : State) : (s.markConsumed).agenda = s.agenda := rfl
@[simp] theorem State.markConsumed_tick (s : State) : (s.markConsumed).tick = s.tick := rfl
@[simp] theorem State.markConsumed_free (s : State) : (s.markConsumed).free = s.free := rfl
@[simp] theorem State.markConsumed_nextUid (s : State) : (s.markConsumed).nextUid = s.nextUid := rfl
@[simp] theorem State.markConsumed_cur (s : State) : (s.markConsumed).cur = s.cur := rfl
@[simp] theorem State.markConsumed_mem (s : State) : (s.markConsumed).mem = s.mem := rfl
@[simp] theorem State.markConsumed_linePoison (s : State) : (s.markConsumed).linePoison = s.linePoison := rfl
@[simp] theorem State.markConsumed_lineTime (s : State) : (s.markConsumed).lineTime = s.lineTime := rfl
@[simp] theorem State.markConsumed_releases (s : State) : (s.markConsumed).releases = s.releases := rfl
@[simp] theorem State.markConsumed_hostMem (s : State) : (s.markConsumed).hostMem = s.hostMem := rfl
@[simp] theorem State.markConsumed_tile (s : State) : (s.markConsumed).tile = s.tile := rfl
@[simp] theorem State.markConsumed_tilePoison (s : State) : (s.markConsumed).tilePoison = s.tilePoison := rfl
@[simp] theorem State.markConsumed_badScale (s : State) : (s.markConsumed).badScale = s.badScale := rfl
@[simp] theorem State.markConsumed_row (s : State) : (s.markConsumed).row = s.row := rfl
@[simp] theorem State.markConsumed_areas (s : State) : (s.markConsumed).areas = s.areas.upd s.cur.1 (fun a => { a with consumed := true }) := rfl
@[simp] theorem State.markConsumed_ctxs (s : State) : (s.markConsumed).ctxs = s.ctxs := rfl
@[simp] theorem State.markConsumed_parts (s : State) : (s.markConsumed).parts = s.parts := rfl
@[simp] theorem State.markConsumed_hearths (s : State) : (s.markConsumed).hearths = s.hearths := rfl
@[simp] theorem State.markConsumed_slots (s : State) : (s.markConsumed).slots = s.slots := rfl
@[simp] theorem State.markConsumed_carves (s : State) : (s.markConsumed).carves = s.carves := rfl
@[simp] theorem State.markConsumed_queues (s : State) : (s.markConsumed).queues = s.queues := rfl
@[simp] theorem State.markConsumed_subs (s : State) : (s.markConsumed).subs = s.subs := rfl
@[simp] theorem State.markConsumed_msgs (s : State) : (s.markConsumed).msgs = s.msgs := rfl
@[simp] theorem State.markConsumed_arbiters (s : State) : (s.markConsumed).arbiters = s.arbiters := rfl
@[simp] theorem State.markConsumed_pops (s : State) : (s.markConsumed).pops = s.pops := rfl
@[simp] theorem State.markConsumed_accs (s : State) : (s.markConsumed).accs = s.accs := rfl
@[simp] theorem State.markConsumed_events (s : State) : (s.markConsumed).events = s.events := rfl
@[simp] theorem State.markConsumed_dtlb (s : State) : (s.markConsumed).dtlb = s.dtlb := rfl
@[simp] theorem State.markConsumed_walks (s : State) : (s.markConsumed).walks = s.walks := rfl
@[simp] theorem State.markConsumed_missed (s : State) : (s.markConsumed).missed = s.missed := rfl
@[simp] theorem State.markConsumed_slices (s : State) : (s.markConsumed).slices = s.slices := rfl
@[simp] theorem State.markConsumed_chanMap (s : State) : (s.markConsumed).chanMap = s.chanMap := rfl
@[simp] theorem State.markConsumed_spare (s : State) : (s.markConsumed).spare = s.spare := rfl
@[simp] theorem State.markConsumed_keys (s : State) : (s.markConsumed).keys = s.keys := rfl
@[simp] theorem State.markConsumed_tags (s : State) : (s.markConsumed).tags = s.tags := rfl
@[simp] theorem State.markConsumed_integrity (s : State) : (s.markConsumed).integrity = s.integrity := rfl
@[simp] theorem State.markConsumed_units (s : State) : (s.markConsumed).units = s.units := rfl
@[simp] theorem State.markConsumed_leases (s : State) : (s.markConsumed).leases = s.leases := rfl
@[simp] theorem State.markConsumed_leaseLog (s : State) : (s.markConsumed).leaseLog = s.leaseLog := rfl
@[simp] theorem State.markConsumed_lseq (s : State) : (s.markConsumed).lseq = s.lseq := rfl
@[simp] theorem State.markConsumed_triggers (s : State) : (s.markConsumed).triggers = s.triggers := rfl
@[simp] theorem State.markConsumed_retireStore (s : State) : (s.markConsumed).retireStore = s.retireStore := rfl
@[simp] theorem State.markConsumed_retireFull (s : State) : (s.markConsumed).retireFull = s.retireFull := rfl
@[simp] theorem State.markConsumed_savedScores (s : State) : (s.markConsumed).savedScores = s.savedScores := rfl
@[simp] theorem State.markConsumed_portTo (s : State) : (s.markConsumed).portTo = s.portTo := rfl
@[simp] theorem State.markConsumed_unrouted (s : State) : (s.markConsumed).unrouted = s.unrouted := rfl
@[simp] theorem State.markConsumed_rotaNext (s : State) : (s.markConsumed).rotaNext = s.rotaNext := rfl
@[simp] theorem State.markConsumed_hq (s : State) : (s.markConsumed).hq = s.hq := rfl
@[simp] theorem State.markConsumed_cutting (s : State) : (s.markConsumed).cutting = s.cutting := rfl
@[simp] theorem State.markConsumed_lastMapped (s : State) : (s.markConsumed).lastMapped = s.lastMapped := rfl
@[simp] theorem State.markConsumed_lastSlot (s : State) : (s.markConsumed).lastSlot = s.lastSlot := rfl
@[simp] theorem State.markConsumed_journal (s : State) : (s.markConsumed).journal = s.journal := rfl
@[simp] theorem State.markConsumed_jseq (s : State) : (s.markConsumed).jseq = s.jseq := rfl
@[simp] theorem State.markConsumed_irqs (s : State) : (s.markConsumed).irqs = s.irqs := rfl
@[simp] theorem State.markConsumed_hostReqs (s : State) : (s.markConsumed).hostReqs = s.hostReqs := rfl
@[simp] theorem State.markConsumed_hostClk (s : State) : (s.markConsumed).hostClk = s.hostClk := rfl
@[simp] theorem State.markConsumed_hostReply (s : State) : (s.markConsumed).hostReply = s.hostReply := rfl
@[simp] theorem State.markConsumed_fabAcks (s : State) : (s.markConsumed).fabAcks = s.fabAcks := rfl
@[simp] theorem State.markConsumed_dumps (s : State) : (s.markConsumed).dumps = s.dumps := rfl
@[simp] theorem State.markConsumed_stage (s : State) : (s.markConsumed).stage = s.stage := rfl
@[simp] theorem State.markConsumed_cut (s : State) : (s.markConsumed).cut = s.cut := rfl
@[simp] theorem State.markConsumed_powered (s : State) : (s.markConsumed).powered = s.powered := rfl
@[simp] theorem State.markConsumed_cold (s : State) : (s.markConsumed).cold = s.cold := rfl
@[simp] theorem State.markConsumed_pcap (s : State) : (s.markConsumed).pcap = s.pcap := rfl
@[simp] theorem State.markConsumed_watts (s : State) : (s.markConsumed).watts = s.watts := rfl
@[simp] theorem State.markConsumed_busyNow (s : State) : (s.markConsumed).busyNow = s.busyNow := rfl
@[simp] theorem State.markConsumed_busyLast (s : State) : (s.markConsumed).busyLast = s.busyLast := rfl
@[simp] theorem State.markConsumed_rota (s : State) : (s.markConsumed).rota = s.rota := rfl
@[simp] theorem State.markConsumed_scrub (s : State) : (s.markConsumed).scrub = s.scrub := rfl
@[simp] theorem State.markConsumed_fabdev (s : State) : (s.markConsumed).fabdev = s.fabdev := rfl
@[simp] theorem State.markConsumed_i3cAddr (s : State) : (s.markConsumed).i3cAddr = s.i3cAddr := rfl
@[simp] theorem State.markConsumed_tap (s : State) : (s.markConsumed).tap = s.tap := rfl
@[simp] theorem State.markConsumed_resetHeld (s : State) : (s.markConsumed).resetHeld = s.resetHeld := rfl
@[simp] theorem State.markConsumed_alert (s : State) : (s.markConsumed).alert = s.alert := rfl
@[simp] theorem State.markConsumed_inletDeg (s : State) : (s.markConsumed).inletDeg = s.inletDeg := rfl
@[simp] theorem State.markConsumed_inletOut (s : State) : (s.markConsumed).inletOut = s.inletOut := rfl
@[simp] theorem State.markConsumed_ref (s : State) : (s.markConsumed).ref = s.ref := rfl
@[simp] theorem State.markConsumed_refReset (s : State) : (s.markConsumed).refReset = s.refReset := rfl
@[simp] theorem State.markConsumed_halvings (s : State) : (s.markConsumed).halvings = s.halvings := rfl

@[simp] theorem State.finish_agenda (s : State) (c : Cell) (n : Nat) (f : Cell → Cell) : (s.finish c n f).agenda = s.agenda := rfl
@[simp] theorem State.finish_tick (s : State) (c : Cell) (n : Nat) (f : Cell → Cell) : (s.finish c n f).tick = s.tick := rfl
@[simp] theorem State.finish_free (s : State) (c : Cell) (n : Nat) (f : Cell → Cell) : (s.finish c n f).free = s.free := rfl
@[simp] theorem State.finish_nextUid (s : State) (c : Cell) (n : Nat) (f : Cell → Cell) : (s.finish c n f).nextUid = s.nextUid := rfl
@[simp] theorem State.finish_cur (s : State) (c : Cell) (n : Nat) (f : Cell → Cell) : (s.finish c n f).cur = s.cur := rfl
@[simp] theorem State.finish_mem (s : State) (c : Cell) (n : Nat) (f : Cell → Cell) : (s.finish c n f).mem = s.mem := rfl
@[simp] theorem State.finish_linePoison (s : State) (c : Cell) (n : Nat) (f : Cell → Cell) : (s.finish c n f).linePoison = s.linePoison := rfl
@[simp] theorem State.finish_lineTime (s : State) (c : Cell) (n : Nat) (f : Cell → Cell) : (s.finish c n f).lineTime = s.lineTime := rfl
@[simp] theorem State.finish_releases (s : State) (c : Cell) (n : Nat) (f : Cell → Cell) : (s.finish c n f).releases = s.releases := rfl
@[simp] theorem State.finish_hostMem (s : State) (c : Cell) (n : Nat) (f : Cell → Cell) : (s.finish c n f).hostMem = s.hostMem := rfl
@[simp] theorem State.finish_tile (s : State) (c : Cell) (n : Nat) (f : Cell → Cell) : (s.finish c n f).tile = s.tile := rfl
@[simp] theorem State.finish_tilePoison (s : State) (c : Cell) (n : Nat) (f : Cell → Cell) : (s.finish c n f).tilePoison = s.tilePoison := rfl
@[simp] theorem State.finish_badScale (s : State) (c : Cell) (n : Nat) (f : Cell → Cell) : (s.finish c n f).badScale = s.badScale := rfl
@[simp] theorem State.finish_row (s : State) (c : Cell) (n : Nat) (f : Cell → Cell) : (s.finish c n f).row = s.row := rfl
@[simp] theorem State.finish_areas (s : State) (c : Cell) (n : Nat) (f : Cell → Cell) : (s.finish c n f).areas = s.areas.upd s.cur.1 (fun a => { a with cells := a.cells.upd s.cur.2 (fun c => { f c with pc := c.pc + BitVec.ofNat 64 (4 * n), wait := none }) }) := rfl
@[simp] theorem State.finish_ctxs (s : State) (c : Cell) (n : Nat) (f : Cell → Cell) : (s.finish c n f).ctxs = s.ctxs := rfl
@[simp] theorem State.finish_parts (s : State) (c : Cell) (n : Nat) (f : Cell → Cell) : (s.finish c n f).parts = s.parts := rfl
@[simp] theorem State.finish_hearths (s : State) (c : Cell) (n : Nat) (f : Cell → Cell) : (s.finish c n f).hearths = (s.count c.hid 1 1).hearths := rfl
@[simp] theorem State.finish_slots (s : State) (c : Cell) (n : Nat) (f : Cell → Cell) : (s.finish c n f).slots = s.slots := rfl
@[simp] theorem State.finish_carves (s : State) (c : Cell) (n : Nat) (f : Cell → Cell) : (s.finish c n f).carves = s.carves := rfl
@[simp] theorem State.finish_queues (s : State) (c : Cell) (n : Nat) (f : Cell → Cell) : (s.finish c n f).queues = s.queues := rfl
@[simp] theorem State.finish_subs (s : State) (c : Cell) (n : Nat) (f : Cell → Cell) : (s.finish c n f).subs = s.subs := rfl
@[simp] theorem State.finish_msgs (s : State) (c : Cell) (n : Nat) (f : Cell → Cell) : (s.finish c n f).msgs = s.msgs := rfl
@[simp] theorem State.finish_arbiters (s : State) (c : Cell) (n : Nat) (f : Cell → Cell) : (s.finish c n f).arbiters = s.arbiters := rfl
@[simp] theorem State.finish_pops (s : State) (c : Cell) (n : Nat) (f : Cell → Cell) : (s.finish c n f).pops = s.pops := rfl
@[simp] theorem State.finish_accs (s : State) (c : Cell) (n : Nat) (f : Cell → Cell) : (s.finish c n f).accs = s.accs := rfl
@[simp] theorem State.finish_events (s : State) (c : Cell) (n : Nat) (f : Cell → Cell) : (s.finish c n f).events = s.events := rfl
@[simp] theorem State.finish_dtlb (s : State) (c : Cell) (n : Nat) (f : Cell → Cell) : (s.finish c n f).dtlb = s.dtlb := rfl
@[simp] theorem State.finish_walks (s : State) (c : Cell) (n : Nat) (f : Cell → Cell) : (s.finish c n f).walks = s.walks := rfl
@[simp] theorem State.finish_missed (s : State) (c : Cell) (n : Nat) (f : Cell → Cell) : (s.finish c n f).missed = s.missed := rfl
@[simp] theorem State.finish_slices (s : State) (c : Cell) (n : Nat) (f : Cell → Cell) : (s.finish c n f).slices = s.slices := rfl
@[simp] theorem State.finish_chanMap (s : State) (c : Cell) (n : Nat) (f : Cell → Cell) : (s.finish c n f).chanMap = s.chanMap := rfl
@[simp] theorem State.finish_spare (s : State) (c : Cell) (n : Nat) (f : Cell → Cell) : (s.finish c n f).spare = s.spare := rfl
@[simp] theorem State.finish_keys (s : State) (c : Cell) (n : Nat) (f : Cell → Cell) : (s.finish c n f).keys = s.keys := rfl
@[simp] theorem State.finish_tags (s : State) (c : Cell) (n : Nat) (f : Cell → Cell) : (s.finish c n f).tags = s.tags := rfl
@[simp] theorem State.finish_integrity (s : State) (c : Cell) (n : Nat) (f : Cell → Cell) : (s.finish c n f).integrity = s.integrity := rfl
@[simp] theorem State.finish_units (s : State) (c : Cell) (n : Nat) (f : Cell → Cell) : (s.finish c n f).units = s.units := rfl
@[simp] theorem State.finish_leases (s : State) (c : Cell) (n : Nat) (f : Cell → Cell) : (s.finish c n f).leases = s.leases := rfl
@[simp] theorem State.finish_leaseLog (s : State) (c : Cell) (n : Nat) (f : Cell → Cell) : (s.finish c n f).leaseLog = s.leaseLog := rfl
@[simp] theorem State.finish_lseq (s : State) (c : Cell) (n : Nat) (f : Cell → Cell) : (s.finish c n f).lseq = s.lseq := rfl
@[simp] theorem State.finish_triggers (s : State) (c : Cell) (n : Nat) (f : Cell → Cell) : (s.finish c n f).triggers = s.triggers := rfl
@[simp] theorem State.finish_retireStore (s : State) (c : Cell) (n : Nat) (f : Cell → Cell) : (s.finish c n f).retireStore = s.retireStore := rfl
@[simp] theorem State.finish_retireFull (s : State) (c : Cell) (n : Nat) (f : Cell → Cell) : (s.finish c n f).retireFull = s.retireFull := rfl
@[simp] theorem State.finish_savedScores (s : State) (c : Cell) (n : Nat) (f : Cell → Cell) : (s.finish c n f).savedScores = s.savedScores := rfl
@[simp] theorem State.finish_portTo (s : State) (c : Cell) (n : Nat) (f : Cell → Cell) : (s.finish c n f).portTo = s.portTo := rfl
@[simp] theorem State.finish_unrouted (s : State) (c : Cell) (n : Nat) (f : Cell → Cell) : (s.finish c n f).unrouted = s.unrouted := rfl
@[simp] theorem State.finish_rotaNext (s : State) (c : Cell) (n : Nat) (f : Cell → Cell) : (s.finish c n f).rotaNext = s.rotaNext := rfl
@[simp] theorem State.finish_hq (s : State) (c : Cell) (n : Nat) (f : Cell → Cell) : (s.finish c n f).hq = s.hq := rfl
@[simp] theorem State.finish_cutting (s : State) (c : Cell) (n : Nat) (f : Cell → Cell) : (s.finish c n f).cutting = s.cutting := rfl
@[simp] theorem State.finish_lastMapped (s : State) (c : Cell) (n : Nat) (f : Cell → Cell) : (s.finish c n f).lastMapped = s.lastMapped := rfl
@[simp] theorem State.finish_lastSlot (s : State) (c : Cell) (n : Nat) (f : Cell → Cell) : (s.finish c n f).lastSlot = s.lastSlot := rfl
@[simp] theorem State.finish_journal (s : State) (c : Cell) (n : Nat) (f : Cell → Cell) : (s.finish c n f).journal = s.journal := rfl
@[simp] theorem State.finish_jseq (s : State) (c : Cell) (n : Nat) (f : Cell → Cell) : (s.finish c n f).jseq = s.jseq := rfl
@[simp] theorem State.finish_irqs (s : State) (c : Cell) (n : Nat) (f : Cell → Cell) : (s.finish c n f).irqs = s.irqs := rfl
@[simp] theorem State.finish_hostReqs (s : State) (c : Cell) (n : Nat) (f : Cell → Cell) : (s.finish c n f).hostReqs = s.hostReqs := rfl
@[simp] theorem State.finish_hostClk (s : State) (c : Cell) (n : Nat) (f : Cell → Cell) : (s.finish c n f).hostClk = s.hostClk := rfl
@[simp] theorem State.finish_hostReply (s : State) (c : Cell) (n : Nat) (f : Cell → Cell) : (s.finish c n f).hostReply = s.hostReply := rfl
@[simp] theorem State.finish_fabAcks (s : State) (c : Cell) (n : Nat) (f : Cell → Cell) : (s.finish c n f).fabAcks = s.fabAcks := rfl
@[simp] theorem State.finish_dumps (s : State) (c : Cell) (n : Nat) (f : Cell → Cell) : (s.finish c n f).dumps = s.dumps := rfl
@[simp] theorem State.finish_stage (s : State) (c : Cell) (n : Nat) (f : Cell → Cell) : (s.finish c n f).stage = s.stage := rfl
@[simp] theorem State.finish_cut (s : State) (c : Cell) (n : Nat) (f : Cell → Cell) : (s.finish c n f).cut = s.cut := rfl
@[simp] theorem State.finish_powered (s : State) (c : Cell) (n : Nat) (f : Cell → Cell) : (s.finish c n f).powered = s.powered := rfl
@[simp] theorem State.finish_cold (s : State) (c : Cell) (n : Nat) (f : Cell → Cell) : (s.finish c n f).cold = s.cold := rfl
@[simp] theorem State.finish_pcap (s : State) (c : Cell) (n : Nat) (f : Cell → Cell) : (s.finish c n f).pcap = s.pcap := rfl
@[simp] theorem State.finish_watts (s : State) (c : Cell) (n : Nat) (f : Cell → Cell) : (s.finish c n f).watts = s.watts := rfl
@[simp] theorem State.finish_busyNow (s : State) (c : Cell) (n : Nat) (f : Cell → Cell) : (s.finish c n f).busyNow = s.busyNow := rfl
@[simp] theorem State.finish_busyLast (s : State) (c : Cell) (n : Nat) (f : Cell → Cell) : (s.finish c n f).busyLast = s.busyLast := rfl
@[simp] theorem State.finish_rota (s : State) (c : Cell) (n : Nat) (f : Cell → Cell) : (s.finish c n f).rota = s.rota := rfl
@[simp] theorem State.finish_scrub (s : State) (c : Cell) (n : Nat) (f : Cell → Cell) : (s.finish c n f).scrub = s.scrub := rfl
@[simp] theorem State.finish_fabdev (s : State) (c : Cell) (n : Nat) (f : Cell → Cell) : (s.finish c n f).fabdev = s.fabdev := rfl
@[simp] theorem State.finish_i3cAddr (s : State) (c : Cell) (n : Nat) (f : Cell → Cell) : (s.finish c n f).i3cAddr = s.i3cAddr := rfl
@[simp] theorem State.finish_tap (s : State) (c : Cell) (n : Nat) (f : Cell → Cell) : (s.finish c n f).tap = s.tap := rfl
@[simp] theorem State.finish_resetHeld (s : State) (c : Cell) (n : Nat) (f : Cell → Cell) : (s.finish c n f).resetHeld = s.resetHeld := rfl
@[simp] theorem State.finish_alert (s : State) (c : Cell) (n : Nat) (f : Cell → Cell) : (s.finish c n f).alert = s.alert := rfl
@[simp] theorem State.finish_inletDeg (s : State) (c : Cell) (n : Nat) (f : Cell → Cell) : (s.finish c n f).inletDeg = s.inletDeg := rfl
@[simp] theorem State.finish_inletOut (s : State) (c : Cell) (n : Nat) (f : Cell → Cell) : (s.finish c n f).inletOut = s.inletOut := rfl
@[simp] theorem State.finish_ref (s : State) (c : Cell) (n : Nat) (f : Cell → Cell) : (s.finish c n f).ref = s.ref := rfl
@[simp] theorem State.finish_refReset (s : State) (c : Cell) (n : Nat) (f : Cell → Cell) : (s.finish c n f).refReset = s.refReset := rfl
@[simp] theorem State.finish_halvings (s : State) (c : Cell) (n : Nat) (f : Cell → Cell) : (s.finish c n f).halvings = s.halvings := rfl

@[simp] theorem State.jump_agenda (s : State) (c : Cell) (pc : Word) (f : Cell → Cell) : (s.jump c pc f).agenda = s.agenda := rfl
@[simp] theorem State.jump_tick (s : State) (c : Cell) (pc : Word) (f : Cell → Cell) : (s.jump c pc f).tick = s.tick := rfl
@[simp] theorem State.jump_free (s : State) (c : Cell) (pc : Word) (f : Cell → Cell) : (s.jump c pc f).free = s.free := rfl
@[simp] theorem State.jump_nextUid (s : State) (c : Cell) (pc : Word) (f : Cell → Cell) : (s.jump c pc f).nextUid = s.nextUid := rfl
@[simp] theorem State.jump_cur (s : State) (c : Cell) (pc : Word) (f : Cell → Cell) : (s.jump c pc f).cur = s.cur := rfl
@[simp] theorem State.jump_mem (s : State) (c : Cell) (pc : Word) (f : Cell → Cell) : (s.jump c pc f).mem = s.mem := rfl
@[simp] theorem State.jump_linePoison (s : State) (c : Cell) (pc : Word) (f : Cell → Cell) : (s.jump c pc f).linePoison = s.linePoison := rfl
@[simp] theorem State.jump_lineTime (s : State) (c : Cell) (pc : Word) (f : Cell → Cell) : (s.jump c pc f).lineTime = s.lineTime := rfl
@[simp] theorem State.jump_releases (s : State) (c : Cell) (pc : Word) (f : Cell → Cell) : (s.jump c pc f).releases = s.releases := rfl
@[simp] theorem State.jump_hostMem (s : State) (c : Cell) (pc : Word) (f : Cell → Cell) : (s.jump c pc f).hostMem = s.hostMem := rfl
@[simp] theorem State.jump_tile (s : State) (c : Cell) (pc : Word) (f : Cell → Cell) : (s.jump c pc f).tile = s.tile := rfl
@[simp] theorem State.jump_tilePoison (s : State) (c : Cell) (pc : Word) (f : Cell → Cell) : (s.jump c pc f).tilePoison = s.tilePoison := rfl
@[simp] theorem State.jump_badScale (s : State) (c : Cell) (pc : Word) (f : Cell → Cell) : (s.jump c pc f).badScale = s.badScale := rfl
@[simp] theorem State.jump_row (s : State) (c : Cell) (pc : Word) (f : Cell → Cell) : (s.jump c pc f).row = s.row := rfl
@[simp] theorem State.jump_areas (s : State) (c : Cell) (pc : Word) (f : Cell → Cell) : (s.jump c pc f).areas = s.areas.upd s.cur.1 (fun a => { a with cells := a.cells.upd s.cur.2 (fun c => { f c with pc := pcOf pc, wait := none }) }) := rfl
@[simp] theorem State.jump_ctxs (s : State) (c : Cell) (pc : Word) (f : Cell → Cell) : (s.jump c pc f).ctxs = s.ctxs := rfl
@[simp] theorem State.jump_parts (s : State) (c : Cell) (pc : Word) (f : Cell → Cell) : (s.jump c pc f).parts = s.parts := rfl
@[simp] theorem State.jump_hearths (s : State) (c : Cell) (pc : Word) (f : Cell → Cell) : (s.jump c pc f).hearths = (s.count c.hid 1 1).hearths := rfl
@[simp] theorem State.jump_slots (s : State) (c : Cell) (pc : Word) (f : Cell → Cell) : (s.jump c pc f).slots = s.slots := rfl
@[simp] theorem State.jump_carves (s : State) (c : Cell) (pc : Word) (f : Cell → Cell) : (s.jump c pc f).carves = s.carves := rfl
@[simp] theorem State.jump_queues (s : State) (c : Cell) (pc : Word) (f : Cell → Cell) : (s.jump c pc f).queues = s.queues := rfl
@[simp] theorem State.jump_subs (s : State) (c : Cell) (pc : Word) (f : Cell → Cell) : (s.jump c pc f).subs = s.subs := rfl
@[simp] theorem State.jump_msgs (s : State) (c : Cell) (pc : Word) (f : Cell → Cell) : (s.jump c pc f).msgs = s.msgs := rfl
@[simp] theorem State.jump_arbiters (s : State) (c : Cell) (pc : Word) (f : Cell → Cell) : (s.jump c pc f).arbiters = s.arbiters := rfl
@[simp] theorem State.jump_pops (s : State) (c : Cell) (pc : Word) (f : Cell → Cell) : (s.jump c pc f).pops = s.pops := rfl
@[simp] theorem State.jump_accs (s : State) (c : Cell) (pc : Word) (f : Cell → Cell) : (s.jump c pc f).accs = s.accs := rfl
@[simp] theorem State.jump_events (s : State) (c : Cell) (pc : Word) (f : Cell → Cell) : (s.jump c pc f).events = s.events := rfl
@[simp] theorem State.jump_dtlb (s : State) (c : Cell) (pc : Word) (f : Cell → Cell) : (s.jump c pc f).dtlb = s.dtlb := rfl
@[simp] theorem State.jump_walks (s : State) (c : Cell) (pc : Word) (f : Cell → Cell) : (s.jump c pc f).walks = s.walks := rfl
@[simp] theorem State.jump_missed (s : State) (c : Cell) (pc : Word) (f : Cell → Cell) : (s.jump c pc f).missed = s.missed := rfl
@[simp] theorem State.jump_slices (s : State) (c : Cell) (pc : Word) (f : Cell → Cell) : (s.jump c pc f).slices = s.slices := rfl
@[simp] theorem State.jump_chanMap (s : State) (c : Cell) (pc : Word) (f : Cell → Cell) : (s.jump c pc f).chanMap = s.chanMap := rfl
@[simp] theorem State.jump_spare (s : State) (c : Cell) (pc : Word) (f : Cell → Cell) : (s.jump c pc f).spare = s.spare := rfl
@[simp] theorem State.jump_keys (s : State) (c : Cell) (pc : Word) (f : Cell → Cell) : (s.jump c pc f).keys = s.keys := rfl
@[simp] theorem State.jump_tags (s : State) (c : Cell) (pc : Word) (f : Cell → Cell) : (s.jump c pc f).tags = s.tags := rfl
@[simp] theorem State.jump_integrity (s : State) (c : Cell) (pc : Word) (f : Cell → Cell) : (s.jump c pc f).integrity = s.integrity := rfl
@[simp] theorem State.jump_units (s : State) (c : Cell) (pc : Word) (f : Cell → Cell) : (s.jump c pc f).units = s.units := rfl
@[simp] theorem State.jump_leases (s : State) (c : Cell) (pc : Word) (f : Cell → Cell) : (s.jump c pc f).leases = s.leases := rfl
@[simp] theorem State.jump_leaseLog (s : State) (c : Cell) (pc : Word) (f : Cell → Cell) : (s.jump c pc f).leaseLog = s.leaseLog := rfl
@[simp] theorem State.jump_lseq (s : State) (c : Cell) (pc : Word) (f : Cell → Cell) : (s.jump c pc f).lseq = s.lseq := rfl
@[simp] theorem State.jump_triggers (s : State) (c : Cell) (pc : Word) (f : Cell → Cell) : (s.jump c pc f).triggers = s.triggers := rfl
@[simp] theorem State.jump_retireStore (s : State) (c : Cell) (pc : Word) (f : Cell → Cell) : (s.jump c pc f).retireStore = s.retireStore := rfl
@[simp] theorem State.jump_retireFull (s : State) (c : Cell) (pc : Word) (f : Cell → Cell) : (s.jump c pc f).retireFull = s.retireFull := rfl
@[simp] theorem State.jump_savedScores (s : State) (c : Cell) (pc : Word) (f : Cell → Cell) : (s.jump c pc f).savedScores = s.savedScores := rfl
@[simp] theorem State.jump_portTo (s : State) (c : Cell) (pc : Word) (f : Cell → Cell) : (s.jump c pc f).portTo = s.portTo := rfl
@[simp] theorem State.jump_unrouted (s : State) (c : Cell) (pc : Word) (f : Cell → Cell) : (s.jump c pc f).unrouted = s.unrouted := rfl
@[simp] theorem State.jump_rotaNext (s : State) (c : Cell) (pc : Word) (f : Cell → Cell) : (s.jump c pc f).rotaNext = s.rotaNext := rfl
@[simp] theorem State.jump_hq (s : State) (c : Cell) (pc : Word) (f : Cell → Cell) : (s.jump c pc f).hq = s.hq := rfl
@[simp] theorem State.jump_cutting (s : State) (c : Cell) (pc : Word) (f : Cell → Cell) : (s.jump c pc f).cutting = s.cutting := rfl
@[simp] theorem State.jump_lastMapped (s : State) (c : Cell) (pc : Word) (f : Cell → Cell) : (s.jump c pc f).lastMapped = s.lastMapped := rfl
@[simp] theorem State.jump_lastSlot (s : State) (c : Cell) (pc : Word) (f : Cell → Cell) : (s.jump c pc f).lastSlot = s.lastSlot := rfl
@[simp] theorem State.jump_journal (s : State) (c : Cell) (pc : Word) (f : Cell → Cell) : (s.jump c pc f).journal = s.journal := rfl
@[simp] theorem State.jump_jseq (s : State) (c : Cell) (pc : Word) (f : Cell → Cell) : (s.jump c pc f).jseq = s.jseq := rfl
@[simp] theorem State.jump_irqs (s : State) (c : Cell) (pc : Word) (f : Cell → Cell) : (s.jump c pc f).irqs = s.irqs := rfl
@[simp] theorem State.jump_hostReqs (s : State) (c : Cell) (pc : Word) (f : Cell → Cell) : (s.jump c pc f).hostReqs = s.hostReqs := rfl
@[simp] theorem State.jump_hostClk (s : State) (c : Cell) (pc : Word) (f : Cell → Cell) : (s.jump c pc f).hostClk = s.hostClk := rfl
@[simp] theorem State.jump_hostReply (s : State) (c : Cell) (pc : Word) (f : Cell → Cell) : (s.jump c pc f).hostReply = s.hostReply := rfl
@[simp] theorem State.jump_fabAcks (s : State) (c : Cell) (pc : Word) (f : Cell → Cell) : (s.jump c pc f).fabAcks = s.fabAcks := rfl
@[simp] theorem State.jump_dumps (s : State) (c : Cell) (pc : Word) (f : Cell → Cell) : (s.jump c pc f).dumps = s.dumps := rfl
@[simp] theorem State.jump_stage (s : State) (c : Cell) (pc : Word) (f : Cell → Cell) : (s.jump c pc f).stage = s.stage := rfl
@[simp] theorem State.jump_cut (s : State) (c : Cell) (pc : Word) (f : Cell → Cell) : (s.jump c pc f).cut = s.cut := rfl
@[simp] theorem State.jump_powered (s : State) (c : Cell) (pc : Word) (f : Cell → Cell) : (s.jump c pc f).powered = s.powered := rfl
@[simp] theorem State.jump_cold (s : State) (c : Cell) (pc : Word) (f : Cell → Cell) : (s.jump c pc f).cold = s.cold := rfl
@[simp] theorem State.jump_pcap (s : State) (c : Cell) (pc : Word) (f : Cell → Cell) : (s.jump c pc f).pcap = s.pcap := rfl
@[simp] theorem State.jump_watts (s : State) (c : Cell) (pc : Word) (f : Cell → Cell) : (s.jump c pc f).watts = s.watts := rfl
@[simp] theorem State.jump_busyNow (s : State) (c : Cell) (pc : Word) (f : Cell → Cell) : (s.jump c pc f).busyNow = s.busyNow := rfl
@[simp] theorem State.jump_busyLast (s : State) (c : Cell) (pc : Word) (f : Cell → Cell) : (s.jump c pc f).busyLast = s.busyLast := rfl
@[simp] theorem State.jump_rota (s : State) (c : Cell) (pc : Word) (f : Cell → Cell) : (s.jump c pc f).rota = s.rota := rfl
@[simp] theorem State.jump_scrub (s : State) (c : Cell) (pc : Word) (f : Cell → Cell) : (s.jump c pc f).scrub = s.scrub := rfl
@[simp] theorem State.jump_fabdev (s : State) (c : Cell) (pc : Word) (f : Cell → Cell) : (s.jump c pc f).fabdev = s.fabdev := rfl
@[simp] theorem State.jump_i3cAddr (s : State) (c : Cell) (pc : Word) (f : Cell → Cell) : (s.jump c pc f).i3cAddr = s.i3cAddr := rfl
@[simp] theorem State.jump_tap (s : State) (c : Cell) (pc : Word) (f : Cell → Cell) : (s.jump c pc f).tap = s.tap := rfl
@[simp] theorem State.jump_resetHeld (s : State) (c : Cell) (pc : Word) (f : Cell → Cell) : (s.jump c pc f).resetHeld = s.resetHeld := rfl
@[simp] theorem State.jump_alert (s : State) (c : Cell) (pc : Word) (f : Cell → Cell) : (s.jump c pc f).alert = s.alert := rfl
@[simp] theorem State.jump_inletDeg (s : State) (c : Cell) (pc : Word) (f : Cell → Cell) : (s.jump c pc f).inletDeg = s.inletDeg := rfl
@[simp] theorem State.jump_inletOut (s : State) (c : Cell) (pc : Word) (f : Cell → Cell) : (s.jump c pc f).inletOut = s.inletOut := rfl
@[simp] theorem State.jump_ref (s : State) (c : Cell) (pc : Word) (f : Cell → Cell) : (s.jump c pc f).ref = s.ref := rfl
@[simp] theorem State.jump_refReset (s : State) (c : Cell) (pc : Word) (f : Cell → Cell) : (s.jump c pc f).refReset = s.refReset := rfl
@[simp] theorem State.jump_halvings (s : State) (c : Cell) (pc : Word) (f : Cell → Cell) : (s.jump c pc f).halvings = s.halvings := rfl

@[simp] theorem State.waitOn_agenda (s : State) (kind : WaitKind) (waddr value : Word) : (s.waitOn kind waddr value).agenda = s.agenda := rfl
@[simp] theorem State.waitOn_tick (s : State) (kind : WaitKind) (waddr value : Word) : (s.waitOn kind waddr value).tick = s.tick := rfl
@[simp] theorem State.waitOn_free (s : State) (kind : WaitKind) (waddr value : Word) : (s.waitOn kind waddr value).free = s.free := rfl
@[simp] theorem State.waitOn_nextUid (s : State) (kind : WaitKind) (waddr value : Word) : (s.waitOn kind waddr value).nextUid = s.nextUid := rfl
@[simp] theorem State.waitOn_cur (s : State) (kind : WaitKind) (waddr value : Word) : (s.waitOn kind waddr value).cur = s.cur := rfl
@[simp] theorem State.waitOn_mem (s : State) (kind : WaitKind) (waddr value : Word) : (s.waitOn kind waddr value).mem = s.mem := rfl
@[simp] theorem State.waitOn_linePoison (s : State) (kind : WaitKind) (waddr value : Word) : (s.waitOn kind waddr value).linePoison = s.linePoison := rfl
@[simp] theorem State.waitOn_lineTime (s : State) (kind : WaitKind) (waddr value : Word) : (s.waitOn kind waddr value).lineTime = s.lineTime := rfl
@[simp] theorem State.waitOn_releases (s : State) (kind : WaitKind) (waddr value : Word) : (s.waitOn kind waddr value).releases = s.releases := rfl
@[simp] theorem State.waitOn_hostMem (s : State) (kind : WaitKind) (waddr value : Word) : (s.waitOn kind waddr value).hostMem = s.hostMem := rfl
@[simp] theorem State.waitOn_tile (s : State) (kind : WaitKind) (waddr value : Word) : (s.waitOn kind waddr value).tile = s.tile := rfl
@[simp] theorem State.waitOn_tilePoison (s : State) (kind : WaitKind) (waddr value : Word) : (s.waitOn kind waddr value).tilePoison = s.tilePoison := rfl
@[simp] theorem State.waitOn_badScale (s : State) (kind : WaitKind) (waddr value : Word) : (s.waitOn kind waddr value).badScale = s.badScale := rfl
@[simp] theorem State.waitOn_row (s : State) (kind : WaitKind) (waddr value : Word) : (s.waitOn kind waddr value).row = s.row := rfl
@[simp] theorem State.waitOn_areas (s : State) (kind : WaitKind) (waddr value : Word) : (s.waitOn kind waddr value).areas = s.areas.upd s.cur.1 (fun a => { a with cells := a.cells.upd s.cur.2 (fun c => { c with wait := some ⟨kind, waddr, value, none, none, [], []⟩ }) }) := rfl
@[simp] theorem State.waitOn_ctxs (s : State) (kind : WaitKind) (waddr value : Word) : (s.waitOn kind waddr value).ctxs = s.ctxs := rfl
@[simp] theorem State.waitOn_parts (s : State) (kind : WaitKind) (waddr value : Word) : (s.waitOn kind waddr value).parts = s.parts := rfl
@[simp] theorem State.waitOn_hearths (s : State) (kind : WaitKind) (waddr value : Word) : (s.waitOn kind waddr value).hearths = s.hearths := rfl
@[simp] theorem State.waitOn_slots (s : State) (kind : WaitKind) (waddr value : Word) : (s.waitOn kind waddr value).slots = s.slots := rfl
@[simp] theorem State.waitOn_carves (s : State) (kind : WaitKind) (waddr value : Word) : (s.waitOn kind waddr value).carves = s.carves := rfl
@[simp] theorem State.waitOn_queues (s : State) (kind : WaitKind) (waddr value : Word) : (s.waitOn kind waddr value).queues = s.queues := rfl
@[simp] theorem State.waitOn_subs (s : State) (kind : WaitKind) (waddr value : Word) : (s.waitOn kind waddr value).subs = s.subs := rfl
@[simp] theorem State.waitOn_msgs (s : State) (kind : WaitKind) (waddr value : Word) : (s.waitOn kind waddr value).msgs = s.msgs := rfl
@[simp] theorem State.waitOn_arbiters (s : State) (kind : WaitKind) (waddr value : Word) : (s.waitOn kind waddr value).arbiters = s.arbiters := rfl
@[simp] theorem State.waitOn_pops (s : State) (kind : WaitKind) (waddr value : Word) : (s.waitOn kind waddr value).pops = s.pops := rfl
@[simp] theorem State.waitOn_accs (s : State) (kind : WaitKind) (waddr value : Word) : (s.waitOn kind waddr value).accs = s.accs := rfl
@[simp] theorem State.waitOn_events (s : State) (kind : WaitKind) (waddr value : Word) : (s.waitOn kind waddr value).events = s.events := rfl
@[simp] theorem State.waitOn_dtlb (s : State) (kind : WaitKind) (waddr value : Word) : (s.waitOn kind waddr value).dtlb = s.dtlb := rfl
@[simp] theorem State.waitOn_walks (s : State) (kind : WaitKind) (waddr value : Word) : (s.waitOn kind waddr value).walks = s.walks := rfl
@[simp] theorem State.waitOn_missed (s : State) (kind : WaitKind) (waddr value : Word) : (s.waitOn kind waddr value).missed = s.missed := rfl
@[simp] theorem State.waitOn_slices (s : State) (kind : WaitKind) (waddr value : Word) : (s.waitOn kind waddr value).slices = s.slices := rfl
@[simp] theorem State.waitOn_chanMap (s : State) (kind : WaitKind) (waddr value : Word) : (s.waitOn kind waddr value).chanMap = s.chanMap := rfl
@[simp] theorem State.waitOn_spare (s : State) (kind : WaitKind) (waddr value : Word) : (s.waitOn kind waddr value).spare = s.spare := rfl
@[simp] theorem State.waitOn_keys (s : State) (kind : WaitKind) (waddr value : Word) : (s.waitOn kind waddr value).keys = s.keys := rfl
@[simp] theorem State.waitOn_tags (s : State) (kind : WaitKind) (waddr value : Word) : (s.waitOn kind waddr value).tags = s.tags := rfl
@[simp] theorem State.waitOn_integrity (s : State) (kind : WaitKind) (waddr value : Word) : (s.waitOn kind waddr value).integrity = s.integrity := rfl
@[simp] theorem State.waitOn_units (s : State) (kind : WaitKind) (waddr value : Word) : (s.waitOn kind waddr value).units = s.units := rfl
@[simp] theorem State.waitOn_leases (s : State) (kind : WaitKind) (waddr value : Word) : (s.waitOn kind waddr value).leases = s.leases := rfl
@[simp] theorem State.waitOn_leaseLog (s : State) (kind : WaitKind) (waddr value : Word) : (s.waitOn kind waddr value).leaseLog = s.leaseLog := rfl
@[simp] theorem State.waitOn_lseq (s : State) (kind : WaitKind) (waddr value : Word) : (s.waitOn kind waddr value).lseq = s.lseq := rfl
@[simp] theorem State.waitOn_triggers (s : State) (kind : WaitKind) (waddr value : Word) : (s.waitOn kind waddr value).triggers = s.triggers := rfl
@[simp] theorem State.waitOn_retireStore (s : State) (kind : WaitKind) (waddr value : Word) : (s.waitOn kind waddr value).retireStore = s.retireStore := rfl
@[simp] theorem State.waitOn_retireFull (s : State) (kind : WaitKind) (waddr value : Word) : (s.waitOn kind waddr value).retireFull = s.retireFull := rfl
@[simp] theorem State.waitOn_savedScores (s : State) (kind : WaitKind) (waddr value : Word) : (s.waitOn kind waddr value).savedScores = s.savedScores := rfl
@[simp] theorem State.waitOn_portTo (s : State) (kind : WaitKind) (waddr value : Word) : (s.waitOn kind waddr value).portTo = s.portTo := rfl
@[simp] theorem State.waitOn_unrouted (s : State) (kind : WaitKind) (waddr value : Word) : (s.waitOn kind waddr value).unrouted = s.unrouted := rfl
@[simp] theorem State.waitOn_rotaNext (s : State) (kind : WaitKind) (waddr value : Word) : (s.waitOn kind waddr value).rotaNext = s.rotaNext := rfl
@[simp] theorem State.waitOn_hq (s : State) (kind : WaitKind) (waddr value : Word) : (s.waitOn kind waddr value).hq = s.hq := rfl
@[simp] theorem State.waitOn_cutting (s : State) (kind : WaitKind) (waddr value : Word) : (s.waitOn kind waddr value).cutting = s.cutting := rfl
@[simp] theorem State.waitOn_lastMapped (s : State) (kind : WaitKind) (waddr value : Word) : (s.waitOn kind waddr value).lastMapped = s.lastMapped := rfl
@[simp] theorem State.waitOn_lastSlot (s : State) (kind : WaitKind) (waddr value : Word) : (s.waitOn kind waddr value).lastSlot = s.lastSlot := rfl
@[simp] theorem State.waitOn_journal (s : State) (kind : WaitKind) (waddr value : Word) : (s.waitOn kind waddr value).journal = s.journal := rfl
@[simp] theorem State.waitOn_jseq (s : State) (kind : WaitKind) (waddr value : Word) : (s.waitOn kind waddr value).jseq = s.jseq := rfl
@[simp] theorem State.waitOn_irqs (s : State) (kind : WaitKind) (waddr value : Word) : (s.waitOn kind waddr value).irqs = s.irqs := rfl
@[simp] theorem State.waitOn_hostReqs (s : State) (kind : WaitKind) (waddr value : Word) : (s.waitOn kind waddr value).hostReqs = s.hostReqs := rfl
@[simp] theorem State.waitOn_hostClk (s : State) (kind : WaitKind) (waddr value : Word) : (s.waitOn kind waddr value).hostClk = s.hostClk := rfl
@[simp] theorem State.waitOn_hostReply (s : State) (kind : WaitKind) (waddr value : Word) : (s.waitOn kind waddr value).hostReply = s.hostReply := rfl
@[simp] theorem State.waitOn_fabAcks (s : State) (kind : WaitKind) (waddr value : Word) : (s.waitOn kind waddr value).fabAcks = s.fabAcks := rfl
@[simp] theorem State.waitOn_dumps (s : State) (kind : WaitKind) (waddr value : Word) : (s.waitOn kind waddr value).dumps = s.dumps := rfl
@[simp] theorem State.waitOn_stage (s : State) (kind : WaitKind) (waddr value : Word) : (s.waitOn kind waddr value).stage = s.stage := rfl
@[simp] theorem State.waitOn_cut (s : State) (kind : WaitKind) (waddr value : Word) : (s.waitOn kind waddr value).cut = s.cut := rfl
@[simp] theorem State.waitOn_powered (s : State) (kind : WaitKind) (waddr value : Word) : (s.waitOn kind waddr value).powered = s.powered := rfl
@[simp] theorem State.waitOn_cold (s : State) (kind : WaitKind) (waddr value : Word) : (s.waitOn kind waddr value).cold = s.cold := rfl
@[simp] theorem State.waitOn_pcap (s : State) (kind : WaitKind) (waddr value : Word) : (s.waitOn kind waddr value).pcap = s.pcap := rfl
@[simp] theorem State.waitOn_watts (s : State) (kind : WaitKind) (waddr value : Word) : (s.waitOn kind waddr value).watts = s.watts := rfl
@[simp] theorem State.waitOn_busyNow (s : State) (kind : WaitKind) (waddr value : Word) : (s.waitOn kind waddr value).busyNow = s.busyNow := rfl
@[simp] theorem State.waitOn_busyLast (s : State) (kind : WaitKind) (waddr value : Word) : (s.waitOn kind waddr value).busyLast = s.busyLast := rfl
@[simp] theorem State.waitOn_rota (s : State) (kind : WaitKind) (waddr value : Word) : (s.waitOn kind waddr value).rota = s.rota := rfl
@[simp] theorem State.waitOn_scrub (s : State) (kind : WaitKind) (waddr value : Word) : (s.waitOn kind waddr value).scrub = s.scrub := rfl
@[simp] theorem State.waitOn_fabdev (s : State) (kind : WaitKind) (waddr value : Word) : (s.waitOn kind waddr value).fabdev = s.fabdev := rfl
@[simp] theorem State.waitOn_i3cAddr (s : State) (kind : WaitKind) (waddr value : Word) : (s.waitOn kind waddr value).i3cAddr = s.i3cAddr := rfl
@[simp] theorem State.waitOn_tap (s : State) (kind : WaitKind) (waddr value : Word) : (s.waitOn kind waddr value).tap = s.tap := rfl
@[simp] theorem State.waitOn_resetHeld (s : State) (kind : WaitKind) (waddr value : Word) : (s.waitOn kind waddr value).resetHeld = s.resetHeld := rfl
@[simp] theorem State.waitOn_alert (s : State) (kind : WaitKind) (waddr value : Word) : (s.waitOn kind waddr value).alert = s.alert := rfl
@[simp] theorem State.waitOn_inletDeg (s : State) (kind : WaitKind) (waddr value : Word) : (s.waitOn kind waddr value).inletDeg = s.inletDeg := rfl
@[simp] theorem State.waitOn_inletOut (s : State) (kind : WaitKind) (waddr value : Word) : (s.waitOn kind waddr value).inletOut = s.inletOut := rfl
@[simp] theorem State.waitOn_ref (s : State) (kind : WaitKind) (waddr value : Word) : (s.waitOn kind waddr value).ref = s.ref := rfl
@[simp] theorem State.waitOn_refReset (s : State) (kind : WaitKind) (waddr value : Word) : (s.waitOn kind waddr value).refReset = s.refReset := rfl
@[simp] theorem State.waitOn_halvings (s : State) (kind : WaitKind) (waddr value : Word) : (s.waitOn kind waddr value).halvings = s.halvings := rfl

@[simp] theorem State.waitQueue_agenda (s : State) (mask : Word) (ids : List Nat) : (s.waitQueue mask ids).agenda = s.agenda := rfl
@[simp] theorem State.waitQueue_tick (s : State) (mask : Word) (ids : List Nat) : (s.waitQueue mask ids).tick = s.tick := rfl
@[simp] theorem State.waitQueue_free (s : State) (mask : Word) (ids : List Nat) : (s.waitQueue mask ids).free = s.free := rfl
@[simp] theorem State.waitQueue_nextUid (s : State) (mask : Word) (ids : List Nat) : (s.waitQueue mask ids).nextUid = s.nextUid := rfl
@[simp] theorem State.waitQueue_cur (s : State) (mask : Word) (ids : List Nat) : (s.waitQueue mask ids).cur = s.cur := rfl
@[simp] theorem State.waitQueue_mem (s : State) (mask : Word) (ids : List Nat) : (s.waitQueue mask ids).mem = s.mem := rfl
@[simp] theorem State.waitQueue_linePoison (s : State) (mask : Word) (ids : List Nat) : (s.waitQueue mask ids).linePoison = s.linePoison := rfl
@[simp] theorem State.waitQueue_lineTime (s : State) (mask : Word) (ids : List Nat) : (s.waitQueue mask ids).lineTime = s.lineTime := rfl
@[simp] theorem State.waitQueue_releases (s : State) (mask : Word) (ids : List Nat) : (s.waitQueue mask ids).releases = s.releases := rfl
@[simp] theorem State.waitQueue_hostMem (s : State) (mask : Word) (ids : List Nat) : (s.waitQueue mask ids).hostMem = s.hostMem := rfl
@[simp] theorem State.waitQueue_tile (s : State) (mask : Word) (ids : List Nat) : (s.waitQueue mask ids).tile = s.tile := rfl
@[simp] theorem State.waitQueue_tilePoison (s : State) (mask : Word) (ids : List Nat) : (s.waitQueue mask ids).tilePoison = s.tilePoison := rfl
@[simp] theorem State.waitQueue_badScale (s : State) (mask : Word) (ids : List Nat) : (s.waitQueue mask ids).badScale = s.badScale := rfl
@[simp] theorem State.waitQueue_row (s : State) (mask : Word) (ids : List Nat) : (s.waitQueue mask ids).row = s.row := rfl
@[simp] theorem State.waitQueue_areas (s : State) (mask : Word) (ids : List Nat) : (s.waitQueue mask ids).areas = s.areas.upd s.cur.1 (fun a => { a with cells := a.cells.upd s.cur.2 (fun c => { c with wait := some ⟨.queue, 0, mask, none, none, ids, []⟩ }) }) := rfl
@[simp] theorem State.waitQueue_ctxs (s : State) (mask : Word) (ids : List Nat) : (s.waitQueue mask ids).ctxs = s.ctxs := rfl
@[simp] theorem State.waitQueue_parts (s : State) (mask : Word) (ids : List Nat) : (s.waitQueue mask ids).parts = s.parts := rfl
@[simp] theorem State.waitQueue_hearths (s : State) (mask : Word) (ids : List Nat) : (s.waitQueue mask ids).hearths = s.hearths := rfl
@[simp] theorem State.waitQueue_slots (s : State) (mask : Word) (ids : List Nat) : (s.waitQueue mask ids).slots = s.slots := rfl
@[simp] theorem State.waitQueue_carves (s : State) (mask : Word) (ids : List Nat) : (s.waitQueue mask ids).carves = s.carves := rfl
@[simp] theorem State.waitQueue_queues (s : State) (mask : Word) (ids : List Nat) : (s.waitQueue mask ids).queues = s.queues := rfl
@[simp] theorem State.waitQueue_subs (s : State) (mask : Word) (ids : List Nat) : (s.waitQueue mask ids).subs = s.subs := rfl
@[simp] theorem State.waitQueue_msgs (s : State) (mask : Word) (ids : List Nat) : (s.waitQueue mask ids).msgs = s.msgs := rfl
@[simp] theorem State.waitQueue_arbiters (s : State) (mask : Word) (ids : List Nat) : (s.waitQueue mask ids).arbiters = s.arbiters := rfl
@[simp] theorem State.waitQueue_pops (s : State) (mask : Word) (ids : List Nat) : (s.waitQueue mask ids).pops = s.pops := rfl
@[simp] theorem State.waitQueue_accs (s : State) (mask : Word) (ids : List Nat) : (s.waitQueue mask ids).accs = s.accs := rfl
@[simp] theorem State.waitQueue_events (s : State) (mask : Word) (ids : List Nat) : (s.waitQueue mask ids).events = s.events := rfl
@[simp] theorem State.waitQueue_dtlb (s : State) (mask : Word) (ids : List Nat) : (s.waitQueue mask ids).dtlb = s.dtlb := rfl
@[simp] theorem State.waitQueue_walks (s : State) (mask : Word) (ids : List Nat) : (s.waitQueue mask ids).walks = s.walks := rfl
@[simp] theorem State.waitQueue_missed (s : State) (mask : Word) (ids : List Nat) : (s.waitQueue mask ids).missed = s.missed := rfl
@[simp] theorem State.waitQueue_slices (s : State) (mask : Word) (ids : List Nat) : (s.waitQueue mask ids).slices = s.slices := rfl
@[simp] theorem State.waitQueue_chanMap (s : State) (mask : Word) (ids : List Nat) : (s.waitQueue mask ids).chanMap = s.chanMap := rfl
@[simp] theorem State.waitQueue_spare (s : State) (mask : Word) (ids : List Nat) : (s.waitQueue mask ids).spare = s.spare := rfl
@[simp] theorem State.waitQueue_keys (s : State) (mask : Word) (ids : List Nat) : (s.waitQueue mask ids).keys = s.keys := rfl
@[simp] theorem State.waitQueue_tags (s : State) (mask : Word) (ids : List Nat) : (s.waitQueue mask ids).tags = s.tags := rfl
@[simp] theorem State.waitQueue_integrity (s : State) (mask : Word) (ids : List Nat) : (s.waitQueue mask ids).integrity = s.integrity := rfl
@[simp] theorem State.waitQueue_units (s : State) (mask : Word) (ids : List Nat) : (s.waitQueue mask ids).units = s.units := rfl
@[simp] theorem State.waitQueue_leases (s : State) (mask : Word) (ids : List Nat) : (s.waitQueue mask ids).leases = s.leases := rfl
@[simp] theorem State.waitQueue_leaseLog (s : State) (mask : Word) (ids : List Nat) : (s.waitQueue mask ids).leaseLog = s.leaseLog := rfl
@[simp] theorem State.waitQueue_lseq (s : State) (mask : Word) (ids : List Nat) : (s.waitQueue mask ids).lseq = s.lseq := rfl
@[simp] theorem State.waitQueue_triggers (s : State) (mask : Word) (ids : List Nat) : (s.waitQueue mask ids).triggers = s.triggers := rfl
@[simp] theorem State.waitQueue_retireStore (s : State) (mask : Word) (ids : List Nat) : (s.waitQueue mask ids).retireStore = s.retireStore := rfl
@[simp] theorem State.waitQueue_retireFull (s : State) (mask : Word) (ids : List Nat) : (s.waitQueue mask ids).retireFull = s.retireFull := rfl
@[simp] theorem State.waitQueue_savedScores (s : State) (mask : Word) (ids : List Nat) : (s.waitQueue mask ids).savedScores = s.savedScores := rfl
@[simp] theorem State.waitQueue_portTo (s : State) (mask : Word) (ids : List Nat) : (s.waitQueue mask ids).portTo = s.portTo := rfl
@[simp] theorem State.waitQueue_unrouted (s : State) (mask : Word) (ids : List Nat) : (s.waitQueue mask ids).unrouted = s.unrouted := rfl
@[simp] theorem State.waitQueue_rotaNext (s : State) (mask : Word) (ids : List Nat) : (s.waitQueue mask ids).rotaNext = s.rotaNext := rfl
@[simp] theorem State.waitQueue_hq (s : State) (mask : Word) (ids : List Nat) : (s.waitQueue mask ids).hq = s.hq := rfl
@[simp] theorem State.waitQueue_cutting (s : State) (mask : Word) (ids : List Nat) : (s.waitQueue mask ids).cutting = s.cutting := rfl
@[simp] theorem State.waitQueue_lastMapped (s : State) (mask : Word) (ids : List Nat) : (s.waitQueue mask ids).lastMapped = s.lastMapped := rfl
@[simp] theorem State.waitQueue_lastSlot (s : State) (mask : Word) (ids : List Nat) : (s.waitQueue mask ids).lastSlot = s.lastSlot := rfl
@[simp] theorem State.waitQueue_journal (s : State) (mask : Word) (ids : List Nat) : (s.waitQueue mask ids).journal = s.journal := rfl
@[simp] theorem State.waitQueue_jseq (s : State) (mask : Word) (ids : List Nat) : (s.waitQueue mask ids).jseq = s.jseq := rfl
@[simp] theorem State.waitQueue_irqs (s : State) (mask : Word) (ids : List Nat) : (s.waitQueue mask ids).irqs = s.irqs := rfl
@[simp] theorem State.waitQueue_hostReqs (s : State) (mask : Word) (ids : List Nat) : (s.waitQueue mask ids).hostReqs = s.hostReqs := rfl
@[simp] theorem State.waitQueue_hostClk (s : State) (mask : Word) (ids : List Nat) : (s.waitQueue mask ids).hostClk = s.hostClk := rfl
@[simp] theorem State.waitQueue_hostReply (s : State) (mask : Word) (ids : List Nat) : (s.waitQueue mask ids).hostReply = s.hostReply := rfl
@[simp] theorem State.waitQueue_fabAcks (s : State) (mask : Word) (ids : List Nat) : (s.waitQueue mask ids).fabAcks = s.fabAcks := rfl
@[simp] theorem State.waitQueue_dumps (s : State) (mask : Word) (ids : List Nat) : (s.waitQueue mask ids).dumps = s.dumps := rfl
@[simp] theorem State.waitQueue_stage (s : State) (mask : Word) (ids : List Nat) : (s.waitQueue mask ids).stage = s.stage := rfl
@[simp] theorem State.waitQueue_cut (s : State) (mask : Word) (ids : List Nat) : (s.waitQueue mask ids).cut = s.cut := rfl
@[simp] theorem State.waitQueue_powered (s : State) (mask : Word) (ids : List Nat) : (s.waitQueue mask ids).powered = s.powered := rfl
@[simp] theorem State.waitQueue_cold (s : State) (mask : Word) (ids : List Nat) : (s.waitQueue mask ids).cold = s.cold := rfl
@[simp] theorem State.waitQueue_pcap (s : State) (mask : Word) (ids : List Nat) : (s.waitQueue mask ids).pcap = s.pcap := rfl
@[simp] theorem State.waitQueue_watts (s : State) (mask : Word) (ids : List Nat) : (s.waitQueue mask ids).watts = s.watts := rfl
@[simp] theorem State.waitQueue_busyNow (s : State) (mask : Word) (ids : List Nat) : (s.waitQueue mask ids).busyNow = s.busyNow := rfl
@[simp] theorem State.waitQueue_busyLast (s : State) (mask : Word) (ids : List Nat) : (s.waitQueue mask ids).busyLast = s.busyLast := rfl
@[simp] theorem State.waitQueue_rota (s : State) (mask : Word) (ids : List Nat) : (s.waitQueue mask ids).rota = s.rota := rfl
@[simp] theorem State.waitQueue_scrub (s : State) (mask : Word) (ids : List Nat) : (s.waitQueue mask ids).scrub = s.scrub := rfl
@[simp] theorem State.waitQueue_fabdev (s : State) (mask : Word) (ids : List Nat) : (s.waitQueue mask ids).fabdev = s.fabdev := rfl
@[simp] theorem State.waitQueue_i3cAddr (s : State) (mask : Word) (ids : List Nat) : (s.waitQueue mask ids).i3cAddr = s.i3cAddr := rfl
@[simp] theorem State.waitQueue_tap (s : State) (mask : Word) (ids : List Nat) : (s.waitQueue mask ids).tap = s.tap := rfl
@[simp] theorem State.waitQueue_resetHeld (s : State) (mask : Word) (ids : List Nat) : (s.waitQueue mask ids).resetHeld = s.resetHeld := rfl
@[simp] theorem State.waitQueue_alert (s : State) (mask : Word) (ids : List Nat) : (s.waitQueue mask ids).alert = s.alert := rfl
@[simp] theorem State.waitQueue_inletDeg (s : State) (mask : Word) (ids : List Nat) : (s.waitQueue mask ids).inletDeg = s.inletDeg := rfl
@[simp] theorem State.waitQueue_inletOut (s : State) (mask : Word) (ids : List Nat) : (s.waitQueue mask ids).inletOut = s.inletOut := rfl
@[simp] theorem State.waitQueue_ref (s : State) (mask : Word) (ids : List Nat) : (s.waitQueue mask ids).ref = s.ref := rfl
@[simp] theorem State.waitQueue_refReset (s : State) (mask : Word) (ids : List Nat) : (s.waitQueue mask ids).refReset = s.refReset := rfl
@[simp] theorem State.waitQueue_halvings (s : State) (mask : Word) (ids : List Nat) : (s.waitQueue mask ids).halvings = s.halvings := rfl

end Sys2Proof.Machine
end

