-- ==== Sys2Proof/Laws/Tab.lean ====
section
/-!
SUPPORT. What the table operations answer and that they keep the canonical form.
-/

namespace Sys2Proof

variable {α : Type}

@[simp] theorem Tab.find_nil (k : Nat) : Tab.find ([] : Tab α) k = none := rfl

theorem Tab.find_ins_self (t : Tab α) (k : Nat) (v : α) (h : t.find k = none) : (t.ins k v).find k = some v := by
  induction t with
  | nil => simp [Tab.ins, Tab.find]
  | cons p r ih =>
    obtain ⟨j, w⟩ := p
    by_cases hj : j = k
    · simp [Tab.find, hj] at h
    · have hr : Tab.find r k = none := by simpa [Tab.find, hj] using h
      by_cases hk : k < j
      · simp [Tab.ins, hk, Tab.find]
      · simp [Tab.ins, hk, Tab.find, hj, ih hr]

theorem Tab.find_ins_ne (t : Tab α) {j k : Nat} (v : α) (h : j ≠ k) : (t.ins k v).find j = t.find j := by
  induction t with
  | nil => simp [Tab.ins, Tab.find, Ne.symm h]
  | cons p r ih =>
    obtain ⟨i, w⟩ := p
    by_cases hk : k < i
    · simp [Tab.ins, hk, Tab.find, Ne.symm h]
    · by_cases hi : i = j
      · subst hi; simp [Tab.ins, hk, Tab.find]
      · simp [Tab.ins, hk, Tab.find, hi, ih]

theorem Tab.erase_cons (p : Nat × α) (r : Tab α) (k : Nat) :
    Tab.erase (p :: r) k = if p.1 = k then Tab.erase r k else p :: Tab.erase r k := by
  by_cases h : p.1 = k <;> simp [Tab.erase, h]

@[simp] theorem Tab.find_erase_self (t : Tab α) (k : Nat) : (t.erase k).find k = none := by
  induction t with
  | nil => rfl
  | cons p r ih =>
    obtain ⟨j, w⟩ := p
    by_cases hj : j = k <;> simp [Tab.erase_cons, hj, Tab.find, ih]

theorem Tab.find_erase_ne (t : Tab α) {j k : Nat} (h : j ≠ k) : (t.erase k).find j = t.find j := by
  induction t with
  | nil => rfl
  | cons p r ih =>
    obtain ⟨i, w⟩ := p
    by_cases hi : i = k
    · simp [Tab.erase_cons, hi, Tab.find, ih, Ne.symm h]
    · simp [Tab.erase_cons, hi, Tab.find, ih]

@[simp] theorem Tab.find_set_self (t : Tab α) (k : Nat) (v : α) : (t.set k v).find k = some v :=
  Tab.find_ins_self _ k v (Tab.find_erase_self t k)

theorem Tab.find_set_ne (t : Tab α) {j k : Nat} (v : α) (h : j ≠ k) : (t.set k v).find j = t.find j := by
  rw [Tab.set, Tab.find_ins_ne _ v h, Tab.find_erase_ne t h]

theorem Tab.find_upd_self (t : Tab α) (k : Nat) (f : α → α) : (t.upd k f).find k = (t.find k).map f := by
  unfold Tab.upd
  cases h : t.find k with
  | none => simpa using h
  | some v => simp

theorem Tab.find_upd_ne (t : Tab α) {j k : Nat} (f : α → α) (h : j ≠ k) : (t.upd k f).find j = t.find j := by
  unfold Tab.upd
  cases t.find k with
  | none => rfl
  | some v => exact Tab.find_set_ne t _ h

/-- A value changed and changed again at one key. -/
theorem Tab.find_upd (t : Tab α) (j k : Nat) (f : α → α) :
    (t.upd k f).find j = if j = k then (t.find k).map f else t.find j := by
  split
  · next h => subst h; exact Tab.find_upd_self t j f
  · next h => exact Tab.find_upd_ne t f h

@[simp] theorem Tab.get_put_self [DecidableEq α] (d : α) (t : Tab α) (k : Nat) (v : α) : (t.put d k v).get d k = v := by
  unfold Tab.put Tab.get
  split
  · next h => simp [h]
  · simp

theorem Tab.get_put_ne [DecidableEq α] (d : α) (t : Tab α) {j k : Nat} (v : α) (h : j ≠ k) :
    (t.put d k v).get d j = t.get d j := by
  unfold Tab.put Tab.get
  split
  · rw [Tab.find_erase_ne t h]
  · rw [Tab.find_set_ne t v h]

/-! The canonical form. -/

theorem Tab.mem_ins (t : Tab α) (k : Nat) (v : α) (p : Nat × α) : p ∈ t.ins k v ↔ p = (k, v) ∨ p ∈ t := by
  induction t with
  | nil => simp [Tab.ins]
  | cons q r ih =>
    obtain ⟨j, w⟩ := q
    by_cases hk : k < j
    · simp [Tab.ins, hk]
    · simp only [Tab.ins, hk, if_false, List.mem_cons, ih]
      exact or_left_comm

theorem Tab.pairwise_ins (t : Tab α) (k : Nat) (v : α) (h : t.Pairwise (fun p r => p.1 < r.1)) (hk : ∀ p ∈ t, p.1 ≠ k) :
    (t.ins k v).Pairwise (fun p r => p.1 < r.1) := by
  induction t with
  | nil => simp [Tab.ins]
  | cons q r ih =>
    obtain ⟨j, w⟩ := q
    rw [List.pairwise_cons] at h
    by_cases hj : k < j
    · simp only [Tab.ins, hj, if_true, List.pairwise_cons]
      refine ⟨?_, h⟩
      intro p hp
      rcases List.mem_cons.mp hp with rfl | hp
      · exact hj
      · exact Nat.lt_trans hj (h.1 p hp)
    · have hjk : j < k := by
        have := hk (j, w) (List.mem_cons_self ..)
        simp at this
        omega
      simp only [Tab.ins, hj, if_false, List.pairwise_cons]
      refine ⟨?_, ih h.2 (fun p hp => hk p (List.mem_cons_of_mem _ hp))⟩
      intro p hp
      rcases (Tab.mem_ins r k v p).mp hp with rfl | hp
      · exact hjk
      · exact h.1 p hp

theorem Tab.wf_iff [DecidableEq α] (d : α) (t : Tab α) :
    Tab.wf d t = true ↔ t.Pairwise (fun p r => p.1 < r.1) ∧ ∀ p ∈ t, p.2 ≠ d := by
  simp [Tab.wf]

@[simp] theorem Tab.wf_nil [DecidableEq α] (d : α) : Tab.wf d ([] : Tab α) = true := by simp [Tab.wf]

theorem Tab.wf_filter [DecidableEq α] (d : α) (t : Tab α) (p : Nat × α → Bool) (h : Tab.wf d t = true) :
    Tab.wf d (t.filter p) = true := by
  rw [Tab.wf_iff] at *
  exact ⟨h.1.filter _, fun q hq => h.2 q (List.mem_filter.mp hq).1⟩

theorem Tab.wf_erase [DecidableEq α] (d : α) (t : Tab α) (k : Nat) (h : Tab.wf d t = true) :
    Tab.wf d (t.erase k) = true := Tab.wf_filter d t _ h

theorem Tab.wf_set [DecidableEq α] (d : α) (t : Tab α) (k : Nat) (v : α) (hv : v ≠ d) (h : Tab.wf d t = true) :
    Tab.wf d (t.set k v) = true := by
  have he := Tab.wf_erase d t k h
  rw [Tab.wf_iff] at *
  refine ⟨Tab.pairwise_ins _ k v he.1 ?_, ?_⟩
  · intro p hp
    have := (List.mem_filter.mp hp).2
    simpa using this
  · intro p hp
    rcases (Tab.mem_ins _ k v p).mp hp with rfl | hp
    · exact hv
    · exact he.2 p hp

theorem Tab.wf_put [DecidableEq α] (d : α) (t : Tab α) (k : Nat) (v : α) (h : Tab.wf d t = true) :
    Tab.wf d (t.put d k v) = true := by
  unfold Tab.put
  split
  · exact Tab.wf_erase d t k h
  · next hv => exact Tab.wf_set d t k v hv h

end Sys2Proof
end

