-- ==== Sys2Proof/Laws/Gate.lean ====
section
/-!
SUPPORT. What the gate of a cell instruction answers (R33, R57, R81) and what `finish` and `jump` leave of the issuing cell.
-/

namespace Sys2Proof.Machine

/-- An instruction that passes its gate is its body on the state as it stands. -/
theorem State.gate_issues {s : State} {c : Cond} {regs : List SReg} {ar : Area} {k : Cell} (n : Nat)
    (body : Area → Cell → State → State) (h : s.issues c regs ar k) : s.gate c n regs body = .next (body ar k s) := by
  obtain ⟨ha, hk, hp, hc, hw⟩ := h
  simp only [State.gate, ha, hk, hp, hc, hw, Bool.false_and, Bool.false_eq_true, if_false, Bool.true_eq_false]

theorem State.privGate_issues {s : State} {c : Cond} {regs : List SReg} {ar : Area} {k : Cell} (n : Nat)
    (body : Area → Cell → State → State) (h : s.issues c regs ar k) (hp : ar.privileged = true) :
    s.privGate c n regs body = .next (body ar k s) := by
  have := State.gate_issues n body h
  simp only [State.privGate, h.1, hp, if_true, this]

/-- A false condition that is not poisoned: the cell goes on behind the instruction and nothing else happens. -/
theorem State.gate_false {s : State} {c : Cond} {ar : Area} {k : Cell} (n : Nat) (regs : List SReg)
    (body : Area → Cell → State → State) (ha : s.area s.cur.1 = some ar) (hk : ar.cells.find s.cur.2 = some k)
    (hp : k.qpsn c.q = false) (hc : k.cond c = false) : s.gate c n regs body = .next (s.finish k n id) := by
  simp only [State.gate, ha, hk, hp, hc, Bool.false_and, Bool.false_eq_true, if_false, if_true]

theorem State.privGate_false {s : State} {c : Cond} {ar : Area} {k : Cell} (n : Nat) (regs : List SReg)
    (body : Area → Cell → State → State) (ha : s.area s.cur.1 = some ar) (hk : ar.cells.find s.cur.2 = some k)
    (hp : k.qpsn c.q = false) (hc : k.cond c = false) (hr : ar.privileged = true) :
    s.privGate c n regs body = .next (s.finish k n id) := by
  simp only [State.privGate, ha, hr, if_true]
  exact State.gate_false n regs body ha hk hp hc

/-- Outside a privileged area a privileged opcode raises PRIV whatever its condition. -/
theorem State.privGate_user {s : State} {c : Cond} {ar : Area} {k : Cell} (n : Nat) (regs : List SReg)
    (body : Area → Cell → State → State) (ha : s.area s.cur.1 = some ar) (hk : ar.cells.find s.cur.2 = some k)
    (hr : ar.privileged = false) : s.privGate c n regs body = .next (s.raise fltPriv 0) := by
  simp only [State.privGate, ha, hr, hk, Bool.false_eq_true, if_false]

/-- A poisoned condition under strict control raises POISON_CONSUMED. -/
theorem State.gate_poisoned {s : State} {c : Cond} {ar : Area} {k : Cell} (n : Nat) (regs : List SReg)
    (body : Area → Cell → State → State) (ha : s.area s.cur.1 = some ar) (hk : ar.cells.find s.cur.2 = some k)
    (hp : k.qpsn c.q = true) (hs : s.strict ar.ctx = true) : s.gate c n regs body = .next (s.raise fltPoisonConsumed 0) := by
  simp only [State.gate, ha, hk, hp, hs, Bool.and_self, if_true]

/-- The gate answers a next state whenever a cell is issuing. -/
theorem State.gate_next {s : State} {ar : Area} {k : Cell} (c : Cond) (n : Nat) (regs : List SReg)
    (body : Area → Cell → State → State) (ha : s.area s.cur.1 = some ar) (hk : ar.cells.find s.cur.2 = some k) :
    ∃ t, s.gate c n regs body = .next t := by
  simp only [State.gate, ha, hk]; exact ⟨_, rfl⟩

theorem State.privGate_next {s : State} {ar : Area} {k : Cell} (c : Cond) (n : Nat) (regs : List SReg)
    (body : Area → Cell → State → State) (ha : s.area s.cur.1 = some ar) (hk : ar.cells.find s.cur.2 = some k) :
    ∃ t, s.privGate c n regs body = .next t := by
  cases hr : ar.privileged
  · exact ⟨_, State.privGate_user n regs body ha hk hr⟩
  · simp only [State.privGate, ha, hr, if_true]
    exact State.gate_next c n regs body ha hk

theorem State.consume_strict {s : State} {a : Area} {faddr : Word} {k : State → State} (h : s.strict a.ctx = true) :
    s.consume a true faddr k = s.raise fltPoisonConsumed faddr := by
  simp [State.consume, h]

theorem State.consume_clean {s : State} {a : Area} {p : Bool} {faddr : Word} {k : State → State} (h : p = false) :
    s.consume a p faddr k = k s := by
  simp [State.consume, h]

/-- The area of the issuing cell after a change of that cell. -/
theorem State.modCur_area {s : State} {f : Cell → Cell} {ar : Area} (ha : s.area s.cur.1 = some ar) :
    (s.modCur f).area s.cur.1 = some { ar with cells := ar.cells.upd s.cur.2 f } := by
  simp only [State.area] at *
  simp [State.modCur, State.modCell, State.modArea, Tab.find_upd_self, ha]

theorem State.modCur_area_ne {s : State} {f : Cell → Cell} {u : Nat} (h : u ≠ s.cur.1) :
    (s.modCur f).area u = s.area u := by
  simp only [State.area]
  simp [State.modCur, State.modCell, State.modArea, Tab.find_upd_ne _ _ h]

theorem State.modHearth_area (s : State) (h : Nat) (f : Hearth → Hearth) (u : Nat) : (s.modHearth h f).area u = s.area u := rfl

end Sys2Proof.Machine
end

