-- ==== Sys2Proof/Laws/Memory.lean ====
section
/-!
SUPPORT. Byte lists and byte tables: what a write changes, what a read behind it gives, and that every operation on a memory keeps its
canonical form.
-/

namespace Sys2Proof

/-! Bytes of a number. -/

@[simp] theorem length_leBytes (n x : Nat) : (leBytes n x).length = n := by
  induction n generalizing x with
  | zero => rfl
  | succ n ih => simp [leBytes, ih]

theorem ofLe_leBytes (n x : Nat) : ofLe (leBytes n x) = x % 256 ^ n := by
  induction n generalizing x with
  | zero => simp [leBytes, ofLe, Nat.mod_one]
  | succ n ih =>
    have h : x % (256 * 256 ^ n) = x % 256 + 256 * (x / 256 % 256 ^ n) := Nat.mod_mul
    simp [leBytes, ofLe, ih, Nat.pow_succ, Nat.mul_comm (256 ^ n) 256, h]

end Sys2Proof

namespace Sys2Proof.Machine

/-! Tables of bytes. -/

@[simp] theorem length_readTab (t : Tab Byte) (a n : Nat) : (readTab t a n).length = n := by
  induction n generalizing a with
  | zero => rfl
  | succ n ih => simp [readTab, ih]

theorem writeTab_get_out (t : Tab Byte) (a : Nat) (bs : List Byte) (p : Nat) (h : p < a ∨ a + bs.length ≤ p) :
    (writeTab t a bs).get 0 p = t.get 0 p := by
  induction bs generalizing t a with
  | nil => rfl
  | cons b r ih =>
    simp only [List.length_cons] at h
    rw [writeTab, ih _ _ (by omega), Tab.get_put_ne _ _ _ (by omega)]

theorem writeTab_get_in (t : Tab Byte) (a : Nat) (bs : List Byte) (i : Nat) (h : i < bs.length) :
    (writeTab t a bs).get 0 (a + i) = bs[i] := by
  induction bs generalizing t a i with
  | nil => simp at h
  | cons b r ih =>
    cases i with
    | zero => rw [writeTab, writeTab_get_out _ _ _ _ (by omega)]; simp
    | succ i =>
      simp only [List.length_cons] at h
      rw [writeTab, show a + (i + 1) = a + 1 + i by omega, ih _ _ i (by omega)]
      rfl

theorem readTab_writeTab (t : Tab Byte) (a : Nat) (bs : List Byte) : readTab (writeTab t a bs) a bs.length = bs := by
  induction bs generalizing t a with
  | nil => rfl
  | cons b r ih =>
    rw [List.length_cons, readTab, writeTab, ih, writeTab_get_out _ _ _ _ (by omega), Tab.get_put_self]

theorem readTab_congr (t u : Tab Byte) (a n : Nat) (h : ∀ p, a ≤ p → p < a + n → t.get 0 p = u.get 0 p) :
    readTab t a n = readTab u a n := by
  induction n generalizing a with
  | zero => rfl
  | succ n ih => rw [readTab, readTab, h a (by omega) (by omega), ih (a + 1) (fun p h1 h2 => h p (by omega) (by omega))]

/-! The canonical form. -/

theorem Memory.wf_nil : Memory.wf [] = true := Tab.wf_nil 0

theorem Memory.wf_writeTab (t : Tab Byte) (a : Nat) (bs : List Byte) (h : Memory.wf t = true) :
    Memory.wf (writeTab t a bs) = true := by
  induction bs generalizing t a with
  | nil => exact h
  | cons b r ih => exact ih _ _ (Tab.wf_put 0 t a b h)

theorem Memory.wf_filter (t : Tab Byte) (p : Nat × Byte → Bool) (h : Memory.wf t = true) : Memory.wf (t.filter p) = true :=
  Tab.wf_filter 0 t p h

/-- The three memories of a state are canonical. -/
def State.canon (s : State) : Prop := Memory.wf s.mem = true ∧ Memory.wf s.hostMem = true ∧ Memory.wf s.tile = true

theorem State.canon_reset : State.reset.canon := ⟨rfl, rfl, rfl⟩

/-- An operation that leaves the three memories leaves their form. -/
theorem State.canon_of_eq {s t : State} (h : s.canon) (h1 : t.mem = s.mem) (h2 : t.hostMem = s.hostMem) (h3 : t.tile = s.tile) :
    t.canon := by
  simp only [State.canon, h1, h2, h3]; exact h

theorem State.canon_foldl {α : Type} (f : State → α → State) (hf : ∀ s x, s.canon → (f s x).canon) (l : List α) (s : State)
    (h : s.canon) : (l.foldl f s).canon := by
  induction l generalizing s with
  | nil => exact h
  | cons x r ih => exact ih _ (hf s x h)

theorem State.canon_writeLine {s : State} (h : s.canon) (pa : Nat) (key : Option Nat) (bs : List Byte) :
    (s.writeLine pa key bs).canon := by
  unfold State.writeLine
  split
  · exact ⟨Memory.wf_writeTab _ _ _ h.1, h.2⟩
  · simp only [State.canon]
    exact ⟨Memory.wf_writeTab _ _ _ h.1, h.2⟩

theorem State.canon_writeDev (n : Nat) {s : State} (h : s.canon) (pa : Nat) (key : Option Nat) (psn : Bool) (bs : List Byte) :
    (s.writeDev pa key psn n bs).canon := by
  induction n generalizing s pa bs with
  | zero => cases bs <;> exact h
  | succ n ih =>
    cases bs with
    | nil => exact h
    | cons b r =>
      rw [State.writeDev]
      refine ih ?_ _ _
      have hl := State.canon_writeLine h pa key ((b :: r).take (64 - pa % 64))
      split
      · exact hl
      · split <;> exact hl

theorem State.canon_writeTileCell {s : State} (h : s.canon) (a : Nat) (bs : List Byte) (psn : Bool) :
    (s.writeTileCell a bs psn).canon := by
  have ht := Memory.wf_writeTab _ a bs h.2.2
  unfold State.writeTileCell
  dsimp only
  split
  · exact ⟨h.1, h.2.1, ht⟩
  · split <;> exact ⟨h.1, h.2.1, ht⟩

theorem State.canon_writeLoc {s : State} (h : s.canon) (l : Loc) (bs : List Byte) (psn : Bool) : (s.writeLoc l bs psn).canon := by
  cases l with
  | dev pa key => exact State.canon_writeDev _ h _ _ _ _
  | host ha => exact ⟨h.1, Memory.wf_writeTab _ _ _ h.2.1, h.2.2⟩
  | tile key off a => exact State.canon_writeTileCell h _ _ _

theorem State.canon_addCounter {s : State} (h : s.canon) (l : Loc) (n : Nat) (psn : Bool) : (s.addCounter l n psn).canon :=
  State.canon_writeLoc h _ _ _

theorem State.canon_keepRead {s : State} (h : s.canon) (line : Nat) (data : List Nat) (psn : Bool) : (s.keepRead line data psn).canon :=
  ⟨Memory.wf_writeTab _ _ _ h.1, h.2⟩

theorem State.canon_score {s : State} (h : s.canon) (u inc : Nat) : (s.score u inc).canon := by
  unfold State.score
  dsimp only
  split <;> exact h

theorem State.canon_readChannel {s : State} (h : s.canon) (ch line : Nat) (err : BitVec 704) : (s.readChannel ch line err).canon := by
  unfold State.readChannel
  split
  · exact h
  · dsimp only
    split
    · exact State.canon_keepRead h _ _ _
    · exact State.canon_keepRead h _ _ _
    · exact State.canon_score (State.canon_keepRead h _ _ _) _ _
    · exact State.canon_score (State.canon_keepRead h _ _ _) _ _

theorem State.canon_touchBy {s : State} (h : s.canon) (pa : Nat) (req : Option Nat) (prio : Nat) (w : Option (BitVec 64))
    (err : BitVec 704) : (s.touchBy pa req prio w err).canon := by
  unfold State.touchBy
  split
  · exact h
  · dsimp only
    split
    · refine State.canon_readChannel ?_ _ _ _
      split
      · split <;> exact h
      · exact h
    · split
      · split <;> exact h
      · exact h

theorem State.canon_touchPlain {s : State} (h : s.canon) (l : Loc) (n : Nat) (write : Bool) : (s.touchPlain l n write).canon := by
  cases l with
  | dev pa key => exact State.canon_foldl _ (fun _ _ hs => State.canon_touchBy hs _ _ _ _ _) _ _ h
  | host ha => exact h
  | tile key off a => exact h

theorem State.canon_tagPage {s : State} (h : s.canon) (t : Trans) : (s.tagPage t).canon := by
  unfold State.tagPage
  split
  · exact h
  · dsimp only
    repeat' split
    all_goals exact h

theorem State.canon_release_ {s : State} (h : s.canon) (l : Loc) (rs : List Release) : (s.release_ l rs).canon := by
  unfold State.release_
  dsimp only
  split <;> exact h

theorem State.canon_signalLoc {s : State} (h : s.canon) (l : Nat) (loc : Loc) (amount t : Nat) : (s.signalLoc l loc amount t).canon :=
  State.canon_release_ (State.canon_addCounter (State.canon_touchPlain h _ _ _) _ _ _) _ _

theorem State.canon_loadVirt {s t : State} (h : s.canon) (ctx : Nat) (a : Word) (n : Nat) {r : List Byte × Bool}
    (ht : s.loadVirt ctx a n = .ok (r, t)) : t.canon := by
  unfold State.loadVirt at ht
  split at ht
  · cases ht
  · cases ht; exact State.canon_touchPlain h _ _ _

theorem State.canon_storeVirt {s t : State} (h : s.canon) (ctx : Nat) (a : Word) (bs : List Byte) {n : Nat}
    (ht : s.storeVirt ctx a bs = .ok (t, n)) : t.canon := by
  unfold State.storeVirt at ht
  split at ht
  · cases ht
  · cases ht; exact State.canon_writeLoc (State.canon_touchPlain (State.canon_tagPage h _) _ _ _) _ _ _

theorem State.canon_signalVirt {s t : State} (h : s.canon) (ctx : Nat) (a : Word) (amount n : Nat)
    (ht : s.signalVirt ctx a amount n = .ok t) : t.canon := by
  unfold State.signalVirt at ht
  split at ht
  · cases ht
  · split at ht
    · cases ht
    · cases ht; exact State.canon_signalLoc (State.canon_tagPage h _) _ _ _ _

theorem State.canon_logAt {s : State} (h : s.canon) (sweep ctx kind code op area a b : Nat) :
    (s.logAt sweep ctx kind code op area a b).canon := by
  unfold State.logAt
  split
  · exact h
  · split
    · exact h
    · split
      · exact h
      · next hl =>
        have h0 := State.canon_loadVirt h _ _ _ hl
        dsimp only
        split
        · exact h0
        · next hs =>
          have h1 := State.canon_storeVirt h0 _ _ _ hs
          split
          · exact h1
          · next hg => exact State.canon_signalVirt h1 _ _ _ _ hg

theorem State.canon_log {s : State} (h : s.canon) (ctx kind code op area a b : Nat) : (s.log ctx kind code op area a b).canon :=
  State.canon_logAt h _ _ _ _ _ _ _ _

theorem State.canon_setElem {s : State} (h : s.canon) (base : Nat) (d : Desc) (r c v : Nat) : (s.setElem base d r c v).canon :=
  ⟨h.1, h.2.1, Memory.wf_writeTab _ _ _ h.2.2⟩

theorem State.canon_copyTile {s : State} (h : s.canon) (x y n : Nat) : (s.copyTile x y n).canon :=
  ⟨h.1, h.2.1, Memory.wf_writeTab _ _ _ h.2.2⟩

theorem State.canon_writeHost {s : State} (h : s.canon) (a : Nat) (bs : List Byte) : (s.writeHost a bs).canon :=
  ⟨h.1, Memory.wf_writeTab _ _ _ h.2.1, h.2.2⟩

/-! What a write of device memory leaves alone. -/

theorem State.writeDev_plain_out (n : Nat) (s : State) (pa : Nat) (psn : Bool) (bs : List Byte) (p : Nat)
    (h : p < pa ∨ pa + bs.length ≤ p) : (s.writeDev pa none psn n bs).mem.get 0 p = s.mem.get 0 p := by
  induction n generalizing s pa bs with
  | zero => cases bs <;> rfl
  | succ n ih =>
    cases bs with
    | nil => rfl
    | cons b r =>
      rw [State.writeDev, ih]
      · have hl : (s.writeLine pa none ((b :: r).take (64 - pa % 64))).mem.get 0 p = s.mem.get 0 p := by
          refine writeTab_get_out _ _ _ _ ?_
          simp only [List.length_take]; omega
        split
        · exact hl
        · split <;> exact hl
      · simp only [List.length_drop]; omega

end Sys2Proof.Machine
end

