-- ==== Sys2Proof/Laws/PerInstr.lean ====
section
/-!
SUPPORT. The statement that is made per instruction: the decoder reads a well-formed instruction from its own words, whatever
follows them. The fields of the words come first, each read back once.
-/

open Sys2Proof

/-- The words of a well-formed instruction, followed by any words, decode to it; a step that is no instruction has no words. -/
def Sys2Proof.Laws.RoundTrip.Statement (i : Instr) : Prop :=
  ∀ rest : List Word32, encode i ≠ [] → i.wf = true → decode (encode i ++ rest) = .ok i

namespace Sys2Proof

/-! Fields of a word 0. -/

theorem word0_fields (f : BitVec 3) (b a d : BitVec 5) (c : Cond) (op : BitVec 8) (len : BitVec 2) :
    lengthClass (word0 f b a d c op len) = len ∧ opcodeOf (word0 f b a d c op len) = op ∧
    (word0 f b a d c op len).extractLsb' 14 5 = d ∧ (word0 f b a d c op len).extractLsb' 19 5 = a ∧
    (word0 f b a d c op len).extractLsb' 24 5 = b ∧ (word0 f b a d c op len).extractLsb' 29 3 = f := by
  refine ⟨?_, ?_, ?_, ?_, ?_, ?_⟩ <;> simp only [lengthClass, opcodeOf, word0] <;> ext i hi <;>
    simp only [BitVec.getElem_extractLsb', BitVec.getLsbD_append] <;>
    simp (disch := omega) only [if_neg, if_pos] <;>
    (rw [BitVec.getLsbD_eq_getElem (by omega)]; congr 1; omega)

theorem iword_fields (imm : BitVec 8) (a d : BitVec 5) (c : Cond) (op : BitVec 8) :
    lengthClass (iword imm a d c op) = 0 ∧ opcodeOf (iword imm a d c op) = op ∧
    (iword imm a d c op).extractLsb' 14 5 = d ∧ (iword imm a d c op).extractLsb' 19 5 = a ∧
    (iword imm a d c op).extractLsb' 24 8 = imm := by
  refine ⟨?_, ?_, ?_, ?_, ?_⟩ <;> simp only [lengthClass, opcodeOf, iword] <;> ext i hi <;>
    simp only [BitVec.getElem_extractLsb', BitVec.getLsbD_append] <;>
    simp (disch := omega) only [if_neg, if_pos] <;>
    (rw [BitVec.getLsbD_eq_getElem (by omega)]; congr 1; omega)

theorem jword_fields (off : BitVec 18) (c : Cond) (op : BitVec 8) :
    lengthClass (jword off c op) = 0 ∧ opcodeOf (jword off c op) = op ∧ (jword off c op).extractLsb' 14 18 = off := by
  refine ⟨?_, ?_, ?_⟩ <;> simp only [lengthClass, opcodeOf, jword] <;> ext i hi <;>
    simp only [BitVec.getElem_extractLsb', BitVec.getLsbD_append] <;>
    simp (disch := omega) only [if_neg, if_pos] <;>
    (rw [BitVec.getLsbD_eq_getElem (by omega)]; congr 1; omega)

/-- A narrower field at the foot of a wider one. -/
theorem field_of_field {w : Nat} (x : BitVec w) (p m n : Nat) (h : n ≤ m) :
    x.extractLsb' p n = (x.extractLsb' p m).extractLsb' 0 n := by
  ext i hi
  simp only [BitVec.getElem_extractLsb', BitVec.getLsbD_extractLsb', Nat.zero_add]
  simp; omega

theorem field_append {m n : Nat} (z : BitVec m) (x : BitVec n) : (z ++ x).extractLsb' 0 n = x := by
  ext i hi
  simp only [BitVec.getElem_extractLsb', BitVec.getLsbD_append, Nat.zero_add, hi, if_true, BitVec.getLsbD_eq_getElem hi]

theorem bit31_of_field {w : Nat} (x : BitVec w) : x.getLsbD 31 = (x.extractLsb' 29 3).getLsbD 2 := by
  simp

theorem flag_append (b : Bool) (x : BitVec 2) : (BitVec.ofBool b ++ x).getLsbD 2 = b := by
  simp only [BitVec.getLsbD_append, BitVec.getLsbD_ofBool]; simp

/-! Words 1. -/

theorem mwordOf_bits (m : MWord) : mwordOf (mwordBits m) = m := by
  obtain ⟨o, t, e, s, r⟩ := m
  simp only [mwordOf, mwordBits, MWord.mk.injEq]
  refine ⟨?_, ?_, ?_, ?_, ?_⟩ <;> ext i hi <;>
    simp only [BitVec.getElem_extractLsb', BitVec.getLsbD_append] <;>
    simp (disch := omega) only [if_neg, if_pos] <;>
    (rw [BitVec.getLsbD_eq_getElem (by omega)]; congr 1; omega)

theorem ewordOf_bits (w : EWord) : ewordOf (ewordBits w) = w := by
  obtain ⟨acc, sat, pri, tc, tb, ta, rnd, e, c⟩ := w
  simp only [ewordOf, ewordBits, EWord.mk.injEq]
  refine ⟨?_, ?_, ?_, ?_, ?_, ?_, ?_, ?_, ?_⟩
  · simp only [BitVec.getLsbD_append, BitVec.getLsbD_ofBool]; simp
  · simp only [BitVec.getLsbD_append, BitVec.getLsbD_ofBool]; simp
  all_goals
    ext i hi
    simp only [BitVec.getElem_extractLsb', BitVec.getLsbD_append]
    simp (disch := omega) only [if_neg, if_pos]
    (rw [BitVec.getLsbD_eq_getElem (by omega)]; congr 1; omega)

theorem offset_field (off : BitVec 18) : (off ++ (0 : BitVec 14)).extractLsb' 14 18 = off := by
  ext i hi
  simp only [BitVec.getElem_extractLsb', BitVec.getLsbD_append]
  simp (disch := omega) only [if_neg]
  (rw [BitVec.getLsbD_eq_getElem (by omega)]; congr 1; omega)

theorem bitfield_fields (w lo : BitVec 6) :
    ((0 : BitVec 20) ++ w ++ lo).extractLsb' 6 6 = w ∧ ((0 : BitVec 20) ++ w ++ lo).extractLsb' 0 6 = lo := by
  refine ⟨?_, ?_⟩ <;> ext i hi <;>
    simp only [BitVec.getElem_extractLsb', BitVec.getLsbD_append] <;>
    simp (disch := omega) only [if_neg, if_pos] <;>
    (rw [BitVec.getLsbD_eq_getElem (by omega)]; congr 1; omega)

theorem convert_fields (sat : Bool) (rnd : BitVec 3) (dt st : BitVec 4) :
    ((0 : BitVec 20) ++ BitVec.ofBool sat ++ rnd ++ dt ++ st).getLsbD 11 = sat ∧
    ((0 : BitVec 20) ++ BitVec.ofBool sat ++ rnd ++ dt ++ st).extractLsb' 8 3 = rnd ∧
    ((0 : BitVec 20) ++ BitVec.ofBool sat ++ rnd ++ dt ++ st).extractLsb' 4 4 = dt ∧
    ((0 : BitVec 20) ++ BitVec.ofBool sat ++ rnd ++ dt ++ st).extractLsb' 0 4 = st := by
  refine ⟨by simp only [BitVec.getLsbD_append, BitVec.getLsbD_ofBool]; simp, ?_, ?_, ?_⟩ <;> ext i hi <;>
    simp only [BitVec.getElem_extractLsb', BitVec.getLsbD_append] <;>
    simp (disch := omega) only [if_neg, if_pos] <;>
    (rw [BitVec.getLsbD_eq_getElem (by omega)]; congr 1; omega)

/-! Decoding from the fields. -/

/-- What decodes: the words parse to a well-formed instruction whose words they are. -/
theorem decode_of_parse {i : Instr} {w : Word32} {ws rest : List Word32} (he : encode i = w :: ws)
    (hl : lengthClass w ≠ 3) (hn : (lengthClass w).toNat = ws.length) (hp : parseWords (w :: ws ++ rest) = some i)
    (hw : i.wf = true) : decode (encode i ++ rest) = .ok i := by
  simp only [Instr.wf, Bool.and_eq_true] at hw
  have hc : wordCount w = (w :: ws).length := by rw [wordCount, if_neg hl, hn, List.length_cons]; omega
  rw [he]
  simp only [List.cons_append] at hp ⊢
  simp only [decode, hl, if_false, hc, hp, hw.1, hw.2, he, and_true, Bool.true_eq_false]
  rw [if_neg (by simp), if_pos]
  rw [← List.cons_append, List.take_left]

theorem parseWords_one {w : Word32} {rest : List Word32} (h : lengthClass w = 0) : parseWords (w :: [] ++ rest) = parse32 w := by
  simp [parseWords, h]

theorem parseWords_two {w v : Word32} {rest : List Word32} (h : lengthClass w = 1) : parseWords (w :: [v] ++ rest) = parse64 w v := by
  simp [parseWords, h]

theorem parseWords_three {w v u : Word32} {rest : List Word32} (h : lengthClass w = 2) :
    parseWords (w :: [v, u] ++ rest) = parse96 w u := by
  simp [parseWords, h]

end Sys2Proof

theorem Sys2Proof.Laws.RoundTrip.nop c : RoundTrip.Statement (.nop c) := by
  intro rest _ hw
  obtain ⟨hl, ho, hd, ha, hb, hf⟩ := word0_fields (0 : BitVec 3) (0 : BitVec 5) (0 : BitVec 5) (0 : BitVec 5) c (0x00 : BitVec 8) 0
  refine decode_of_parse (encode_nop c) (by rw [hl]; decide) (by rw [hl]; rfl) ?_ hw
  rw [parseWords_one hl]
  unfold parse32
  rw [ho]
  show some (Instr.nop _) = _
  simp only [condOf_word0]

theorem Sys2Proof.Laws.RoundTrip.commit c : RoundTrip.Statement (.commit c) := by
  intro rest _ hw
  obtain ⟨hl, ho, hd, ha, hb, hf⟩ := word0_fields (0 : BitVec 3) (0 : BitVec 5) (0 : BitVec 5) (0 : BitVec 5) c (0x01 : BitVec 8) 0
  refine decode_of_parse (encode_commit c) (by rw [hl]; decide) (by rw [hl]; rfl) ?_ hw
  rw [parseWords_one hl]
  unfold parse32
  rw [ho]
  show some (Instr.commit _) = _
  simp only [condOf_word0]

theorem Sys2Proof.Laws.RoundTrip.discard c : RoundTrip.Statement (.discard c) := by
  intro rest _ hw
  obtain ⟨hl, ho, hd, ha, hb, hf⟩ := word0_fields (0 : BitVec 3) (0 : BitVec 5) (0 : BitVec 5) (0 : BitVec 5) c (0x02 : BitVec 8) 0
  refine decode_of_parse (encode_discard c) (by rw [hl]; decide) (by rw [hl]; rfl) ?_ hw
  rw [parseWords_one hl]
  unfold parse32
  rw [ho]
  show some (Instr.discard _) = _
  simp only [condOf_word0]

theorem Sys2Proof.Laws.RoundTrip.yield c : RoundTrip.Statement (.yield c) := by
  intro rest _ hw
  obtain ⟨hl, ho, hd, ha, hb, hf⟩ := word0_fields (0 : BitVec 3) (0 : BitVec 5) (0 : BitVec 5) (0 : BitVec 5) c (0x03 : BitVec 8) 0
  refine decode_of_parse (encode_yield c) (by rw [hl]; decide) (by rw [hl]; rfl) ?_ hw
  rw [parseWords_one hl]
  unfold parse32
  rw [ho]
  show some (Instr.yield _) = _
  simp only [condOf_word0]

theorem Sys2Proof.Laws.RoundTrip.trap c code : RoundTrip.Statement (.trap c code) := by
  intro rest _ hw
  obtain ⟨hl, ho, hd, ha, hi⟩ := iword_fields code (0 : BitVec 5) (0 : BitVec 5) c (0x04 : BitVec 8)
  refine decode_of_parse (encode_trap c code) (by rw [hl]; decide) (by rw [hl]; rfl) ?_ hw
  rw [parseWords_one hl]
  unfold parse32
  rw [ho]
  show some (Instr.trap _ _) = _
  simp only [condOf_iword, hi]

theorem Sys2Proof.Laws.RoundTrip.brkpt c : RoundTrip.Statement (.brkpt c) := by
  intro rest _ hw
  obtain ⟨hl, ho, hd, ha, hb, hf⟩ := word0_fields (0 : BitVec 3) (0 : BitVec 5) (0 : BitVec 5) (0 : BitVec 5) c (0x05 : BitVec 8) 0
  refine decode_of_parse (encode_brkpt c) (by rw [hl]; decide) (by rw [hl]; rfl) ?_ hw
  rw [parseWords_one hl]
  unfold parse32
  rw [ho]
  show some (Instr.brkpt _) = _
  simp only [condOf_word0]

theorem Sys2Proof.Laws.RoundTrip.br c off : RoundTrip.Statement (.br c off) := by
  intro rest _ hw
  obtain ⟨hl, ho, hj⟩ := jword_fields off c (0x06 : BitVec 8)
  refine decode_of_parse (encode_br c off) (by rw [hl]; decide) (by rw [hl]; rfl) ?_ hw
  rw [parseWords_one hl]
  unfold parse32
  rw [ho]
  show some (Instr.br _ _) = _
  simp only [condOf_jword, hj]

theorem Sys2Proof.Laws.RoundTrip.call c off : RoundTrip.Statement (.call c off) := by
  intro rest _ hw
  obtain ⟨hl, ho, hj⟩ := jword_fields off c (0x07 : BitVec 8)
  refine decode_of_parse (encode_call c off) (by rw [hl]; decide) (by rw [hl]; rfl) ?_ hw
  rw [parseWords_one hl]
  unfold parse32
  rw [ho]
  show some (Instr.call _ _) = _
  simp only [condOf_jword, hj]

theorem Sys2Proof.Laws.RoundTrip.brx c a : RoundTrip.Statement (.brx c a) := by
  intro rest _ hw
  obtain ⟨hl, ho, hd, ha, hb, hf⟩ := word0_fields (0 : BitVec 3) (0 : BitVec 5) a (0 : BitVec 5) c (0x08 : BitVec 8) 0
  refine decode_of_parse (encode_brx c a) (by rw [hl]; decide) (by rw [hl]; rfl) ?_ hw
  rw [parseWords_one hl]
  unfold parse32
  rw [ho]
  show some (Instr.brx _ _) = _
  simp only [condOf_word0, ha]

theorem Sys2Proof.Laws.RoundTrip.retn c a : RoundTrip.Statement (.retn c a) := by
  intro rest _ hw
  obtain ⟨hl, ho, hd, ha, hb, hf⟩ := word0_fields (0 : BitVec 3) (0 : BitVec 5) a (0 : BitVec 5) c (0x09 : BitVec 8) 0
  refine decode_of_parse (encode_retn c a) (by rw [hl]; decide) (by rw [hl]; rfl) ?_ hw
  rw [parseWords_one hl]
  unfold parse32
  rw [ho]
  show some (Instr.retn _ _) = _
  simp only [condOf_word0, ha]

theorem Sys2Proof.Laws.RoundTrip.cmp c f d a b : RoundTrip.Statement (.cmp c f d a b) := by
  intro rest _ hw
  obtain ⟨hl, ho, hd, ha, hb, hf⟩ := word0_fields f b a ((0 : BitVec 2) ++ d) c (0x10 : BitVec 8) 0
  refine decode_of_parse (encode_cmp c f d a b) (by rw [hl]; decide) (by rw [hl]; rfl) ?_ hw
  rw [parseWords_one hl]
  unfold parse32
  rw [ho]
  show some (Instr.cmp _ _ _ _ _) = _
  simp only [condOf_word0, hf, field_of_field _ 14 5 3 (by decide), hd, field_append, ha, hb]

theorem Sys2Proof.Laws.RoundTrip.fcmp c f d a b : RoundTrip.Statement (.fcmp c f d a b) := by
  intro rest _ hw
  obtain ⟨hl, ho, hd, ha, hb, hf⟩ := word0_fields f b a ((0 : BitVec 2) ++ d) c (0x11 : BitVec 8) 0
  refine decode_of_parse (encode_fcmp c f d a b) (by rw [hl]; decide) (by rw [hl]; rfl) ?_ hw
  rw [parseWords_one hl]
  unfold parse32
  rw [ho]
  show some (Instr.fcmp _ _ _ _ _) = _
  simp only [condOf_word0, hf, field_of_field _ 14 5 3 (by decide), hd, field_append, ha, hb]

theorem Sys2Proof.Laws.RoundTrip.pand c d a b : RoundTrip.Statement (.pand c d a b) := by
  intro rest _ hw
  obtain ⟨hl, ho, hd, ha, hb, hf⟩ := word0_fields (0 : BitVec 3) ((0 : BitVec 2) ++ b) ((0 : BitVec 2) ++ a) ((0 : BitVec 2) ++ d) c (0x12 : BitVec 8) 0
  refine decode_of_parse (encode_pand c d a b) (by rw [hl]; decide) (by rw [hl]; rfl) ?_ hw
  rw [parseWords_one hl]
  unfold parse32
  rw [ho]
  show some (Instr.pand _ _ _ _) = _
  simp only [condOf_word0, field_of_field _ 14 5 3 (by decide), hd, field_append, field_of_field _ 19 5 3 (by decide), ha, field_of_field _ 24 5 3 (by decide), hb]

theorem Sys2Proof.Laws.RoundTrip.por c d a b : RoundTrip.Statement (.por c d a b) := by
  intro rest _ hw
  obtain ⟨hl, ho, hd, ha, hb, hf⟩ := word0_fields (0 : BitVec 3) ((0 : BitVec 2) ++ b) ((0 : BitVec 2) ++ a) ((0 : BitVec 2) ++ d) c (0x13 : BitVec 8) 0
  refine decode_of_parse (encode_por c d a b) (by rw [hl]; decide) (by rw [hl]; rfl) ?_ hw
  rw [parseWords_one hl]
  unfold parse32
  rw [ho]
  show some (Instr.por _ _ _ _) = _
  simp only [condOf_word0, field_of_field _ 14 5 3 (by decide), hd, field_append, field_of_field _ 19 5 3 (by decide), ha, field_of_field _ 24 5 3 (by decide), hb]

theorem Sys2Proof.Laws.RoundTrip.pxor c d a b : RoundTrip.Statement (.pxor c d a b) := by
  intro rest _ hw
  obtain ⟨hl, ho, hd, ha, hb, hf⟩ := word0_fields (0 : BitVec 3) ((0 : BitVec 2) ++ b) ((0 : BitVec 2) ++ a) ((0 : BitVec 2) ++ d) c (0x14 : BitVec 8) 0
  refine decode_of_parse (encode_pxor c d a b) (by rw [hl]; decide) (by rw [hl]; rfl) ?_ hw
  rw [parseWords_one hl]
  unfold parse32
  rw [ho]
  show some (Instr.pxor _ _ _ _) = _
  simp only [condOf_word0, field_of_field _ 14 5 3 (by decide), hd, field_append, field_of_field _ 19 5 3 (by decide), ha, field_of_field _ 24 5 3 (by decide), hb]

theorem Sys2Proof.Laws.RoundTrip.pnot c d a : RoundTrip.Statement (.pnot c d a) := by
  intro rest _ hw
  obtain ⟨hl, ho, hd, ha, hb, hf⟩ := word0_fields (0 : BitVec 3) (0 : BitVec 5) ((0 : BitVec 2) ++ a) ((0 : BitVec 2) ++ d) c (0x15 : BitVec 8) 0
  refine decode_of_parse (encode_pnot c d a) (by rw [hl]; decide) (by rw [hl]; rfl) ?_ hw
  rw [parseWords_one hl]
  unfold parse32
  rw [ho]
  show some (Instr.pnot _ _ _) = _
  simp only [condOf_word0, field_of_field _ 14 5 3 (by decide), hd, field_append, field_of_field _ 19 5 3 (by decide), ha]

theorem Sys2Proof.Laws.RoundTrip.pmov c d a : RoundTrip.Statement (.pmov c d a) := by
  intro rest _ hw
  obtain ⟨hl, ho, hd, ha, hb, hf⟩ := word0_fields (0 : BitVec 3) (0 : BitVec 5) ((0 : BitVec 2) ++ a) ((0 : BitVec 2) ++ d) c (0x16 : BitVec 8) 0
  refine decode_of_parse (encode_pmov c d a) (by rw [hl]; decide) (by rw [hl]; rfl) ?_ hw
  rw [parseWords_one hl]
  unfold parse32
  rw [ho]
  show some (Instr.pmov _ _ _) = _
  simp only [condOf_word0, field_of_field _ 14 5 3 (by decide), hd, field_append, field_of_field _ 19 5 3 (by decide), ha]

theorem Sys2Proof.Laws.RoundTrip.sel c f d a b : RoundTrip.Statement (.sel c f d a b) := by
  intro rest _ hw
  obtain ⟨hl, ho, hd, ha, hb, hf⟩ := word0_fields f b a d c (0x17 : BitVec 8) 0
  refine decode_of_parse (encode_sel c f d a b) (by rw [hl]; decide) (by rw [hl]; rfl) ?_ hw
  rw [parseWords_one hl]
  unfold parse32
  rw [ho]
  show some (Instr.sel _ _ _ _ _) = _
  simp only [condOf_word0, hf, hd, ha, hb]

theorem Sys2Proof.Laws.RoundTrip.cmpiEq c d a imm : RoundTrip.Statement (.cmpiEq c d a imm) := by
  intro rest _ hw
  obtain ⟨hl, ho, hd, ha, hi⟩ := iword_fields imm a ((0 : BitVec 2) ++ d) c (0x18 : BitVec 8)
  refine decode_of_parse (encode_cmpiEq c d a imm) (by rw [hl]; decide) (by rw [hl]; rfl) ?_ hw
  rw [parseWords_one hl]
  unfold parse32
  rw [ho]
  show some (Instr.cmpiEq _ _ _ _) = _
  simp only [condOf_iword, field_of_field _ 14 5 3 (by decide), hd, field_append, ha, hi]

theorem Sys2Proof.Laws.RoundTrip.cmpiNe c d a imm : RoundTrip.Statement (.cmpiNe c d a imm) := by
  intro rest _ hw
  obtain ⟨hl, ho, hd, ha, hi⟩ := iword_fields imm a ((0 : BitVec 2) ++ d) c (0x19 : BitVec 8)
  refine decode_of_parse (encode_cmpiNe c d a imm) (by rw [hl]; decide) (by rw [hl]; rfl) ?_ hw
  rw [parseWords_one hl]
  unfold parse32
  rw [ho]
  show some (Instr.cmpiNe _ _ _ _) = _
  simp only [condOf_iword, field_of_field _ 14 5 3 (by decide), hd, field_append, ha, hi]

theorem Sys2Proof.Laws.RoundTrip.cmpiLt c d a imm : RoundTrip.Statement (.cmpiLt c d a imm) := by
  intro rest _ hw
  obtain ⟨hl, ho, hd, ha, hi⟩ := iword_fields imm a ((0 : BitVec 2) ++ d) c (0x1A : BitVec 8)
  refine decode_of_parse (encode_cmpiLt c d a imm) (by rw [hl]; decide) (by rw [hl]; rfl) ?_ hw
  rw [parseWords_one hl]
  unfold parse32
  rw [ho]
  show some (Instr.cmpiLt _ _ _ _) = _
  simp only [condOf_iword, field_of_field _ 14 5 3 (by decide), hd, field_append, ha, hi]

theorem Sys2Proof.Laws.RoundTrip.cmpiLe c d a imm : RoundTrip.Statement (.cmpiLe c d a imm) := by
  intro rest _ hw
  obtain ⟨hl, ho, hd, ha, hi⟩ := iword_fields imm a ((0 : BitVec 2) ++ d) c (0x1B : BitVec 8)
  refine decode_of_parse (encode_cmpiLe c d a imm) (by rw [hl]; decide) (by rw [hl]; rfl) ?_ hw
  rw [parseWords_one hl]
  unfold parse32
  rw [ho]
  show some (Instr.cmpiLe _ _ _ _) = _
  simp only [condOf_iword, field_of_field _ 14 5 3 (by decide), hd, field_append, ha, hi]

theorem Sys2Proof.Laws.RoundTrip.cmpiGt c d a imm : RoundTrip.Statement (.cmpiGt c d a imm) := by
  intro rest _ hw
  obtain ⟨hl, ho, hd, ha, hi⟩ := iword_fields imm a ((0 : BitVec 2) ++ d) c (0x1C : BitVec 8)
  refine decode_of_parse (encode_cmpiGt c d a imm) (by rw [hl]; decide) (by rw [hl]; rfl) ?_ hw
  rw [parseWords_one hl]
  unfold parse32
  rw [ho]
  show some (Instr.cmpiGt _ _ _ _) = _
  simp only [condOf_iword, field_of_field _ 14 5 3 (by decide), hd, field_append, ha, hi]

theorem Sys2Proof.Laws.RoundTrip.cmpiGe c d a imm : RoundTrip.Statement (.cmpiGe c d a imm) := by
  intro rest _ hw
  obtain ⟨hl, ho, hd, ha, hi⟩ := iword_fields imm a ((0 : BitVec 2) ++ d) c (0x1D : BitVec 8)
  refine decode_of_parse (encode_cmpiGe c d a imm) (by rw [hl]; decide) (by rw [hl]; rfl) ?_ hw
  rw [parseWords_one hl]
  unfold parse32
  rw [ho]
  show some (Instr.cmpiGe _ _ _ _) = _
  simp only [condOf_iword, field_of_field _ 14 5 3 (by decide), hd, field_append, ha, hi]

theorem Sys2Proof.Laws.RoundTrip.cmpiLtu c d a imm : RoundTrip.Statement (.cmpiLtu c d a imm) := by
  intro rest _ hw
  obtain ⟨hl, ho, hd, ha, hi⟩ := iword_fields imm a ((0 : BitVec 2) ++ d) c (0x1E : BitVec 8)
  refine decode_of_parse (encode_cmpiLtu c d a imm) (by rw [hl]; decide) (by rw [hl]; rfl) ?_ hw
  rw [parseWords_one hl]
  unfold parse32
  rw [ho]
  show some (Instr.cmpiLtu _ _ _ _) = _
  simp only [condOf_iword, field_of_field _ 14 5 3 (by decide), hd, field_append, ha, hi]

theorem Sys2Proof.Laws.RoundTrip.cmpiGeu c d a imm : RoundTrip.Statement (.cmpiGeu c d a imm) := by
  intro rest _ hw
  obtain ⟨hl, ho, hd, ha, hi⟩ := iword_fields imm a ((0 : BitVec 2) ++ d) c (0x1F : BitVec 8)
  refine decode_of_parse (encode_cmpiGeu c d a imm) (by rw [hl]; decide) (by rw [hl]; rfl) ?_ hw
  rw [parseWords_one hl]
  unfold parse32
  rw [ho]
  show some (Instr.cmpiGeu _ _ _ _) = _
  simp only [condOf_iword, field_of_field _ 14 5 3 (by decide), hd, field_append, ha, hi]

theorem Sys2Proof.Laws.RoundTrip.add c d a b : RoundTrip.Statement (.add c d a b) := by
  intro rest _ hw
  obtain ⟨hl, ho, hd, ha, hb, hf⟩ := word0_fields (0 : BitVec 3) b a d c (0x20 : BitVec 8) 0
  refine decode_of_parse (encode_add c d a b) (by rw [hl]; decide) (by rw [hl]; rfl) ?_ hw
  rw [parseWords_one hl]
  unfold parse32
  rw [ho]
  show some (Instr.add _ _ _ _) = _
  simp only [condOf_word0, hd, ha, hb]

theorem Sys2Proof.Laws.RoundTrip.sub c d a b : RoundTrip.Statement (.sub c d a b) := by
  intro rest _ hw
  obtain ⟨hl, ho, hd, ha, hb, hf⟩ := word0_fields (0 : BitVec 3) b a d c (0x21 : BitVec 8) 0
  refine decode_of_parse (encode_sub c d a b) (by rw [hl]; decide) (by rw [hl]; rfl) ?_ hw
  rw [parseWords_one hl]
  unfold parse32
  rw [ho]
  show some (Instr.sub _ _ _ _) = _
  simp only [condOf_word0, hd, ha, hb]

theorem Sys2Proof.Laws.RoundTrip.mul c d a b : RoundTrip.Statement (.mul c d a b) := by
  intro rest _ hw
  obtain ⟨hl, ho, hd, ha, hb, hf⟩ := word0_fields (0 : BitVec 3) b a d c (0x22 : BitVec 8) 0
  refine decode_of_parse (encode_mul c d a b) (by rw [hl]; decide) (by rw [hl]; rfl) ?_ hw
  rw [parseWords_one hl]
  unfold parse32
  rw [ho]
  show some (Instr.mul _ _ _ _) = _
  simp only [condOf_word0, hd, ha, hb]

theorem Sys2Proof.Laws.RoundTrip.mulhi c d a b : RoundTrip.Statement (.mulhi c d a b) := by
  intro rest _ hw
  obtain ⟨hl, ho, hd, ha, hb, hf⟩ := word0_fields (0 : BitVec 3) b a d c (0x23 : BitVec 8) 0
  refine decode_of_parse (encode_mulhi c d a b) (by rw [hl]; decide) (by rw [hl]; rfl) ?_ hw
  rw [parseWords_one hl]
  unfold parse32
  rw [ho]
  show some (Instr.mulhi _ _ _ _) = _
  simp only [condOf_word0, hd, ha, hb]

theorem Sys2Proof.Laws.RoundTrip.mulhiu c d a b : RoundTrip.Statement (.mulhiu c d a b) := by
  intro rest _ hw
  obtain ⟨hl, ho, hd, ha, hb, hf⟩ := word0_fields (0 : BitVec 3) b a d c (0x24 : BitVec 8) 0
  refine decode_of_parse (encode_mulhiu c d a b) (by rw [hl]; decide) (by rw [hl]; rfl) ?_ hw
  rw [parseWords_one hl]
  unfold parse32
  rw [ho]
  show some (Instr.mulhiu _ _ _ _) = _
  simp only [condOf_word0, hd, ha, hb]

theorem Sys2Proof.Laws.RoundTrip.div c d a b : RoundTrip.Statement (.div c d a b) := by
  intro rest _ hw
  obtain ⟨hl, ho, hd, ha, hb, hf⟩ := word0_fields (0 : BitVec 3) b a d c (0x25 : BitVec 8) 0
  refine decode_of_parse (encode_div c d a b) (by rw [hl]; decide) (by rw [hl]; rfl) ?_ hw
  rw [parseWords_one hl]
  unfold parse32
  rw [ho]
  show some (Instr.div _ _ _ _) = _
  simp only [condOf_word0, hd, ha, hb]

theorem Sys2Proof.Laws.RoundTrip.divu c d a b : RoundTrip.Statement (.divu c d a b) := by
  intro rest _ hw
  obtain ⟨hl, ho, hd, ha, hb, hf⟩ := word0_fields (0 : BitVec 3) b a d c (0x26 : BitVec 8) 0
  refine decode_of_parse (encode_divu c d a b) (by rw [hl]; decide) (by rw [hl]; rfl) ?_ hw
  rw [parseWords_one hl]
  unfold parse32
  rw [ho]
  show some (Instr.divu _ _ _ _) = _
  simp only [condOf_word0, hd, ha, hb]

theorem Sys2Proof.Laws.RoundTrip.rem c d a b : RoundTrip.Statement (.rem c d a b) := by
  intro rest _ hw
  obtain ⟨hl, ho, hd, ha, hb, hf⟩ := word0_fields (0 : BitVec 3) b a d c (0x27 : BitVec 8) 0
  refine decode_of_parse (encode_rem c d a b) (by rw [hl]; decide) (by rw [hl]; rfl) ?_ hw
  rw [parseWords_one hl]
  unfold parse32
  rw [ho]
  show some (Instr.rem _ _ _ _) = _
  simp only [condOf_word0, hd, ha, hb]

theorem Sys2Proof.Laws.RoundTrip.remu c d a b : RoundTrip.Statement (.remu c d a b) := by
  intro rest _ hw
  obtain ⟨hl, ho, hd, ha, hb, hf⟩ := word0_fields (0 : BitVec 3) b a d c (0x28 : BitVec 8) 0
  refine decode_of_parse (encode_remu c d a b) (by rw [hl]; decide) (by rw [hl]; rfl) ?_ hw
  rw [parseWords_one hl]
  unfold parse32
  rw [ho]
  show some (Instr.remu _ _ _ _) = _
  simp only [condOf_word0, hd, ha, hb]

theorem Sys2Proof.Laws.RoundTrip.and c d a b : RoundTrip.Statement (.and c d a b) := by
  intro rest _ hw
  obtain ⟨hl, ho, hd, ha, hb, hf⟩ := word0_fields (0 : BitVec 3) b a d c (0x29 : BitVec 8) 0
  refine decode_of_parse (encode_and c d a b) (by rw [hl]; decide) (by rw [hl]; rfl) ?_ hw
  rw [parseWords_one hl]
  unfold parse32
  rw [ho]
  show some (Instr.and _ _ _ _) = _
  simp only [condOf_word0, hd, ha, hb]

theorem Sys2Proof.Laws.RoundTrip.or c d a b : RoundTrip.Statement (.or c d a b) := by
  intro rest _ hw
  obtain ⟨hl, ho, hd, ha, hb, hf⟩ := word0_fields (0 : BitVec 3) b a d c (0x2A : BitVec 8) 0
  refine decode_of_parse (encode_or c d a b) (by rw [hl]; decide) (by rw [hl]; rfl) ?_ hw
  rw [parseWords_one hl]
  unfold parse32
  rw [ho]
  show some (Instr.or _ _ _ _) = _
  simp only [condOf_word0, hd, ha, hb]

theorem Sys2Proof.Laws.RoundTrip.xor c d a b : RoundTrip.Statement (.xor c d a b) := by
  intro rest _ hw
  obtain ⟨hl, ho, hd, ha, hb, hf⟩ := word0_fields (0 : BitVec 3) b a d c (0x2B : BitVec 8) 0
  refine decode_of_parse (encode_xor c d a b) (by rw [hl]; decide) (by rw [hl]; rfl) ?_ hw
  rw [parseWords_one hl]
  unfold parse32
  rw [ho]
  show some (Instr.xor _ _ _ _) = _
  simp only [condOf_word0, hd, ha, hb]

theorem Sys2Proof.Laws.RoundTrip.shl c d a b : RoundTrip.Statement (.shl c d a b) := by
  intro rest _ hw
  obtain ⟨hl, ho, hd, ha, hb, hf⟩ := word0_fields (0 : BitVec 3) b a d c (0x2C : BitVec 8) 0
  refine decode_of_parse (encode_shl c d a b) (by rw [hl]; decide) (by rw [hl]; rfl) ?_ hw
  rw [parseWords_one hl]
  unfold parse32
  rw [ho]
  show some (Instr.shl _ _ _ _) = _
  simp only [condOf_word0, hd, ha, hb]

theorem Sys2Proof.Laws.RoundTrip.shr c d a b : RoundTrip.Statement (.shr c d a b) := by
  intro rest _ hw
  obtain ⟨hl, ho, hd, ha, hb, hf⟩ := word0_fields (0 : BitVec 3) b a d c (0x2D : BitVec 8) 0
  refine decode_of_parse (encode_shr c d a b) (by rw [hl]; decide) (by rw [hl]; rfl) ?_ hw
  rw [parseWords_one hl]
  unfold parse32
  rw [ho]
  show some (Instr.shr _ _ _ _) = _
  simp only [condOf_word0, hd, ha, hb]

theorem Sys2Proof.Laws.RoundTrip.sra c d a b : RoundTrip.Statement (.sra c d a b) := by
  intro rest _ hw
  obtain ⟨hl, ho, hd, ha, hb, hf⟩ := word0_fields (0 : BitVec 3) b a d c (0x2E : BitVec 8) 0
  refine decode_of_parse (encode_sra c d a b) (by rw [hl]; decide) (by rw [hl]; rfl) ?_ hw
  rw [parseWords_one hl]
  unfold parse32
  rw [ho]
  show some (Instr.sra _ _ _ _) = _
  simp only [condOf_word0, hd, ha, hb]

theorem Sys2Proof.Laws.RoundTrip.rol c d a b : RoundTrip.Statement (.rol c d a b) := by
  intro rest _ hw
  obtain ⟨hl, ho, hd, ha, hb, hf⟩ := word0_fields (0 : BitVec 3) b a d c (0x2F : BitVec 8) 0
  refine decode_of_parse (encode_rol c d a b) (by rw [hl]; decide) (by rw [hl]; rfl) ?_ hw
  rw [parseWords_one hl]
  unfold parse32
  rw [ho]
  show some (Instr.rol _ _ _ _) = _
  simp only [condOf_word0, hd, ha, hb]

theorem Sys2Proof.Laws.RoundTrip.min c d a b : RoundTrip.Statement (.min c d a b) := by
  intro rest _ hw
  obtain ⟨hl, ho, hd, ha, hb, hf⟩ := word0_fields (0 : BitVec 3) b a d c (0x30 : BitVec 8) 0
  refine decode_of_parse (encode_min c d a b) (by rw [hl]; decide) (by rw [hl]; rfl) ?_ hw
  rw [parseWords_one hl]
  unfold parse32
  rw [ho]
  show some (Instr.min _ _ _ _) = _
  simp only [condOf_word0, hd, ha, hb]

theorem Sys2Proof.Laws.RoundTrip.max c d a b : RoundTrip.Statement (.max c d a b) := by
  intro rest _ hw
  obtain ⟨hl, ho, hd, ha, hb, hf⟩ := word0_fields (0 : BitVec 3) b a d c (0x31 : BitVec 8) 0
  refine decode_of_parse (encode_max c d a b) (by rw [hl]; decide) (by rw [hl]; rfl) ?_ hw
  rw [parseWords_one hl]
  unfold parse32
  rw [ho]
  show some (Instr.max _ _ _ _) = _
  simp only [condOf_word0, hd, ha, hb]

theorem Sys2Proof.Laws.RoundTrip.minu c d a b : RoundTrip.Statement (.minu c d a b) := by
  intro rest _ hw
  obtain ⟨hl, ho, hd, ha, hb, hf⟩ := word0_fields (0 : BitVec 3) b a d c (0x32 : BitVec 8) 0
  refine decode_of_parse (encode_minu c d a b) (by rw [hl]; decide) (by rw [hl]; rfl) ?_ hw
  rw [parseWords_one hl]
  unfold parse32
  rw [ho]
  show some (Instr.minu _ _ _ _) = _
  simp only [condOf_word0, hd, ha, hb]

theorem Sys2Proof.Laws.RoundTrip.maxu c d a b : RoundTrip.Statement (.maxu c d a b) := by
  intro rest _ hw
  obtain ⟨hl, ho, hd, ha, hb, hf⟩ := word0_fields (0 : BitVec 3) b a d c (0x33 : BitVec 8) 0
  refine decode_of_parse (encode_maxu c d a b) (by rw [hl]; decide) (by rw [hl]; rfl) ?_ hw
  rw [parseWords_one hl]
  unfold parse32
  rw [ho]
  show some (Instr.maxu _ _ _ _) = _
  simp only [condOf_word0, hd, ha, hb]

theorem Sys2Proof.Laws.RoundTrip.abs c d a : RoundTrip.Statement (.abs c d a) := by
  intro rest _ hw
  obtain ⟨hl, ho, hd, ha, hb, hf⟩ := word0_fields (0 : BitVec 3) (0 : BitVec 5) a d c (0x34 : BitVec 8) 0
  refine decode_of_parse (encode_abs c d a) (by rw [hl]; decide) (by rw [hl]; rfl) ?_ hw
  rw [parseWords_one hl]
  unfold parse32
  rw [ho]
  show some (Instr.abs _ _ _) = _
  simp only [condOf_word0, hd, ha]

theorem Sys2Proof.Laws.RoundTrip.neg c d a : RoundTrip.Statement (.neg c d a) := by
  intro rest _ hw
  obtain ⟨hl, ho, hd, ha, hb, hf⟩ := word0_fields (0 : BitVec 3) (0 : BitVec 5) a d c (0x35 : BitVec 8) 0
  refine decode_of_parse (encode_neg c d a) (by rw [hl]; decide) (by rw [hl]; rfl) ?_ hw
  rw [parseWords_one hl]
  unfold parse32
  rw [ho]
  show some (Instr.neg _ _ _) = _
  simp only [condOf_word0, hd, ha]

theorem Sys2Proof.Laws.RoundTrip.clz c d a : RoundTrip.Statement (.clz c d a) := by
  intro rest _ hw
  obtain ⟨hl, ho, hd, ha, hb, hf⟩ := word0_fields (0 : BitVec 3) (0 : BitVec 5) a d c (0x36 : BitVec 8) 0
  refine decode_of_parse (encode_clz c d a) (by rw [hl]; decide) (by rw [hl]; rfl) ?_ hw
  rw [parseWords_one hl]
  unfold parse32
  rw [ho]
  show some (Instr.clz _ _ _) = _
  simp only [condOf_word0, hd, ha]

theorem Sys2Proof.Laws.RoundTrip.ctz c d a : RoundTrip.Statement (.ctz c d a) := by
  intro rest _ hw
  obtain ⟨hl, ho, hd, ha, hb, hf⟩ := word0_fields (0 : BitVec 3) (0 : BitVec 5) a d c (0x37 : BitVec 8) 0
  refine decode_of_parse (encode_ctz c d a) (by rw [hl]; decide) (by rw [hl]; rfl) ?_ hw
  rw [parseWords_one hl]
  unfold parse32
  rw [ho]
  show some (Instr.ctz _ _ _) = _
  simp only [condOf_word0, hd, ha]

theorem Sys2Proof.Laws.RoundTrip.popc c d a : RoundTrip.Statement (.popc c d a) := by
  intro rest _ hw
  obtain ⟨hl, ho, hd, ha, hb, hf⟩ := word0_fields (0 : BitVec 3) (0 : BitVec 5) a d c (0x38 : BitVec 8) 0
  refine decode_of_parse (encode_popc c d a) (by rw [hl]; decide) (by rw [hl]; rfl) ?_ hw
  rw [parseWords_one hl]
  unfold parse32
  rw [ho]
  show some (Instr.popc _ _ _) = _
  simp only [condOf_word0, hd, ha]

theorem Sys2Proof.Laws.RoundTrip.sext c f d a : RoundTrip.Statement (.sext c f d a) := by
  intro rest _ hw
  obtain ⟨hl, ho, hd, ha, hb, hf⟩ := word0_fields f (0 : BitVec 5) a d c (0x39 : BitVec 8) 0
  refine decode_of_parse (encode_sext c f d a) (by rw [hl]; decide) (by rw [hl]; rfl) ?_ hw
  rw [parseWords_one hl]
  unfold parse32
  rw [ho]
  show some (Instr.sext _ _ _ _) = _
  simp only [condOf_word0, hf, hd, ha]

theorem Sys2Proof.Laws.RoundTrip.zext c f d a : RoundTrip.Statement (.zext c f d a) := by
  intro rest _ hw
  obtain ⟨hl, ho, hd, ha, hb, hf⟩ := word0_fields f (0 : BitVec 5) a d c (0x3A : BitVec 8) 0
  refine decode_of_parse (encode_zext c f d a) (by rw [hl]; decide) (by rw [hl]; rfl) ?_ hw
  rw [parseWords_one hl]
  unfold parse32
  rw [ho]
  show some (Instr.zext _ _ _ _) = _
  simp only [condOf_word0, hf, hd, ha]

theorem Sys2Proof.Laws.RoundTrip.mov c d a : RoundTrip.Statement (.mov c d a) := by
  intro rest _ hw
  obtain ⟨hl, ho, hd, ha, hb, hf⟩ := word0_fields (0 : BitVec 3) (0 : BitVec 5) a d c (0x3B : BitVec 8) 0
  refine decode_of_parse (encode_mov c d a) (by rw [hl]; decide) (by rw [hl]; rfl) ?_ hw
  rw [parseWords_one hl]
  unfold parse32
  rw [ho]
  show some (Instr.mov _ _ _) = _
  simp only [condOf_word0, hd, ha]

theorem Sys2Proof.Laws.RoundTrip.addi c d a imm : RoundTrip.Statement (.addi c d a imm) := by
  intro rest _ hw
  obtain ⟨hl, ho, hd, ha, hi⟩ := iword_fields imm a d c (0x40 : BitVec 8)
  refine decode_of_parse (encode_addi c d a imm) (by rw [hl]; decide) (by rw [hl]; rfl) ?_ hw
  rw [parseWords_one hl]
  unfold parse32
  rw [ho]
  show some (Instr.addi _ _ _ _) = _
  simp only [condOf_iword, hd, ha, hi]

theorem Sys2Proof.Laws.RoundTrip.andi c d a imm : RoundTrip.Statement (.andi c d a imm) := by
  intro rest _ hw
  obtain ⟨hl, ho, hd, ha, hi⟩ := iword_fields imm a d c (0x41 : BitVec 8)
  refine decode_of_parse (encode_andi c d a imm) (by rw [hl]; decide) (by rw [hl]; rfl) ?_ hw
  rw [parseWords_one hl]
  unfold parse32
  rw [ho]
  show some (Instr.andi _ _ _ _) = _
  simp only [condOf_iword, hd, ha, hi]

theorem Sys2Proof.Laws.RoundTrip.ori c d a imm : RoundTrip.Statement (.ori c d a imm) := by
  intro rest _ hw
  obtain ⟨hl, ho, hd, ha, hi⟩ := iword_fields imm a d c (0x42 : BitVec 8)
  refine decode_of_parse (encode_ori c d a imm) (by rw [hl]; decide) (by rw [hl]; rfl) ?_ hw
  rw [parseWords_one hl]
  unfold parse32
  rw [ho]
  show some (Instr.ori _ _ _ _) = _
  simp only [condOf_iword, hd, ha, hi]

theorem Sys2Proof.Laws.RoundTrip.xori c d a imm : RoundTrip.Statement (.xori c d a imm) := by
  intro rest _ hw
  obtain ⟨hl, ho, hd, ha, hi⟩ := iword_fields imm a d c (0x43 : BitVec 8)
  refine decode_of_parse (encode_xori c d a imm) (by rw [hl]; decide) (by rw [hl]; rfl) ?_ hw
  rw [parseWords_one hl]
  unfold parse32
  rw [ho]
  show some (Instr.xori _ _ _ _) = _
  simp only [condOf_iword, hd, ha, hi]

theorem Sys2Proof.Laws.RoundTrip.shli c d a n : RoundTrip.Statement (.shli c d a n) := by
  intro rest _ hw
  obtain ⟨hl, ho, hd, ha, hi⟩ := iword_fields ((0 : BitVec 2) ++ n) a d c (0x44 : BitVec 8)
  refine decode_of_parse (encode_shli c d a n) (by rw [hl]; decide) (by rw [hl]; rfl) ?_ hw
  rw [parseWords_one hl]
  unfold parse32
  rw [ho]
  show some (Instr.shli _ _ _ _) = _
  simp only [condOf_iword, hd, ha, field_of_field _ 24 8 6 (by decide), hi, field_append]

theorem Sys2Proof.Laws.RoundTrip.shri c d a n : RoundTrip.Statement (.shri c d a n) := by
  intro rest _ hw
  obtain ⟨hl, ho, hd, ha, hi⟩ := iword_fields ((0 : BitVec 2) ++ n) a d c (0x45 : BitVec 8)
  refine decode_of_parse (encode_shri c d a n) (by rw [hl]; decide) (by rw [hl]; rfl) ?_ hw
  rw [parseWords_one hl]
  unfold parse32
  rw [ho]
  show some (Instr.shri _ _ _ _) = _
  simp only [condOf_iword, hd, ha, field_of_field _ 24 8 6 (by decide), hi, field_append]

theorem Sys2Proof.Laws.RoundTrip.srai c d a n : RoundTrip.Statement (.srai c d a n) := by
  intro rest _ hw
  obtain ⟨hl, ho, hd, ha, hi⟩ := iword_fields ((0 : BitVec 2) ++ n) a d c (0x46 : BitVec 8)
  refine decode_of_parse (encode_srai c d a n) (by rw [hl]; decide) (by rw [hl]; rfl) ?_ hw
  rw [parseWords_one hl]
  unfold parse32
  rw [ho]
  show some (Instr.srai _ _ _ _) = _
  simp only [condOf_iword, hd, ha, field_of_field _ 24 8 6 (by decide), hi, field_append]

theorem Sys2Proof.Laws.RoundTrip.roli c d a n : RoundTrip.Statement (.roli c d a n) := by
  intro rest _ hw
  obtain ⟨hl, ho, hd, ha, hi⟩ := iword_fields ((0 : BitVec 2) ++ n) a d c (0x47 : BitVec 8)
  refine decode_of_parse (encode_roli c d a n) (by rw [hl]; decide) (by rw [hl]; rfl) ?_ hw
  rw [parseWords_one hl]
  unfold parse32
  rw [ho]
  show some (Instr.roli _ _ _ _) = _
  simp only [condOf_iword, hd, ha, field_of_field _ 24 8 6 (by decide), hi, field_append]

theorem Sys2Proof.Laws.RoundTrip.movi c d imm : RoundTrip.Statement (.movi c d imm) := by
  intro rest _ hw
  obtain ⟨hl, ho, hd, ha, hi⟩ := iword_fields imm (0 : BitVec 5) d c (0x48 : BitVec 8)
  refine decode_of_parse (encode_movi c d imm) (by rw [hl]; decide) (by rw [hl]; rfl) ?_ hw
  rw [parseWords_one hl]
  unfold parse32
  rw [ho]
  show some (Instr.movi _ _ _) = _
  simp only [condOf_iword, hd, hi]

theorem Sys2Proof.Laws.RoundTrip.fadd c rnd d a b : RoundTrip.Statement (.fadd c rnd d a b) := by
  intro rest _ hw
  obtain ⟨hl, ho, hd, ha, hb, hf⟩ := word0_fields rnd b a d c (0x50 : BitVec 8) 0
  refine decode_of_parse (encode_fadd c rnd d a b) (by rw [hl]; decide) (by rw [hl]; rfl) ?_ hw
  rw [parseWords_one hl]
  unfold parse32
  rw [ho]
  show some (Instr.fadd _ _ _ _ _) = _
  simp only [condOf_word0, hf, hd, ha, hb]

theorem Sys2Proof.Laws.RoundTrip.fsub c rnd d a b : RoundTrip.Statement (.fsub c rnd d a b) := by
  intro rest _ hw
  obtain ⟨hl, ho, hd, ha, hb, hf⟩ := word0_fields rnd b a d c (0x51 : BitVec 8) 0
  refine decode_of_parse (encode_fsub c rnd d a b) (by rw [hl]; decide) (by rw [hl]; rfl) ?_ hw
  rw [parseWords_one hl]
  unfold parse32
  rw [ho]
  show some (Instr.fsub _ _ _ _ _) = _
  simp only [condOf_word0, hf, hd, ha, hb]

theorem Sys2Proof.Laws.RoundTrip.fmul c rnd d a b : RoundTrip.Statement (.fmul c rnd d a b) := by
  intro rest _ hw
  obtain ⟨hl, ho, hd, ha, hb, hf⟩ := word0_fields rnd b a d c (0x52 : BitVec 8) 0
  refine decode_of_parse (encode_fmul c rnd d a b) (by rw [hl]; decide) (by rw [hl]; rfl) ?_ hw
  rw [parseWords_one hl]
  unfold parse32
  rw [ho]
  show some (Instr.fmul _ _ _ _ _) = _
  simp only [condOf_word0, hf, hd, ha, hb]

theorem Sys2Proof.Laws.RoundTrip.fdiv c rnd d a b : RoundTrip.Statement (.fdiv c rnd d a b) := by
  intro rest _ hw
  obtain ⟨hl, ho, hd, ha, hb, hf⟩ := word0_fields rnd b a d c (0x53 : BitVec 8) 0
  refine decode_of_parse (encode_fdiv c rnd d a b) (by rw [hl]; decide) (by rw [hl]; rfl) ?_ hw
  rw [parseWords_one hl]
  unfold parse32
  rw [ho]
  show some (Instr.fdiv _ _ _ _ _) = _
  simp only [condOf_word0, hf, hd, ha, hb]

theorem Sys2Proof.Laws.RoundTrip.fsqrt c f d a : RoundTrip.Statement (.fsqrt c f d a) := by
  intro rest _ hw
  obtain ⟨hl, ho, hd, ha, hb, hf⟩ := word0_fields f (0 : BitVec 5) a d c (0x54 : BitVec 8) 0
  refine decode_of_parse (encode_fsqrt c f d a) (by rw [hl]; decide) (by rw [hl]; rfl) ?_ hw
  rw [parseWords_one hl]
  unfold parse32
  rw [ho]
  show some (Instr.fsqrt _ _ _ _) = _
  simp only [condOf_word0, hf, hd, ha]

theorem Sys2Proof.Laws.RoundTrip.fmin c d a b : RoundTrip.Statement (.fmin c d a b) := by
  intro rest _ hw
  obtain ⟨hl, ho, hd, ha, hb, hf⟩ := word0_fields (0 : BitVec 3) b a d c (0x55 : BitVec 8) 0
  refine decode_of_parse (encode_fmin c d a b) (by rw [hl]; decide) (by rw [hl]; rfl) ?_ hw
  rw [parseWords_one hl]
  unfold parse32
  rw [ho]
  show some (Instr.fmin _ _ _ _) = _
  simp only [condOf_word0, hd, ha, hb]

theorem Sys2Proof.Laws.RoundTrip.fmax c d a b : RoundTrip.Statement (.fmax c d a b) := by
  intro rest _ hw
  obtain ⟨hl, ho, hd, ha, hb, hf⟩ := word0_fields (0 : BitVec 3) b a d c (0x56 : BitVec 8) 0
  refine decode_of_parse (encode_fmax c d a b) (by rw [hl]; decide) (by rw [hl]; rfl) ?_ hw
  rw [parseWords_one hl]
  unfold parse32
  rw [ho]
  show some (Instr.fmax _ _ _ _) = _
  simp only [condOf_word0, hd, ha, hb]

theorem Sys2Proof.Laws.RoundTrip.fabs c d a : RoundTrip.Statement (.fabs c d a) := by
  intro rest _ hw
  obtain ⟨hl, ho, hd, ha, hb, hf⟩ := word0_fields (0 : BitVec 3) (0 : BitVec 5) a d c (0x57 : BitVec 8) 0
  refine decode_of_parse (encode_fabs c d a) (by rw [hl]; decide) (by rw [hl]; rfl) ?_ hw
  rw [parseWords_one hl]
  unfold parse32
  rw [ho]
  show some (Instr.fabs _ _ _) = _
  simp only [condOf_word0, hd, ha]

theorem Sys2Proof.Laws.RoundTrip.fneg c d a : RoundTrip.Statement (.fneg c d a) := by
  intro rest _ hw
  obtain ⟨hl, ho, hd, ha, hb, hf⟩ := word0_fields (0 : BitVec 3) (0 : BitVec 5) a d c (0x58 : BitVec 8) 0
  refine decode_of_parse (encode_fneg c d a) (by rw [hl]; decide) (by rw [hl]; rfl) ?_ hw
  rw [parseWords_one hl]
  unfold parse32
  rw [ho]
  show some (Instr.fneg _ _ _) = _
  simp only [condOf_word0, hd, ha]

theorem Sys2Proof.Laws.RoundTrip.fclass c d a : RoundTrip.Statement (.fclass c d a) := by
  intro rest _ hw
  obtain ⟨hl, ho, hd, ha, hb, hf⟩ := word0_fields (0 : BitVec 3) (0 : BitVec 5) a d c (0x59 : BitVec 8) 0
  refine decode_of_parse (encode_fclass c d a) (by rw [hl]; decide) (by rw [hl]; rfl) ?_ hw
  rw [parseWords_one hl]
  unfold parse32
  rw [ho]
  show some (Instr.fclass _ _ _) = _
  simp only [condOf_word0, hd, ha]

theorem Sys2Proof.Laws.RoundTrip.symrd c d : RoundTrip.Statement (.symrd c d) := by
  intro rest _ hw
  obtain ⟨hl, ho, hd, ha, hb, hf⟩ := word0_fields (0 : BitVec 3) (0 : BitVec 5) (0 : BitVec 5) d c (0x60 : BitVec 8) 0
  refine decode_of_parse (encode_symrd c d) (by rw [hl]; decide) (by rw [hl]; rfl) ?_ hw
  rw [parseWords_one hl]
  unfold parse32
  rw [ho]
  show some (Instr.symrd _ _) = _
  simp only [condOf_word0, hd]

theorem Sys2Proof.Laws.RoundTrip.symkd c d : RoundTrip.Statement (.symkd c d) := by
  intro rest _ hw
  obtain ⟨hl, ho, hd, ha, hb, hf⟩ := word0_fields (0 : BitVec 3) (0 : BitVec 5) (0 : BitVec 5) d c (0x61 : BitVec 8) 0
  refine decode_of_parse (encode_symkd c d) (by rw [hl]; decide) (by rw [hl]; rfl) ?_ hw
  rw [parseWords_one hl]
  unfold parse32
  rw [ho]
  show some (Instr.symkd _ _) = _
  simp only [condOf_word0, hd]

theorem Sys2Proof.Laws.RoundTrip.mksym c k d a : RoundTrip.Statement (.mksym c k d a) := by
  intro rest _ hw
  obtain ⟨hl, ho, hd, ha, hb, hf⟩ := word0_fields (0 : BitVec 3) ((0 : BitVec 1) ++ k) a d c (0x62 : BitVec 8) 0
  refine decode_of_parse (encode_mksym c k d a) (by rw [hl]; decide) (by rw [hl]; rfl) ?_ hw
  rw [parseWords_one hl]
  unfold parse32
  rw [ho]
  show some (Instr.mksym _ _ _ _) = _
  simp only [condOf_word0, field_of_field _ 24 5 4 (by decide), hb, field_append, hd, ha]

theorem Sys2Proof.Laws.RoundTrip.movs c d x : RoundTrip.Statement (.movs c d x) := by
  intro rest _ hw
  obtain ⟨hl, ho, hd, ha, hb, hf⟩ := word0_fields (0 : BitVec 3) (0 : BitVec 5) x d c (0x63 : BitVec 8) 0
  refine decode_of_parse (encode_movs c d x) (by rw [hl]; decide) (by rw [hl]; rfl) ?_ hw
  rw [parseWords_one hl]
  unfold parse32
  rw [ho]
  show some (Instr.movs _ _ _) = _
  simp only [condOf_word0, hd, ha]

theorem Sys2Proof.Laws.RoundTrip.symget c f d a : RoundTrip.Statement (.symget c f d a) := by
  intro rest _ hw
  obtain ⟨hl, ho, hd, ha, hb, hf⟩ := word0_fields f (0 : BitVec 5) a d c (0x64 : BitVec 8) 0
  refine decode_of_parse (encode_symget c f d a) (by rw [hl]; decide) (by rw [hl]; rfl) ?_ hw
  rw [parseWords_one hl]
  unfold parse32
  rw [ho]
  show some (Instr.symget _ _ _ _) = _
  simp only [condOf_word0, hf, hd, ha]

theorem Sys2Proof.Laws.RoundTrip.bcast c d a b : RoundTrip.Statement (.bcast c d a b) := by
  intro rest _ hw
  obtain ⟨hl, ho, hd, ha, hb, hf⟩ := word0_fields (0 : BitVec 3) b a d c (0x65 : BitVec 8) 0
  refine decode_of_parse (encode_bcast c d a b) (by rw [hl]; decide) (by rw [hl]; rfl) ?_ hw
  rw [parseWords_one hl]
  unfold parse32
  rw [ho]
  show some (Instr.bcast _ _ _ _) = _
  simp only [condOf_word0, hd, ha, hb]

theorem Sys2Proof.Laws.RoundTrip.reduceInt c f d a : RoundTrip.Statement (.reduceInt c f d a) := by
  intro rest _ hw
  obtain ⟨hl, ho, hd, ha, hb, hf⟩ := word0_fields f (0 : BitVec 5) a d c (0x66 : BitVec 8) 0
  refine decode_of_parse (encode_reduceInt c f d a) (by rw [hl]; decide) (by rw [hl]; rfl) ?_ hw
  rw [parseWords_one hl]
  unfold parse32
  rw [ho]
  show some (Instr.reduceInt _ _ _ _) = _
  simp only [condOf_word0, hf, hd, ha]

theorem Sys2Proof.Laws.RoundTrip.reduceFp32 c f d a : RoundTrip.Statement (.reduceFp32 c f d a) := by
  intro rest _ hw
  obtain ⟨hl, ho, hd, ha, hb, hf⟩ := word0_fields f (0 : BitVec 5) a d c (0x67 : BitVec 8) 0
  refine decode_of_parse (encode_reduceFp32 c f d a) (by rw [hl]; decide) (by rw [hl]; rfl) ?_ hw
  rw [parseWords_one hl]
  unfold parse32
  rw [ho]
  show some (Instr.reduceFp32 _ _ _ _) = _
  simp only [condOf_word0, hf, hd, ha]

theorem Sys2Proof.Laws.RoundTrip.scanInt c f d a : RoundTrip.Statement (.scanInt c f d a) := by
  intro rest _ hw
  obtain ⟨hl, ho, hd, ha, hb, hf⟩ := word0_fields f (0 : BitVec 5) a d c (0x68 : BitVec 8) 0
  refine decode_of_parse (encode_scanInt c f d a) (by rw [hl]; decide) (by rw [hl]; rfl) ?_ hw
  rw [parseWords_one hl]
  unfold parse32
  rw [ho]
  show some (Instr.scanInt _ _ _ _) = _
  simp only [condOf_word0, hf, hd, ha]

theorem Sys2Proof.Laws.RoundTrip.scanFp32 c f d a : RoundTrip.Statement (.scanFp32 c f d a) := by
  intro rest _ hw
  obtain ⟨hl, ho, hd, ha, hb, hf⟩ := word0_fields f (0 : BitVec 5) a d c (0x69 : BitVec 8) 0
  refine decode_of_parse (encode_scanFp32 c f d a) (by rw [hl]; decide) (by rw [hl]; rfl) ?_ hw
  rw [parseWords_one hl]
  unfold parse32
  rw [ho]
  show some (Instr.scanFp32 _ _ _ _) = _
  simp only [condOf_word0, hf, hd, ha]

theorem Sys2Proof.Laws.RoundTrip.count c d a : RoundTrip.Statement (.count c d a) := by
  intro rest _ hw
  obtain ⟨hl, ho, hd, ha, hb, hf⟩ := word0_fields (0 : BitVec 3) (0 : BitVec 5) ((0 : BitVec 2) ++ a) d c (0x6A : BitVec 8) 0
  refine decode_of_parse (encode_count c d a) (by rw [hl]; decide) (by rw [hl]; rfl) ?_ hw
  rw [parseWords_one hl]
  unfold parse32
  rw [ho]
  show some (Instr.count _ _ _) = _
  simp only [condOf_word0, hd, field_of_field _ 19 5 3 (by decide), ha, field_append]

theorem Sys2Proof.Laws.RoundTrip.first c d a : RoundTrip.Statement (.first c d a) := by
  intro rest _ hw
  obtain ⟨hl, ho, hd, ha, hb, hf⟩ := word0_fields (0 : BitVec 3) (0 : BitVec 5) ((0 : BitVec 2) ++ a) d c (0x6B : BitVec 8) 0
  refine decode_of_parse (encode_first c d a) (by rw [hl]; decide) (by rw [hl]; rfl) ?_ hw
  rw [parseWords_one hl]
  unfold parse32
  rw [ho]
  show some (Instr.first _ _ _) = _
  simp only [condOf_word0, hd, field_of_field _ 19 5 3 (by decide), ha, field_append]

theorem Sys2Proof.Laws.RoundTrip.areabar c : RoundTrip.Statement (.areabar c) := by
  intro rest _ hw
  obtain ⟨hl, ho, hd, ha, hb, hf⟩ := word0_fields (0 : BitVec 3) (0 : BitVec 5) (0 : BitVec 5) (0 : BitVec 5) c (0x6C : BitVec 8) 0
  refine decode_of_parse (encode_areabar c) (by rw [hl]; decide) (by rw [hl]; rfl) ?_ hw
  rw [parseWords_one hl]
  unfold parse32
  rw [ho]
  show some (Instr.areabar _) = _
  simp only [condOf_word0]

theorem Sys2Proof.Laws.RoundTrip.emit c k a : RoundTrip.Statement (.emit c k a) := by
  intro rest _ hw
  obtain ⟨hl, ho, hd, ha, hb, hf⟩ := word0_fields (0 : BitVec 3) (0 : BitVec 5) a ((0 : BitVec 1) ++ k) c (0x6D : BitVec 8) 0
  refine decode_of_parse (encode_emit c k a) (by rw [hl]; decide) (by rw [hl]; rfl) ?_ hw
  rw [parseWords_one hl]
  unfold parse32
  rw [ho]
  show some (Instr.emit _ _ _) = _
  simp only [condOf_word0, field_of_field _ 14 5 4 (by decide), hd, field_append, ha]

theorem Sys2Proof.Laws.RoundTrip.emitn c k a b : RoundTrip.Statement (.emitn c k a b) := by
  intro rest _ hw
  obtain ⟨hl, ho, hd, ha, hb, hf⟩ := word0_fields (0 : BitVec 3) b a ((0 : BitVec 1) ++ k) c (0x6E : BitVec 8) 0
  refine decode_of_parse (encode_emitn c k a b) (by rw [hl]; decide) (by rw [hl]; rfl) ?_ hw
  rw [parseWords_one hl]
  unfold parse32
  rw [ho]
  show some (Instr.emitn _ _ _ _) = _
  simp only [condOf_word0, field_of_field _ 14 5 4 (by decide), hd, field_append, ha, hb]

theorem Sys2Proof.Laws.RoundTrip.insert c a : RoundTrip.Statement (.insert c a) := by
  intro rest _ hw
  obtain ⟨hl, ho, hd, ha, hb, hf⟩ := word0_fields (0 : BitVec 3) (0 : BitVec 5) a (0 : BitVec 5) c (0x6F : BitVec 8) 0
  refine decode_of_parse (encode_insert c a) (by rw [hl]; decide) (by rw [hl]; rfl) ?_ hw
  rw [parseWords_one hl]
  unfold parse32
  rw [ho]
  show some (Instr.insert _ _) = _
  simp only [condOf_word0, ha]

theorem Sys2Proof.Laws.RoundTrip.delete c : RoundTrip.Statement (.delete c) := by
  intro rest _ hw
  obtain ⟨hl, ho, hd, ha, hb, hf⟩ := word0_fields (0 : BitVec 3) (0 : BitVec 5) (0 : BitVec 5) (0 : BitVec 5) c (0x70 : BitVec 8) 0
  refine decode_of_parse (encode_delete c) (by rw [hl]; decide) (by rw [hl]; rfl) ?_ hw
  rw [parseWords_one hl]
  unfold parse32
  rw [ho]
  show some (Instr.delete _) = _
  simp only [condOf_word0]

theorem Sys2Proof.Laws.RoundTrip.opld c a : RoundTrip.Statement (.opld c a) := by
  intro rest _ hw
  obtain ⟨hl, ho, hd, ha, hb, hf⟩ := word0_fields (0 : BitVec 3) (0 : BitVec 5) a (0 : BitVec 5) c (0x71 : BitVec 8) 0
  refine decode_of_parse (encode_opld c a) (by rw [hl]; decide) (by rw [hl]; rfl) ?_ hw
  rw [parseWords_one hl]
  unfold parse32
  rw [ho]
  show some (Instr.opld _ _) = _
  simp only [condOf_word0, ha]

theorem Sys2Proof.Laws.RoundTrip.movd c d a : RoundTrip.Statement (.movd c d a) := by
  intro rest _ hw
  obtain ⟨hl, ho, hd, ha, hb, hf⟩ := word0_fields (0 : BitVec 3) (0 : BitVec 5) a ((0 : BitVec 2) ++ d) c (0x72 : BitVec 8) 0
  refine decode_of_parse (encode_movd c d a) (by rw [hl]; decide) (by rw [hl]; rfl) ?_ hw
  rw [parseWords_one hl]
  unfold parse32
  rw [ho]
  show some (Instr.movd _ _ _) = _
  simp only [condOf_word0, field_of_field _ 14 5 3 (by decide), hd, field_append, ha]

theorem Sys2Proof.Laws.RoundTrip.movds c d a : RoundTrip.Statement (.movds c d a) := by
  intro rest _ hw
  obtain ⟨hl, ho, hd, ha, hb, hf⟩ := word0_fields (0 : BitVec 3) (0 : BitVec 5) ((0 : BitVec 2) ++ a) d c (0x73 : BitVec 8) 0
  refine decode_of_parse (encode_movds c d a) (by rw [hl]; decide) (by rw [hl]; rfl) ?_ hw
  rw [parseWords_one hl]
  unfold parse32
  rw [ho]
  show some (Instr.movds _ _ _) = _
  simp only [condOf_word0, hd, field_of_field _ 19 5 3 (by decide), ha, field_append]

theorem Sys2Proof.Laws.RoundTrip.dset c f d a : RoundTrip.Statement (.dset c f d a) := by
  intro rest _ hw
  obtain ⟨hl, ho, hd, ha, hb, hf⟩ := word0_fields f (0 : BitVec 5) a ((0 : BitVec 2) ++ d) c (0x74 : BitVec 8) 0
  refine decode_of_parse (encode_dset c f d a) (by rw [hl]; decide) (by rw [hl]; rfl) ?_ hw
  rw [parseWords_one hl]
  unfold parse32
  rw [ho]
  show some (Instr.dset _ _ _ _) = _
  simp only [condOf_word0, hf, field_of_field _ 14 5 3 (by decide), hd, field_append, ha]

theorem Sys2Proof.Laws.RoundTrip.talloc c d a : RoundTrip.Statement (.talloc c d a) := by
  intro rest _ hw
  obtain ⟨hl, ho, hd, ha, hb, hf⟩ := word0_fields (0 : BitVec 3) (0 : BitVec 5) a ((0 : BitVec 2) ++ d) c (0x75 : BitVec 8) 0
  refine decode_of_parse (encode_talloc c d a) (by rw [hl]; decide) (by rw [hl]; rfl) ?_ hw
  rw [parseWords_one hl]
  unfold parse32
  rw [ho]
  show some (Instr.talloc _ _ _) = _
  simp only [condOf_word0, field_of_field _ 14 5 3 (by decide), hd, field_append, ha]

theorem Sys2Proof.Laws.RoundTrip.tfree c a : RoundTrip.Statement (.tfree c a) := by
  intro rest _ hw
  obtain ⟨hl, ho, hd, ha, hb, hf⟩ := word0_fields (0 : BitVec 3) (0 : BitVec 5) ((0 : BitVec 2) ++ a) (0 : BitVec 5) c (0x76 : BitVec 8) 0
  refine decode_of_parse (encode_tfree c a) (by rw [hl]; decide) (by rw [hl]; rfl) ?_ hw
  rw [parseWords_one hl]
  unfold parse32
  rw [ho]
  show some (Instr.tfree _ _) = _
  simp only [condOf_word0, field_of_field _ 19 5 3 (by decide), ha, field_append]

theorem Sys2Proof.Laws.RoundTrip.qfence c m : RoundTrip.Statement (.qfence c m) := by
  intro rest _ hw
  obtain ⟨hl, ho, hd, ha, hb, hf⟩ := word0_fields (0 : BitVec 3) ((0 : BitVec 1) ++ m) (0 : BitVec 5) (0 : BitVec 5) c (0x77 : BitVec 8) 0
  refine decode_of_parse (encode_qfence c m) (by rw [hl]; decide) (by rw [hl]; rfl) ?_ hw
  rw [parseWords_one hl]
  unfold parse32
  rw [ho]
  show some (Instr.qfence _ _) = _
  simp only [condOf_word0, field_of_field _ 24 5 4 (by decide), hb, field_append]

theorem Sys2Proof.Laws.RoundTrip.qwait c m : RoundTrip.Statement (.qwait c m) := by
  intro rest _ hw
  obtain ⟨hl, ho, hd, ha, hb, hf⟩ := word0_fields (0 : BitVec 3) ((0 : BitVec 1) ++ m) (0 : BitVec 5) (0 : BitVec 5) c (0x78 : BitVec 8) 0
  refine decode_of_parse (encode_qwait c m) (by rw [hl]; decide) (by rw [hl]; rfl) ?_ hw
  rw [parseWords_one hl]
  unfold parse32
  rw [ho]
  show some (Instr.qwait _ _) = _
  simp only [condOf_word0, field_of_field _ 24 5 4 (by decide), hb, field_append]

theorem Sys2Proof.Laws.RoundTrip.slotrel c a b : RoundTrip.Statement (.slotrel c a b) := by
  intro rest _ hw
  obtain ⟨hl, ho, hd, ha, hb, hf⟩ := word0_fields (0 : BitVec 3) b a (0 : BitVec 5) c (0x79 : BitVec 8) 0
  refine decode_of_parse (encode_slotrel c a b) (by rw [hl]; decide) (by rw [hl]; rfl) ?_ hw
  rw [parseWords_one hl]
  unfold parse32
  rw [ho]
  show some (Instr.slotrel _ _ _) = _
  simp only [condOf_word0, ha, hb]

theorem Sys2Proof.Laws.RoundTrip.unsubs c a : RoundTrip.Statement (.unsubs c a) := by
  intro rest _ hw
  obtain ⟨hl, ho, hd, ha, hb, hf⟩ := word0_fields (0 : BitVec 3) (0 : BitVec 5) a (0 : BitVec 5) c (0x7A : BitVec 8) 0
  refine decode_of_parse (encode_unsubs c a) (by rw [hl]; decide) (by rw [hl]; rfl) ?_ hw
  rw [parseWords_one hl]
  unfold parse32
  rw [ho]
  show some (Instr.unsubs _ _) = _
  simp only [condOf_word0, ha]

theorem Sys2Proof.Laws.RoundTrip.binit c a b : RoundTrip.Statement (.binit c a b) := by
  intro rest _ hw
  obtain ⟨hl, ho, hd, ha, hb, hf⟩ := word0_fields (0 : BitVec 3) b a (0 : BitVec 5) c (0x7B : BitVec 8) 0
  refine decode_of_parse (encode_binit c a b) (by rw [hl]; decide) (by rw [hl]; rfl) ?_ hw
  rw [parseWords_one hl]
  unfold parse32
  rw [ho]
  show some (Instr.binit _ _ _) = _
  simp only [condOf_word0, ha, hb]

theorem Sys2Proof.Laws.RoundTrip.barv c a : RoundTrip.Statement (.barv c a) := by
  intro rest _ hw
  obtain ⟨hl, ho, hd, ha, hb, hf⟩ := word0_fields (0 : BitVec 3) (0 : BitVec 5) a (0 : BitVec 5) c (0x7C : BitVec 8) 0
  refine decode_of_parse (encode_barv c a) (by rw [hl]; decide) (by rw [hl]; rfl) ?_ hw
  rw [parseWords_one hl]
  unfold parse32
  rw [ho]
  show some (Instr.barv _ _) = _
  simp only [condOf_word0, ha]

theorem Sys2Proof.Laws.RoundTrip.bexp c a b : RoundTrip.Statement (.bexp c a b) := by
  intro rest _ hw
  obtain ⟨hl, ho, hd, ha, hb, hf⟩ := word0_fields (0 : BitVec 3) b a (0 : BitVec 5) c (0x7D : BitVec 8) 0
  refine decode_of_parse (encode_bexp c a b) (by rw [hl]; decide) (by rw [hl]; rfl) ?_ hw
  rw [parseWords_one hl]
  unfold parse32
  rw [ho]
  show some (Instr.bexp _ _ _) = _
  simp only [condOf_word0, ha, hb]

theorem Sys2Proof.Laws.RoundTrip.bwait c d a b : RoundTrip.Statement (.bwait c d a b) := by
  intro rest _ hw
  obtain ⟨hl, ho, hd, ha, hb, hf⟩ := word0_fields (0 : BitVec 3) b a ((0 : BitVec 2) ++ d) c (0x7E : BitVec 8) 0
  refine decode_of_parse (encode_bwait c d a b) (by rw [hl]; decide) (by rw [hl]; rfl) ?_ hw
  rw [parseWords_one hl]
  unfold parse32
  rw [ho]
  show some (Instr.bwait _ _ _ _) = _
  simp only [condOf_word0, field_of_field _ 14 5 3 (by decide), hd, field_append, ha, hb]

theorem Sys2Proof.Laws.RoundTrip.btry c d a b : RoundTrip.Statement (.btry c d a b) := by
  intro rest _ hw
  obtain ⟨hl, ho, hd, ha, hb, hf⟩ := word0_fields (0 : BitVec 3) b a ((0 : BitVec 2) ++ d) c (0x7F : BitVec 8) 0
  refine decode_of_parse (encode_btry c d a b) (by rw [hl]; decide) (by rw [hl]; rfl) ?_ hw
  rw [parseWords_one hl]
  unfold parse32
  rw [ho]
  show some (Instr.btry _ _ _ _) = _
  simp only [condOf_word0, field_of_field _ 14 5 3 (by decide), hd, field_append, ha, hb]

theorem Sys2Proof.Laws.RoundTrip.fence c scope ord : RoundTrip.Statement (.fence c scope ord) := by
  intro rest _ hw
  obtain ⟨hl, ho, hd, ha, hb, hf⟩ := word0_fields scope ((0 : BitVec 3) ++ ord) (0 : BitVec 5) (0 : BitVec 5) c (0x80 : BitVec 8) 0
  refine decode_of_parse (encode_fence c scope ord) (by rw [hl]; decide) (by rw [hl]; rfl) ?_ hw
  rw [parseWords_one hl]
  unfold parse32
  rw [ho]
  show some (Instr.fence _ _ _) = _
  simp only [condOf_word0, hf, field_of_field _ 24 5 2 (by decide), hb, field_append]

theorem Sys2Proof.Laws.RoundTrip.popset c pri a b : RoundTrip.Statement (.popset c pri a b) := by
  intro rest _ hw
  obtain ⟨hl, ho, hd, ha, hb, hf⟩ := word0_fields ((0 : BitVec 1) ++ pri) b a (0 : BitVec 5) c (0x81 : BitVec 8) 0
  refine decode_of_parse (encode_popset c pri a b) (by rw [hl]; decide) (by rw [hl]; rfl) ?_ hw
  rw [parseWords_one hl]
  unfold parse32
  rw [ho]
  show some (Instr.popset _ _ _ _) = _
  simp only [condOf_word0, field_of_field _ 29 3 2 (by decide), hf, field_append, ha, hb]

theorem Sys2Proof.Laws.RoundTrip.evsend c pri a b : RoundTrip.Statement (.evsend c pri a b) := by
  intro rest _ hw
  obtain ⟨hl, ho, hd, ha, hb, hf⟩ := word0_fields ((0 : BitVec 1) ++ pri) b a (0 : BitVec 5) c (0x82 : BitVec 8) 0
  refine decode_of_parse (encode_evsend c pri a b) (by rw [hl]; decide) (by rw [hl]; rfl) ?_ hw
  rw [parseWords_one hl]
  unfold parse32
  rw [ho]
  show some (Instr.evsend _ _ _ _) = _
  simp only [condOf_word0, field_of_field _ 29 3 2 (by decide), hf, field_append, ha, hb]

theorem Sys2Proof.Laws.RoundTrip.accrd c pri d a : RoundTrip.Statement (.accrd c pri d a) := by
  intro rest _ hw
  obtain ⟨hl, ho, hd, ha, hb, hf⟩ := word0_fields ((0 : BitVec 1) ++ pri) (0 : BitVec 5) a d c (0x83 : BitVec 8) 0
  refine decode_of_parse (encode_accrd c pri d a) (by rw [hl]; decide) (by rw [hl]; rfl) ?_ hw
  rw [parseWords_one hl]
  unfold parse32
  rw [ho]
  show some (Instr.accrd _ _ _ _) = _
  simp only [condOf_word0, field_of_field _ 29 3 2 (by decide), hf, field_append, hd, ha]

theorem Sys2Proof.Laws.RoundTrip.accwr c pri a b : RoundTrip.Statement (.accwr c pri a b) := by
  intro rest _ hw
  obtain ⟨hl, ho, hd, ha, hb, hf⟩ := word0_fields ((0 : BitVec 1) ++ pri) b a (0 : BitVec 5) c (0x84 : BitVec 8) 0
  refine decode_of_parse (encode_accwr c pri a b) (by rw [hl]; decide) (by rw [hl]; rfl) ?_ hw
  rw [parseWords_one hl]
  unfold parse32
  rw [ho]
  show some (Instr.accwr _ _ _ _) = _
  simp only [condOf_word0, field_of_field _ 29 3 2 (by decide), hf, field_append, ha, hb]

theorem Sys2Proof.Laws.RoundTrip.accfl c pri a b : RoundTrip.Statement (.accfl c pri a b) := by
  intro rest _ hw
  obtain ⟨hl, ho, hd, ha, hb, hf⟩ := word0_fields ((0 : BitVec 1) ++ pri) b a (0 : BitVec 5) c (0x85 : BitVec 8) 0
  refine decode_of_parse (encode_accfl c pri a b) (by rw [hl]; decide) (by rw [hl]; rfl) ?_ hw
  rw [parseWords_one hl]
  unfold parse32
  rw [ho]
  show some (Instr.accfl _ _ _ _) = _
  simp only [condOf_word0, field_of_field _ 29 3 2 (by decide), hf, field_append, ha, hb]

theorem Sys2Proof.Laws.RoundTrip.evwait c a : RoundTrip.Statement (.evwait c a) := by
  intro rest _ hw
  obtain ⟨hl, ho, hd, ha, hb, hf⟩ := word0_fields (0 : BitVec 3) (0 : BitVec 5) a (0 : BitVec 5) c (0x86 : BitVec 8) 0
  refine decode_of_parse (encode_evwait c a) (by rw [hl]; decide) (by rw [hl]; rfl) ?_ hw
  rw [parseWords_one hl]
  unfold parse32
  rw [ho]
  show some (Instr.evwait _ _) = _
  simp only [condOf_word0, ha]

theorem Sys2Proof.Laws.RoundTrip.caprd c d a : RoundTrip.Statement (.caprd c d a) := by
  intro rest _ hw
  obtain ⟨hl, ho, hd, ha, hb, hf⟩ := word0_fields (0 : BitVec 3) (0 : BitVec 5) a d c (0x87 : BitVec 8) 0
  refine decode_of_parse (encode_caprd c d a) (by rw [hl]; decide) (by rw [hl]; rfl) ?_ hw
  rw [parseWords_one hl]
  unfold parse32
  rw [ho]
  show some (Instr.caprd _ _ _) = _
  simp only [condOf_word0, hd, ha]

theorem Sys2Proof.Laws.RoundTrip.susrd c d a : RoundTrip.Statement (.susrd c d a) := by
  intro rest _ hw
  obtain ⟨hl, ho, hd, ha, hb, hf⟩ := word0_fields (0 : BitVec 3) (0 : BitVec 5) a d c (0x88 : BitVec 8) 0
  refine decode_of_parse (encode_susrd c d a) (by rw [hl]; decide) (by rw [hl]; rfl) ?_ hw
  rw [parseWords_one hl]
  unfold parse32
  rw [ho]
  show some (Instr.susrd _ _ _) = _
  simp only [condOf_word0, hd, ha]

theorem Sys2Proof.Laws.RoundTrip.tretResume c : RoundTrip.Statement (.tretResume c) := by
  intro rest _ hw
  obtain ⟨hl, ho, hd, ha, hb, hf⟩ := word0_fields (0 : BitVec 3) (0 : BitVec 5) (0 : BitVec 5) (0 : BitVec 5) c (0x89 : BitVec 8) 0
  refine decode_of_parse (encode_tretResume c) (by rw [hl]; decide) (by rw [hl]; rfl) ?_ hw
  rw [parseWords_one hl]
  unfold parse32
  rw [ho]
  show (match (BitVec.toNat (BitVec.extractLsb' 29 3 _)) with | 0 => some (Instr.tretResume _) | 1 => some (Instr.tretSkip _) | 2 => some (Instr.tretDiscard _) | 3 => some (Instr.tretKill _) | _ => none) = _
  rw [hf]
  show some (Instr.tretResume _) = _
  rw [condOf_word0]

theorem Sys2Proof.Laws.RoundTrip.tretSkip c : RoundTrip.Statement (.tretSkip c) := by
  intro rest _ hw
  obtain ⟨hl, ho, hd, ha, hb, hf⟩ := word0_fields (1 : BitVec 3) (0 : BitVec 5) (0 : BitVec 5) (0 : BitVec 5) c (0x89 : BitVec 8) 0
  refine decode_of_parse (encode_tretSkip c) (by rw [hl]; decide) (by rw [hl]; rfl) ?_ hw
  rw [parseWords_one hl]
  unfold parse32
  rw [ho]
  show (match (BitVec.toNat (BitVec.extractLsb' 29 3 _)) with | 0 => some (Instr.tretResume _) | 1 => some (Instr.tretSkip _) | 2 => some (Instr.tretDiscard _) | 3 => some (Instr.tretKill _) | _ => none) = _
  rw [hf]
  show some (Instr.tretSkip _) = _
  rw [condOf_word0]

theorem Sys2Proof.Laws.RoundTrip.tretDiscard c : RoundTrip.Statement (.tretDiscard c) := by
  intro rest _ hw
  obtain ⟨hl, ho, hd, ha, hb, hf⟩ := word0_fields (2 : BitVec 3) (0 : BitVec 5) (0 : BitVec 5) (0 : BitVec 5) c (0x89 : BitVec 8) 0
  refine decode_of_parse (encode_tretDiscard c) (by rw [hl]; decide) (by rw [hl]; rfl) ?_ hw
  rw [parseWords_one hl]
  unfold parse32
  rw [ho]
  show (match (BitVec.toNat (BitVec.extractLsb' 29 3 _)) with | 0 => some (Instr.tretResume _) | 1 => some (Instr.tretSkip _) | 2 => some (Instr.tretDiscard _) | 3 => some (Instr.tretKill _) | _ => none) = _
  rw [hf]
  show some (Instr.tretDiscard _) = _
  rw [condOf_word0]

theorem Sys2Proof.Laws.RoundTrip.tretKill c : RoundTrip.Statement (.tretKill c) := by
  intro rest _ hw
  obtain ⟨hl, ho, hd, ha, hb, hf⟩ := word0_fields (3 : BitVec 3) (0 : BitVec 5) (0 : BitVec 5) (0 : BitVec 5) c (0x89 : BitVec 8) 0
  refine decode_of_parse (encode_tretKill c) (by rw [hl]; decide) (by rw [hl]; rfl) ?_ hw
  rw [parseWords_one hl]
  unfold parse32
  rw [ho]
  show (match (BitVec.toNat (BitVec.extractLsb' 29 3 _)) with | 0 => some (Instr.tretResume _) | 1 => some (Instr.tretSkip _) | 2 => some (Instr.tretDiscard _) | 3 => some (Instr.tretKill _) | _ => none) = _
  rw [hf]
  show some (Instr.tretKill _) = _
  rw [condOf_word0]

theorem Sys2Proof.Laws.RoundTrip.areard c d a : RoundTrip.Statement (.areard c d a) := by
  intro rest _ hw
  obtain ⟨hl, ho, hd, ha, hb, hf⟩ := word0_fields (0 : BitVec 3) (0 : BitVec 5) a d c (0x8A : BitVec 8) 0
  refine decode_of_parse (encode_areard c d a) (by rw [hl]; decide) (by rw [hl]; rfl) ?_ hw
  rw [parseWords_one hl]
  unfold parse32
  rw [ho]
  show some (Instr.areard _ _ _) = _
  simp only [condOf_word0, hd, ha]

theorem Sys2Proof.Laws.RoundTrip.areawr c a b : RoundTrip.Statement (.areawr c a b) := by
  intro rest _ hw
  obtain ⟨hl, ho, hd, ha, hb, hf⟩ := word0_fields (0 : BitVec 3) b a (0 : BitVec 5) c (0x8B : BitVec 8) 0
  refine decode_of_parse (encode_areawr c a b) (by rw [hl]; decide) (by rw [hl]; rfl) ?_ hw
  rw [parseWords_one hl]
  unfold parse32
  rw [ho]
  show some (Instr.areawr _ _ _) = _
  simp only [condOf_word0, ha, hb]

theorem Sys2Proof.Laws.RoundTrip.savec c a : RoundTrip.Statement (.savec c a) := by
  intro rest _ hw
  obtain ⟨hl, ho, hd, ha, hb, hf⟩ := word0_fields (0 : BitVec 3) (0 : BitVec 5) a (0 : BitVec 5) c (0x8C : BitVec 8) 0
  refine decode_of_parse (encode_savec c a) (by rw [hl]; decide) (by rw [hl]; rfl) ?_ hw
  rw [parseWords_one hl]
  unfold parse32
  rw [ho]
  show some (Instr.savec _ _) = _
  simp only [condOf_word0, ha]

theorem Sys2Proof.Laws.RoundTrip.restc c a : RoundTrip.Statement (.restc c a) := by
  intro rest _ hw
  obtain ⟨hl, ho, hd, ha, hb, hf⟩ := word0_fields (0 : BitVec 3) (0 : BitVec 5) a (0 : BitVec 5) c (0x8D : BitVec 8) 0
  refine decode_of_parse (encode_restc c a) (by rw [hl]; decide) (by rw [hl]; rfl) ?_ hw
  rw [parseWords_one hl]
  unfold parse32
  rw [ho]
  show some (Instr.restc _ _) = _
  simp only [condOf_word0, ha]

theorem Sys2Proof.Laws.RoundTrip.tlbinv c a b : RoundTrip.Statement (.tlbinv c a b) := by
  intro rest _ hw
  obtain ⟨hl, ho, hd, ha, hb, hf⟩ := word0_fields (0 : BitVec 3) b a (0 : BitVec 5) c (0x8E : BitVec 8) 0
  refine decode_of_parse (encode_tlbinv c a b) (by rw [hl]; decide) (by rw [hl]; rfl) ?_ hw
  rw [parseWords_one hl]
  unfold parse32
  rw [ho]
  show some (Instr.tlbinv _ _ _) = _
  simp only [condOf_word0, ha, hb]

theorem Sys2Proof.Laws.RoundTrip.rdctr c f d a : RoundTrip.Statement (.rdctr c f d a) := by
  intro rest _ hw
  obtain ⟨hl, ho, hd, ha, hb, hf⟩ := word0_fields f (0 : BitVec 5) a d c (0x8F : BitVec 8) 0
  refine decode_of_parse (encode_rdctr c f d a) (by rw [hl]; decide) (by rw [hl]; rfl) ?_ hw
  rw [parseWords_one hl]
  unfold parse32
  rw [ho]
  show some (Instr.rdctr _ _ _ _) = _
  simp only [condOf_word0, hf, hd, ha]

theorem Sys2Proof.Laws.RoundTrip.mark c a : RoundTrip.Statement (.mark c a) := by
  intro rest _ hw
  obtain ⟨hl, ho, hd, ha, hb, hf⟩ := word0_fields (0 : BitVec 3) (0 : BitVec 5) a (0 : BitVec 5) c (0x90 : BitVec 8) 0
  refine decode_of_parse (encode_mark c a) (by rw [hl]; decide) (by rw [hl]; rfl) ?_ hw
  rw [parseWords_one hl]
  unfold parse32
  rw [ho]
  show some (Instr.mark _ _) = _
  simp only [condOf_word0, ha]

theorem Sys2Proof.Laws.RoundTrip.hostsig c a b : RoundTrip.Statement (.hostsig c a b) := by
  intro rest _ hw
  obtain ⟨hl, ho, hd, ha, hb, hf⟩ := word0_fields (0 : BitVec 3) b a (0 : BitVec 5) c (0x91 : BitVec 8) 0
  refine decode_of_parse (encode_hostsig c a b) (by rw [hl]; decide) (by rw [hl]; rfl) ?_ hw
  rw [parseWords_one hl]
  unfold parse32
  rw [ho]
  show some (Instr.hostsig _ _ _) = _
  simp only [condOf_word0, ha, hb]

theorem Sys2Proof.Laws.RoundTrip.brc c f a b off : RoundTrip.Statement (.brc c f a b off) := by
  intro rest _ hw
  obtain ⟨hl, ho, hd, ha, hb, hf⟩ := word0_fields f b a (0 : BitVec 5) c (0x00 : BitVec 8) 1
  refine decode_of_parse (encode_brc c f a b off) (by rw [hl]; decide) (by rw [hl]; rfl) ?_ hw
  rw [parseWords_two hl]
  unfold parse64
  rw [ho]
  show some (Instr.brc _ _ _ _ _) = _
  simp only [condOf_word0, hf, ha, hb, offset_field]

theorem Sys2Proof.Laws.RoundTrip.loop c d off : RoundTrip.Statement (.loop c d off) := by
  intro rest _ hw
  obtain ⟨hl, ho, hd, ha, hb, hf⟩ := word0_fields (0 : BitVec 3) (0 : BitVec 5) (0 : BitVec 5) d c (0x01 : BitVec 8) 1
  refine decode_of_parse (encode_loop c d off) (by rw [hl]; decide) (by rw [hl]; rfl) ?_ hw
  rw [parseWords_two hl]
  unfold parse64
  rw [ho]
  show some (Instr.loop _ _ _) = _
  simp only [condOf_word0, hd, offset_field]

theorem Sys2Proof.Laws.RoundTrip.bext c d a w lo : RoundTrip.Statement (.bext c d a w lo) := by
  intro rest _ hw
  obtain ⟨hl, ho, hd, ha, hb, hf⟩ := word0_fields (0 : BitVec 3) (0 : BitVec 5) a d c (0x02 : BitVec 8) 1
  refine decode_of_parse (encode_bext c d a w lo) (by rw [hl]; decide) (by rw [hl]; rfl) ?_ hw
  rw [parseWords_two hl]
  unfold parse64
  rw [ho]
  show some (Instr.bext _ _ _ _ _) = _
  simp only [condOf_word0, hd, ha, (bitfield_fields w lo).1, (bitfield_fields w lo).2]

theorem Sys2Proof.Laws.RoundTrip.bins c d a w lo : RoundTrip.Statement (.bins c d a w lo) := by
  intro rest _ hw
  obtain ⟨hl, ho, hd, ha, hb, hf⟩ := word0_fields (0 : BitVec 3) (0 : BitVec 5) a d c (0x03 : BitVec 8) 1
  refine decode_of_parse (encode_bins c d a w lo) (by rw [hl]; decide) (by rw [hl]; rfl) ?_ hw
  rw [parseWords_two hl]
  unfold parse64
  rw [ho]
  show some (Instr.bins _ _ _ _ _) = _
  simp only [condOf_word0, hd, ha, (bitfield_fields w lo).1, (bitfield_fields w lo).2]

theorem Sys2Proof.Laws.RoundTrip.ffma c rnd d a b e : RoundTrip.Statement (.ffma c rnd d a b e) := by
  intro rest _ hw
  obtain ⟨hl, ho, hd, ha, hb, hf⟩ := word0_fields rnd b a d c (0x04 : BitVec 8) 1
  refine decode_of_parse (encode_ffma c rnd d a b e) (by rw [hl]; decide) (by rw [hl]; rfl) ?_ hw
  rw [parseWords_two hl]
  unfold parse64
  rw [ho]
  show some (Instr.ffma _ _ _ _ _ _) = _
  simp only [condOf_word0, hf, hd, ha, hb, field_append]

theorem Sys2Proof.Laws.RoundTrip.fcvt c d a sat rnd dt st : RoundTrip.Statement (.fcvt c d a sat rnd dt st) := by
  intro rest _ hw
  obtain ⟨hl, ho, hd, ha, hb, hf⟩ := word0_fields (0 : BitVec 3) (0 : BitVec 5) a d c (0x05 : BitVec 8) 1
  refine decode_of_parse (encode_fcvt c d a sat rnd dt st) (by rw [hl]; decide) (by rw [hl]; rfl) ?_ hw
  rw [parseWords_two hl]
  unfold parse64
  rw [ho]
  show some (Instr.fcvt _ _ _ _ _ _ _) = _
  simp only [condOf_word0, hd, ha, (convert_fields sat rnd dt st).1, (convert_fields sat rnd dt st).2.1, (convert_fields sat rnd dt st).2.2.1, (convert_fields sat rnd dt st).2.2.2]

theorem Sys2Proof.Laws.RoundTrip.evsendt c pri a b e : RoundTrip.Statement (.evsendt c pri a b e) := by
  intro rest _ hw
  obtain ⟨hl, ho, hd, ha, hb, hf⟩ := word0_fields ((0 : BitVec 1) ++ pri) b a (0 : BitVec 5) c (0x06 : BitVec 8) 1
  refine decode_of_parse (encode_evsendt c pri a b e) (by rw [hl]; decide) (by rw [hl]; rfl) ?_ hw
  rw [parseWords_two hl]
  unfold parse64
  rw [ho]
  show some (Instr.evsendt _ _ _ _ _) = _
  simp only [condOf_word0, field_of_field _ 29 3 2 (by decide), hf, field_append, ha, hb]

theorem Sys2Proof.Laws.RoundTrip.csrrd c d num : RoundTrip.Statement (.csrrd c d num) := by
  intro rest _ hw
  obtain ⟨hl, ho, hd, ha, hb, hf⟩ := word0_fields (0 : BitVec 3) (0 : BitVec 5) (0 : BitVec 5) d c (0x08 : BitVec 8) 1
  refine decode_of_parse (encode_csrrd c d num) (by rw [hl]; decide) (by rw [hl]; rfl) ?_ hw
  rw [parseWords_two hl]
  unfold parse64
  rw [ho]
  show some (Instr.csrrd _ _ _) = _
  simp only [condOf_word0, hd, field_append]

theorem Sys2Proof.Laws.RoundTrip.csrwr c a num : RoundTrip.Statement (.csrwr c a num) := by
  intro rest _ hw
  obtain ⟨hl, ho, hd, ha, hb, hf⟩ := word0_fields (0 : BitVec 3) (0 : BitVec 5) a (0 : BitVec 5) c (0x09 : BitVec 8) 1
  refine decode_of_parse (encode_csrwr c a num) (by rw [hl]; decide) (by rw [hl]; rfl) ?_ hw
  rw [parseWords_two hl]
  unfold parse64
  rw [ho]
  show some (Instr.csrwr _ _ _) = _
  simp only [condOf_word0, ha, field_append]

theorem Sys2Proof.Laws.RoundTrip.ld c d a m : RoundTrip.Statement (.ld c d a m) := by
  intro rest _ hw
  obtain ⟨hl, ho, hd, ha, hb, hf⟩ := word0_fields (0 : BitVec 3) (0 : BitVec 5) a d c (0x10 : BitVec 8) 1
  refine decode_of_parse (encode_ld c d a m) (by rw [hl]; decide) (by rw [hl]; rfl) ?_ hw
  rw [parseWords_two hl]
  unfold parse64
  rw [ho]
  show some (Instr.ld _ _ _ _) = _
  simp only [condOf_word0, hd, ha, mwordOf_bits]

theorem Sys2Proof.Laws.RoundTrip.st c a b m : RoundTrip.Statement (.st c a b m) := by
  intro rest _ hw
  obtain ⟨hl, ho, hd, ha, hb, hf⟩ := word0_fields (0 : BitVec 3) b a (0 : BitVec 5) c (0x11 : BitVec 8) 1
  refine decode_of_parse (encode_st c a b m) (by rw [hl]; decide) (by rw [hl]; rfl) ?_ hw
  rw [parseWords_two hl]
  unfold parse64
  rw [ho]
  show some (Instr.st _ _ _ _) = _
  simp only [condOf_word0, ha, hb, mwordOf_bits]

theorem Sys2Proof.Laws.RoundTrip.pref c a m : RoundTrip.Statement (.pref c a m) := by
  intro rest _ hw
  obtain ⟨hl, ho, hd, ha, hb, hf⟩ := word0_fields (0 : BitVec 3) (0 : BitVec 5) a (0 : BitVec 5) c (0x12 : BitVec 8) 1
  refine decode_of_parse (encode_pref c a m) (by rw [hl]; decide) (by rw [hl]; rfl) ?_ hw
  rw [parseWords_two hl]
  unfold parse64
  rw [ho]
  show some (Instr.pref _ _ _) = _
  simp only [condOf_word0, ha, mwordOf_bits]

theorem Sys2Proof.Laws.RoundTrip.aadd c d a b m : RoundTrip.Statement (.aadd c d a b m) := by
  intro rest _ hw
  obtain ⟨hl, ho, hd, ha, hb, hf⟩ := word0_fields (0 : BitVec 3) b a d c (0x13 : BitVec 8) 1
  refine decode_of_parse (encode_aadd c d a b m) (by rw [hl]; decide) (by rw [hl]; rfl) ?_ hw
  rw [parseWords_two hl]
  unfold parse64
  rw [ho]
  show some (Instr.aadd _ _ _ _ _) = _
  simp only [condOf_word0, hd, ha, hb, mwordOf_bits]

theorem Sys2Proof.Laws.RoundTrip.afadd c d a b m : RoundTrip.Statement (.afadd c d a b m) := by
  intro rest _ hw
  obtain ⟨hl, ho, hd, ha, hb, hf⟩ := word0_fields (0 : BitVec 3) b a d c (0x14 : BitVec 8) 1
  refine decode_of_parse (encode_afadd c d a b m) (by rw [hl]; decide) (by rw [hl]; rfl) ?_ hw
  rw [parseWords_two hl]
  unfold parse64
  rw [ho]
  show some (Instr.afadd _ _ _ _ _) = _
  simp only [condOf_word0, hd, ha, hb, mwordOf_bits]

theorem Sys2Proof.Laws.RoundTrip.amin c d a b m : RoundTrip.Statement (.amin c d a b m) := by
  intro rest _ hw
  obtain ⟨hl, ho, hd, ha, hb, hf⟩ := word0_fields (0 : BitVec 3) b a d c (0x15 : BitVec 8) 1
  refine decode_of_parse (encode_amin c d a b m) (by rw [hl]; decide) (by rw [hl]; rfl) ?_ hw
  rw [parseWords_two hl]
  unfold parse64
  rw [ho]
  show some (Instr.amin _ _ _ _ _) = _
  simp only [condOf_word0, hd, ha, hb, mwordOf_bits]

theorem Sys2Proof.Laws.RoundTrip.amax c d a b m : RoundTrip.Statement (.amax c d a b m) := by
  intro rest _ hw
  obtain ⟨hl, ho, hd, ha, hb, hf⟩ := word0_fields (0 : BitVec 3) b a d c (0x16 : BitVec 8) 1
  refine decode_of_parse (encode_amax c d a b m) (by rw [hl]; decide) (by rw [hl]; rfl) ?_ hw
  rw [parseWords_two hl]
  unfold parse64
  rw [ho]
  show some (Instr.amax _ _ _ _ _) = _
  simp only [condOf_word0, hd, ha, hb, mwordOf_bits]

theorem Sys2Proof.Laws.RoundTrip.aand c d a b m : RoundTrip.Statement (.aand c d a b m) := by
  intro rest _ hw
  obtain ⟨hl, ho, hd, ha, hb, hf⟩ := word0_fields (0 : BitVec 3) b a d c (0x17 : BitVec 8) 1
  refine decode_of_parse (encode_aand c d a b m) (by rw [hl]; decide) (by rw [hl]; rfl) ?_ hw
  rw [parseWords_two hl]
  unfold parse64
  rw [ho]
  show some (Instr.aand _ _ _ _ _) = _
  simp only [condOf_word0, hd, ha, hb, mwordOf_bits]

theorem Sys2Proof.Laws.RoundTrip.aor c d a b m : RoundTrip.Statement (.aor c d a b m) := by
  intro rest _ hw
  obtain ⟨hl, ho, hd, ha, hb, hf⟩ := word0_fields (0 : BitVec 3) b a d c (0x18 : BitVec 8) 1
  refine decode_of_parse (encode_aor c d a b m) (by rw [hl]; decide) (by rw [hl]; rfl) ?_ hw
  rw [parseWords_two hl]
  unfold parse64
  rw [ho]
  show some (Instr.aor _ _ _ _ _) = _
  simp only [condOf_word0, hd, ha, hb, mwordOf_bits]

theorem Sys2Proof.Laws.RoundTrip.axor c d a b m : RoundTrip.Statement (.axor c d a b m) := by
  intro rest _ hw
  obtain ⟨hl, ho, hd, ha, hb, hf⟩ := word0_fields (0 : BitVec 3) b a d c (0x19 : BitVec 8) 1
  refine decode_of_parse (encode_axor c d a b m) (by rw [hl]; decide) (by rw [hl]; rfl) ?_ hw
  rw [parseWords_two hl]
  unfold parse64
  rw [ho]
  show some (Instr.axor _ _ _ _ _) = _
  simp only [condOf_word0, hd, ha, hb, mwordOf_bits]

theorem Sys2Proof.Laws.RoundTrip.aswp c d a b m : RoundTrip.Statement (.aswp c d a b m) := by
  intro rest _ hw
  obtain ⟨hl, ho, hd, ha, hb, hf⟩ := word0_fields (0 : BitVec 3) b a d c (0x1A : BitVec 8) 1
  refine decode_of_parse (encode_aswp c d a b m) (by rw [hl]; decide) (by rw [hl]; rfl) ?_ hw
  rw [parseWords_two hl]
  unfold parse64
  rw [ho]
  show some (Instr.aswp _ _ _ _ _) = _
  simp only [condOf_word0, hd, ha, hb, mwordOf_bits]

theorem Sys2Proof.Laws.RoundTrip.acas c d a b m : RoundTrip.Statement (.acas c d a b m) := by
  intro rest _ hw
  obtain ⟨hl, ho, hd, ha, hb, hf⟩ := word0_fields (0 : BitVec 3) b a d c (0x1B : BitVec 8) 1
  refine decode_of_parse (encode_acas c d a b m) (by rw [hl]; decide) (by rw [hl]; rfl) ?_ hw
  rw [parseWords_two hl]
  unfold parse64
  rw [ho]
  show some (Instr.acas _ _ _ _ _) = _
  simp only [condOf_word0, hd, ha, hb, mwordOf_bits]

theorem Sys2Proof.Laws.RoundTrip.waita c f a b m : RoundTrip.Statement (.waita c f a b m) := by
  intro rest _ hw
  obtain ⟨hl, ho, hd, ha, hb, hf⟩ := word0_fields f b a (0 : BitVec 5) c (0x1C : BitVec 8) 1
  refine decode_of_parse (encode_waita c f a b m) (by rw [hl]; decide) (by rw [hl]; rfl) ?_ hw
  rw [parseWords_two hl]
  unfold parse64
  rw [ho]
  show some (Instr.waita _ _ _ _ _) = _
  simp only [condOf_word0, hf, ha, hb, mwordOf_bits]

theorem Sys2Proof.Laws.RoundTrip.cpyin c pri ctr d a b m : RoundTrip.Statement (.cpyin c pri ctr d a b m) := by
  intro rest _ hw
  obtain ⟨hl, ho, hd, ha, hb, hf⟩ := word0_fields (BitVec.ofBool ctr ++ pri) b a ((0 : BitVec 2) ++ d) c (0x20 : BitVec 8) 1
  refine decode_of_parse (encode_cpyin c pri ctr d a b m) (by rw [hl]; decide) (by rw [hl]; rfl) ?_ hw
  rw [parseWords_two hl]
  unfold parse64
  rw [ho]
  show some (Instr.cpyin _ _ _ _ _ _ _) = _
  simp only [condOf_word0, field_of_field _ 29 3 2 (by decide), hf, field_append, field_of_field _ 14 5 3 (by decide), hd, ha, hb, bit31_of_field, flag_append, mwordOf_bits]

theorem Sys2Proof.Laws.RoundTrip.cpyout c pri ctr d a b m : RoundTrip.Statement (.cpyout c pri ctr d a b m) := by
  intro rest _ hw
  obtain ⟨hl, ho, hd, ha, hb, hf⟩ := word0_fields (BitVec.ofBool ctr ++ pri) b a ((0 : BitVec 2) ++ d) c (0x21 : BitVec 8) 1
  refine decode_of_parse (encode_cpyout c pri ctr d a b m) (by rw [hl]; decide) (by rw [hl]; rfl) ?_ hw
  rw [parseWords_two hl]
  unfold parse64
  rw [ho]
  show some (Instr.cpyout _ _ _ _ _ _ _) = _
  simp only [condOf_word0, field_of_field _ 29 3 2 (by decide), hf, field_append, field_of_field _ 14 5 3 (by decide), hd, ha, hb, bit31_of_field, flag_append, mwordOf_bits]

theorem Sys2Proof.Laws.RoundTrip.cpyt c pri ctr d a b m : RoundTrip.Statement (.cpyt c pri ctr d a b m) := by
  intro rest _ hw
  obtain ⟨hl, ho, hd, ha, hb, hf⟩ := word0_fields (BitVec.ofBool ctr ++ pri) b ((0 : BitVec 2) ++ a) ((0 : BitVec 2) ++ d) c (0x22 : BitVec 8) 1
  refine decode_of_parse (encode_cpyt c pri ctr d a b m) (by rw [hl]; decide) (by rw [hl]; rfl) ?_ hw
  rw [parseWords_two hl]
  unfold parse64
  rw [ho]
  show some (Instr.cpyt _ _ _ _ _ _ _) = _
  simp only [condOf_word0, field_of_field _ 29 3 2 (by decide), hf, field_append, field_of_field _ 14 5 3 (by decide), hd, field_of_field _ 19 5 3 (by decide), ha, hb, bit31_of_field, flag_append, mwordOf_bits]

theorem Sys2Proof.Laws.RoundTrip.cpyx c pri ctr d a b m : RoundTrip.Statement (.cpyx c pri ctr d a b m) := by
  intro rest _ hw
  obtain ⟨hl, ho, hd, ha, hb, hf⟩ := word0_fields (BitVec.ofBool ctr ++ pri) b a ((0 : BitVec 2) ++ d) c (0x23 : BitVec 8) 1
  refine decode_of_parse (encode_cpyx c pri ctr d a b m) (by rw [hl]; decide) (by rw [hl]; rfl) ?_ hw
  rw [parseWords_two hl]
  unfold parse64
  rw [ho]
  show some (Instr.cpyx _ _ _ _ _ _ _) = _
  simp only [condOf_word0, field_of_field _ 29 3 2 (by decide), hf, field_append, field_of_field _ 14 5 3 (by decide), hd, ha, hb, bit31_of_field, flag_append, mwordOf_bits]

theorem Sys2Proof.Laws.RoundTrip.gather c pri d a b m : RoundTrip.Statement (.gather c pri d a b m) := by
  intro rest _ hw
  obtain ⟨hl, ho, hd, ha, hb, hf⟩ := word0_fields ((0 : BitVec 1) ++ pri) ((0 : BitVec 2) ++ b) a ((0 : BitVec 2) ++ d) c (0x24 : BitVec 8) 1
  refine decode_of_parse (encode_gather c pri d a b m) (by rw [hl]; decide) (by rw [hl]; rfl) ?_ hw
  rw [parseWords_two hl]
  unfold parse64
  rw [ho]
  show some (Instr.gather _ _ _ _ _ _) = _
  simp only [condOf_word0, field_of_field _ 29 3 2 (by decide), hf, field_append, field_of_field _ 14 5 3 (by decide), hd, ha, field_of_field _ 24 5 3 (by decide), hb, mwordOf_bits]

theorem Sys2Proof.Laws.RoundTrip.scatter c pri d a b m : RoundTrip.Statement (.scatter c pri d a b m) := by
  intro rest _ hw
  obtain ⟨hl, ho, hd, ha, hb, hf⟩ := word0_fields ((0 : BitVec 1) ++ pri) ((0 : BitVec 2) ++ b) a ((0 : BitVec 2) ++ d) c (0x25 : BitVec 8) 1
  refine decode_of_parse (encode_scatter c pri d a b m) (by rw [hl]; decide) (by rw [hl]; rfl) ?_ hw
  rw [parseWords_two hl]
  unfold parse64
  rw [ho]
  show some (Instr.scatter _ _ _ _ _ _) = _
  simp only [condOf_word0, field_of_field _ 29 3 2 (by decide), hf, field_append, field_of_field _ 14 5 3 (by decide), hd, ha, field_of_field _ 24 5 3 (by decide), hb, mwordOf_bits]

theorem Sys2Proof.Laws.RoundTrip.scatadd c pri d a b m : RoundTrip.Statement (.scatadd c pri d a b m) := by
  intro rest _ hw
  obtain ⟨hl, ho, hd, ha, hb, hf⟩ := word0_fields ((0 : BitVec 1) ++ pri) ((0 : BitVec 2) ++ b) a ((0 : BitVec 2) ++ d) c (0x26 : BitVec 8) 1
  refine decode_of_parse (encode_scatadd c pri d a b m) (by rw [hl]; decide) (by rw [hl]; rfl) ?_ hw
  rw [parseWords_two hl]
  unfold parse64
  rw [ho]
  show some (Instr.scatadd _ _ _ _ _ _) = _
  simp only [condOf_word0, field_of_field _ 29 3 2 (by decide), hf, field_append, field_of_field _ 14 5 3 (by decide), hd, ha, field_of_field _ 24 5 3 (by decide), hb, mwordOf_bits]

theorem Sys2Proof.Laws.RoundTrip.subscr c pri d a b m : RoundTrip.Statement (.subscr c pri d a b m) := by
  intro rest _ hw
  obtain ⟨hl, ho, hd, ha, hb, hf⟩ := word0_fields ((0 : BitVec 1) ++ pri) b a d c (0x27 : BitVec 8) 1
  refine decode_of_parse (encode_subscr c pri d a b m) (by rw [hl]; decide) (by rw [hl]; rfl) ?_ hw
  rw [parseWords_two hl]
  unfold parse64
  rw [ho]
  show some (Instr.subscr _ _ _ _ _ _) = _
  simp only [condOf_word0, field_of_field _ 29 3 2 (by decide), hf, field_append, hd, ha, hb, mwordOf_bits]

theorem Sys2Proof.Laws.RoundTrip.slotwb c pri a b m : RoundTrip.Statement (.slotwb c pri a b m) := by
  intro rest _ hw
  obtain ⟨hl, ho, hd, ha, hb, hf⟩ := word0_fields ((0 : BitVec 1) ++ pri) b a (0 : BitVec 5) c (0x28 : BitVec 8) 1
  refine decode_of_parse (encode_slotwb c pri a b m) (by rw [hl]; decide) (by rw [hl]; rfl) ?_ hw
  rw [parseWords_two hl]
  unfold parse64
  rw [ho]
  show some (Instr.slotwb _ _ _ _ _) = _
  simp only [condOf_word0, field_of_field _ 29 3 2 (by decide), hf, field_append, ha, hb, mwordOf_bits]

theorem Sys2Proof.Laws.RoundTrip.cadd c a b m : RoundTrip.Statement (.cadd c a b m) := by
  intro rest _ hw
  obtain ⟨hl, ho, hd, ha, hb, hf⟩ := word0_fields (0 : BitVec 3) b a (0 : BitVec 5) c (0x29 : BitVec 8) 1
  refine decode_of_parse (encode_cadd c a b m) (by rw [hl]; decide) (by rw [hl]; rfl) ?_ hw
  rw [parseWords_two hl]
  unfold parse64
  rw [ho]
  show some (Instr.cadd _ _ _ _) = _
  simp only [condOf_word0, ha, hb, mwordOf_bits]

theorem Sys2Proof.Laws.RoundTrip.cwait c a b m : RoundTrip.Statement (.cwait c a b m) := by
  intro rest _ hw
  obtain ⟨hl, ho, hd, ha, hb, hf⟩ := word0_fields (0 : BitVec 3) b a (0 : BitVec 5) c (0x2A : BitVec 8) 1
  refine decode_of_parse (encode_cwait c a b m) (by rw [hl]; decide) (by rw [hl]; rfl) ?_ hw
  rw [parseWords_two hl]
  unfold parse64
  rw [ho]
  show some (Instr.cwait _ _ _ _) = _
  simp only [condOf_word0, ha, hb, mwordOf_bits]

theorem Sys2Proof.Laws.RoundTrip.tld c pri d a m : RoundTrip.Statement (.tld c pri d a m) := by
  intro rest _ hw
  obtain ⟨hl, ho, hd, ha, hb, hf⟩ := word0_fields ((0 : BitVec 1) ++ pri) (0 : BitVec 5) a ((0 : BitVec 2) ++ d) c (0x2B : BitVec 8) 1
  refine decode_of_parse (encode_tld c pri d a m) (by rw [hl]; decide) (by rw [hl]; rfl) ?_ hw
  rw [parseWords_two hl]
  unfold parse64
  rw [ho]
  show some (Instr.tld _ _ _ _ _) = _
  simp only [condOf_word0, field_of_field _ 29 3 2 (by decide), hf, field_append, field_of_field _ 14 5 3 (by decide), hd, ha, mwordOf_bits]

theorem Sys2Proof.Laws.RoundTrip.tst c pri a b m : RoundTrip.Statement (.tst c pri a b m) := by
  intro rest _ hw
  obtain ⟨hl, ho, hd, ha, hb, hf⟩ := word0_fields ((0 : BitVec 1) ++ pri) ((0 : BitVec 2) ++ b) a (0 : BitVec 5) c (0x2C : BitVec 8) 1
  refine decode_of_parse (encode_tst c pri a b m) (by rw [hl]; decide) (by rw [hl]; rfl) ?_ hw
  rw [parseWords_two hl]
  unfold parse64
  rw [ho]
  show some (Instr.tst _ _ _ _ _) = _
  simp only [condOf_word0, field_of_field _ 29 3 2 (by decide), hf, field_append, ha, field_of_field _ 24 5 3 (by decide), hb, mwordOf_bits]

theorem Sys2Proof.Laws.RoundTrip.mma c f d a b w : RoundTrip.Statement (.mma c f d a b w) := by
  intro rest _ hw
  obtain ⟨hl, ho, hd, ha, hb, hf⟩ := word0_fields f ((0 : BitVec 2) ++ b) ((0 : BitVec 2) ++ a) ((0 : BitVec 2) ++ d) c (0x40 : BitVec 8) 1
  refine decode_of_parse (encode_mma c f d a b w) (by rw [hl]; decide) (by rw [hl]; rfl) ?_ hw
  rw [parseWords_two hl]
  unfold parse64
  rw [ho]
  show some (Instr.mma _ _ _ _ _ _) = _
  simp only [condOf_word0, hf, field_of_field _ 14 5 3 (by decide), hd, field_append, field_of_field _ 19 5 3 (by decide), ha, field_of_field _ 24 5 3 (by decide), hb, ewordOf_bits]

theorem Sys2Proof.Laws.RoundTrip.mmai c f d a b w : RoundTrip.Statement (.mmai c f d a b w) := by
  intro rest _ hw
  obtain ⟨hl, ho, hd, ha, hb, hf⟩ := word0_fields f ((0 : BitVec 2) ++ b) ((0 : BitVec 2) ++ a) ((0 : BitVec 2) ++ d) c (0x41 : BitVec 8) 1
  refine decode_of_parse (encode_mmai c f d a b w) (by rw [hl]; decide) (by rw [hl]; rfl) ?_ hw
  rw [parseWords_two hl]
  unfold parse64
  rw [ho]
  show some (Instr.mmai _ _ _ _ _ _) = _
  simp only [condOf_word0, hf, field_of_field _ 14 5 3 (by decide), hd, field_append, field_of_field _ 19 5 3 (by decide), ha, field_of_field _ 24 5 3 (by decide), hb, ewordOf_bits]

theorem Sys2Proof.Laws.RoundTrip.mmax c f d a b w : RoundTrip.Statement (.mmax c f d a b w) := by
  intro rest _ hw
  obtain ⟨hl, ho, hd, ha, hb, hf⟩ := word0_fields f ((0 : BitVec 2) ++ b) ((0 : BitVec 2) ++ a) ((0 : BitVec 2) ++ d) c (0x42 : BitVec 8) 1
  refine decode_of_parse (encode_mmax c f d a b w) (by rw [hl]; decide) (by rw [hl]; rfl) ?_ hw
  rw [parseWords_two hl]
  unfold parse64
  rw [ho]
  show some (Instr.mmax _ _ _ _ _ _) = _
  simp only [condOf_word0, hf, field_of_field _ 14 5 3 (by decide), hd, field_append, field_of_field _ 19 5 3 (by decide), ha, field_of_field _ 24 5 3 (by decide), hb, ewordOf_bits]

theorem Sys2Proof.Laws.RoundTrip.scacc c f d a b w : RoundTrip.Statement (.scacc c f d a b w) := by
  intro rest _ hw
  obtain ⟨hl, ho, hd, ha, hb, hf⟩ := word0_fields f ((0 : BitVec 2) ++ b) ((0 : BitVec 2) ++ a) ((0 : BitVec 2) ++ d) c (0x43 : BitVec 8) 1
  refine decode_of_parse (encode_scacc c f d a b w) (by rw [hl]; decide) (by rw [hl]; rfl) ?_ hw
  rw [parseWords_two hl]
  unfold parse64
  rw [ho]
  show some (Instr.scacc _ _ _ _ _ _) = _
  simp only [condOf_word0, hf, field_of_field _ 14 5 3 (by decide), hd, field_append, field_of_field _ 19 5 3 (by decide), ha, field_of_field _ 24 5 3 (by decide), hb, ewordOf_bits]

theorem Sys2Proof.Laws.RoundTrip.ttrn c f d a b w : RoundTrip.Statement (.ttrn c f d a b w) := by
  intro rest _ hw
  obtain ⟨hl, ho, hd, ha, hb, hf⟩ := word0_fields f ((0 : BitVec 2) ++ b) ((0 : BitVec 2) ++ a) ((0 : BitVec 2) ++ d) c (0x44 : BitVec 8) 1
  refine decode_of_parse (encode_ttrn c f d a b w) (by rw [hl]; decide) (by rw [hl]; rfl) ?_ hw
  rw [parseWords_two hl]
  unfold parse64
  rw [ho]
  show some (Instr.ttrn _ _ _ _ _ _) = _
  simp only [condOf_word0, hf, field_of_field _ 14 5 3 (by decide), hd, field_append, field_of_field _ 19 5 3 (by decide), ha, field_of_field _ 24 5 3 (by decide), hb, ewordOf_bits]

theorem Sys2Proof.Laws.RoundTrip.tcvt c f d a b w : RoundTrip.Statement (.tcvt c f d a b w) := by
  intro rest _ hw
  obtain ⟨hl, ho, hd, ha, hb, hf⟩ := word0_fields f ((0 : BitVec 2) ++ b) ((0 : BitVec 2) ++ a) ((0 : BitVec 2) ++ d) c (0x45 : BitVec 8) 1
  refine decode_of_parse (encode_tcvt c f d a b w) (by rw [hl]; decide) (by rw [hl]; rfl) ?_ hw
  rw [parseWords_two hl]
  unfold parse64
  rw [ho]
  show some (Instr.tcvt _ _ _ _ _ _) = _
  simp only [condOf_word0, hf, field_of_field _ 14 5 3 (by decide), hd, field_append, field_of_field _ 19 5 3 (by decide), ha, field_of_field _ 24 5 3 (by decide), hb, ewordOf_bits]

theorem Sys2Proof.Laws.RoundTrip.cxsort c f d a b w : RoundTrip.Statement (.cxsort c f d a b w) := by
  intro rest _ hw
  obtain ⟨hl, ho, hd, ha, hb, hf⟩ := word0_fields f ((0 : BitVec 2) ++ b) ((0 : BitVec 2) ++ a) ((0 : BitVec 2) ++ d) c (0x46 : BitVec 8) 1
  refine decode_of_parse (encode_cxsort c f d a b w) (by rw [hl]; decide) (by rw [hl]; rfl) ?_ hw
  rw [parseWords_two hl]
  unfold parse64
  rw [ho]
  show some (Instr.cxsort _ _ _ _ _ _) = _
  simp only [condOf_word0, hf, field_of_field _ 14 5 3 (by decide), hd, field_append, field_of_field _ 19 5 3 (by decide), ha, field_of_field _ 24 5 3 (by decide), hb, ewordOf_bits]

theorem Sys2Proof.Laws.RoundTrip.cxmerge c f d a b w : RoundTrip.Statement (.cxmerge c f d a b w) := by
  intro rest _ hw
  obtain ⟨hl, ho, hd, ha, hb, hf⟩ := word0_fields f ((0 : BitVec 2) ++ b) ((0 : BitVec 2) ++ a) ((0 : BitVec 2) ++ d) c (0x47 : BitVec 8) 1
  refine decode_of_parse (encode_cxmerge c f d a b w) (by rw [hl]; decide) (by rw [hl]; rfl) ?_ hw
  rw [parseWords_two hl]
  unfold parse64
  rw [ho]
  show some (Instr.cxmerge _ _ _ _ _ _) = _
  simp only [condOf_word0, hf, field_of_field _ 14 5 3 (by decide), hd, field_append, field_of_field _ 19 5 3 (by decide), ha, field_of_field _ 24 5 3 (by decide), hb, ewordOf_bits]

theorem Sys2Proof.Laws.RoundTrip.tzero c f d a b w : RoundTrip.Statement (.tzero c f d a b w) := by
  intro rest _ hw
  obtain ⟨hl, ho, hd, ha, hb, hf⟩ := word0_fields f ((0 : BitVec 2) ++ b) ((0 : BitVec 2) ++ a) ((0 : BitVec 2) ++ d) c (0x48 : BitVec 8) 1
  refine decode_of_parse (encode_tzero c f d a b w) (by rw [hl]; decide) (by rw [hl]; rfl) ?_ hw
  rw [parseWords_two hl]
  unfold parse64
  rw [ho]
  show some (Instr.tzero _ _ _ _ _ _) = _
  simp only [condOf_word0, hf, field_of_field _ 14 5 3 (by decide), hd, field_append, field_of_field _ 19 5 3 (by decide), ha, field_of_field _ 24 5 3 (by decide), hb, ewordOf_bits]

theorem Sys2Proof.Laws.RoundTrip.tfill c f d a b w : RoundTrip.Statement (.tfill c f d a b w) := by
  intro rest _ hw
  obtain ⟨hl, ho, hd, ha, hb, hf⟩ := word0_fields f b ((0 : BitVec 2) ++ a) ((0 : BitVec 2) ++ d) c (0x49 : BitVec 8) 1
  refine decode_of_parse (encode_tfill c f d a b w) (by rw [hl]; decide) (by rw [hl]; rfl) ?_ hw
  rw [parseWords_two hl]
  unfold parse64
  rw [ho]
  show some (Instr.tfill _ _ _ _ _ _) = _
  simp only [condOf_word0, hf, field_of_field _ 14 5 3 (by decide), hd, field_append, field_of_field _ 19 5 3 (by decide), ha, hb, ewordOf_bits]

theorem Sys2Proof.Laws.RoundTrip.tlay c f d a b w : RoundTrip.Statement (.tlay c f d a b w) := by
  intro rest _ hw
  obtain ⟨hl, ho, hd, ha, hb, hf⟩ := word0_fields f ((0 : BitVec 2) ++ b) ((0 : BitVec 2) ++ a) ((0 : BitVec 2) ++ d) c (0x4A : BitVec 8) 1
  refine decode_of_parse (encode_tlay c f d a b w) (by rw [hl]; decide) (by rw [hl]; rfl) ?_ hw
  rw [parseWords_two hl]
  unfold parse64
  rw [ho]
  show some (Instr.tlay _ _ _ _ _ _) = _
  simp only [condOf_word0, hf, field_of_field _ 14 5 3 (by decide), hd, field_append, field_of_field _ 19 5 3 (by decide), ha, field_of_field _ 24 5 3 (by decide), hb, ewordOf_bits]

theorem Sys2Proof.Laws.RoundTrip.vadd c f d a b w : RoundTrip.Statement (.vadd c f d a b w) := by
  intro rest _ hw
  obtain ⟨hl, ho, hd, ha, hb, hf⟩ := word0_fields f ((0 : BitVec 2) ++ b) ((0 : BitVec 2) ++ a) ((0 : BitVec 2) ++ d) c (0x60 : BitVec 8) 1
  refine decode_of_parse (encode_vadd c f d a b w) (by rw [hl]; decide) (by rw [hl]; rfl) ?_ hw
  rw [parseWords_two hl]
  unfold parse64
  rw [ho]
  show some (Instr.vadd _ _ _ _ _ _) = _
  simp only [condOf_word0, hf, field_of_field _ 14 5 3 (by decide), hd, field_append, field_of_field _ 19 5 3 (by decide), ha, field_of_field _ 24 5 3 (by decide), hb, ewordOf_bits]

theorem Sys2Proof.Laws.RoundTrip.vsub c f d a b w : RoundTrip.Statement (.vsub c f d a b w) := by
  intro rest _ hw
  obtain ⟨hl, ho, hd, ha, hb, hf⟩ := word0_fields f ((0 : BitVec 2) ++ b) ((0 : BitVec 2) ++ a) ((0 : BitVec 2) ++ d) c (0x61 : BitVec 8) 1
  refine decode_of_parse (encode_vsub c f d a b w) (by rw [hl]; decide) (by rw [hl]; rfl) ?_ hw
  rw [parseWords_two hl]
  unfold parse64
  rw [ho]
  show some (Instr.vsub _ _ _ _ _ _) = _
  simp only [condOf_word0, hf, field_of_field _ 14 5 3 (by decide), hd, field_append, field_of_field _ 19 5 3 (by decide), ha, field_of_field _ 24 5 3 (by decide), hb, ewordOf_bits]

theorem Sys2Proof.Laws.RoundTrip.vmul c f d a b w : RoundTrip.Statement (.vmul c f d a b w) := by
  intro rest _ hw
  obtain ⟨hl, ho, hd, ha, hb, hf⟩ := word0_fields f ((0 : BitVec 2) ++ b) ((0 : BitVec 2) ++ a) ((0 : BitVec 2) ++ d) c (0x62 : BitVec 8) 1
  refine decode_of_parse (encode_vmul c f d a b w) (by rw [hl]; decide) (by rw [hl]; rfl) ?_ hw
  rw [parseWords_two hl]
  unfold parse64
  rw [ho]
  show some (Instr.vmul _ _ _ _ _ _) = _
  simp only [condOf_word0, hf, field_of_field _ 14 5 3 (by decide), hd, field_append, field_of_field _ 19 5 3 (by decide), ha, field_of_field _ 24 5 3 (by decide), hb, ewordOf_bits]

theorem Sys2Proof.Laws.RoundTrip.vfma c f d a b w : RoundTrip.Statement (.vfma c f d a b w) := by
  intro rest _ hw
  obtain ⟨hl, ho, hd, ha, hb, hf⟩ := word0_fields f ((0 : BitVec 2) ++ b) ((0 : BitVec 2) ++ a) ((0 : BitVec 2) ++ d) c (0x63 : BitVec 8) 1
  refine decode_of_parse (encode_vfma c f d a b w) (by rw [hl]; decide) (by rw [hl]; rfl) ?_ hw
  rw [parseWords_two hl]
  unfold parse64
  rw [ho]
  show some (Instr.vfma _ _ _ _ _ _) = _
  simp only [condOf_word0, hf, field_of_field _ 14 5 3 (by decide), hd, field_append, field_of_field _ 19 5 3 (by decide), ha, field_of_field _ 24 5 3 (by decide), hb, ewordOf_bits]

theorem Sys2Proof.Laws.RoundTrip.vmin c f d a b w : RoundTrip.Statement (.vmin c f d a b w) := by
  intro rest _ hw
  obtain ⟨hl, ho, hd, ha, hb, hf⟩ := word0_fields f ((0 : BitVec 2) ++ b) ((0 : BitVec 2) ++ a) ((0 : BitVec 2) ++ d) c (0x64 : BitVec 8) 1
  refine decode_of_parse (encode_vmin c f d a b w) (by rw [hl]; decide) (by rw [hl]; rfl) ?_ hw
  rw [parseWords_two hl]
  unfold parse64
  rw [ho]
  show some (Instr.vmin _ _ _ _ _ _) = _
  simp only [condOf_word0, hf, field_of_field _ 14 5 3 (by decide), hd, field_append, field_of_field _ 19 5 3 (by decide), ha, field_of_field _ 24 5 3 (by decide), hb, ewordOf_bits]

theorem Sys2Proof.Laws.RoundTrip.vmax c f d a b w : RoundTrip.Statement (.vmax c f d a b w) := by
  intro rest _ hw
  obtain ⟨hl, ho, hd, ha, hb, hf⟩ := word0_fields f ((0 : BitVec 2) ++ b) ((0 : BitVec 2) ++ a) ((0 : BitVec 2) ++ d) c (0x65 : BitVec 8) 1
  refine decode_of_parse (encode_vmax c f d a b w) (by rw [hl]; decide) (by rw [hl]; rfl) ?_ hw
  rw [parseWords_two hl]
  unfold parse64
  rw [ho]
  show some (Instr.vmax _ _ _ _ _ _) = _
  simp only [condOf_word0, hf, field_of_field _ 14 5 3 (by decide), hd, field_append, field_of_field _ 19 5 3 (by decide), ha, field_of_field _ 24 5 3 (by decide), hb, ewordOf_bits]

theorem Sys2Proof.Laws.RoundTrip.vabs c f d a b w : RoundTrip.Statement (.vabs c f d a b w) := by
  intro rest _ hw
  obtain ⟨hl, ho, hd, ha, hb, hf⟩ := word0_fields f ((0 : BitVec 2) ++ b) ((0 : BitVec 2) ++ a) ((0 : BitVec 2) ++ d) c (0x66 : BitVec 8) 1
  refine decode_of_parse (encode_vabs c f d a b w) (by rw [hl]; decide) (by rw [hl]; rfl) ?_ hw
  rw [parseWords_two hl]
  unfold parse64
  rw [ho]
  show some (Instr.vabs _ _ _ _ _ _) = _
  simp only [condOf_word0, hf, field_of_field _ 14 5 3 (by decide), hd, field_append, field_of_field _ 19 5 3 (by decide), ha, field_of_field _ 24 5 3 (by decide), hb, ewordOf_bits]

theorem Sys2Proof.Laws.RoundTrip.vneg c f d a b w : RoundTrip.Statement (.vneg c f d a b w) := by
  intro rest _ hw
  obtain ⟨hl, ho, hd, ha, hb, hf⟩ := word0_fields f ((0 : BitVec 2) ++ b) ((0 : BitVec 2) ++ a) ((0 : BitVec 2) ++ d) c (0x67 : BitVec 8) 1
  refine decode_of_parse (encode_vneg c f d a b w) (by rw [hl]; decide) (by rw [hl]; rfl) ?_ hw
  rw [parseWords_two hl]
  unfold parse64
  rw [ho]
  show some (Instr.vneg _ _ _ _ _ _) = _
  simp only [condOf_word0, hf, field_of_field _ 14 5 3 (by decide), hd, field_append, field_of_field _ 19 5 3 (by decide), ha, field_of_field _ 24 5 3 (by decide), hb, ewordOf_bits]

theorem Sys2Proof.Laws.RoundTrip.vand c f d a b w : RoundTrip.Statement (.vand c f d a b w) := by
  intro rest _ hw
  obtain ⟨hl, ho, hd, ha, hb, hf⟩ := word0_fields f ((0 : BitVec 2) ++ b) ((0 : BitVec 2) ++ a) ((0 : BitVec 2) ++ d) c (0x68 : BitVec 8) 1
  refine decode_of_parse (encode_vand c f d a b w) (by rw [hl]; decide) (by rw [hl]; rfl) ?_ hw
  rw [parseWords_two hl]
  unfold parse64
  rw [ho]
  show some (Instr.vand _ _ _ _ _ _) = _
  simp only [condOf_word0, hf, field_of_field _ 14 5 3 (by decide), hd, field_append, field_of_field _ 19 5 3 (by decide), ha, field_of_field _ 24 5 3 (by decide), hb, ewordOf_bits]

theorem Sys2Proof.Laws.RoundTrip.vor c f d a b w : RoundTrip.Statement (.vor c f d a b w) := by
  intro rest _ hw
  obtain ⟨hl, ho, hd, ha, hb, hf⟩ := word0_fields f ((0 : BitVec 2) ++ b) ((0 : BitVec 2) ++ a) ((0 : BitVec 2) ++ d) c (0x69 : BitVec 8) 1
  refine decode_of_parse (encode_vor c f d a b w) (by rw [hl]; decide) (by rw [hl]; rfl) ?_ hw
  rw [parseWords_two hl]
  unfold parse64
  rw [ho]
  show some (Instr.vor _ _ _ _ _ _) = _
  simp only [condOf_word0, hf, field_of_field _ 14 5 3 (by decide), hd, field_append, field_of_field _ 19 5 3 (by decide), ha, field_of_field _ 24 5 3 (by decide), hb, ewordOf_bits]

theorem Sys2Proof.Laws.RoundTrip.vxor c f d a b w : RoundTrip.Statement (.vxor c f d a b w) := by
  intro rest _ hw
  obtain ⟨hl, ho, hd, ha, hb, hf⟩ := word0_fields f ((0 : BitVec 2) ++ b) ((0 : BitVec 2) ++ a) ((0 : BitVec 2) ++ d) c (0x6A : BitVec 8) 1
  refine decode_of_parse (encode_vxor c f d a b w) (by rw [hl]; decide) (by rw [hl]; rfl) ?_ hw
  rw [parseWords_two hl]
  unfold parse64
  rw [ho]
  show some (Instr.vxor _ _ _ _ _ _) = _
  simp only [condOf_word0, hf, field_of_field _ 14 5 3 (by decide), hd, field_append, field_of_field _ 19 5 3 (by decide), ha, field_of_field _ 24 5 3 (by decide), hb, ewordOf_bits]

theorem Sys2Proof.Laws.RoundTrip.vshl c f d a b w : RoundTrip.Statement (.vshl c f d a b w) := by
  intro rest _ hw
  obtain ⟨hl, ho, hd, ha, hb, hf⟩ := word0_fields f ((0 : BitVec 2) ++ b) ((0 : BitVec 2) ++ a) ((0 : BitVec 2) ++ d) c (0x6B : BitVec 8) 1
  refine decode_of_parse (encode_vshl c f d a b w) (by rw [hl]; decide) (by rw [hl]; rfl) ?_ hw
  rw [parseWords_two hl]
  unfold parse64
  rw [ho]
  show some (Instr.vshl _ _ _ _ _ _) = _
  simp only [condOf_word0, hf, field_of_field _ 14 5 3 (by decide), hd, field_append, field_of_field _ 19 5 3 (by decide), ha, field_of_field _ 24 5 3 (by decide), hb, ewordOf_bits]

theorem Sys2Proof.Laws.RoundTrip.vshr c f d a b w : RoundTrip.Statement (.vshr c f d a b w) := by
  intro rest _ hw
  obtain ⟨hl, ho, hd, ha, hb, hf⟩ := word0_fields f ((0 : BitVec 2) ++ b) ((0 : BitVec 2) ++ a) ((0 : BitVec 2) ++ d) c (0x6C : BitVec 8) 1
  refine decode_of_parse (encode_vshr c f d a b w) (by rw [hl]; decide) (by rw [hl]; rfl) ?_ hw
  rw [parseWords_two hl]
  unfold parse64
  rw [ho]
  show some (Instr.vshr _ _ _ _ _ _) = _
  simp only [condOf_word0, hf, field_of_field _ 14 5 3 (by decide), hd, field_append, field_of_field _ 19 5 3 (by decide), ha, field_of_field _ 24 5 3 (by decide), hb, ewordOf_bits]

theorem Sys2Proof.Laws.RoundTrip.vcmp c f d a b w : RoundTrip.Statement (.vcmp c f d a b w) := by
  intro rest _ hw
  obtain ⟨hl, ho, hd, ha, hb, hf⟩ := word0_fields f ((0 : BitVec 2) ++ b) ((0 : BitVec 2) ++ a) ((0 : BitVec 2) ++ d) c (0x6D : BitVec 8) 1
  refine decode_of_parse (encode_vcmp c f d a b w) (by rw [hl]; decide) (by rw [hl]; rfl) ?_ hw
  rw [parseWords_two hl]
  unfold parse64
  rw [ho]
  show some (Instr.vcmp _ _ _ _ _ _) = _
  simp only [condOf_word0, hf, field_of_field _ 14 5 3 (by decide), hd, field_append, field_of_field _ 19 5 3 (by decide), ha, field_of_field _ 24 5 3 (by decide), hb, ewordOf_bits]

theorem Sys2Proof.Laws.RoundTrip.vsel c f d a b w : RoundTrip.Statement (.vsel c f d a b w) := by
  intro rest _ hw
  obtain ⟨hl, ho, hd, ha, hb, hf⟩ := word0_fields f ((0 : BitVec 2) ++ b) ((0 : BitVec 2) ++ a) ((0 : BitVec 2) ++ d) c (0x6E : BitVec 8) 1
  refine decode_of_parse (encode_vsel c f d a b w) (by rw [hl]; decide) (by rw [hl]; rfl) ?_ hw
  rw [parseWords_two hl]
  unfold parse64
  rw [ho]
  show some (Instr.vsel _ _ _ _ _ _) = _
  simp only [condOf_word0, hf, field_of_field _ 14 5 3 (by decide), hd, field_append, field_of_field _ 19 5 3 (by decide), ha, field_of_field _ 24 5 3 (by decide), hb, ewordOf_bits]

theorem Sys2Proof.Laws.RoundTrip.vcvt c f d a b w : RoundTrip.Statement (.vcvt c f d a b w) := by
  intro rest _ hw
  obtain ⟨hl, ho, hd, ha, hb, hf⟩ := word0_fields f ((0 : BitVec 2) ++ b) ((0 : BitVec 2) ++ a) ((0 : BitVec 2) ++ d) c (0x6F : BitVec 8) 1
  refine decode_of_parse (encode_vcvt c f d a b w) (by rw [hl]; decide) (by rw [hl]; rfl) ?_ hw
  rw [parseWords_two hl]
  unfold parse64
  rw [ho]
  show some (Instr.vcvt _ _ _ _ _ _) = _
  simp only [condOf_word0, hf, field_of_field _ 14 5 3 (by decide), hd, field_append, field_of_field _ 19 5 3 (by decide), ha, field_of_field _ 24 5 3 (by decide), hb, ewordOf_bits]

theorem Sys2Proof.Laws.RoundTrip.vscl c f d a b w : RoundTrip.Statement (.vscl c f d a b w) := by
  intro rest _ hw
  obtain ⟨hl, ho, hd, ha, hb, hf⟩ := word0_fields f b ((0 : BitVec 2) ++ a) ((0 : BitVec 2) ++ d) c (0x70 : BitVec 8) 1
  refine decode_of_parse (encode_vscl c f d a b w) (by rw [hl]; decide) (by rw [hl]; rfl) ?_ hw
  rw [parseWords_two hl]
  unfold parse64
  rw [ho]
  show some (Instr.vscl _ _ _ _ _ _) = _
  simp only [condOf_word0, hf, field_of_field _ 14 5 3 (by decide), hd, field_append, field_of_field _ 19 5 3 (by decide), ha, hb, ewordOf_bits]

theorem Sys2Proof.Laws.RoundTrip.vclmp c f d a b w : RoundTrip.Statement (.vclmp c f d a b w) := by
  intro rest _ hw
  obtain ⟨hl, ho, hd, ha, hb, hf⟩ := word0_fields f ((0 : BitVec 2) ++ b) ((0 : BitVec 2) ++ a) ((0 : BitVec 2) ++ d) c (0x71 : BitVec 8) 1
  refine decode_of_parse (encode_vclmp c f d a b w) (by rw [hl]; decide) (by rw [hl]; rfl) ?_ hw
  rw [parseWords_two hl]
  unfold parse64
  rw [ho]
  show some (Instr.vclmp _ _ _ _ _ _) = _
  simp only [condOf_word0, hf, field_of_field _ 14 5 3 (by decide), hd, field_append, field_of_field _ 19 5 3 (by decide), ha, field_of_field _ 24 5 3 (by decide), hb, ewordOf_bits]

theorem Sys2Proof.Laws.RoundTrip.vbcr c f d a b w : RoundTrip.Statement (.vbcr c f d a b w) := by
  intro rest _ hw
  obtain ⟨hl, ho, hd, ha, hb, hf⟩ := word0_fields f ((0 : BitVec 2) ++ b) ((0 : BitVec 2) ++ a) ((0 : BitVec 2) ++ d) c (0x72 : BitVec 8) 1
  refine decode_of_parse (encode_vbcr c f d a b w) (by rw [hl]; decide) (by rw [hl]; rfl) ?_ hw
  rw [parseWords_two hl]
  unfold parse64
  rw [ho]
  show some (Instr.vbcr _ _ _ _ _ _) = _
  simp only [condOf_word0, hf, field_of_field _ 14 5 3 (by decide), hd, field_append, field_of_field _ 19 5 3 (by decide), ha, field_of_field _ 24 5 3 (by decide), hb, ewordOf_bits]

theorem Sys2Proof.Laws.RoundTrip.vbcc c f d a b w : RoundTrip.Statement (.vbcc c f d a b w) := by
  intro rest _ hw
  obtain ⟨hl, ho, hd, ha, hb, hf⟩ := word0_fields f ((0 : BitVec 2) ++ b) ((0 : BitVec 2) ++ a) ((0 : BitVec 2) ++ d) c (0x73 : BitVec 8) 1
  refine decode_of_parse (encode_vbcc c f d a b w) (by rw [hl]; decide) (by rw [hl]; rfl) ?_ hw
  rw [parseWords_two hl]
  unfold parse64
  rw [ho]
  show some (Instr.vbcc _ _ _ _ _ _) = _
  simp only [condOf_word0, hf, field_of_field _ 14 5 3 (by decide), hd, field_append, field_of_field _ 19 5 3 (by decide), ha, field_of_field _ 24 5 3 (by decide), hb, ewordOf_bits]

theorem Sys2Proof.Laws.RoundTrip.vrsum c f d a b w : RoundTrip.Statement (.vrsum c f d a b w) := by
  intro rest _ hw
  obtain ⟨hl, ho, hd, ha, hb, hf⟩ := word0_fields f ((0 : BitVec 2) ++ b) ((0 : BitVec 2) ++ a) ((0 : BitVec 2) ++ d) c (0x74 : BitVec 8) 1
  refine decode_of_parse (encode_vrsum c f d a b w) (by rw [hl]; decide) (by rw [hl]; rfl) ?_ hw
  rw [parseWords_two hl]
  unfold parse64
  rw [ho]
  show some (Instr.vrsum _ _ _ _ _ _) = _
  simp only [condOf_word0, hf, field_of_field _ 14 5 3 (by decide), hd, field_append, field_of_field _ 19 5 3 (by decide), ha, field_of_field _ 24 5 3 (by decide), hb, ewordOf_bits]

theorem Sys2Proof.Laws.RoundTrip.vcsum c f d a b w : RoundTrip.Statement (.vcsum c f d a b w) := by
  intro rest _ hw
  obtain ⟨hl, ho, hd, ha, hb, hf⟩ := word0_fields f ((0 : BitVec 2) ++ b) ((0 : BitVec 2) ++ a) ((0 : BitVec 2) ++ d) c (0x75 : BitVec 8) 1
  refine decode_of_parse (encode_vcsum c f d a b w) (by rw [hl]; decide) (by rw [hl]; rfl) ?_ hw
  rw [parseWords_two hl]
  unfold parse64
  rw [ho]
  show some (Instr.vcsum _ _ _ _ _ _) = _
  simp only [condOf_word0, hf, field_of_field _ 14 5 3 (by decide), hd, field_append, field_of_field _ 19 5 3 (by decide), ha, field_of_field _ 24 5 3 (by decide), hb, ewordOf_bits]

theorem Sys2Proof.Laws.RoundTrip.vrr c f d a b w : RoundTrip.Statement (.vrr c f d a b w) := by
  intro rest _ hw
  obtain ⟨hl, ho, hd, ha, hb, hf⟩ := word0_fields f ((0 : BitVec 2) ++ b) ((0 : BitVec 2) ++ a) ((0 : BitVec 2) ++ d) c (0x76 : BitVec 8) 1
  refine decode_of_parse (encode_vrr c f d a b w) (by rw [hl]; decide) (by rw [hl]; rfl) ?_ hw
  rw [parseWords_two hl]
  unfold parse64
  rw [ho]
  show some (Instr.vrr _ _ _ _ _ _) = _
  simp only [condOf_word0, hf, field_of_field _ 14 5 3 (by decide), hd, field_append, field_of_field _ 19 5 3 (by decide), ha, field_of_field _ 24 5 3 (by decide), hb, ewordOf_bits]

theorem Sys2Proof.Laws.RoundTrip.vfn c f d a b w : RoundTrip.Statement (.vfn c f d a b w) := by
  intro rest _ hw
  obtain ⟨hl, ho, hd, ha, hb, hf⟩ := word0_fields f ((0 : BitVec 2) ++ b) ((0 : BitVec 2) ++ a) ((0 : BitVec 2) ++ d) c (0x77 : BitVec 8) 1
  refine decode_of_parse (encode_vfn c f d a b w) (by rw [hl]; decide) (by rw [hl]; rfl) ?_ hw
  rw [parseWords_two hl]
  unfold parse64
  rw [ho]
  show some (Instr.vfn _ _ _ _ _ _) = _
  simp only [condOf_word0, hf, field_of_field _ 14 5 3 (by decide), hd, field_append, field_of_field _ 19 5 3 (by decide), ha, field_of_field _ 24 5 3 (by decide), hb, ewordOf_bits]

theorem Sys2Proof.Laws.RoundTrip.vtbl c f d a b w : RoundTrip.Statement (.vtbl c f d a b w) := by
  intro rest _ hw
  obtain ⟨hl, ho, hd, ha, hb, hf⟩ := word0_fields f ((0 : BitVec 2) ++ b) ((0 : BitVec 2) ++ a) ((0 : BitVec 2) ++ d) c (0x78 : BitVec 8) 1
  refine decode_of_parse (encode_vtbl c f d a b w) (by rw [hl]; decide) (by rw [hl]; rfl) ?_ hw
  rw [parseWords_two hl]
  unfold parse64
  rw [ho]
  show some (Instr.vtbl _ _ _ _ _ _) = _
  simp only [condOf_word0, hf, field_of_field _ 14 5 3 (by decide), hd, field_append, field_of_field _ 19 5 3 (by decide), ha, field_of_field _ 24 5 3 (by decide), hb, ewordOf_bits]

theorem Sys2Proof.Laws.RoundTrip.viota c f d a b w : RoundTrip.Statement (.viota c f d a b w) := by
  intro rest _ hw
  obtain ⟨hl, ho, hd, ha, hb, hf⟩ := word0_fields f ((0 : BitVec 2) ++ b) ((0 : BitVec 2) ++ a) ((0 : BitVec 2) ++ d) c (0x79 : BitVec 8) 1
  refine decode_of_parse (encode_viota c f d a b w) (by rw [hl]; decide) (by rw [hl]; rfl) ?_ hw
  rw [parseWords_two hl]
  unfold parse64
  rw [ho]
  show some (Instr.viota _ _ _ _ _ _) = _
  simp only [condOf_word0, hf, field_of_field _ 14 5 3 (by decide), hd, field_append, field_of_field _ 19 5 3 (by decide), ha, field_of_field _ 24 5 3 (by decide), hb, ewordOf_bits]

theorem Sys2Proof.Laws.RoundTrip.vperm c f d a b w : RoundTrip.Statement (.vperm c f d a b w) := by
  intro rest _ hw
  obtain ⟨hl, ho, hd, ha, hb, hf⟩ := word0_fields f ((0 : BitVec 2) ++ b) ((0 : BitVec 2) ++ a) ((0 : BitVec 2) ++ d) c (0x7A : BitVec 8) 1
  refine decode_of_parse (encode_vperm c f d a b w) (by rw [hl]; decide) (by rw [hl]; rfl) ?_ hw
  rw [parseWords_two hl]
  unfold parse64
  rw [ho]
  show some (Instr.vperm _ _ _ _ _ _) = _
  simp only [condOf_word0, hf, field_of_field _ 14 5 3 (by decide), hd, field_append, field_of_field _ 19 5 3 (by decide), ha, field_of_field _ 24 5 3 (by decide), hb, ewordOf_bits]

theorem Sys2Proof.Laws.RoundTrip.lit c f d lit : RoundTrip.Statement (.lit c f d lit) := by
  intro rest _ hw
  obtain ⟨hl, ho, hd, ha, hb, hf⟩ := word0_fields f (0 : BitVec 5) (0 : BitVec 5) d c (0x00 : BitVec 8) 2
  refine decode_of_parse (encode_lit c f d lit) (by rw [hl]; decide) (by rw [hl]; rfl) ?_ hw
  rw [parseWords_three hl]
  unfold parse96
  rw [ho]
  show some (Instr.lit _ _ _ _) = _
  simp only [condOf_word0, hf, hd]

theorem Sys2Proof.Laws.RoundTrip.lith c d lit : RoundTrip.Statement (.lith c d lit) := by
  intro rest _ hw
  obtain ⟨hl, ho, hd, ha, hb, hf⟩ := word0_fields (0 : BitVec 3) (0 : BitVec 5) (0 : BitVec 5) d c (0x01 : BitVec 8) 2
  refine decode_of_parse (encode_lith c d lit) (by rw [hl]; decide) (by rw [hl]; rfl) ?_ hw
  rw [parseWords_three hl]
  unfold parse96
  rw [ho]
  show some (Instr.lith _ _ _) = _
  simp only [condOf_word0, hd]

theorem Sys2Proof.Laws.RoundTrip.createContext queue : RoundTrip.Statement (.createContext queue) := fun _ h => absurd rfl h
theorem Sys2Proof.Laws.RoundTrip.destroyContext queue : RoundTrip.Statement (.destroyContext queue) := fun _ h => absurd rfl h
theorem Sys2Proof.Laws.RoundTrip.loadOperators queue : RoundTrip.Statement (.loadOperators queue) := fun _ h => absurd rfl h
theorem Sys2Proof.Laws.RoundTrip.loadExpr queue : RoundTrip.Statement (.loadExpr queue) := fun _ h => absurd rfl h
theorem Sys2Proof.Laws.RoundTrip.start queue : RoundTrip.Statement (.start queue) := fun _ h => absurd rfl h
theorem Sys2Proof.Laws.RoundTrip.preempt queue : RoundTrip.Statement (.preempt queue) := fun _ h => absurd rfl h
theorem Sys2Proof.Laws.RoundTrip.resume queue : RoundTrip.Statement (.resume queue) := fun _ h => absurd rfl h
theorem Sys2Proof.Laws.RoundTrip.readExpr queue : RoundTrip.Statement (.readExpr queue) := fun _ h => absurd rfl h
theorem Sys2Proof.Laws.RoundTrip.map queue : RoundTrip.Statement (.map queue) := fun _ h => absurd rfl h
theorem Sys2Proof.Laws.RoundTrip.unmap queue : RoundTrip.Statement (.unmap queue) := fun _ h => absurd rfl h
theorem Sys2Proof.Laws.RoundTrip.forceLease queue : RoundTrip.Statement (.forceLease queue) := fun _ h => absurd rfl h
theorem Sys2Proof.Laws.RoundTrip.injectFault queue : RoundTrip.Statement (.injectFault queue) := fun _ h => absurd rfl h
theorem Sys2Proof.Laws.RoundTrip.partition queue : RoundTrip.Statement (.partition queue) := fun _ h => absurd rfl h
theorem Sys2Proof.Laws.RoundTrip.queryCapacity queue : RoundTrip.Statement (.queryCapacity queue) := fun _ h => absurd rfl h
theorem Sys2Proof.Laws.RoundTrip.readRetirements queue : RoundTrip.Statement (.readRetirements queue) := fun _ h => absurd rfl h
theorem Sys2Proof.Laws.RoundTrip.attest queue : RoundTrip.Statement (.attest queue) := fun _ h => absurd rfl h
theorem Sys2Proof.Laws.RoundTrip.readJournal queue : RoundTrip.Statement (.readJournal queue) := fun _ h => absurd rfl h
theorem Sys2Proof.Laws.RoundTrip.qnotify agent queue tail : RoundTrip.Statement (.qnotify agent queue tail) := fun _ h => absurd rfl h
theorem Sys2Proof.Laws.RoundTrip.resetRegisterWrite v : RoundTrip.Statement (.resetRegisterWrite v) := fun _ h => absurd rfl h
theorem Sys2Proof.Laws.RoundTrip.registerWrite agent r v : RoundTrip.Statement (.registerWrite agent r v) := fun _ h => absurd rfl h
theorem Sys2Proof.Laws.RoundTrip.i3cDynamicAddress addr : RoundTrip.Statement (.i3cDynamicAddress addr) := fun _ h => absurd rfl h
theorem Sys2Proof.Laws.RoundTrip.bypass  : RoundTrip.Statement (.bypass ) := fun _ h => absurd rfl h
theorem Sys2Proof.Laws.RoundTrip.idcode  : RoundTrip.Statement (.idcode ) := fun _ h => absurd rfl h
theorem Sys2Proof.Laws.RoundTrip.samplePreload  : RoundTrip.Statement (.samplePreload ) := fun _ h => absurd rfl h
theorem Sys2Proof.Laws.RoundTrip.extest  : RoundTrip.Statement (.extest ) := fun _ h => absurd rfl h
theorem Sys2Proof.Laws.RoundTrip.powerUp  : RoundTrip.Statement (.powerUp ) := fun _ h => absurd rfl h
theorem Sys2Proof.Laws.RoundTrip.resetInput held : RoundTrip.Statement (.resetInput held) := fun _ h => absurd rfl h
theorem Sys2Proof.Laws.RoundTrip.bringupStageComplete ok : RoundTrip.Statement (.bringupStageComplete ok) := fun _ h => absurd rfl h
theorem Sys2Proof.Laws.RoundTrip.thermalTrip  : RoundTrip.Statement (.thermalTrip ) := fun _ h => absurd rfl h
theorem Sys2Proof.Laws.RoundTrip.coolantOutOfRange  : RoundTrip.Statement (.coolantOutOfRange ) := fun _ h => absurd rfl h
theorem Sys2Proof.Laws.RoundTrip.hearthOver110c hid : RoundTrip.Statement (.hearthOver110c hid) := fun _ h => absurd rfl h
theorem Sys2Proof.Laws.RoundTrip.thermalClearance hid : RoundTrip.Statement (.thermalClearance hid) := fun _ h => absurd rfl h
theorem Sys2Proof.Laws.RoundTrip.junctionClockStep hid : RoundTrip.Statement (.junctionClockStep hid) := fun _ h => absurd rfl h
theorem Sys2Proof.Laws.RoundTrip.powerControllerStep watts hid : RoundTrip.Statement (.powerControllerStep watts hid) := fun _ h => absurd rfl h
theorem Sys2Proof.Laws.RoundTrip.linkRetune unit : RoundTrip.Statement (.linkRetune unit) := fun _ h => absurd rfl h
theorem Sys2Proof.Laws.RoundTrip.emberSpillAdjust hid point : RoundTrip.Statement (.emberSpillAdjust hid point) := fun _ h => absurd rfl h
theorem Sys2Proof.Laws.RoundTrip.sweep die : RoundTrip.Statement (.sweep die) := fun _ h => absurd rfl h
theorem Sys2Proof.Laws.RoundTrip.microprogramFetchComplete hid : RoundTrip.Statement (.microprogramFetchComplete hid) := fun _ h => absurd rfl h
theorem Sys2Proof.Laws.RoundTrip.opldRequestExpiry hid ctx op : RoundTrip.Statement (.opldRequestExpiry hid ctx op) := fun _ h => absurd rfl h
theorem Sys2Proof.Laws.RoundTrip.votedPlacementTimeout uid : RoundTrip.Statement (.votedPlacementTimeout uid) := fun _ h => absurd rfl h
theorem Sys2Proof.Laws.RoundTrip.hang ctx : RoundTrip.Statement (.hang ctx) := fun _ h => absurd rfl h
theorem Sys2Proof.Laws.RoundTrip.watchdog uid : RoundTrip.Statement (.watchdog uid) := fun _ h => absurd rfl h
theorem Sys2Proof.Laws.RoundTrip.collectiveComplete uid : RoundTrip.Statement (.collectiveComplete uid) := fun _ h => absurd rfl h
theorem Sys2Proof.Laws.RoundTrip.supervisorInvocationStart hid : RoundTrip.Statement (.supervisorInvocationStart hid) := fun _ h => absurd rfl h
theorem Sys2Proof.Laws.RoundTrip.preemptionEffect ctx : RoundTrip.Statement (.preemptionEffect ctx) := fun _ h => absurd rfl h
theorem Sys2Proof.Laws.RoundTrip.saveOperatorStart ctx : RoundTrip.Statement (.saveOperatorStart ctx) := fun _ h => absurd rfl h
theorem Sys2Proof.Laws.RoundTrip.dumpWrite  : RoundTrip.Statement (.dumpWrite ) := fun _ h => absurd rfl h
theorem Sys2Proof.Laws.RoundTrip.engineCommandStart hid queue : RoundTrip.Statement (.engineCommandStart hid queue) := fun _ h => absurd rfl h
theorem Sys2Proof.Laws.RoundTrip.engineCommandComplete id : RoundTrip.Statement (.engineCommandComplete id) := fun _ h => absurd rfl h
theorem Sys2Proof.Laws.RoundTrip.copyPartLanded id n : RoundTrip.Statement (.copyPartLanded id n) := fun _ h => absurd rfl h
theorem Sys2Proof.Laws.RoundTrip.counterSignal id : RoundTrip.Statement (.counterSignal id) := fun _ h => absurd rfl h
theorem Sys2Proof.Laws.RoundTrip.freedSlotNotice id : RoundTrip.Statement (.freedSlotNotice id) := fun _ h => absurd rfl h
theorem Sys2Proof.Laws.RoundTrip.sliceAccess r err : RoundTrip.Statement (.sliceAccess r err) := fun _ h => absurd rfl h
theorem Sys2Proof.Laws.RoundTrip.storeAcknowledged uid cix op : RoundTrip.Statement (.storeAcknowledged uid cix op) := fun _ h => absurd rfl h
theorem Sys2Proof.Laws.RoundTrip.loadReply uid cix op : RoundTrip.Statement (.loadReply uid cix op) := fun _ h => absurd rfl h
theorem Sys2Proof.Laws.RoundTrip.waitaPeriodicRead uid cix : RoundTrip.Statement (.waitaPeriodicRead uid cix) := fun _ h => absurd rfl h
theorem Sys2Proof.Laws.RoundTrip.stagingLineTimeout channel line err : RoundTrip.Statement (.stagingLineTimeout channel line err) := fun _ h => absurd rfl h
theorem Sys2Proof.Laws.RoundTrip.pageWalkComplete id : RoundTrip.Statement (.pageWalkComplete id) := fun _ h => absurd rfl h
theorem Sys2Proof.Laws.RoundTrip.routerPacketAging id : RoundTrip.Statement (.routerPacketAging id) := fun _ h => absurd rfl h
theorem Sys2Proof.Laws.RoundTrip.scrubLineRead line err : RoundTrip.Statement (.scrubLineRead line err) := fun _ h => absurd rfl h
theorem Sys2Proof.Laws.RoundTrip.scoreHalving  : RoundTrip.Statement (.scoreHalving ) := fun _ h => absurd rfl h
theorem Sys2Proof.Laws.RoundTrip.eventArrival id : RoundTrip.Statement (.eventArrival id) := fun _ h => absurd rfl h
theorem Sys2Proof.Laws.RoundTrip.eventDelivery hid : RoundTrip.Statement (.eventDelivery hid) := fun _ h => absurd rfl h
theorem Sys2Proof.Laws.RoundTrip.tileMigrationComplete ctx handle : RoundTrip.Statement (.tileMigrationComplete ctx handle) := fun _ h => absurd rfl h
theorem Sys2Proof.Laws.RoundTrip.granuleMigration stack : RoundTrip.Statement (.granuleMigration stack) := fun _ h => absurd rfl h
theorem Sys2Proof.Laws.RoundTrip.leaseRotaTurn unit : RoundTrip.Statement (.leaseRotaTurn unit) := fun _ h => absurd rfl h
theorem Sys2Proof.Laws.RoundTrip.leaseRetryTimer unit : RoundTrip.Statement (.leaseRetryTimer unit) := fun _ h => absurd rfl h
theorem Sys2Proof.Laws.RoundTrip.evacuationComplete hid : RoundTrip.Statement (.evacuationComplete hid) := fun _ h => absurd rfl h
theorem Sys2Proof.Laws.RoundTrip.portDrainComplete unit : RoundTrip.Statement (.portDrainComplete unit) := fun _ h => absurd rfl h
theorem Sys2Proof.Laws.RoundTrip.portTrafficReturn unit : RoundTrip.Statement (.portTrafficReturn unit) := fun _ h => absurd rfl h
theorem Sys2Proof.Laws.RoundTrip.leaseTestComplete unit run : RoundTrip.Statement (.leaseTestComplete unit run) := fun _ h => absurd rfl h
theorem Sys2Proof.Laws.RoundTrip.capacityCounterSignal ctx : RoundTrip.Statement (.capacityCounterSignal ctx) := fun _ h => absurd rfl h
theorem Sys2Proof.Laws.RoundTrip.queueSlotIdleUnmap queue : RoundTrip.Statement (.queueSlotIdleUnmap queue) := fun _ h => absurd rfl h
theorem Sys2Proof.Laws.RoundTrip.queueMap queue : RoundTrip.Statement (.queueMap queue) := fun _ h => absurd rfl h
theorem Sys2Proof.Laws.RoundTrip.hostPostedWrite req : RoundTrip.Statement (.hostPostedWrite req) := fun _ h => absurd rfl h
theorem Sys2Proof.Laws.RoundTrip.hostRead req : RoundTrip.Statement (.hostRead req) := fun _ h => absurd rfl h
theorem Sys2Proof.Laws.RoundTrip.hostAtomic req : RoundTrip.Statement (.hostAtomic req) := fun _ h => absurd rfl h
theorem Sys2Proof.Laws.RoundTrip.remoteWrite job va bytes : RoundTrip.Statement (.remoteWrite job va bytes) := fun _ h => absurd rfl h
theorem Sys2Proof.Laws.RoundTrip.remoteCounterAdd job va amount : RoundTrip.Statement (.remoteCounterAdd job va amount) := fun _ h => absurd rfl h
theorem Sys2Proof.Laws.RoundTrip.remoteAcknowledgement id ok : RoundTrip.Statement (.remoteAcknowledgement id ok) := fun _ h => absurd rfl h
theorem Sys2Proof.Laws.RoundTrip.encodingNotInstruction why : RoundTrip.Statement (.encodingNotInstruction why) := fun _ h => absurd rfl h
theorem Sys2Proof.Laws.RoundTrip.unassignedCommandOpcode queue : RoundTrip.Statement (.unassignedCommandOpcode queue) := fun _ h => absurd rfl h
theorem Sys2Proof.Laws.RoundTrip.combiningFormApplied uid : RoundTrip.Statement (.combiningFormApplied uid) := fun _ h => absurd rfl h
theorem Sys2Proof.Laws.RoundTrip.linkRetry unit : RoundTrip.Statement (.linkRetry unit) := fun _ h => absurd rfl h
theorem Sys2Proof.Laws.RoundTrip.lossOfPower  : RoundTrip.Statement (.lossOfPower ) := fun _ h => absurd rfl h
theorem Sys2Proof.Laws.RoundTrip.orderlyShutdown  : RoundTrip.Statement (.orderlyShutdown ) := fun _ h => absurd rfl h
theorem Sys2Proof.Laws.RoundTrip.earlyLeaseHoldoffExpiry unit : RoundTrip.Statement (.earlyLeaseHoldoffExpiry unit) := fun _ h => absurd rfl h
theorem Sys2Proof.Laws.RoundTrip.inletTemperatureChange degrees inRange : RoundTrip.Statement (.inletTemperatureChange degrees inRange) := fun _ h => absurd rfl h
end

