-- ==== Sys2Proof/Tests/Slice0.lean ====
section
/-!
SUPPORT. Tests on single words and single steps, an ill-formed term for each check, and for every statement of the certificate a state
and operands that meet its hypotheses. Expected values are taken from the spec's tables, never from the model.
-/

namespace Sys2Proof.Tests

set_option Elab.async false

open Sys2Proof Sys2Proof.Machine

/-! Decoding. The words are the sums of chapter 3 (Table 3.12): f·2^29 + b·2^24 + a·2^19 + d·2^14 + negate·2^13 + q·2^10 + opcode·4 + len,
here with the condition !q3. -/

def rw (f b a d op len : Nat) : Word32 :=
  BitVec.ofNat 32 (f * 2 ^ 29 + b * 2 ^ 24 + a * 2 ^ 19 + d * 2 ^ 14 + 1 * 2 ^ 13 + 3 * 2 ^ 10 + op * 4 + len)
def iw (imm a d op : Nat) : Word32 := BitVec.ofNat 32 (imm * 2 ^ 24 + a * 2 ^ 19 + d * 2 ^ 14 + 1 * 2 ^ 13 + 3 * 2 ^ 10 + op * 4)
def jw (off op : Nat) : Word32 := BitVec.ofNat 32 (off * 2 ^ 14 + 1 * 2 ^ 13 + 3 * 2 ^ 10 + op * 4)

/-- Memory word 1 (Table 3.4) and engine word 1 (Table 3.6). -/
def mw (offset type evict scope ord : Nat) : Word32 :=
  BitVec.ofNat 32 (offset * 2 ^ 12 + type * 2 ^ 8 + evict * 2 ^ 5 + scope * 2 ^ 2 + ord)
def ew (acc sat pri tc tb ta rnd e c : Nat) : Word32 :=
  BitVec.ofNat 32 (acc * 2 ^ 27 + sat * 2 ^ 26 + pri * 2 ^ 24 + tc * 2 ^ 20 + tb * 2 ^ 16 + ta * 2 ^ 12 + rnd * 2 ^ 8 + e * 2 ^ 4 + c)

/-- Each list of words is read as its instruction. -/
def reads (l : List (List Word32 × Instr)) : Prop := l.map (fun p => decode p.1) = l.map (fun p => .ok p.2)

theorem test_decode_control :
    reads
      [([(rw 0 0 0 0 0x00 0)], .nop ⟨true, 3⟩),
       ([(rw 0 0 0 0 0x01 0)], .commit ⟨true, 3⟩),
       ([(rw 0 0 0 0 0x02 0)], .discard ⟨true, 3⟩),
       ([(rw 0 0 0 0 0x03 0)], .yield ⟨true, 3⟩),
       ([(iw 154 0 0 0x04)], .trap ⟨true, 3⟩ 154),
       ([(rw 0 0 0 0 0x05 0)], .brkpt ⟨true, 3⟩),
       ([(jw 0x2ABCD 0x06)], .br ⟨true, 3⟩ 0x2ABCD),
       ([(jw 0x2ABCD 0x07)], .call ⟨true, 3⟩ 0x2ABCD),
       ([(rw 0 0 9 0 0x08 0)], .brx ⟨true, 3⟩ 9),
       ([(rw 0 0 9 0 0x09 0)], .retn ⟨true, 3⟩ 9)] := by rfl

theorem test_decode_predicate :
    reads
      [([(rw 5 30 9 5 0x10 0)], .cmp ⟨true, 3⟩ 5 5 9 30),
       ([(rw 5 30 9 5 0x11 0)], .fcmp ⟨true, 3⟩ 5 5 9 30),
       ([(rw 0 6 3 5 0x12 0)], .pand ⟨true, 3⟩ 5 3 6),
       ([(rw 0 6 3 5 0x13 0)], .por ⟨true, 3⟩ 5 3 6),
       ([(rw 0 6 3 5 0x14 0)], .pxor ⟨true, 3⟩ 5 3 6),
       ([(rw 0 0 3 5 0x15 0)], .pnot ⟨true, 3⟩ 5 3),
       ([(rw 0 0 3 5 0x16 0)], .pmov ⟨true, 3⟩ 5 3),
       ([(rw 5 30 9 21 0x17 0)], .sel ⟨true, 3⟩ 5 21 9 30),
       ([(iw 154 9 5 0x18)], .cmpiEq ⟨true, 3⟩ 5 9 154),
       ([(iw 154 9 5 0x19)], .cmpiNe ⟨true, 3⟩ 5 9 154),
       ([(iw 154 9 5 0x1A)], .cmpiLt ⟨true, 3⟩ 5 9 154),
       ([(iw 154 9 5 0x1B)], .cmpiLe ⟨true, 3⟩ 5 9 154),
       ([(iw 154 9 5 0x1C)], .cmpiGt ⟨true, 3⟩ 5 9 154),
       ([(iw 154 9 5 0x1D)], .cmpiGe ⟨true, 3⟩ 5 9 154),
       ([(iw 154 9 5 0x1E)], .cmpiLtu ⟨true, 3⟩ 5 9 154),
       ([(iw 154 9 5 0x1F)], .cmpiGeu ⟨true, 3⟩ 5 9 154)] := by rfl

theorem test_decode_integer :
    reads
      [([(rw 0 30 9 21 0x20 0)], .add ⟨true, 3⟩ 21 9 30),
       ([(rw 0 30 9 21 0x21 0)], .sub ⟨true, 3⟩ 21 9 30),
       ([(rw 0 30 9 21 0x22 0)], .mul ⟨true, 3⟩ 21 9 30),
       ([(rw 0 30 9 21 0x23 0)], .mulhi ⟨true, 3⟩ 21 9 30),
       ([(rw 0 30 9 21 0x24 0)], .mulhiu ⟨true, 3⟩ 21 9 30),
       ([(rw 0 30 9 21 0x25 0)], .div ⟨true, 3⟩ 21 9 30),
       ([(rw 0 30 9 21 0x26 0)], .divu ⟨true, 3⟩ 21 9 30),
       ([(rw 0 30 9 21 0x27 0)], .rem ⟨true, 3⟩ 21 9 30),
       ([(rw 0 30 9 21 0x28 0)], .remu ⟨true, 3⟩ 21 9 30),
       ([(rw 0 30 9 21 0x29 0)], .and ⟨true, 3⟩ 21 9 30),
       ([(rw 0 30 9 21 0x2A 0)], .or ⟨true, 3⟩ 21 9 30),
       ([(rw 0 30 9 21 0x2B 0)], .xor ⟨true, 3⟩ 21 9 30),
       ([(rw 0 30 9 21 0x2C 0)], .shl ⟨true, 3⟩ 21 9 30),
       ([(rw 0 30 9 21 0x2D 0)], .shr ⟨true, 3⟩ 21 9 30),
       ([(rw 0 30 9 21 0x2E 0)], .sra ⟨true, 3⟩ 21 9 30),
       ([(rw 0 30 9 21 0x2F 0)], .rol ⟨true, 3⟩ 21 9 30),
       ([(rw 0 30 9 21 0x30 0)], .min ⟨true, 3⟩ 21 9 30),
       ([(rw 0 30 9 21 0x31 0)], .max ⟨true, 3⟩ 21 9 30),
       ([(rw 0 30 9 21 0x32 0)], .minu ⟨true, 3⟩ 21 9 30),
       ([(rw 0 30 9 21 0x33 0)], .maxu ⟨true, 3⟩ 21 9 30),
       ([(rw 0 0 9 21 0x34 0)], .abs ⟨true, 3⟩ 21 9),
       ([(rw 0 0 9 21 0x35 0)], .neg ⟨true, 3⟩ 21 9),
       ([(rw 0 0 9 21 0x36 0)], .clz ⟨true, 3⟩ 21 9),
       ([(rw 0 0 9 21 0x37 0)], .ctz ⟨true, 3⟩ 21 9),
       ([(rw 0 0 9 21 0x38 0)], .popc ⟨true, 3⟩ 21 9),
       ([(rw 2 0 9 21 0x39 0)], .sext ⟨true, 3⟩ 2 21 9),
       ([(rw 2 0 9 21 0x3A 0)], .zext ⟨true, 3⟩ 2 21 9),
       ([(rw 0 0 9 21 0x3B 0)], .mov ⟨true, 3⟩ 21 9),
       ([(iw 154 9 21 0x40)], .addi ⟨true, 3⟩ 21 9 154),
       ([(iw 154 9 21 0x41)], .andi ⟨true, 3⟩ 21 9 154),
       ([(iw 154 9 21 0x42)], .ori ⟨true, 3⟩ 21 9 154),
       ([(iw 154 9 21 0x43)], .xori ⟨true, 3⟩ 21 9 154),
       ([(iw 45 9 21 0x44)], .shli ⟨true, 3⟩ 21 9 45),
       ([(iw 45 9 21 0x45)], .shri ⟨true, 3⟩ 21 9 45),
       ([(iw 45 9 21 0x46)], .srai ⟨true, 3⟩ 21 9 45),
       ([(iw 45 9 21 0x47)], .roli ⟨true, 3⟩ 21 9 45),
       ([(iw 154 0 21 0x48)], .movi ⟨true, 3⟩ 21 154)] := by rfl

theorem test_decode_float :
    reads
      [([(rw 3 30 9 21 0x50 0)], .fadd ⟨true, 3⟩ 3 21 9 30),
       ([(rw 3 30 9 21 0x51 0)], .fsub ⟨true, 3⟩ 3 21 9 30),
       ([(rw 3 30 9 21 0x52 0)], .fmul ⟨true, 3⟩ 3 21 9 30),
       ([(rw 3 30 9 21 0x53 0)], .fdiv ⟨true, 3⟩ 3 21 9 30),
       ([(rw 3 0 9 21 0x54 0)], .fsqrt ⟨true, 3⟩ 3 21 9),
       ([(rw 0 30 9 21 0x55 0)], .fmin ⟨true, 3⟩ 21 9 30),
       ([(rw 0 30 9 21 0x56 0)], .fmax ⟨true, 3⟩ 21 9 30),
       ([(rw 0 0 9 21 0x57 0)], .fabs ⟨true, 3⟩ 21 9),
       ([(rw 0 0 9 21 0x58 0)], .fneg ⟨true, 3⟩ 21 9),
       ([(rw 0 0 9 21 0x59 0)], .fclass ⟨true, 3⟩ 21 9)] := by rfl

theorem test_decode_symbol :
    reads
      [([(rw 0 0 0 21 0x60 0)], .symrd ⟨true, 3⟩ 21),
       ([(rw 0 0 0 21 0x61 0)], .symkd ⟨true, 3⟩ 21),
       ([(rw 0 9 9 21 0x62 0)], .mksym ⟨true, 3⟩ 9 21 9),
       ([(rw 0 0 11 21 0x63 0)], .movs ⟨true, 3⟩ 21 11),
       ([(rw 1 0 9 21 0x64 0)], .symget ⟨true, 3⟩ 1 21 9),
       ([(rw 0 30 9 21 0x65 0)], .bcast ⟨true, 3⟩ 21 9 30),
       ([(rw 5 0 9 21 0x66 0)], .reduceInt ⟨true, 3⟩ 5 21 9),
       ([(rw 2 0 9 21 0x67 0)], .reduceFp32 ⟨true, 3⟩ 2 21 9),
       ([(rw 5 0 9 21 0x68 0)], .scanInt ⟨true, 3⟩ 5 21 9),
       ([(rw 2 0 9 21 0x69 0)], .scanFp32 ⟨true, 3⟩ 2 21 9),
       ([(rw 0 0 3 21 0x6A 0)], .count ⟨true, 3⟩ 21 3),
       ([(rw 0 0 3 21 0x6B 0)], .first ⟨true, 3⟩ 21 3),
       ([(rw 0 0 0 0 0x6C 0)], .areabar ⟨true, 3⟩),
       ([(rw 0 0 9 6 0x6D 0)], .emit ⟨true, 3⟩ 6 9),
       ([(rw 0 30 9 6 0x6E 0)], .emitn ⟨true, 3⟩ 6 9 30),
       ([(rw 0 0 9 0 0x6F 0)], .insert ⟨true, 3⟩ 9),
       ([(rw 0 0 0 0 0x70 0)], .delete ⟨true, 3⟩),
       ([(rw 0 0 9 0 0x71 0)], .opld ⟨true, 3⟩ 9)] := by rfl

theorem test_decode_tile_and_barrier :
    reads
      [([(rw 0 0 9 5 0x72 0)], .movd ⟨true, 3⟩ 5 9),
       ([(rw 0 0 3 21 0x73 0)], .movds ⟨true, 3⟩ 21 3),
       ([(rw 5 0 9 5 0x74 0)], .dset ⟨true, 3⟩ 5 5 9),
       ([(rw 0 0 9 5 0x75 0)], .talloc ⟨true, 3⟩ 5 9),
       ([(rw 0 0 3 0 0x76 0)], .tfree ⟨true, 3⟩ 3),
       ([(rw 0 10 0 0 0x77 0)], .qfence ⟨true, 3⟩ 10),
       ([(rw 0 10 0 0 0x78 0)], .qwait ⟨true, 3⟩ 10),
       ([(rw 0 30 9 0 0x79 0)], .slotrel ⟨true, 3⟩ 9 30),
       ([(rw 0 0 9 0 0x7A 0)], .unsubs ⟨true, 3⟩ 9),
       ([(rw 0 30 9 0 0x7B 0)], .binit ⟨true, 3⟩ 9 30),
       ([(rw 0 0 9 0 0x7C 0)], .barv ⟨true, 3⟩ 9),
       ([(rw 0 30 9 0 0x7D 0)], .bexp ⟨true, 3⟩ 9 30),
       ([(rw 0 30 9 5 0x7E 0)], .bwait ⟨true, 3⟩ 5 9 30),
       ([(rw 0 30 9 5 0x7F 0)], .btry ⟨true, 3⟩ 5 9 30)] := by rfl

theorem test_decode_event_and_system :
    reads
      [([(rw 6 2 0 0 0x80 0)], .fence ⟨true, 3⟩ 6 2),
       ([(rw 2 30 9 0 0x81 0)], .popset ⟨true, 3⟩ 2 9 30),
       ([(rw 2 30 9 0 0x82 0)], .evsend ⟨true, 3⟩ 2 9 30),
       ([(rw 2 0 9 21 0x83 0)], .accrd ⟨true, 3⟩ 2 21 9),
       ([(rw 2 30 9 0 0x84 0)], .accwr ⟨true, 3⟩ 2 9 30),
       ([(rw 2 30 9 0 0x85 0)], .accfl ⟨true, 3⟩ 2 9 30),
       ([(rw 0 0 9 0 0x86 0)], .evwait ⟨true, 3⟩ 9),
       ([(rw 0 0 9 21 0x87 0)], .caprd ⟨true, 3⟩ 21 9),
       ([(rw 0 0 9 21 0x88 0)], .susrd ⟨true, 3⟩ 21 9),
       ([(rw 0 0 0 0 0x89 0)], .tretResume ⟨true, 3⟩),
       ([(rw 1 0 0 0 0x89 0)], .tretSkip ⟨true, 3⟩),
       ([(rw 2 0 0 0 0x89 0)], .tretDiscard ⟨true, 3⟩),
       ([(rw 3 0 0 0 0x89 0)], .tretKill ⟨true, 3⟩),
       ([(rw 0 0 9 21 0x8A 0)], .areard ⟨true, 3⟩ 21 9),
       ([(rw 0 30 9 0 0x8B 0)], .areawr ⟨true, 3⟩ 9 30),
       ([(rw 0 0 9 0 0x8C 0)], .savec ⟨true, 3⟩ 9),
       ([(rw 0 0 9 0 0x8D 0)], .restc ⟨true, 3⟩ 9),
       ([(rw 0 30 9 0 0x8E 0)], .tlbinv ⟨true, 3⟩ 9 30),
       ([(rw 1 0 9 21 0x8F 0)], .rdctr ⟨true, 3⟩ 1 21 9),
       ([(rw 0 0 9 0 0x90 0)], .mark ⟨true, 3⟩ 9),
       ([(rw 0 30 9 0 0x91 0)], .hostsig ⟨true, 3⟩ 9 30)] := by rfl

theorem test_decode_long :
    reads
      [([(rw 5 30 9 0 0x00 1), (BitVec.ofNat 32 (0x2ABCD * 2 ^ 14))], .brc ⟨true, 3⟩ 5 9 30 0x2ABCD),
       ([(rw 0 0 0 21 0x01 1), (BitVec.ofNat 32 (0x2ABCD * 2 ^ 14))], .loop ⟨true, 3⟩ 21 0x2ABCD),
       ([(rw 0 0 9 21 0x02 1), (BitVec.ofNat 32 (37 * 2 ^ 6 + 22))], .bext ⟨true, 3⟩ 21 9 37 22),
       ([(rw 0 0 9 21 0x03 1), (BitVec.ofNat 32 (37 * 2 ^ 6 + 22))], .bins ⟨true, 3⟩ 21 9 37 22),
       ([(rw 3 30 9 21 0x04 1), 18], .ffma ⟨true, 3⟩ 3 21 9 30 18),
       ([(rw 0 0 9 21 0x05 1), (BitVec.ofNat 32 (1 * 2 ^ 11 + 3 * 2 ^ 8 + 4 * 2 ^ 4 + 9))], .fcvt ⟨true, 3⟩ 21 9 true 3 4 9),
       ([(rw 2 30 9 0 0x06 1), 18], .evsendt ⟨true, 3⟩ 2 9 30 18),
       ([(rw 0 0 0 21 0x08 1), 0x205], .csrrd ⟨true, 3⟩ 21 0x205),
       ([(rw 0 0 9 0 0x09 1), 0x205], .csrwr ⟨true, 3⟩ 9 0x205),
       ([(rw 1 0 0 21 0x00 2), 0, 0x89ABCDEF], .lit ⟨true, 3⟩ 1 21 0x89ABCDEF),
       ([(rw 0 0 0 21 0x01 2), 0, 0x89ABCDEF], .lith ⟨true, 3⟩ 21 0x89ABCDEF)] := by rfl

theorem test_decode_memory :
    reads
      [([(rw 0 0 9 21 0x10 1), (mw 0xFEDCB 3 5 5 1)], .ld ⟨true, 3⟩ 21 9 ⟨0xFEDCB, 3, 5, 5, 1⟩),
       ([(rw 0 30 9 0 0x11 1), (mw 0xFEDCB 1 5 5 2)], .st ⟨true, 3⟩ 9 30 ⟨0xFEDCB, 1, 5, 5, 2⟩),
       ([(rw 0 0 9 0 0x12 1), (mw 0xFEDCB 0 5 5 0)], .pref ⟨true, 3⟩ 9 ⟨0xFEDCB, 0, 5, 5, 0⟩),
       ([(rw 0 30 9 21 0x13 1), (mw 0xFEDCB 6 5 5 3)], .aadd ⟨true, 3⟩ 21 9 30 ⟨0xFEDCB, 6, 5, 5, 3⟩),
       ([(rw 0 30 9 21 0x14 1), (mw 0xFEDCB 9 5 5 3)], .afadd ⟨true, 3⟩ 21 9 30 ⟨0xFEDCB, 9, 5, 5, 3⟩),
       ([(rw 0 30 9 21 0x15 1), (mw 0xFEDCB 6 5 5 3)], .amin ⟨true, 3⟩ 21 9 30 ⟨0xFEDCB, 6, 5, 5, 3⟩),
       ([(rw 0 30 9 21 0x16 1), (mw 0xFEDCB 6 5 5 3)], .amax ⟨true, 3⟩ 21 9 30 ⟨0xFEDCB, 6, 5, 5, 3⟩),
       ([(rw 0 30 9 21 0x17 1), (mw 0xFEDCB 6 5 5 3)], .aand ⟨true, 3⟩ 21 9 30 ⟨0xFEDCB, 6, 5, 5, 3⟩),
       ([(rw 0 30 9 21 0x18 1), (mw 0xFEDCB 6 5 5 3)], .aor ⟨true, 3⟩ 21 9 30 ⟨0xFEDCB, 6, 5, 5, 3⟩),
       ([(rw 0 30 9 21 0x19 1), (mw 0xFEDCB 6 5 5 3)], .axor ⟨true, 3⟩ 21 9 30 ⟨0xFEDCB, 6, 5, 5, 3⟩),
       ([(rw 0 30 9 21 0x1A 1), (mw 0xFEDCB 6 5 5 3)], .aswp ⟨true, 3⟩ 21 9 30 ⟨0xFEDCB, 6, 5, 5, 3⟩),
       ([(rw 0 30 9 21 0x1B 1), (mw 0xFEDCB 6 5 5 3)], .acas ⟨true, 3⟩ 21 9 30 ⟨0xFEDCB, 6, 5, 5, 3⟩),
       ([(rw 5 30 9 0 0x1C 1), (mw 0xFEDCB 5 5 5 1)], .waita ⟨true, 3⟩ 5 9 30 ⟨0xFEDCB, 5, 5, 5, 1⟩),
       ([(rw 0 30 9 0 0x29 1), (mw 0xFEDCB 6 5 5 2)], .cadd ⟨true, 3⟩ 9 30 ⟨0xFEDCB, 6, 5, 5, 2⟩),
       ([(rw 0 30 9 0 0x2A 1), (mw 0xFEDCB 6 5 5 1)], .cwait ⟨true, 3⟩ 9 30 ⟨0xFEDCB, 6, 5, 5, 1⟩)] := by rfl

theorem test_decode_copy :
    reads
      [([(rw 6 30 9 5 0x20 1), (mw 0xFEDCB 0 5 5 0)], .cpyin ⟨true, 3⟩ 2 true 5 9 30 ⟨0xFEDCB, 0, 5, 5, 0⟩),
       ([(rw 6 30 9 5 0x21 1), (mw 0xFEDCB 0 5 5 0)], .cpyout ⟨true, 3⟩ 2 true 5 9 30 ⟨0xFEDCB, 0, 5, 5, 0⟩),
       ([(rw 6 30 3 5 0x22 1), (mw 0x0 0 5 5 0)], .cpyt ⟨true, 3⟩ 2 true 5 3 30 ⟨0x0, 0, 5, 5, 0⟩),
       ([(rw 6 30 9 5 0x23 1), (mw 0xFED 0 5 6 0)], .cpyx ⟨true, 3⟩ 2 true 5 9 30 ⟨0xFED, 0, 5, 6, 0⟩),
       ([(rw 2 6 9 5 0x24 1), (mw 0xFEDCB 0 5 5 0)], .gather ⟨true, 3⟩ 2 5 9 6 ⟨0xFEDCB, 0, 5, 5, 0⟩),
       ([(rw 2 6 9 5 0x25 1), (mw 0xFEDCB 0 5 5 0)], .scatter ⟨true, 3⟩ 2 5 9 6 ⟨0xFEDCB, 0, 5, 5, 0⟩),
       ([(rw 2 6 9 5 0x26 1), (mw 0xFEDCB 0 5 5 0)], .scatadd ⟨true, 3⟩ 2 5 9 6 ⟨0xFEDCB, 0, 5, 5, 0⟩),
       ([(rw 2 30 9 21 0x27 1), (mw 0xFEDCB 0 5 5 0)], .subscr ⟨true, 3⟩ 2 21 9 30 ⟨0xFEDCB, 0, 5, 5, 0⟩),
       ([(rw 2 30 9 0 0x28 1), (mw 0xFEDCB 0 5 5 0)], .slotwb ⟨true, 3⟩ 2 9 30 ⟨0xFEDCB, 0, 5, 5, 0⟩),
       ([(rw 2 0 9 5 0x2B 1), (mw 0xFEDCB 0 5 5 0)], .tld ⟨true, 3⟩ 2 5 9 ⟨0xFEDCB, 0, 5, 5, 0⟩),
       ([(rw 2 6 9 0 0x2C 1), (mw 0xFEDCB 0 5 5 0)], .tst ⟨true, 3⟩ 2 9 6 ⟨0xFEDCB, 0, 5, 5, 0⟩)] := by rfl

theorem test_decode_matrix :
    reads
      [([(rw 0 6 3 5 0x40 1), (ew 1 1 2 9 7 7 0 0 0)], .mma ⟨true, 3⟩ 0 5 3 6 ⟨true, true, 2, 9, 7, 7, 0, 0, 0⟩),
       ([(rw 0 6 3 5 0x41 1), (ew 1 1 2 4 1 1 0 0 0)], .mmai ⟨true, 3⟩ 0 5 3 6 ⟨true, true, 2, 4, 1, 1, 0, 0, 0⟩),
       ([(rw 0 6 3 5 0x42 1), (ew 0 0 2 9 12 12 0 0 0)], .mmax ⟨true, 3⟩ 0 5 3 6 ⟨false, false, 2, 9, 12, 12, 0, 0, 0⟩),
       ([(rw 5 6 3 5 0x43 1), (ew 0 1 2 9 13 9 0 0 7)], .scacc ⟨true, 3⟩ 5 5 3 6 ⟨false, true, 2, 9, 13, 9, 0, 0, 7⟩),
       ([(rw 0 0 3 5 0x44 1), (ew 0 0 2 10 0 10 0 0 0)], .ttrn ⟨true, 3⟩ 0 5 3 0 ⟨false, false, 2, 10, 0, 10, 0, 0, 0⟩),
       ([(rw 4 0 3 5 0x45 1), (ew 0 1 2 12 0 0 1 2 7)], .tcvt ⟨true, 3⟩ 4 5 3 0 ⟨false, true, 2, 12, 0, 0, 1, 2, 7⟩),
       ([(rw 1 0 3 5 0x46 1), (ew 0 0 2 9 0 9 0 0 7)], .cxsort ⟨true, 3⟩ 1 5 3 0 ⟨false, false, 2, 9, 0, 9, 0, 0, 7⟩),
       ([(rw 1 6 3 5 0x47 1), (ew 0 0 2 4 4 4 0 0 7)], .cxmerge ⟨true, 3⟩ 1 5 3 6 ⟨false, false, 2, 4, 4, 4, 0, 0, 7⟩)] := by rfl

theorem test_decode_vector :
    reads
      [([(rw 0 0 0 5 0x48 1), (ew 0 0 2 14 0 0 0 0 0)], .tzero ⟨true, 3⟩ 0 5 0 0 ⟨false, false, 2, 14, 0, 0, 0, 0, 0⟩),
       ([(rw 0 30 0 5 0x49 1), (ew 0 0 2 6 0 0 0 0 0)], .tfill ⟨true, 3⟩ 0 5 0 30 ⟨false, false, 2, 6, 0, 0, 0, 0, 0⟩),
       ([(rw 0 0 3 5 0x4A 1), (ew 0 0 2 12 0 12 0 0 0)], .tlay ⟨true, 3⟩ 0 5 3 0 ⟨false, false, 2, 12, 0, 12, 0, 0, 0⟩),
       ([(rw 0 6 3 5 0x60 1), (ew 0 1 2 9 8 7 4 0 0)], .vadd ⟨true, 3⟩ 0 5 3 6 ⟨false, true, 2, 9, 8, 7, 4, 0, 0⟩),
       ([(rw 0 6 3 5 0x61 1), (ew 0 1 2 4 3 2 0 0 0)], .vsub ⟨true, 3⟩ 0 5 3 6 ⟨false, true, 2, 4, 3, 2, 0, 0, 0⟩),
       ([(rw 0 6 3 5 0x62 1), (ew 0 0 2 8 9 10 3 0 0)], .vmul ⟨true, 3⟩ 0 5 3 6 ⟨false, false, 2, 8, 9, 10, 3, 0, 0⟩),
       ([(rw 0 6 3 5 0x63 1), (ew 0 1 2 9 8 7 2 0 7)], .vfma ⟨true, 3⟩ 0 5 3 6 ⟨false, true, 2, 9, 8, 7, 2, 0, 7⟩),
       ([(rw 0 6 3 5 0x64 1), (ew 0 0 2 3 3 3 0 0 0)], .vmin ⟨true, 3⟩ 0 5 3 6 ⟨false, false, 2, 3, 3, 3, 0, 0, 0⟩),
       ([(rw 0 6 3 5 0x65 1), (ew 0 0 2 11 11 11 0 0 0)], .vmax ⟨true, 3⟩ 0 5 3 6 ⟨false, false, 2, 11, 11, 11, 0, 0, 0⟩),
       ([(rw 0 0 3 5 0x66 1), (ew 0 1 2 2 0 2 0 0 0)], .vabs ⟨true, 3⟩ 0 5 3 0 ⟨false, true, 2, 2, 0, 2, 0, 0, 0⟩),
       ([(rw 0 0 3 5 0x67 1), (ew 0 0 2 8 0 8 0 0 0)], .vneg ⟨true, 3⟩ 0 5 3 0 ⟨false, false, 2, 8, 0, 8, 0, 0, 0⟩),
       ([(rw 0 6 3 5 0x68 1), (ew 0 0 2 14 14 14 0 0 0)], .vand ⟨true, 3⟩ 0 5 3 6 ⟨false, false, 2, 14, 14, 14, 0, 0, 0⟩),
       ([(rw 0 6 3 5 0x69 1), (ew 0 0 2 13 13 13 0 0 0)], .vor ⟨true, 3⟩ 0 5 3 6 ⟨false, false, 2, 13, 13, 13, 0, 0, 0⟩),
       ([(rw 0 6 3 5 0x6A 1), (ew 0 0 2 5 5 5 0 0 0)], .vxor ⟨true, 3⟩ 0 5 3 6 ⟨false, false, 2, 5, 5, 5, 0, 0, 0⟩),
       ([(rw 0 6 3 5 0x6B 1), (ew 0 0 2 5 1 5 0 0 0)], .vshl ⟨true, 3⟩ 0 5 3 6 ⟨false, false, 2, 5, 1, 5, 0, 0, 0⟩),
       ([(rw 1 6 3 5 0x6C 1), (ew 0 0 2 4 1 4 0 0 0)], .vshr ⟨true, 3⟩ 1 5 3 6 ⟨false, false, 2, 4, 1, 4, 0, 0, 0⟩),
       ([(rw 7 6 3 5 0x6D 1), (ew 0 0 2 14 9 9 0 0 0)], .vcmp ⟨true, 3⟩ 7 5 3 6 ⟨false, false, 2, 14, 9, 9, 0, 0, 0⟩),
       ([(rw 0 6 3 5 0x6E 1), (ew 0 0 2 9 9 9 0 0 7)], .vsel ⟨true, 3⟩ 0 5 3 6 ⟨false, false, 2, 9, 9, 9, 0, 0, 7⟩),
       ([(rw 0 0 3 5 0x6F 1), (ew 0 1 2 12 0 12 1 2 7)], .vcvt ⟨true, 3⟩ 0 5 3 0 ⟨false, true, 2, 12, 0, 12, 1, 2, 7⟩),
       ([(rw 4 30 3 5 0x70 1), (ew 0 1 2 9 0 7 1 0 0)], .vscl ⟨true, 3⟩ 4 5 3 30 ⟨false, true, 2, 9, 0, 7, 1, 0, 0⟩),
       ([(rw 0 6 3 5 0x71 1), (ew 0 0 2 6 6 6 0 0 0)], .vclmp ⟨true, 3⟩ 0 5 3 6 ⟨false, false, 2, 6, 6, 6, 0, 0, 0⟩),
       ([(rw 2 6 3 5 0x72 1), (ew 0 1 2 9 8 7 1 0 0)], .vbcr ⟨true, 3⟩ 2 5 3 6 ⟨false, true, 2, 9, 8, 7, 1, 0, 0⟩),
       ([(rw 4 6 3 5 0x73 1), (ew 0 0 2 4 4 4 0 0 0)], .vbcc ⟨true, 3⟩ 4 5 3 6 ⟨false, false, 2, 4, 4, 4, 0, 0, 0⟩),
       ([(rw 2 0 3 5 0x74 1), (ew 1 1 2 9 0 7 1 0 0)], .vrsum ⟨true, 3⟩ 2 5 3 0 ⟨true, true, 2, 9, 0, 7, 1, 0, 0⟩),
       ([(rw 1 0 3 5 0x75 1), (ew 1 1 2 6 0 4 0 0 0)], .vcsum ⟨true, 3⟩ 1 5 3 0 ⟨true, true, 2, 6, 0, 4, 0, 0, 0⟩),
       ([(rw 2 0 3 5 0x76 1), (ew 0 0 2 9 4 9 0 0 7)], .vrr ⟨true, 3⟩ 2 5 3 0 ⟨false, false, 2, 9, 4, 9, 0, 0, 7⟩),
       ([(rw 5 6 3 5 0x77 1), (ew 0 1 2 8 9 9 1 0 0)], .vfn ⟨true, 3⟩ 5 5 3 6 ⟨false, true, 2, 8, 9, 9, 1, 0, 0⟩),
       ([(rw 7 0 3 0 0x78 1), (ew 0 0 0 0 0 9 0 0 0)], .vtbl ⟨true, 3⟩ 7 0 3 0 ⟨false, false, 0, 0, 0, 9, 0, 0, 0⟩),
       ([(rw 2 0 0 5 0x79 1), (ew 0 1 2 9 0 0 1 0 0)], .viota ⟨true, 3⟩ 2 5 0 0 ⟨false, true, 2, 9, 0, 0, 1, 0, 0⟩),
       ([(rw 1 6 3 5 0x7A 1), (ew 0 0 2 8 4 8 0 0 0)], .vperm ⟨true, 3⟩ 1 5 3 6 ⟨false, false, 2, 8, 4, 8, 0, 0, 0⟩)] := by rfl
/-! What the checks refuse. -/

def al : Cond := ⟨false, 0⟩

/-- One term for each check of `Instr.assigned`, with a value that its table does not list (Tables 3.5, 3.7, 3.9 and the chapters). -/
theorem test_unassigned_terms_refused :
    [Instr.sext al 3 1 1, .zext al 7 1 1, .fadd al 5 1 1 1, .fsub al 6 1 1 1, .fmul al 7 1 1 1, .fdiv al 5 1 1 1, .fsqrt al 5 1 1,
     .ffma al 5 1 1 1 1, .mksym al 12 1 1, .movs al 1 12, .symget al 2 1 1, .reduceFp32 al 3 1 1, .scanFp32 al 3 1 1, .qfence al 0,
     .qwait al 0, .fence al 7 1, .fence al 0 0, .rdctr al 2 1 1, .fcvt al 1 1 false 5 0 0, .fcvt al 1 1 false 0 15 0,
     .fcvt al 1 1 false 0 0 15, .csrrd al 1 0x121, .csrwr al 1 0x008,
     .ld al 1 1 ⟨0, 7, 0, 0, 0⟩, .ld al 1 1 ⟨0, 0, 0, 7, 0⟩, .ld al 1 1 ⟨0, 0, 0, 0, 2⟩, .st al 1 1 ⟨0, 0, 0, 0, 1⟩, .pref al 1 ⟨0, 1, 0, 0, 0⟩,
     .aadd al 1 1 1 ⟨0, 3, 0, 0, 0⟩, .afadd al 1 1 1 ⟨0, 8, 0, 0, 0⟩, .amin al 1 1 1 ⟨0, 7, 0, 0, 0⟩, .amax al 1 1 1 ⟨0, 0, 0, 0, 0⟩,
     .aand al 1 1 1 ⟨0, 9, 0, 0, 0⟩, .aor al 1 1 1 ⟨0, 1, 0, 0, 0⟩, .axor al 1 1 1 ⟨0, 2, 0, 0, 0⟩, .aswp al 1 1 1 ⟨0, 4, 0, 7, 0⟩,
     .acas al 1 1 1 ⟨0, 15, 0, 0, 0⟩, .waita al 0 1 1 ⟨0, 4, 0, 0, 2⟩, .cadd al 1 1 ⟨0, 5, 0, 0, 0⟩, .cwait al 1 1 ⟨0, 6, 0, 0, 3⟩,
     .cpyin al 0 false 1 1 1 ⟨0, 1, 0, 0, 0⟩, .cpyout al 0 false 1 1 1 ⟨0, 0, 0, 0, 1⟩, .cpyt al 0 false 1 1 1 ⟨0, 0, 0, 7, 0⟩,
     .cpyx al 0 false 1 1 1 ⟨0, 0, 0, 5, 0⟩, .gather al 0 1 1 1 ⟨0, 2, 0, 0, 0⟩, .scatter al 0 1 1 1 ⟨0, 0, 0, 0, 2⟩,
     .scatadd al 0 1 1 1 ⟨0, 6, 0, 0, 0⟩, .subscr al 0 1 1 1 ⟨0, 0, 0, 0, 3⟩, .slotwb al 0 1 1 ⟨0, 3, 0, 0, 0⟩, .tld al 0 1 1 ⟨0, 9, 0, 0, 0⟩,
     .tst al 0 1 1 ⟨0, 0, 0, 7, 0⟩].all (fun i => !i.assigned) = true := by rfl

theorem test_unassigned_engine_terms_refused :
    [Instr.mma al 0 1 1 1 ⟨false, false, 0, 9, 8, 7, 0, 0, 0⟩, .mmai al 0 1 1 1 ⟨false, false, 0, 4, 2, 2, 0, 0, 0⟩,
     .mmax al 0 1 1 1 ⟨false, false, 0, 9, 12, 11, 0, 0, 0⟩, .scacc al 0 1 1 1 ⟨false, false, 0, 9, 12, 9, 0, 0, 0⟩,
     .ttrn al 0 1 1 0 ⟨false, false, 0, 12, 0, 12, 0, 0, 0⟩, .tcvt al 5 1 1 0 ⟨false, false, 0, 9, 0, 0, 0, 0, 0⟩,
     .tcvt al 0 1 1 0 ⟨false, false, 0, 9, 0, 9, 5, 0, 0⟩, .cxsort al 2 1 1 0 ⟨false, false, 0, 4, 0, 4, 0, 0, 0⟩,
     .cxmerge al 0 1 1 1 ⟨false, false, 0, 6, 6, 6, 0, 0, 0⟩, .tzero al 0 1 0 0 ⟨false, false, 0, 15, 0, 0, 0, 0, 0⟩,
     .tfill al 0 1 0 1 ⟨false, false, 0, 15, 0, 0, 0, 0, 0⟩, .tlay al 0 1 1 0 ⟨false, false, 0, 9, 0, 8, 0, 0, 0⟩,
     .vadd al 0 1 1 1 ⟨false, false, 0, 9, 9, 4, 0, 0, 0⟩, .vsub al 0 1 1 1 ⟨false, false, 0, 9, 12, 9, 0, 0, 0⟩,
     .vmul al 0 1 1 1 ⟨false, false, 0, 9, 9, 9, 5, 0, 0⟩, .vfma al 0 1 1 1 ⟨false, false, 0, 13, 9, 9, 0, 0, 0⟩,
     .vmin al 0 1 1 1 ⟨false, false, 0, 9, 8, 9, 0, 0, 0⟩, .vmax al 0 1 1 1 ⟨false, false, 0, 12, 12, 12, 0, 0, 0⟩,
     .vabs al 0 1 1 0 ⟨false, false, 0, 14, 0, 14, 0, 0, 0⟩, .vneg al 0 1 1 0 ⟨false, false, 0, 3, 0, 2, 0, 0, 0⟩,
     .vand al 0 1 1 1 ⟨false, false, 0, 12, 12, 12, 0, 0, 0⟩, .vor al 0 1 1 1 ⟨false, false, 0, 15, 15, 15, 0, 0, 0⟩,
     .vxor al 0 1 1 1 ⟨false, false, 0, 4, 4, 5, 0, 0, 0⟩, .vshl al 0 1 1 1 ⟨false, false, 0, 9, 4, 9, 0, 0, 0⟩,
     .vshr al 2 1 1 1 ⟨false, false, 0, 4, 4, 4, 0, 0, 0⟩, .vcmp al 6 1 1 1 ⟨false, false, 0, 14, 4, 4, 0, 0, 0⟩,
     .vsel al 0 1 1 1 ⟨false, false, 0, 12, 12, 12, 0, 0, 0⟩, .vcvt al 0 1 1 0 ⟨false, false, 0, 15, 0, 9, 0, 0, 0⟩,
     .vscl al 5 1 1 1 ⟨false, false, 0, 9, 0, 9, 0, 0, 0⟩, .vclmp al 0 1 1 1 ⟨false, false, 0, 13, 13, 13, 0, 0, 0⟩,
     .vbcr al 5 1 1 1 ⟨false, false, 0, 9, 9, 9, 0, 0, 0⟩, .vbcc al 3 1 1 1 ⟨false, false, 0, 9, 8, 9, 0, 0, 0⟩,
     .vrsum al 3 1 1 0 ⟨false, false, 0, 9, 0, 9, 0, 0, 0⟩, .vcsum al 0 1 1 0 ⟨false, false, 0, 4, 0, 9, 0, 0, 0⟩,
     .vrr al 3 1 1 0 ⟨false, false, 0, 9, 4, 9, 0, 0, 0⟩, .vfn al 0 1 1 0 ⟨false, false, 0, 4, 0, 9, 0, 0, 0⟩,
     .vtbl al 5 0 1 0 ⟨false, false, 0, 0, 0, 9, 0, 0, 0⟩, .viota al 3 1 0 0 ⟨false, false, 0, 9, 0, 0, 0, 0, 0⟩,
     .vperm al 0 1 1 1 ⟨false, false, 0, 9, 6, 9, 0, 0, 0⟩, .lit al 2 1 0,
     .vabs al 0 1 1 0 ⟨false, false, 0, 9, 15, 9, 0, 0, 0⟩, .vmin al 0 1 1 1 ⟨false, false, 0, 9, 9, 9, 5, 0, 0⟩,
     .tcvt al 1 1 1 0 ⟨false, false, 0, 9, 0, 15, 0, 0, 0⟩, .mma al 0 1 1 1 ⟨false, false, 0, 9, 7, 7, 6, 0, 0⟩].all (fun i => !i.assigned) = true := by rfl

/-- One term for each check of `Instr.res0`: a field that the row does not use is not zero (R50, R175). -/
theorem test_reserved_terms_refused :
    [Instr.cpyt al 0 false 1 1 1 ⟨1, 0, 0, 0, 0⟩, .cpyx al 0 false 1 1 1 ⟨0x1000, 0, 0, 6, 0⟩,
     .mma al 1 1 1 1 ⟨false, false, 0, 9, 7, 7, 0, 0, 0⟩, .mmai al 0 1 1 1 ⟨false, false, 0, 4, 1, 1, 1, 0, 0⟩,
     .mmax al 0 1 1 1 ⟨true, false, 0, 9, 12, 12, 0, 0, 0⟩, .scacc al 0 1 1 1 ⟨true, false, 0, 9, 13, 9, 0, 0, 0⟩,
     .ttrn al 0 1 1 1 ⟨false, false, 0, 9, 0, 9, 0, 0, 0⟩, .tcvt al 1 1 1 0 ⟨false, false, 0, 9, 0, 1, 0, 0, 0⟩,
     .tcvt al 0 1 1 0 ⟨false, false, 0, 9, 0, 9, 0, 1, 0⟩, .cxsort al 0 1 1 0 ⟨false, true, 0, 4, 0, 4, 0, 0, 0⟩,
     .cxmerge al 0 1 1 1 ⟨false, false, 0, 4, 4, 4, 1, 0, 0⟩, .tzero al 0 1 1 0 ⟨false, false, 0, 9, 0, 0, 0, 0, 0⟩,
     .tfill al 0 1 0 1 ⟨false, false, 0, 9, 1, 0, 0, 0, 0⟩, .tlay al 1 1 1 0 ⟨false, false, 0, 9, 0, 9, 0, 0, 0⟩,
     .vadd al 0 1 1 1 ⟨false, false, 0, 4, 4, 4, 1, 0, 0⟩, .vsub al 0 1 1 1 ⟨true, false, 0, 9, 9, 9, 0, 0, 0⟩,
     .vmul al 1 1 1 1 ⟨false, false, 0, 9, 9, 9, 0, 0, 0⟩, .vfma al 0 1 1 1 ⟨false, false, 0, 9, 9, 9, 0, 1, 0⟩,
     .vmin al 0 1 1 1 ⟨false, true, 0, 9, 9, 9, 0, 0, 0⟩, .vmax al 0 1 1 1 ⟨false, false, 0, 9, 9, 9, 1, 0, 0⟩,
     .vabs al 0 1 1 0 ⟨false, true, 0, 9, 0, 9, 0, 0, 0⟩, .vneg al 0 1 1 1 ⟨false, false, 0, 9, 0, 9, 0, 0, 0⟩,
     .vand al 0 1 1 1 ⟨false, false, 0, 4, 4, 4, 0, 0, 1⟩, .vor al 1 1 1 1 ⟨false, false, 0, 4, 4, 4, 0, 0, 0⟩,
     .vxor al 0 1 1 1 ⟨true, false, 0, 4, 4, 4, 0, 0, 0⟩, .vshl al 0 1 1 1 ⟨false, true, 0, 4, 4, 4, 0, 0, 0⟩,
     .vshr al 0 1 1 1 ⟨false, false, 0, 4, 4, 4, 0, 1, 0⟩, .vcmp al 0 1 1 1 ⟨false, false, 0, 14, 4, 4, 1, 0, 0⟩,
     .vsel al 0 1 1 1 ⟨false, false, 0, 4, 4, 4, 0, 1, 0⟩, .vcvt al 0 1 1 0 ⟨false, false, 0, 9, 0, 9, 0, 0, 1⟩,
     .vscl al 0 1 1 1 ⟨false, false, 0, 9, 1, 9, 0, 0, 0⟩, .vclmp al 0 1 1 1 ⟨false, true, 0, 9, 9, 9, 0, 0, 0⟩,
     .vbcr al 0 1 1 1 ⟨false, false, 0, 4, 4, 4, 1, 0, 0⟩, .vbcc al 0 1 1 1 ⟨true, false, 0, 9, 9, 9, 0, 0, 0⟩,
     .vrsum al 0 1 1 1 ⟨false, false, 0, 9, 0, 9, 0, 0, 0⟩, .vcsum al 0 1 1 0 ⟨false, false, 0, 9, 1, 9, 0, 0, 0⟩,
     .vrr al 0 1 1 0 ⟨true, false, 0, 9, 9, 9, 0, 0, 0⟩, .vfn al 0 1 1 1 ⟨false, false, 0, 9, 0, 9, 0, 0, 0⟩,
     .vtbl al 6 1 1 0 ⟨false, false, 0, 0, 0, 9, 0, 0, 0⟩, .viota al 0 1 0 0 ⟨false, false, 0, 9, 0, 9, 0, 0, 0⟩,
     .vperm al 0 1 1 1 ⟨false, true, 0, 9, 4, 9, 0, 0, 0⟩, .vtbl al 6 0 1 0 ⟨false, false, 2, 0, 0, 9, 0, 0, 0⟩].all (fun i => i.assigned && !i.res0) = true := by rfl

/-- Table 3.9: the word that is no instruction, and which check refuses it. -/
theorem test_words_refused :
    [[rw 0 0 0 0 0x0A 0], [rw 3 0 9 21 0x39 0], [rw 0 0 12 21 0x63 0], [rw 0 0 0 0 0x77 0], [rw 0 0 0 0 0x80 0], [rw 0 12 9 21 0x62 0],
     [rw 4 0 0 0 0x89 0], [rw 0 0 9 21 0x10 1, mw 0 6 3 7 0], [rw 2 0 0 21 0x00 2, 0, 0], [rw 0 0 0 0 0x02 2, 0, 0],
     [rw 0 9 9 9 0x07 1, 0], [rw 0 0 0 0 0x92 0]].map decode = List.replicate 12 (.error .illegalOpcode) ∧
    [[rw 0 0 0 1 0x00 0], [rw 0 30 9 8 0x10 0], [rw 0 0 9 8 0x72 0], [rw 0 17 0 0 0x77 0], [iw 64 9 21 0x44],
     [rw 0 0 0 21 0x00 2, 1, 0], [rw 1 0 0 21 0x01 2, 0, 0], [rw 4 30 9 0 0x81 0], [rw 0 0 9 21 0x05 1, 0x1000]].map decode =
      List.replicate 9 (.error (.reservedField false)) ∧
    decode [rw 0 1 9 21 0x88 0] = .error (.reservedField true) ∧
    decode [rw 0 0 9 21 0x10 1] = .error .noExit ∧ decode [3] = .error .illegalLength := by
  refine ⟨rfl, rfl, rfl, rfl, rfl⟩

/-! Stepping: the word placed for the next fetch is the one that runs (from reset, log 5). -/

/-- `movi s1, −1` (0x48, I-form): one step after reset with its word placed leaves −1 in s1 of the cell and 4 in its pc. -/
theorem test_step_runs_placed_word :
    (match step (State.reset.withFetchWord 32 0xFF004120) with
     | .next t => ((t.area 0).bind (fun a => a.cells.find 0)).map (fun k => (k.sreg 1, k.pc))
     | _ => none) = some (0xFFFFFFFFFFFFFFFF#64, 4#64) := by rfl

/-! States that meet the hypotheses of the statements, at boundary values where a statement has several clauses. -/

/-- Operator entries: a plain one, a privileged one, a voted one. -/
def entry (priv voted : Bool) : OpEntry := ⟨4294967295, 64, priv, false, voted, 0⟩

def cell (l : Tab Word) : Cell := { Cell.start 0 with s := l }

/-- An active area of context 0 with the one cell `k`. -/
def area (kd : AKind) (e : OpEntry) (k : Cell) : Area :=
  { Area.start 0 kd 0 0 0 [(0, k)] 0 with phase := .active, code := [(0, [])], entry := some e }

def launch0 : Launch := ⟨0, 1, 0, 1, 2, 3, false, 0, 0, 0, 0, 0, 0, 0, 0x10000, 128⟩

def ctx0 : Ctx :=
  ⟨0, 0x10000, 0, true, 0, 0, 0, 0, .running, some launch0, 0, false, false, 0, 0, 0, false, 0, false, 0, 0, [], 0, [], [], 0, 0, none, 0, [], []⟩

/-- Pages 1 and 2 of device memory, readable and writable; page 3 is page 0 of host memory; page 4 is encrypted with key 5; page 5 is
readable alone. -/
def page (v : Nat) (pte : Nat) : Trans := ⟨0, false, v, BitVec.ofNat 64 pte⟩
def tlb0 : List Trans :=
  [page 1 0x1000F, page 2 0x2000F, page 3 (2 ^ 47 + 0xF), page 4 (0x4000F + 2 ^ 7 + 5 * 2 ^ 48), page 5 0x50007]

/-- A slot of four units with a barrier word at its byte 16 (handle 7), and plain slots (handles 1 to 5). -/
def slot (unit : Nat) (tags : List Nat) : Slot := ⟨0, unit, 4, 0, tags, none, false, false⟩
def slots0 : Tab Slot := [(1, slot 4 []), (2, slot 8 []), (3, slot 12 []), (4, slot 16 []), (5, slot 20 []), (7, slot 0 [16])]

/-- Stage 7 with context 0, the issuing cell being cell 0 of area 1. -/
def st (a : Area) : State :=
  { State.reset with
    stage := 7, cur := (1, 0), nextUid := 10, ctxs := [(0, ctx0)], areas := [(1, a)], slots := slots0
    hearths := [(0, { Hearth.reset with tlb := tlb0 })] }

/-- A program's cell with scalars `l`, and one of a privileged area. -/
def ua (l : Tab Word) : Area := area .user (entry false false) (cell l)
def pa (l : Tab Word) : Area := area .user (entry true false) (cell l)

theorem issues_cell (kd : AKind) (e : OpEntry) (l : Tab Word) (regs : List SReg) :
    (st (area kd e (cell l))).issues al regs (area kd e (cell l)) (cell l) := ⟨rfl, rfl, rfl, rfl, rfl, rfl⟩

theorem wit_IntegerTwoSourceResults (l : Tab Word) : (st (ua l)).issues al [3, 1, 2] (ua l) (cell l) := issues_cell ..
theorem wit_IntegerOneSourceResults (l : Tab Word) : (st (ua l)).issues al [3, 1] (ua l) (cell l) := issues_cell ..
theorem wit_BitCountResults (l : Tab Word) : (st (ua l)).issues al [0, 31] (ua l) (cell l) := issues_cell ..

/-- A zero divisor, the signed overflow, and an ordinary division, each with a register destination and with s0. -/
theorem wit_DivisionResults :
    (∀ l d, (st (ua l)).issues al [d, 1, 2] (ua l) (cell l)) ∧ (cell [(1, 7)]).sreg 2 = 0 ∧
    (cell [(1, Claims.minInt), (2, 0xFFFFFFFFFFFFFFFF)]).sreg 1 = Claims.minInt ∧
    ((cell [(1, Claims.minInt), (2, 0xFFFFFFFFFFFFFFFF)]).sreg 2).toInt = -1 ∧ (cell [(1, Claims.minInt), (2, 1)]).sreg 2 ≠ 0 := by
  refine ⟨fun l d => issues_cell .., rfl, rfl, rfl, by decide⟩

theorem wit_NonInstructionsRaise (l : Tab Word) :
    (st (ua l)).area (st (ua l)).cur.1 = some (ua l) ∧ (ua l).cells.find 0 = some (cell l) ∧ (ua l).privileged = false ∧
      (pa l).privileged = true := ⟨rfl, rfl, rfl, rfl⟩

theorem wit_EncodedInstructionsDecode : encode (.bins ⟨true, 7⟩ 31 31 63 63) ≠ [] ∧ (Instr.bins ⟨true, 7⟩ 31 31 63 63).wf = true := ⟨by decide, rfl⟩

/-- A lane turn that serves an instruction, words that are none, and no words at all; an event turn. -/
def laneState (code : List Byte) (pc : Word) : State :=
  { st (area .user (entry false false) { cell [] with pc := pc }) with
    agenda := [⟨0, .lane 0 0 [0]⟩]
    areas := [(1, { area .user (entry false false) { cell [] with pc := pc } with code := [(0, code)] })] }

theorem wit_StepRunsTheDecodedInstruction :
    (laneState [0, 0, 0, 0] 0).pick 0 0 [0] = some (0, 1, 0) ∧ decodeBytes [0, 0, 0, 0] = .ok (.nop al) ∧
    (laneState [3, 0, 0, 0] 0).pick 0 0 [0] = some (0, 1, 0) ∧ decodeBytes [3, 0, 0, 0] = .error .illegalLength ∧
    (laneState [0, 0, 0, 0] 4).pick 0 0 [0] = some (0, 1, 0) ∧ isEvent .powerUp = true ∧
    (∀ k ∈ [Act.upset (.tileCorrected 0), .route 5 6, .host 1 .plain (.read 0 8)],
      ({ st (ua []) with agenda := [⟨0, k⟩] } : State).agenda = ⟨0, k⟩ :: []) := by
  refine ⟨rfl, rfl, rfl, rfl, rfl, rfl, fun _ _ => rfl⟩

theorem wit_MemoriesStayCanonical : Claims.canonicalMemories (laneState [0, 0, 0, 0] 0) ∧
    (match step (laneState [0, 0, 0, 0] 0) with | .next _ => true | _ => false) = true := ⟨⟨rfl, rfl, rfl⟩, rfl⟩

theorem wit_FinishedInstructionFrame (l : Tab Word) (f : Cell → Cell) :
    (st (ua l)).area 1 = some (ua l) ∧ (ua l).cells.find 0 = some (cell l) ∧
      ∃ t, t = (st (ua l)).finish (cell l) 1 f ∧ (cell l).pc + 4 = (cell l).pc + BitVec.ofNat 64 (4 * 1) := ⟨rfl, rfl, _, rfl, rfl⟩

/-- The condition !q0 is false; a poisoned q1 decides under strict control; a privileged instruction in a plain area. -/
theorem wit_FalseConditionSkips : encode (.add ⟨true, 0⟩ 1 2 3) ≠ [] ∧ Claims.condition (.add ⟨true, 0⟩ 1 2 3) = ⟨true, 0⟩ ∧
    (cell []).cond ⟨true, 0⟩ = false ∧ (cell []).qpsn 0 = false ∧ Claims.collective (.add ⟨true, 0⟩ 1 2 3) = false :=
  ⟨by decide, rfl, rfl, rfl, rfl⟩

theorem wit_PoisonedConditionFaults : Claims.condition (.add ⟨false, 1⟩ 1 2 3) = ⟨false, 1⟩ ∧
    (({ cell [] with psn := 2 ^ 33 } : Cell).qpsn 1 = true ∨ ({ cell [] with psn := 2 ^ 41 } : Cell).qpsn 1 = true) ∧
    ({ st (ua []) with ctxs := [(0, { ctx0 with strict := true })] } : State).strict 0 = true := by
  refine ⟨rfl, by decide, rfl⟩

theorem wit_PrivilegedOpcodesNeedPrivilege : (Instr.mark al 1).privileged = true ∧ (ua []).privileged = false ∧
    (st (ua [])).area 1 = some (ua []) := ⟨rfl, rfl, rfl⟩

/-- A running area, and one that a fault of cell `i` holds while cell 0 raises another. -/
def faulted (i : Nat) : Area := { ua [] with phase := .held, trap := some ⟨0x12, 0, 0, false, false, i, 8, 0, 1, 0⟩ }
theorem wit_FaultHoldsTheArea : (ua []).kind = .user ∧ (ua []).phase ≠ .held ∧ (st (ua [])).area (st (ua [])).nextUid = none ∧
    (st (ua [])).area 1 = some (ua []) ∧ (∀ i, (st (faulted i)).area 1 = some (faulted i) ∧ (faulted i).cells.find 0 = some (cell []) ∧
      (faulted i).phase = .held) ∧ (faulted 1).trap.map (·.fcix) = some 1 ∧ (faulted 0).trap.map (·.fcix) = some 0 :=
  ⟨rfl, by decide, rfl, rfl, fun _ => ⟨rfl, rfl, rfl⟩, rfl, rfl⟩

theorem wit_CompareResults (l : Tab Word) : (st (ua l)).issues al [1, 2] (ua l) (cell l) ∧ (st (ua l)).issues al [1] (ua l) (cell l) :=
  ⟨issues_cell .., issues_cell ..⟩
theorem wit_FloatCompareResults (l : Tab Word) : (st (ua l)).issues al [1, 2] (ua l) (cell l) := issues_cell ..
theorem wit_PredicateResults (l : Tab Word) : (st (ua l)).issues al [] (ua l) (cell l) ∧ (st (ua l)).issues al [3, 1, 2] (ua l) (cell l) ∧
    (cell []).qreg 0 = true ∧ (cell []).qreg 1 = false := ⟨issues_cell .., issues_cell .., rfl, by decide⟩
theorem wit_LiteralAndFieldResults (l : Tab Word) : (st (ua l)).issues al [0] (ua l) (cell l) ∧ (st (ua l)).issues al [3, 1] (ua l) (cell l) :=
  ⟨issues_cell .., issues_cell ..⟩
theorem wit_GeneratorDraws : (3 : Nat) ≠ 4 := by decide
theorem wit_FloatArithmeticResults (l : Tab Word) : (st (ua l)).issues al [3, 1, 2, 4] (ua l) (cell l) ∧
    (st (ua l)).issues al [3, 1, 2] (ua l) (cell l) ∧ (st (ua l)).issues al [3, 1] (ua l) (cell l) :=
  ⟨issues_cell .., issues_cell .., issues_cell ..⟩
theorem wit_FloatSelectionResults (l : Tab Word) : (st (ua l)).issues al [3, 1, 2] (ua l) (cell l) ∧
    (st (ua l)).issues al [3, 1] (ua l) (cell l) := ⟨issues_cell .., issues_cell ..⟩
theorem wit_ConversionResults (l : Tab Word) : (st (ua l)).issues al [3, 1] (ua l) (cell l) := issues_cell ..
theorem wit_NarrowCodesReturnFromFp32 : 13 ∈ [0, 1, 2, 3, 7, 8, 10, 11, 12, 13] ∧ 255 < 2 ^ typeBits 13 ∧
    (∀ n, decodeT 13 255 ≠ .inf n) := ⟨by decide, by decide, by intro n h; exact Val.noConfusion h⟩

/-- The greatest and the last code of a grid, infinity, NaN; the random mode with the greatest draw. -/
theorem wit_RoundingOnTheGrid : Claims.gridOf 12 = some (1, -1, 8) ∧ 15 < 2 ^ typeBits 12 ∧ 15 % 8 < 8 ∧ Claims.gridOf 9 = some (23, -149, 0x7F800000) ∧
    0xFF800000 % 2 ^ 31 = 0x7F800000 ∧ 0x7F800000 < 0xFFFFFFFF % 2 ^ 31 ∧ Claims.gridOf 10 = some (3, -9, 0x7F) ∧ 0xFF % 2 ^ 7 = 0x7F ∧
    (∀ t ∈ [7, 8, 9, 10, 11, 12], (Claims.gridOf t).isSome = true) ∧ (65535 < 2 ^ 16) ∧ (4 : Nat) ≤ 4 := by decide
theorem wit_ArithmeticIsExact : (1 : Nat) ≠ 0 ∧ (Val.nan false 0).isNan = true ∧ Claims.real true 0 5 = 0 := ⟨by decide, rfl, by norm_num [Claims.real, Claims.size]⟩
theorem wit_QuotientsAndRootsRoundOnce : 0x7F7FFFFF % 2 ^ 31 < 0x7F800000 ∧ 1 % 2 ^ 31 ≠ 0 ∧ 0xFF800000 % 2 ^ 31 = 0x7F800000 ∧
    2 ^ 31 % 2 ^ 31 = 0 ∧ (2 : Nat) ^ 31 < 0x80000001 := by decide
theorem wit_FloatsRoundToIntegers : decodeT 9 0xC0200000 = .fin true 0xA00000 (-22) ∧ (decodeT 8 0x7E00).isNan = true ∧
    decodeT 11 0x7C = .inf false ∧ (12 : Nat) ≤ 12 ∧ (6 : Nat) ≤ 6 := by decide

/-- A supervisor cell, a program's cell, and a cix that the area has not. -/
theorem wit_SymbolReads (l : Tab Word) : (ua l).kind = .user ∧ (st (ua l)).issues al [3] (ua l) (cell l) ∧
    (st (ua l)).issues al [3, 1] (ua l) (cell l) ∧ AKind.supervisor .save = true ∧
    (st (area .save (entry true false) (cell l))).issues al [3] (area .save (entry true false) (cell l)) (cell l) ∧
    (ua l).cells.find ((cell [(1, 0)]).sreg 1).toNat = some (cell l) ∧ (ua l).cells.find ((cell [(1, 1)]).sreg 1).toNat = none :=
  ⟨rfl, issues_cell .., issues_cell .., rfl, issues_cell .., rfl, rfl⟩
theorem wit_SpecialRegisterReads (l : Tab Word) : (ua l).kind = .user ∧ (cell l).sup = none ∧ (st (ua l)).issues al [3] (ua l) (cell l) :=
  ⟨rfl, rfl, issues_cell ..⟩
theorem wit_DescriptorMoves (l : Tab Word) : (st (ua l)).issues al [1] (ua l) (cell l) := issues_cell ..

/-- A count of 65,535 and of 65,536, a position below the count and at it. -/
theorem wit_RewriteRecords :
    (∀ l, (st (ua l)).issues al [1, 2] (ua l) (cell l) ∧ (st (ua l)).issues al [1] (ua l) (cell l) ∧ (st (ua l)).issues al [] (ua l) (cell l)) ∧
    (ua []).kind.supervisor = false ∧ AKind.supervisor (.trap 1) = true ∧ ((cell [(1, 65535)]).sreg 1).toNat ≤ 65535 ∧
    65535 < ((cell [(1, 65536)]).sreg 1).toNat ∧
    ((cell [(2, 1)]).sreg 2).toNat < ({ cell [(2, 1)] with rw := ⟨.keep, 2, []⟩ } : Cell).rw.n ∧
    ({ cell [(2, 1)] with rw := ⟨.keep, 1, []⟩ } : Cell).rw.n ≤ ((cell [(2, 1)]).sreg 2).toNat :=
  ⟨fun l => ⟨issues_cell .., issues_cell .., issues_cell ..⟩, rfl, rfl, by decide, by decide, by decide, by decide⟩

/-- Counters 0, 1 and 2, and s0. -/
theorem wit_LoopCountsDown : (∀ l d, (st (ua l)).issues al [d] (ua l) (cell l)) ∧ (cell [(1, 0)]).spsn 1 = false ∧
    (cell [(1, 0)]).sreg 1 ≠ 1 ∧ (cell [(1, 1)]).sreg 1 = 1 ∧ (cell [(1, 2)]).sreg 1 ≠ 1 :=
  ⟨fun l d => issues_cell .., rfl, by decide, rfl, by decide⟩
theorem wit_BranchesAndHints : (∀ l, (st (ua l)).issues al [] (ua l) (cell l) ∧ (st (ua l)).issues al [31] (ua l) (cell l) ∧
    (st (ua l)).issues al [1, 2] (ua l) (cell l)) ∧ Claims.compares 5 ((cell []).sreg 1) ((cell []).sreg 2) ∧
    ¬Claims.compares 6 ((cell []).sreg 1) ((cell []).sreg 2) :=
  ⟨fun _ => ⟨issues_cell .., issues_cell .., issues_cell ..⟩, Int.le_refl _, Nat.lt_irrefl _⟩
theorem wit_RegisterBranches : (∀ l, (st (ua l)).issues al [1] (ua l) (cell l)) ∧ ((cell [(1, 2)]).sreg 1).toNat % 4 ≠ 0 ∧
    ((cell [(1, 4)]).sreg 1).toNat % 4 = 0 ∧ ctx0.trace.getLsbD 1 = false ∧ ({ ctx0 with trace := 2 } : Ctx).trace.getLsbD 1 = true :=
  ⟨fun l => issues_cell .., by decide, by decide, rfl, rfl⟩

/-- A cell whose s1 is poisoned, in a strict context and in another. -/
def psnCell (v : Word) : Cell := { cell [(1, v)] with psn := 2 }
theorem wit_PoisonIsConsumedByControl :
    (st (area .user (entry false false) (psnCell 5))).issues al [1, 2] (area .user (entry false false) (psnCell 5)) (psnCell 5) ∧
    (psnCell 5).spsn 1 = true ∧ (psnCell 5).sreg 1 ≠ 1 ∧ (st (ua [])).strict 0 = false ∧
    ({ st (ua []) with ctxs := [(0, { ctx0 with strict := true })] } : State).strict 0 = true :=
  ⟨⟨rfl, rfl, rfl, rfl, rfl, rfl⟩, rfl, by decide, rfl, rfl⟩
theorem wit_TrapAndBreakpoint (l : Tab Word) : (st (ua l)).issues al [] (ua l) (cell l) ∧ ctx0.brk = false ∧
    ({ ctx0 with brk := true } : Ctx).brk = true := ⟨issues_cell .., rfl, rfl⟩

/-- An area of one cell, and one whose other cell runs on. -/
def two (k : Cell) : Area := { ua [] with cells := [(0, k), (1, Cell.start 1)] }
theorem wit_CommitAndDiscardStop : (st (ua [])).issues al [] (ua []) (cell []) ∧ (ua []).kind = .user ∧
    ((ua []).cells.all (fun p => p.1 = 0 || p.2.stop ≠ .running)) = true ∧ (st (two (cell []))).issues al [] (two (cell [])) (cell []) ∧
    ((two (cell [])).cells.all (fun p => p.1 = 0 || p.2.stop ≠ .running)) = false :=
  ⟨issues_cell .., rfl, rfl, ⟨rfl, rfl, rfl, rfl, rfl, rfl⟩, rfl⟩

theorem wit_CollectiveArrivals (l : Tab Word) : (st (ua l)).area 1 = some (ua l) ∧ (ua l).cells.find 0 = some (cell l) ∧
    (cell l).qpsn 0 = false ∧ (cell l).cond ⟨true, 0⟩ = false ∧ (cell l).cond al = true ∧ (cell l).pend.any (fun x => [1].contains x.1) = false ∧
    (cell l).awaitsMem [1] = false := ⟨rfl, rfl, rfl, rfl, rfl, rfl, rfl⟩

/-- Two cells that have arrived at REDUCE.add. -/
def arrived (v : Word) : Cell := { cell [] with arrs := [⟨0x66, 0, true, true, 3, v, false, 0⟩], coll := 1 }
def reducing : Area := { ua [] with cells := [(0, arrived 2), (1, { arrived 3 with phys := 1 })] }
theorem wit_CollectiveResults : (st reducing).area 1 = some reducing ∧ reducing.phase = .active ∧
    (((st reducing).ctx 0).map Ctx.live).getD false = true ∧ reducing.cells.Pairwise (fun p q => p.1 < q.1) ∧
    (∀ p ∈ reducing.cells, p.1 < reducing.cells.length) ∧ reducing.cells.find 0 = some (arrived 2) ∧
    (∀ p ∈ reducing.cells, p.2.stop ≠ .running ∨ p.2.arrs ≠ []) ∧
    (∀ p ∈ reducing.cells, ∀ y ∈ p.2.arrs.head?, y.opcode = 0x66 ∧ y.f = 0) :=
  ⟨rfl, rfl, rfl, by decide, by decide, rfl, by decide, by decide⟩

/-! Memory. -/

def md (off : BitVec 20) (t : BitVec 4) : MWord := ⟨off, t, 3, 4, 0⟩

/-- The homes of accesses: plain, host and encrypted pages, and a tile slot, in the last bytes that fit. -/
theorem home_dev : Claims.home (st (ua [])) 1 0 0 0x1FFF8 8 .both (.dev 0x1FFF8 none) (some (page 1 0x1000F)) :=
  ⟨rfl, .inr ⟨rfl, rfl, _, rfl, rfl, rfl, rfl⟩⟩
theorem home_host : Claims.home (st (ua [])) 1 0 0 0x30000 8 .write (.host 0) (some (page 3 (2 ^ 47 + 0xF))) :=
  ⟨rfl, .inr ⟨rfl, rfl, _, rfl, rfl, rfl, rfl⟩⟩
theorem home_encrypted : Claims.home (st (ua [])) 1 0 0 0x40040 8 .write (.dev 0x40040 (some 5)) (some (page 4 (0x4000F + 2 ^ 7 + 5 * 2 ^ 48))) :=
  ⟨rfl, .inr ⟨rfl, rfl, _, rfl, rfl, rfl, rfl⟩⟩

/-- The tile window's address of byte `off` of handle `h`. -/
def tw (h off : Nat) : Word := BitVec.ofNat 64 (0xFFFFFFF * 2 ^ 36 + h * 2 ^ 16 + off)
theorem home_tile : Claims.home (st (ua [])) 1 0 0 (tw 7 4088) 8 .write (.tile 7 4088 4088) none :=
  ⟨rfl, .inl ⟨rfl, rfl, 7, slot 0 [16], rfl, rfl, rfl, by decide, .inr rfl, rfl⟩⟩
theorem home_tile_read : Claims.home (st (ua [])) 1 0 0 (tw 7 16) 8 .read (.tile 7 16 16) none :=
  ⟨rfl, .inl ⟨rfl, rfl, 7, slot 0 [16], rfl, rfl, rfl, by decide, .inl rfl, rfl⟩⟩

/-- Each check of an access: misaligned; no slot; a slot of another hearth; past the slot; over a barrier word; not canonical; read
alone. -/
theorem wit_AccessFaults : (∀ l, (st (ua l)).issues al [3, 1] (ua l) (cell l) ∧ (st (ua l)).issues al [1, 2] (ua l) (cell l)) ∧
    (cell [(1, 0x10001)]).addr 1 (md 0 6) = 0x10001 ∧ (0x10001 : Nat) % accWidth 6 ≠ 0 ∧
    inTileWindow (tw 9 0) = true ∧ (st (ua [])).slotOf 1 0 9 = none ∧
    ({ st (ua []) with slots := [(7, { slot 0 [] with hid := 1 })] } : State).slotOf 1 0 7 = some (7, { slot 0 [] with hid := 1 }) ∧
    (st (ua [])).slotOf 1 0 7 = some (7, slot 0 [16]) ∧ (slot 0 [16]).units * 1024 < 4096 + accWidth 0 ∧
    (slot 0 [16]).meetsTag 23 1 = true ∧ (slot 0 [16]).meetsTag 24 8 = false ∧
    inTileWindow (BitVec.ofNat 64 (2 ^ 54)) = false ∧ canonical (BitVec.ofNat 64 (2 ^ 54)) = false ∧
    (st (ua [])).cached 0 0 0x50000 = some (page 5 0x50007) ∧ (page 5 0x50007).allows .write = false :=
  ⟨fun l => ⟨issues_cell .., issues_cell ..⟩, rfl, by decide, rfl, rfl, rfl, rfl, by decide, rfl, rfl, rfl, rfl, rfl, rfl⟩

/-- The issuing cell with s1 = `a` goes to a home of its access. -/
theorem goes_dev (t : BitVec 4) (n : Need) (w : Nat) (h : Claims.home (st (ua [(1, 0x1FFF8)])) 1 0 0 0x1FFF8 w n (.dev 0x1FFF8 none)
    (some (page 1 0x1000F))) : Claims.goes (st (ua [(1, 0x1FFF8)])) (ua [(1, 0x1FFF8)]) (cell [(1, 0x1FFF8)]) 1 (md 0 t) w n
    (.dev 0x1FFF8 none) (some (page 1 0x1000F)) := ⟨rfl, Nat.zero_lt_succ _, (fun _ _ h => nomatch h), h⟩

theorem wit_LoadIssues : (st (ua [(1, 0x1FFF8)])).issues al [3, 1] (ua [(1, 0x1FFF8)]) (cell [(1, 0x1FFF8)]) ∧ Claims.accessType 6 ∧
    Claims.goes (st (ua [(1, 0x1FFF8)])) (ua [(1, 0x1FFF8)]) (cell [(1, 0x1FFF8)]) 1 (md 0 6) 8 .read (.dev 0x1FFF8 none)
      (some (page 1 0x1000F)) ∧
    Claims.goes (st (ua [(1, tw 7 16)])) (ua [(1, tw 7 16)]) (cell [(1, tw 7 16)]) 1 (md 0 6) 8 .read (.tile 7 16 16) none :=
  ⟨issues_cell .., .inl (by decide), goes_dev _ _ _ ⟨rfl, .inr ⟨rfl, rfl, _, rfl, rfl, rfl, rfl⟩⟩, rfl, Nat.zero_lt_succ _, (fun _ _ h => nomatch h),
    ⟨rfl, .inl ⟨rfl, rfl, 7, slot 0 [16], rfl, rfl, rfl, by decide, .inl rfl, rfl⟩⟩⟩

/-- An operation of kind `kd` with its home `l`, not yet performed or performed. -/
def mop (kd : MemKind) (l : Loc) (done : Option (Word × Bool)) : MemOp :=
  ⟨8, kd, .ld al 3 1 (md 0 6), md 0 6, 0x10000, l, false, 3, 0, false, 0, false, 0, false, done⟩
def line0 : Loc := .dev 0x10000 none

/-- A cell with `l` outstanding, and a request or a reply of operation 8 at its destination. -/
def busyCell (l : List MemOp) : Cell := { cell [(1, 0x10000)] with ops := l }
def busyArea (l : List MemOp) : Area := area .user (entry false false) (busyCell l)
def packet (b : Body) : Msg := ⟨4, 0, 0, 0, 0, 0, 0, 0, true, b⟩
theorem issues_busy (l : List MemOp) : (st (busyArea l)).issues al [] (busyArea l) (busyCell l) := ⟨rfl, rfl, rfl, rfl, rfl, by
  show l.any _ = false
  induction l with
  | nil => rfl
  | cons x r ih => simp⟩

/-- The line of 0x10000 stands in the L1 with its lease at the clock. -/
def l1line : L1Line := ⟨0x400, none, 3, List.replicate 64 1, 0, 0, []⟩
def lined : State := { st (ua []) with hearths := [(0, { Hearth.reset with l1 := [l1line] })] }
theorem wit_FirstLevelCache : lined.area 1 = some (ua []) ∧ (ua []).cells.find 0 = some (cell []) ∧ (cell []).ops = [] ∧
    ({ mop .load line0 none with cached := true } : MemOp).held = 0 ∧ Claims.accessType (mop .load line0 none).m.type ∧
    (lined.hearth 0).l1 = [l1line] ∧ l1line.line = 0x10000 / 64 ∧ lined.now 0 ≤ l1line.lease ∧ ((st (ua [])).hearth 0).l1 = [] :=
  ⟨rfl, rfl, rfl, rfl, .inl (by decide), rfl, rfl, Nat.le_refl 0, rfl⟩

/-- A copy of a voted application. -/
def va (l : Tab Word) : Area := area .user (entry false true) (cell l)
theorem wit_StoreResults : (st (ua [(1, 0x1FFF8), (2, 5)])).issues al [1, 2] (ua [(1, 0x1FFF8), (2, 5)]) (cell [(1, 0x1FFF8), (2, 5)]) ∧
    Claims.goes (st (ua [(1, 0x1FFF8), (2, 5)])) (ua [(1, 0x1FFF8), (2, 5)]) (cell [(1, 0x1FFF8), (2, 5)]) 1 (md 0 6) 8 .write
      (.dev 0x1FFF8 none) (some (page 1 0x1000F)) ∧
    Claims.goes (st (va [(1, 0x30000), (2, 5)])) (va [(1, 0x30000), (2, 5)]) (cell [(1, 0x30000), (2, 5)]) 1 (md 0 6) 8 .write
      (.host 0) (some (page 3 (2 ^ 47 + 0xF))) ∧ (ua []).isVoted = false ∧ (va []).isVoted = true :=
  ⟨issues_cell .., ⟨rfl, Nat.zero_lt_succ _, (fun _ _ h => nomatch h), rfl, .inr ⟨rfl, rfl, _, rfl, rfl, rfl, rfl⟩⟩,
    ⟨rfl, Nat.zero_lt_succ _, (fun _ _ h => nomatch h), rfl, .inr ⟨rfl, rfl, _, rfl, rfl, rfl, rfl⟩⟩, rfl, rfl⟩

/-- A copy that holds the last line that fits, or one more, with the store to line 2,047. -/
def heldLines (n : Nat) : List HeldWrite := (List.range n).map (fun i => .cadd (64 * i) none 1 false ⟨0, 0, none, []⟩)
theorem eraseDups_nodup (l : List Nat) (h : l.Nodup) : l.eraseDups = l := by
  induction l with
  | nil => rfl
  | cons a r ih =>
    have h1 := List.nodup_cons.mp h
    rw [List.eraseDups_cons, List.filter_eq_self.mpr, ih h1.2]
    intro x hx
    simp only [ne_eq, Bool.not_eq_eq_eq_not, Bool.not_true, beq_eq_false_iff_ne]
    exact fun e => h1.1 (e ▸ hx)
theorem wit_StoreResults_lines (n : Nat) (h : n ≤ 2047) : ((heldLines n).flatMap HeldWrite.lines ++ [] ++ linesOf 0x1FFF8 8).eraseDups.length = n + 1 := by
  have h1 : (heldLines n).flatMap HeldWrite.lines ++ [] ++ linesOf 0x1FFF8 8 = List.range n ++ [2047] := by
    have h2 : ∀ i, HeldWrite.lines (.cadd (64 * i) none 1 false ⟨0, 0, none, []⟩) = [i] := fun i => by simp [HeldWrite.lines]
    simp only [heldLines, List.flatMap_map, h2]
    simp
    rfl
  rw [h1, eraseDups_nodup]
  · simp
  · rw [List.nodup_append]
    exact ⟨List.nodup_range, by simp, fun a ha b hb => by simp at ha hb; omega⟩

theorem wit_StoreFrame : (st (ua [(1, 0x1FFF8), (2, 5)])).issues al [1, 2] (ua [(1, 0x1FFF8), (2, 5)]) (cell [(1, 0x1FFF8), (2, 5)]) ∧
    (ua []).isVoted = false ∧ (cell [(1, 0x1FFF8), (2, 5)]).spsn 2 = false ∧ Claims.accessType 6 ∧
    (∃ t, exec (.st al 1 2 (md 0 6)) (st (ua [(1, 0x1FFF8), (2, 5)])) = .next t) ∧
    Claims.cellIn (st (busyArea [mop .store line0 none])) 1 0 = some (busyCell [mop .store line0 none]) ∧
    Claims.first (busyCell [mop .store line0 none]) (mop .store line0 none) ∧ (mop .store line0 none).home = .dev 0x10000 none ∧
    (∃ t, exec (.sliceAccess (.cell 1 0) 0) (st (busyArea [mop .store line0 none])) = .next t) :=
  ⟨issues_cell .., rfl, rfl, .inl (by decide), ⟨_, rfl⟩, rfl, ⟨[], [], rfl, (fun _ h => nomatch h), rfl, by decide⟩, rfl, _, rfl⟩

theorem wit_ReadAfterWrite : [(0 : Byte)] ≠ [] ∧ (∀ pa k, Loc.host 0 ≠ .dev pa (some k)) ∧ (∀ pa k, Loc.dev 8 none ≠ .dev pa (some k)) :=
  ⟨by decide, (fun _ _ h => nomatch h), fun _ _ h => by injection h with _ h; cases h⟩

theorem wit_AtomicResults : (st (ua [(1, 0x1FFF8)])).issues al [3, 1, 2] (ua [(1, 0x1FFF8)]) (cell [(1, 0x1FFF8)]) ∧
    Claims.goes (st (ua [(1, 0x1FFF8)])) (ua [(1, 0x1FFF8)]) (cell [(1, 0x1FFF8)]) 1 (md 0 6) (accWidth 6) .both (.dev 0x1FFF8 none)
      (some (page 1 0x1000F)) ∧
    Claims.goes (st (ua [(1, 0x1FFF8)])) (ua [(1, 0x1FFF8)]) (cell [(1, 0x1FFF8)]) 1 (md 0 9) (accWidth 9) .both (.dev 0x1FFF8 none)
      (some (page 1 0x1000F)) :=
  ⟨issues_cell .., goes_dev _ _ _ ⟨rfl, .inr ⟨rfl, rfl, _, rfl, rfl, rfl, rfl⟩⟩, goes_dev _ _ _ ⟨rfl, .inr ⟨rfl, rfl, _, rfl, rfl, rfl, rfl⟩⟩⟩

theorem wit_VotedAtomicsRefused (l : Tab Word) : (st (va l)).issues al [3, 1, 2] (va l) (cell l) ∧ (va l).isVoted = true :=
  ⟨issues_cell .., rfl⟩

/-- A page that no TLB holds, with its walk running and not, and with all walkers busy; 16 operations, and an access to a tile behind one. -/
def walks (n : Nat) : List Walk := (List.range n).map (fun i => ⟨i, 0, 0, 100 + i, [1]⟩)
theorem wit_AccessWaits : (∀ l, (st (ua l)).issues al [3, 1] (ua l) (cell l) ∧ (st (ua l)).issues al [1, 2] (ua l) (cell l)) ∧
    (0x60000 : Word).toNat % accWidth 6 = 0 ∧ inTileWindow 0x60000 = false ∧ canonical 0x60000 = true ∧
    (st (ua [])).cached 0 0 0x60000 = none ∧ (st (ua [])).atWalkers 0x60000 = false ∧ (st (ua [])).walks = [] ∧
    (walks 64).find? (fun w => w.die = 0 && w.ctx = 0 && w.vpage = 0x60000 / 65536) = none ∧ 64 ≤ ((walks 64).filter (fun w => w.die = 0)).length ∧
    ([⟨3, 0, 0, 6, [1]⟩] : List Walk).find? (fun w => w.die = 0 && w.ctx = 0 && w.vpage = 0x60000 / 65536) = some ⟨3, 0, 0, 6, [1]⟩ ∧
    16 ≤ (busyCell (List.replicate 16 (mop .load line0 none))).ops.length ∧
    Claims.home (st (ua [])) 1 0 0 (tw 7 16) 8 .read (.tile 7 16 16) none ∧
    Claims.ordered (md 0 6) (.tile 7 16 16) ∧ ¬Claims.behind (busyCell [mop .store line0 none]) :=
  ⟨fun _ => ⟨issues_cell .., issues_cell ..⟩, by decide, rfl, rfl, rfl, rfl, rfl, by decide, by decide, by decide, by decide, home_tile_read,
    .inl ⟨_, _, _, rfl⟩, fun h => absurd (h _ (.head _)) (by decide)⟩

/-- A watch that was satisfied, a cell that does not wait, a word that has the relation and one that has not; counters at their limit. -/
def waiting (kd : WaitKind) (a v : Word) (l : Option Loc) (g : Option Bool) (rs : Tab Word) : Cell :=
  { cell rs with wait := some ⟨kd, a, v, l, g, [], []⟩ }
theorem wit_WatchesAndCounters : (∀ l, (st (ua l)).issues al [1, 2] (ua l) (cell l)) ∧ (cell []).wait = none ∧ (cell []).ops = [] ∧
    (∀ kd, (st (area .user (entry false false) (waiting kd 0 0 (some line0) (some false) []))).issues al [1, 2]
      (area .user (entry false false) (waiting kd 0 0 (some line0) (some false) [])) (waiting kd 0 0 (some line0) (some false) [])) ∧
    Claims.goes (st (ua [(1, 0x1FFF8)])) (ua [(1, 0x1FFF8)]) (cell [(1, 0x1FFF8)]) 1 (md 0 6) 8 .read (.dev 0x1FFF8 none) (some (page 1 0x1000F)) ∧
    Claims.goes (st (ua [(1, 0x1FFF8)])) (ua [(1, 0x1FFF8)]) (cell [(1, 0x1FFF8)]) 1 (md 0 6) 8 .both (.dev 0x1FFF8 none) (some (page 1 0x1000F)) ∧
    ((st (ua [])).readHeld [] (.dev 0x1FFF8 none) 8).2 = false ∧ Claims.compares 0 (Claims.held 6 0) 0 ∧ ¬Claims.compares 1 (Claims.held 6 0) 0 ∧
    inTileWindow 0x1FFF8 = false :=
  ⟨fun _ => issues_cell .., rfl, rfl, fun _ => ⟨rfl, rfl, rfl, rfl, rfl, rfl⟩, goes_dev _ _ _ ⟨rfl, .inr ⟨rfl, rfl, _, rfl, rfl, rfl, rfl⟩⟩,
    goes_dev _ _ _ ⟨rfl, .inr ⟨rfl, rfl, _, rfl, rfl, rfl, rfl⟩⟩, rfl, rfl, fun h => h rfl, rfl⟩

/-- The code of a CWAIT on the word at s1, at which a cell waits. -/
def watchCell : Cell := waiting .counter 0x10000 0 (some line0) none [(1, 0x10000)]
def watchArea : Area :=
  { area .user (entry false false) watchCell with
    code := [(0, bytesOfWords [BitVec.ofNat 32 (2 * 2 ^ 24 + 1 * 2 ^ 19 + 0x2A * 4 + 1), BitVec.ofNat 32 (6 * 2 ^ 8 + 4 * 2 ^ 2)])] }
theorem wit_PeriodicReads : (st watchArea).area 1 = some watchArea ∧ watchArea.cells.find 0 = some watchCell ∧
    watchCell.wait = some ⟨.counter, 0x10000, 0, some line0, none, [], []⟩ ∧ watchArea.instrAt watchCell = .ok (.cwait al 1 2 ⟨0, 6, 0, 4, 0⟩) ∧
    Claims.accessType 6 ∧ ((st watchArea).readHeld [] line0 8).2 = false ∧ Claims.compares 7 (Claims.held 6 0) (watchCell.sreg 2) ∧
    ¬Claims.compares 7 (Claims.held 6 0) 1 :=
  ⟨rfl, rfl, rfl, rfl, .inl (by decide), rfl, Nat.le_refl 0, fun h => absurd h (by decide : ¬(1 : Word).toNat ≤ (Claims.held 6 0).toNat)⟩

/-- A FENCE with nothing before it, and behind a store and a load. -/
theorem wit_Fences : (∀ l, (st (busyArea l)).issues al [] (busyArea l) (busyCell l)) ∧ (2 : BitVec 2).getLsbD 1 = true ∧
    (1 : BitVec 2).getLsbD 1 = false ∧ (1 : BitVec 2).getLsbD 0 = true ∧ (∃ o ∈ (busyCell [mop .store line0 none]).ops, o.kind = .store) ∧
    (∃ o ∈ (busyCell [mop .load line0 none]).ops, o.kind = .load) ∧ (busyCell []).ops = [] :=
  ⟨issues_busy, rfl, rfl, rfl, ⟨_, .head _, rfl⟩, ⟨_, .head _, rfl⟩, rfl⟩

theorem wit_Prefetches : (st (ua [(1, 0x10000)])).issues al [1] (ua [(1, 0x10000)]) (cell [(1, 0x10000)]) ∧ (cell [(1, 0x10000)]).spsn 1 = false :=
  ⟨issues_cell .., rfl⟩

/-- An operation that leaves: to device memory, to a tile; and one whose request has arrived, behind a performed one. -/
theorem wit_OperationsLeave : (st (ua [])).area 1 = some (ua []) ∧ (ua []).cells.find 0 = some (cell []) ∧ (mop .store line0 none).home = .dev 0x10000 none ∧
    (mop .store line0 none).kind ≠ .load ∧ (mop .load line0 none).cached = false ∧ (∀ pa key, (mop .store (.tile 7 0 0) none).home ≠ .dev pa key) ∧
    (mop .store (.tile 7 0 0) none).held = 0 := ⟨rfl, rfl, rfl, by decide, rfl, (fun _ _ h => nomatch h), rfl⟩
def asked (kd : MemKind) : State :=
  { st (busyArea [mop .load line0 (some (0, false)), mop kd line0 none]) with msgs := [packet (.request 1 0 8)] }
theorem wit_OperationsPerform (kd : MemKind) (hk : kd ≠ .pref) :
    Claims.cellIn (asked kd) 1 0 = some (busyCell [mop .load line0 (some (0, false)), mop kd line0 none]) ∧
    Claims.first (busyCell [mop .load line0 (some (0, false)), mop kd line0 none]) (mop kd line0 none) ∧
    ((asked kd).arrival (.request 1 0 8)).isSome = true ∧ Claims.accessType (mop kd line0 none).m.type :=
  ⟨rfl, ⟨[mop .load line0 (some (0, false))], [], rfl, (fun x h => by cases h with | head => exact .inl (fun h => nomatch h) | tail _ h => nomatch h), rfl, hk⟩,
    rfl, .inl (show (6 : BitVec 4).toNat ≤ 6 by decide)⟩

/-- Performed operations, whose answers have arrived or were sent by nothing, in an active and in a draining area. -/
theorem wit_MemoryAnswers (kd : MemKind) : (busyCell [mop kd line0 (some (5, false))]).ops = [] ++ mop kd line0 (some (5, false)) :: [] ∧
    (∀ x ∈ (st (busyArea [mop kd line0 (some (5, false))])).msgs, x.body ≠ .reply 1 0 8) ∧
    (({ st (busyArea [mop kd line0 (some (5, false))]) with msgs := [packet (.reply 1 0 8)] } : State).arrival (.reply 1 0 8)).isSome = true ∧
    (ua []).phase = .active ∧ ({ ua [] with phase := .draining } : Area).phase = .draining :=
  ⟨rfl, (fun _ h => nomatch h), rfl, rfl, rfl⟩

/-! Barrier words. -/

theorem wit_BarrierWordWrites : (st (ua [])).slots.find 7 = some (slot 0 [16]) ∧ (⟨false, false, 2 ^ 24 - 1, 4095, 4095⟩ : Barrier).pending < 2 ^ 24 ∧
    (st (area .user (entry false false) (waiting .barrier (tw 7 16) 0 none none []))).windowSlot 1 0 (tw 7 16) = some (7, 16) :=
  ⟨rfl, by decide, rfl⟩

theorem barrier_at : Claims.barrierAt (st (ua [(1, tw 7 16), (2, 5)])) (ua [(1, tw 7 16), (2, 5)]) (cell [(1, tw 7 16), (2, 5)]) 1
    true 7 16 (slot 0 [16]) :=
  ⟨rfl, rfl, rfl, rfl, rfl, rfl, rfl, (by decide : 16 + 8 ≤ 4 * 1024), fun _ => by decide, fun _ h => nomatch h⟩

/-- A word with `r` of `e` arrivals left and `p` bytes pending, in the slot of handle 7. -/
def barred (r e p : Nat) (l : Tab Word) : State := (st (ua l)).setBarrier 7 16 ⟨false, false, p, e, r⟩
theorem wit_BarrierArrivals :
    (st (ua [(1, tw 7 16), (2, 5)])).issues al [1, 2] (ua [(1, tw 7 16), (2, 5)]) (cell [(1, tw 7 16), (2, 5)]) ∧
    Claims.barrierAt (st (ua [(1, tw 7 24), (2, 5)])) (ua [(1, tw 7 24), (2, 5)]) (cell [(1, tw 7 24), (2, 5)]) 1 false 7 24 (slot 0 [16]) ∧
    Claims.barrierAt (st (ua [(1, tw 7 16), (2, 5)])) (ua [(1, tw 7 16), (2, 5)]) (cell [(1, tw 7 16), (2, 5)]) 1 true 7 16 (slot 0 [16]) ∧
    ((barred 1 2 0 []).barrierRaw 7 16).remaining = 1 ∧ ((barred 1 2 0 []).barrierRaw 7 16).pending = 0 ∧
    ((barred 0 2 0 []).barrierRaw 7 16).remaining = 0 ∧ ((barred 2 2 (2 ^ 24 - 1) []).barrierRaw 7 16).pending = 2 ^ 24 - 1 ∧
    4095 < (4096 : Word).toNat :=
  ⟨issues_cell .., ⟨rfl, rfl, rfl, rfl, rfl, rfl, rfl, (by decide : 24 + 8 ≤ 4 * 1024), (fun h => nomatch h),
      fun _ h => nomatch h⟩, barrier_at,
    rfl, rfl, rfl, rfl, by decide⟩

theorem wit_BarrierWaits :
    (st (ua [(1, tw 7 16), (2, 5)])).issues al [1, 2] (ua [(1, tw 7 16), (2, 5)]) (cell [(1, tw 7 16), (2, 5)]) ∧
    Claims.barrierAt (st (ua [(1, tw 7 16), (2, 5)])) (ua [(1, tw 7 16), (2, 5)]) (cell [(1, tw 7 16), (2, 5)]) 1 true 7 16 (slot 0 [16]) ∧
    ((st (ua [])).barrier 7 16).phase = (0 : Word).getLsbD 0 ∧ ((st (ua [])).barrier 7 16).phase ≠ (1 : Word).getLsbD 0 ∧
    (waiting .barrier (tw 7 16) 0 none (some false) []).wait = some ⟨.barrier, tw 7 16, 0, none, some false, [], []⟩ ∧
    (st (ua [])).slots.find 7 = some (slot 0 [16]) ∧ (st (ua [])).windowSlot 1 0 (tw 7 16) = some (7, 16) :=
  ⟨issues_cell .., barrier_at, rfl, by decide, rfl, rfl, rfl⟩

/-! Tiles and engine commands. -/

/-- A descriptor of a tile by rows, of `stride` units of 16 bytes. -/
def dw (handle type rows cols stride : Nat) : Word :=
  BitVec.ofNat 64 (handle + type * 2 ^ 20 + (rows - 1) * 2 ^ 24 + (cols - 1) * 2 ^ 32 + stride * 2 ^ 48)
def dcell (l : List (Nat × Word)) (r : Tab Word) : Cell := { cell r with d := l }
def dar (k : Cell) : Area := area .user (entry false false) k

/-- Counts of bytes: none, the most, and one too many; a full bank. -/
theorem wit_SlotAllocation : (∀ l, (st (ua l)).issues al [1] (ua l) (cell l)) ∧ 65536 < (65537 : Word).toNat ∧
    ({ st (ua []) with slots := [] } : State).freeRun 0 1 none = some 0 ∧ (({ st (ua []) with slots := [] } : State).newHandle 0 0).isSome = true ∧
    ({ st (ua []) with carves := [(0, List.range 1536)] } : State).freeRun 0 64 none = none :=
  ⟨fun _ => issues_cell .., by decide, by decide +kernel, rfl, by decide +kernel⟩

theorem wit_SlotFreeingAndFences : (st (ua [])).issues al [] (ua []) (cell []) ∧ (cell []).dpsn 1 = false ∧
    (st (ua [])).slotOf 1 0 0 = none ∧ (st (ua [])).slotOf 1 0 7 = some (7, slot 0 [16]) ∧ (slot 0 [16]).moving = none ∧
    (∀ q, q < 4 → (15 : BitVec 4).getLsbD q = true → ((st (ua [])).queue 0 q).length < 32) ∧
    (∀ p ∈ (cell []).cmds, (15 : BitVec 4).getLsbD p.1 = false) ∧ ({ cell [] with cmds := [(2, 5)] } : Cell).cmds = [(2, 5)] :=
  ⟨issues_cell .., rfl, rfl, rfl, rfl, fun _ _ _ => Nat.zero_lt_succ _, (fun _ h => nomatch h), rfl⟩

/-- The checks of descriptor uses, decided. -/
def usableB (k : Cell) (uses : List Use) : Bool :=
  uses.all (fun x => !k.dpsn x.reg && (descOf (k.dreg x.reg)).wf &&
    match (st (dar k)).slotOf 1 0 (descOf (k.dreg x.reg)).handle with
    | some (_, y) => decide (y.hid = k.hid) && decide ((descOf (k.dreg x.reg)).foot ≤ y.units * 1024) &&
        (!x.rd || !(descOf (k.dreg x.reg)).strict || decide (y.layout.toNat = (descOf (k.dreg x.reg)).layout)) &&
        (!x.wr || !y.meetsTag 0 (descOf (k.dreg x.reg)).foot)
    | none => false)

theorem usable_of {k : Cell} {uses : List Use} (h : usableB k uses = true) : Claims.usable (st (dar k)) (dar k) k uses := by
  intro x hx
  have h1 := List.all_eq_true.mp h x hx
  simp only [Bool.and_eq_true, Bool.not_eq_eq_eq_not, Bool.not_true] at h1
  obtain ⟨⟨h2, h3⟩, h4⟩ := h1
  refine ⟨h2, h3, ?_⟩
  show ∃ key y, (st (dar k)).slotOf 1 0 _ = _ ∧ _
  split at h4
  · next key y hs =>
    simp only [Bool.and_eq_true, Bool.or_eq_true, Bool.not_eq_eq_eq_not, Bool.not_true, decide_eq_true_eq] at h4
    obtain ⟨⟨⟨h5, h6⟩, h7⟩, h8⟩ := h4
    exact ⟨key, y, hs, h5, h6, fun hr hs => by rcases h7 with (h7 | h7) | h7 <;> simp_all, fun hw => by rcases h8 with h8 | h8 <;> simp_all⟩
  · cases h4

/-- Row `n` of a table of forms, for the instruction `i` of cell `k`: its uses pass their checks and its rule of types and shapes holds. -/
def formOk (forms : List Claims.Form) (n : Nat) (i : Instr) (k : Cell) : Prop :=
  ∃ p, forms[n]? = some p ∧ p.1 = i ∧ Claims.usable (st (dar k)) (dar k) k p.2.2.1 ∧ p.2.2.2.1

/-- Five tiles d1 to d5 of the types and shapes given. -/
def tiles (l : List (Nat × Nat × Nat × Nat)) : Cell :=
  dcell ((List.range 5).zip l |>.map (fun p => (p.1 + 1, dw (p.1 + 1) p.2.1 p.2.2.1 p.2.2.2.1 p.2.2.2.2))) []

def mf (k : Cell) (f : BitVec 3) (w : EWord) : List Claims.Form := Claims.matrixForms k al f 1 2 3 w
def vf (k : Cell) (f : BitVec 3) (w : EWord) : List Claims.Form := Claims.vectorForms (st (dar k)) (dar k) k al f 1 2 3 w

theorem wit_MatrixCommandIssue_products :
    (let k := tiles [(9, 8, 8, 2), (7, 8, 8, 1), (7, 8, 8, 1)]
     let w : EWord := ⟨true, true, 3, 9, 7, 7, 0, 0, 0⟩
     formOk (mf k 0 w) 0 (.mma al 0 1 2 3 w) k) ∧
    (let k := tiles [(4, 8, 8, 2), (1, 8, 8, 1), (1, 8, 8, 1)]
     let w : EWord := ⟨true, true, 0, 4, 1, 1, 0, 0, 0⟩
     formOk (mf k 0 w) 1 (.mmai al 0 1 2 3 w) k) ∧
    (let k := tiles [(9, 8, 8, 2), (12, 8, 32, 1), (12, 8, 32, 1)]
     let w : EWord := ⟨false, false, 0, 9, 12, 12, 0, 0, 0⟩
     formOk (mf k 0 w) 2 (.mmax al 0 1 2 3 w) k) ∧
    (let k := tiles [(9, 8, 8, 2), (9, 8, 8, 2), (13, 8, 1, 1), (13, 8, 1, 1)]
     let w : EWord := ⟨false, false, 0, 9, 13, 9, 0, 0, 4⟩
     formOk (mf k 0 w) 3 (.scacc al 0 1 2 3 w) k) := by
  refine ⟨⟨_, rfl, rfl, usable_of rfl, ?_⟩, ⟨_, rfl, rfl, usable_of rfl, ?_⟩, ⟨_, rfl, rfl, usable_of rfl, ?_⟩, ⟨_, rfl, rfl, usable_of rfl, ?_⟩⟩ <;>
    dsimp only [Claims.typed, Claims.alike] <;> decide +kernel

theorem wit_MatrixCommandIssue_movers :
    (let k := tiles [(9, 4, 8, 2), (9, 8, 4, 1)]
     let w : EWord := ⟨false, false, 0, 9, 0, 9, 0, 0, 0⟩
     formOk (mf k 0 w) 4 (.ttrn al 0 1 2 3 w) k) ∧
    (let k := tiles [(9, 8, 32, 8), (12, 8, 32, 1), (9, 1, 1, 1), (13, 8, 1, 1)]
     let w : EWord := ⟨false, true, 0, 9, 0, 12, 0, 0, 4⟩
     formOk (mf k 0 w) 5 (.tcvt al 0 1 2 3 w) k) ∧
    (let k := tiles [(12, 8, 32, 1), (1, 8, 16, 1), (9, 1, 1, 1), (9, 1, 1, 1), (13, 8, 1, 1)]
     let w : EWord := ⟨false, true, 0, 12, 0, 0, 0, 5, 0⟩
     formOk (mf k 1 w) 5 (.tcvt al 1 1 2 3 w) k) ∧
    (let k := tiles [(4, 8, 8, 2), (4, 8, 8, 2), (9, 1, 1, 1), (4, 8, 8, 2)]
     let w : EWord := ⟨false, false, 0, 4, 0, 4, 0, 0, 4⟩
     formOk (mf k 1 w) 6 (.cxsort al 1 1 2 3 w) k) ∧
    (let k := tiles [(4, 8, 16, 4), (4, 8, 8, 2), (4, 8, 8, 2), (4, 8, 16, 4)]
     let w : EWord := ⟨false, false, 0, 4, 4, 4, 0, 0, 4⟩
     formOk (mf k 0 w) 7 (.cxmerge al 0 1 2 3 w) k) := by
  refine ⟨⟨_, rfl, rfl, usable_of rfl, ?_⟩, ⟨_, rfl, rfl, usable_of rfl, ?_⟩, ⟨_, rfl, rfl, usable_of rfl, ?_⟩, ⟨_, rfl, rfl, usable_of rfl, ?_⟩,
    ⟨_, rfl, rfl, usable_of rfl, ?_⟩⟩ <;> dsimp only [Claims.typed, Claims.alike, Claims.scales] <;> decide +kernel

/-- Tiles of one type, and an engine word of that type. -/
def same (t : Nat) : Cell := tiles (List.replicate 5 (t, 8, 8, 2))
def ewOf (t : BitVec 4) (c : BitVec 3) : EWord := ⟨false, false, 0, t, t, t, 0, 0, c⟩

theorem wit_VectorCommandIssue_elements :
    formOk (vf (same 9) 0 (ewOf 9 0)) 0 (.tlay al 0 1 2 3 (ewOf 9 0)) (same 9) ∧ formOk (vf (same 9) 0 (ewOf 9 0)) 1 (.vabs al 0 1 2 3 (ewOf 9 0)) (same 9) ∧
    formOk (vf (same 9) 0 (ewOf 9 0)) 2 (.vneg al 0 1 2 3 (ewOf 9 0)) (same 9) ∧ formOk (vf (same 9) 0 (ewOf 9 0)) 3 (.vadd al 0 1 2 3 (ewOf 9 0)) (same 9) ∧
    formOk (vf (same 9) 0 (ewOf 9 0)) 4 (.vsub al 0 1 2 3 (ewOf 9 0)) (same 9) ∧ formOk (vf (same 9) 0 (ewOf 9 0)) 5 (.vmul al 0 1 2 3 (ewOf 9 0)) (same 9) ∧
    formOk (vf (same 9) 0 (ewOf 9 0)) 6 (.vmin al 0 1 2 3 (ewOf 9 0)) (same 9) ∧ formOk (vf (same 9) 0 (ewOf 9 0)) 7 (.vmax al 0 1 2 3 (ewOf 9 0)) (same 9) ∧
    formOk (vf (same 4) 0 (ewOf 4 0)) 8 (.vand al 0 1 2 3 (ewOf 4 0)) (same 4) ∧ formOk (vf (same 4) 0 (ewOf 4 0)) 9 (.vor al 0 1 2 3 (ewOf 4 0)) (same 4) ∧
    formOk (vf (same 4) 0 (ewOf 4 0)) 10 (.vxor al 0 1 2 3 (ewOf 4 0)) (same 4) ∧ formOk (vf (same 4) 0 (ewOf 4 0)) 11 (.vshl al 0 1 2 3 (ewOf 4 0)) (same 4) ∧
    formOk (vf (same 4) 1 (ewOf 4 0)) 12 (.vshr al 1 1 2 3 (ewOf 4 0)) (same 4) ∧
    formOk (vf (same 9) 0 (ewOf 9 4)) 19 (.vfma al 0 1 2 3 (ewOf 9 4)) (same 9) := by
  refine ⟨⟨_, rfl, rfl, usable_of rfl, ?_⟩, ⟨_, rfl, rfl, usable_of rfl, ?_⟩, ⟨_, rfl, rfl, usable_of rfl, ?_⟩, ⟨_, rfl, rfl, usable_of rfl, ?_⟩,
    ⟨_, rfl, rfl, usable_of rfl, ?_⟩, ⟨_, rfl, rfl, usable_of rfl, ?_⟩, ⟨_, rfl, rfl, usable_of rfl, ?_⟩, ⟨_, rfl, rfl, usable_of rfl, ?_⟩,
    ⟨_, rfl, rfl, usable_of rfl, ?_⟩, ⟨_, rfl, rfl, usable_of rfl, ?_⟩, ⟨_, rfl, rfl, usable_of rfl, ?_⟩, ⟨_, rfl, rfl, usable_of rfl, ?_⟩,
    ⟨_, rfl, rfl, usable_of rfl, ?_⟩, ⟨_, rfl, rfl, usable_of rfl, ?_⟩⟩ <;> dsimp only [Claims.typed, Claims.alike] <;> decide +kernel

theorem wit_VectorCommandIssue_forms :
    (let k := tiles [(14, 8, 8, 1), (9, 8, 8, 2), (9, 8, 8, 2)]
     formOk (vf k 7 ⟨false, false, 0, 14, 9, 9, 0, 0, 0⟩) 13 (.vcmp al 7 1 2 3 ⟨false, false, 0, 14, 9, 9, 0, 0, 0⟩) k) ∧
    (let k := tiles [(9, 8, 8, 2), (9, 8, 8, 2), (9, 1, 2, 1)]
     formOk (vf k 0 (ewOf 9 0)) 14 (.vclmp al 0 1 2 3 (ewOf 9 0)) k) ∧
    (let k := tiles [(9, 8, 8, 2), (9, 8, 8, 2), (9, 1, 8, 2)]
     formOk (vf k 4 (ewOf 9 0)) 15 (.vbcr al 4 1 2 3 (ewOf 9 0)) k) ∧
    (let k := tiles [(9, 8, 8, 2), (9, 8, 8, 2), (9, 8, 1, 1)]
     formOk (vf k 0 (ewOf 9 0)) 16 (.vbcc al 0 1 2 3 (ewOf 9 0)) k) ∧
    formOk (vf (same 9) 0 (ewOf 9 0)) 17 (.tzero al 0 1 2 3 (ewOf 9 0)) (same 9) ∧
    formOk (vf (same 9) 2 (ewOf 9 0)) 18 (.viota al 2 1 2 3 (ewOf 9 0)) (same 9) ∧
    (let k := tiles [(9, 8, 8, 2), (9, 8, 8, 2), (9, 8, 8, 2), (14, 8, 8, 1)]
     formOk (vf k 0 (ewOf 9 4)) 20 (.vsel al 0 1 2 3 (ewOf 9 4)) k) ∧
    formOk (vf (same 9) 0 (ewOf 9 0)) 21 (.vcvt al 0 1 2 3 (ewOf 9 0)) (same 9) ∧
    (let k := tiles [(12, 8, 32, 1), (12, 8, 32, 1), (9, 1, 1, 1), (13, 8, 1, 1), (13, 8, 1, 1)]
     formOk (vf k 0 ⟨false, false, 0, 12, 0, 12, 0, 5, 4⟩) 21 (.vcvt al 0 1 2 3 ⟨false, false, 0, 12, 0, 12, 0, 5, 4⟩) k) := by
  refine ⟨⟨_, rfl, rfl, usable_of rfl, ?_⟩, ⟨_, rfl, rfl, usable_of rfl, ?_⟩, ⟨_, rfl, rfl, usable_of rfl, ?_⟩, ⟨_, rfl, rfl, usable_of rfl, ?_⟩,
    ⟨_, rfl, rfl, usable_of rfl, ?_⟩, ⟨_, rfl, rfl, usable_of rfl, ?_⟩, ⟨_, rfl, rfl, usable_of rfl, ?_⟩, ⟨_, rfl, rfl, usable_of rfl, ?_⟩,
    ⟨_, rfl, rfl, usable_of rfl, ?_⟩⟩ <;> dsimp only [Claims.typed, Claims.alike, Claims.scales] <;> decide +kernel

theorem wit_VectorCommandIssue_reductions :
    (let k := tiles [(9, 8, 1, 1), (9, 8, 8, 2)]
     formOk (vf k 0 (ewOf 9 0)) 22 (.vrsum al 0 1 2 3 (ewOf 9 0)) k) ∧
    (let k := tiles [(9, 1, 8, 2), (9, 8, 8, 2)]
     formOk (vf k 2 (ewOf 9 0)) 23 (.vcsum al 2 1 2 3 (ewOf 9 0)) k) ∧
    formOk (vf (same 9) 4 (ewOf 9 4)) 24 (.vrr al 4 1 2 3 (ewOf 9 4)) (same 9) ∧
    formOk (vf (same 9) 5 ⟨false, false, 0, 9, 0, 9, 0, 0, 0⟩) 25 (.vfn al 5 1 2 3 ⟨false, false, 0, 9, 0, 9, 0, 0, 0⟩) (same 9) ∧
    (let k := tiles [(9, 8, 8, 2), (9, 8, 8, 2), (4, 8, 8, 2)]
     formOk (vf k 0 ⟨false, false, 0, 9, 4, 9, 0, 0, 0⟩) 26 (.vperm al 0 1 2 3 ⟨false, false, 0, 9, 4, 9, 0, 0, 0⟩) k) ∧
    (let k := tiles [(9, 2, 256, 64)]
     Claims.usable (st (dar k)) (dar k) k [⟨1, true, false⟩] ∧ Claims.ty k 1 = 9 ∧ Claims.rows k 1 = 2 ∧ Claims.cols k 1 = 256) ∧
    (st (dar (same 9))).issues al [1] (dar (same 9)) (same 9) ∧ Claims.usable (st (dar (same 9))) (dar (same 9)) (same 9) [⟨1, false, true⟩, ⟨2, true, false⟩] ∧
    Claims.typed (same 9) 256 [(1, 9), (2, 9)] ∧ Claims.alike (same 9) 2 1 := by
  refine ⟨⟨_, rfl, rfl, usable_of rfl, ?_⟩, ⟨_, rfl, rfl, usable_of rfl, ?_⟩, ⟨_, rfl, rfl, usable_of rfl, ?_⟩, ⟨_, rfl, rfl, usable_of rfl, ?_⟩,
    ⟨_, rfl, rfl, usable_of rfl, ?_⟩, ⟨usable_of rfl, ?_⟩, ⟨rfl, rfl, rfl, rfl, rfl, rfl⟩, usable_of rfl, ?_⟩ <;>
      (try dsimp only [Claims.typed, Claims.alike, Claims.scales]) <;> decide +kernel

/-! What the engines write. -/

theorem wit_TileLayoutsAreInjective : (∀ l ∈ [0, 1, 2, 3, 4], (⟨1, 9, 8, 32, l, false, 0, 128⟩ : Desc).wf = true ∧ (⟨1, 9, 8, 32, l, false, 0, 128⟩ : Desc).foot ≤ 4096) ∧
    (⟨1, 12, 8, 32, 1, false, 0, 16⟩ : Desc).wf = true := by decide

/-- A tile of 8 × 8 INT32 in the slot of handle `h`. -/
def tv (h : Nat) : Tv := ⟨⟨h, 4, 8, 8, 0, false, 0, 32⟩, 4096 * h, false, []⟩
theorem fits_tv : Claims.fits (tv 1) 4096 ∧ Claims.fits (tv 4) 4096 ∧ ((tv 1).base + 4096 ≤ (tv 4).base) :=
  ⟨⟨rfl, rfl, by decide, by decide, rfl, by decide, rfl⟩, ⟨rfl, rfl, by decide, by decide, rfl, by decide, rfl⟩, by decide⟩
theorem wit_FilledTilesRead : (0 : Nat) ≠ 4 ∧ Claims.fits (tv 1) 4096 := ⟨by decide, fits_tv.1⟩

/-- A started command `i` with its tiles in d1 to d4. -/
def cmd (i : Instr) : Cmd :=
  { (st (ua [])).newCmd (ua []) (cell []) i 0 with
    started := true, d := ⟨dw 1 4 8 8 2, false⟩, a := ⟨dw 2 4 8 8 2, false⟩, b := ⟨dw 3 4 8 8 2, false⟩, c := ⟨dw 4 4 8 8 2, false⟩ }
def queued (i : Instr) (q : Nat) : State := { st (ua []) with queues := [(q, [cmd i])] }

theorem completes_queued (i : Instr) (q : Nat) : Claims.completes (queued i q) q (cmd i) :=
  ⟨rfl, rfl, rfl, fun ar h => by injection h with h; subst h; exact ⟨rfl, rfl⟩⟩
theorem wit_ElementwiseResults : Claims.completes (queued (.vadd al 0 1 2 3 (ewOf 4 0)) 1) 1 (cmd (.vadd al 0 1 2 3 (ewOf 4 0))) ∧
    (queued (.vadd al 0 1 2 3 (ewOf 4 0)) 1).tile1 (cmd (.vadd al 0 1 2 3 (ewOf 4 0))) ⟨dw 1 4 8 8 2, false⟩ = some (tv 1) ∧
    (queued (.vadd al 0 1 2 3 (ewOf 4 0)) 1).tile1 (cmd (.vadd al 0 1 2 3 (ewOf 4 0))) ⟨dw 2 4 8 8 2, false⟩ = some (tv 2) ∧
    (queued (.vadd al 0 1 2 3 (ewOf 4 0)) 1).tile1 (cmd (.vadd al 0 1 2 3 (ewOf 4 0))) ⟨dw 3 4 8 8 2, false⟩ = some (tv 3) ∧
    (tv 1).d.type = (ewOf 4 0).tc.toNat ∧ ((ewOf 4 0).ta.toNat ≤ 6 ↔ (ewOf 4 0).tc.toNat ≤ 6) ∧ Claims.fits (tv 1) 4096 ∧
    (∃ v, Claims.element (.vadd al 0 1 2 3 (ewOf 4 0)) 5 6 = some v) ∧ (∃ v, Claims.element (.tlay al 0 1 2 3 (ewOf 4 0)) 5 6 = some v) :=
  ⟨completes_queued .., rfl, rfl, rfl, rfl, Iff.rfl, fits_tv.1, ⟨_, rfl⟩, _, rfl⟩
theorem wit_IntegerMatrixProduct (w : EWord) : Claims.completes (queued (.mmai al 0 1 2 3 w) 0) 0 (cmd (.mmai al 0 1 2 3 w)) ∧ Claims.fits (tv 1) 4096 ∧
    (tv 1).d.type = 4 := ⟨completes_queued .., fits_tv.1, rfl⟩
theorem wit_SortedRows : Claims.completes (queued (.cxsort al 1 1 2 0 (ewOf 4 4)) 0) 0 (cmd (.cxsort al 1 1 2 0 (ewOf 4 4))) ∧
    (queued (.cxsort al 1 1 2 0 (ewOf 4 4)) 0).tile1 (cmd (.cxsort al 1 1 2 0 (ewOf 4 4))) ⟨dw 4 4 8 8 2, false⟩ = some (tv 4) ∧
    Claims.fits (tv 1) 4096 ∧ Claims.fits (tv 4) 4096 ∧ (tv 1).base + 4096 ≤ (tv 4).base ∧ (tv 4).d.cols = (tv 1).d.cols :=
  ⟨completes_queued .., rfl, fits_tv.1, fits_tv.2.1, fits_tv.2.2, rfl⟩

/-- A started command with the tiles of the types and shapes given in d, a, b, c and e, in the slots of handles 1 to 5. -/
def cmdOn (i : Instr) (d a b c e : Nat × Nat × Nat × Nat) : Cmd :=
  let o (h : Nat) (x : Nat × Nat × Nat × Nat) : Opnd := ⟨dw h x.1 x.2.1 x.2.2.1 x.2.2.2, false⟩
  { (st (ua [])).newCmd (ua []) (cell []) i 0 with started := true, d := o 1 d, a := o 2 a, b := o 3 b, c := o 4 c, e := o 5 e }
def runs (i : Instr) (d a b c e : Nat × Nat × Nat × Nat) : State := { st (ua []) with queues := [(1, [cmdOn i d a b c e])] }
def tvOn (h : Nat) (x : Nat × Nat × Nat × Nat) : Tv := ⟨descOf (dw h x.1 x.2.1 x.2.2.1 x.2.2.2), 4096 * h, false, []⟩
def fitsB (T : Tv) (size : Nat) : Bool :=
  decide (T.tags = []) && T.d.wf && decide (1 ≤ T.d.rows) && decide (1 ≤ T.d.cols) && decide (T.d.stride % 16 = 0) && decide (T.d.foot ≤ size) &&
    decide (size % 1024 = 0)
theorem fits_of {T : Tv} {size : Nat} (h : fitsB T size = true) : Claims.fits T size := by
  simp only [fitsB, Bool.and_eq_true, decide_eq_true_eq] at h
  exact ⟨h.1.1.1.1.1.1, h.1.1.1.1.1.2, h.1.1.1.1.2, h.1.1.1.2, h.1.1.2, h.1.2, h.2⟩

/-- The sources of a command are the tiles of its slots. -/
def sourced (i : Instr) (d a b c e : Nat × Nat × Nat × Nat) : Prop :=
  let s := runs i d a b c e
  let k := cmdOn i d a b c e
  s.tile1 k k.a = some (tvOn 2 a) ∧ s.tile1 k k.b = some (tvOn 3 b) ∧ s.tile1 k k.c = some (tvOn 4 c) ∧ s.tile1 k k.e = some (tvOn 5 e)

/-- The tile that a descriptor names in the slots of handles 1 to 5. -/
def tileOf (o : Opnd) : Option Tv :=
  (slots0.find (descOf o.desc).handle).map (fun x => ⟨descOf o.desc, x.base, o.psn, x.tags⟩)
theorem tile1_runs (i : Instr) (d a b c e : Nat × Nat × Nat × Nat) (o : Opnd) (h : slots0.find (slotKey 1 0 (descOf o.desc).handle) = none)
    (h0 : slotKey 0 0 (descOf o.desc).handle = (descOf o.desc).handle) : (runs i d a b c e).tile1 (cmdOn i d a b c e) o = tileOf o := by
  have hu : (cmdOn i d a b c e).uid = 1 := rfl
  have hc : (cmdOn i d a b c e).ctx = 0 := rfl
  have hr : (cmdOn i d a b c e).restoring = false := rfl
  have hs : (runs i d a b c e).slots = slots0 := rfl
  simp only [State.tile1, State.slotFor, hu, hc, hr, hs, h, h0, tileOf]
  rfl

/-- The checks of a command's tiles, decided. -/
def tilesB (d a b c e : Nat × Nat × Nat × Nat) : Bool :=
  [(1, d), (2, a), (3, b), (4, c), (5, e)].all (fun p =>
    let o : Opnd := ⟨dw p.1 p.2.1 p.2.2.1 p.2.2.2.1 p.2.2.2.2, false⟩
    decide (slots0.find (slotKey 1 0 (descOf o.desc).handle) = none) && decide (slotKey 0 0 (descOf o.desc).handle = (descOf o.desc).handle) &&
      decide (tileOf o = some (tvOn p.1 p.2)))
theorem tile_of {d a b c e : Nat × Nat × Nat × Nat} (i : Instr) (h : tilesB d a b c e = true) (p : Nat × Nat × Nat × Nat × Nat)
    (hp : p ∈ [(1, d), (2, a), (3, b), (4, c), (5, e)]) :
    (runs i d a b c e).tile1 (cmdOn i d a b c e) ⟨dw p.1 p.2.1 p.2.2.1 p.2.2.2.1 p.2.2.2.2, false⟩ = some (tvOn p.1 p.2) := by
  have h1 := List.all_eq_true.mp h p hp
  simp only [Bool.and_eq_true, decide_eq_true_eq] at h1
  rw [tile1_runs _ _ _ _ _ _ _ h1.1.1 h1.1.2, h1.2]
theorem sourced_of {i : Instr} {d a b c e : Nat × Nat × Nat × Nat} (h : tilesB d a b c e = true) : sourced i d a b c e :=
  ⟨tile_of i h (2, a) (by simp), tile_of i h (3, b) (by simp), tile_of i h (4, c) (by simp), tile_of i h (5, e) (by simp)⟩
theorem writes_on (i : Instr) (d a b c e : Nat × Nat × Nat × Nat) (r j : Nat) (ht : tilesB d a b c e = true)
    (h : fitsB (tvOn 1 d) 4096 = true ∧ r < (tvOn 1 d).d.rows ∧ j < (tvOn 1 d).d.cols) :
    Claims.writes (runs i d a b c e) 1 4096 (cmdOn i d a b c e) (tvOn 1 d) r j :=
  ⟨⟨rfl, rfl, rfl, fun ar h => by injection h with h; subst h; exact ⟨rfl, rfl⟩⟩, tile_of i ht (1, d) (by simp), fits_of h.1, h.2⟩

/-- The last element of square tiles: of INT32, which serves every command that moves codes, VSHR and the integer combinations, and of BOOL
and FP32. -/
def i4 : Nat × Nat × Nat × Nat := (4, 8, 8, 2)
def f9 : Nat × Nat × Nat × Nat := (9, 8, 8, 2)
theorem writes_i4 (i : Instr) : Claims.writes (runs i i4 i4 i4 i4 i4) 1 4096 (cmdOn i i4 i4 i4 i4 i4) (tvOn 1 i4) 7 7 ∧ sourced i i4 i4 i4 i4 i4 :=
  ⟨writes_on _ _ _ _ _ _ _ _ (by decide +kernel) ⟨rfl, by decide, by decide⟩, sourced_of (by decide +kernel)⟩
theorem writes_f9 (i : Instr) : Claims.writes (runs i f9 f9 f9 f9 f9) 1 4096 (cmdOn i f9 f9 f9 f9 f9) (tvOn 1 f9) 7 7 ∧ sourced i f9 f9 f9 f9 f9 :=
  ⟨writes_on _ _ _ _ _ _ _ _ (by decide +kernel) ⟨rfl, by decide, by decide⟩, sourced_of (by decide +kernel)⟩
theorem wit_CodesAreMoved (i : Instr) : Claims.writes (runs i i4 i4 i4 i4 i4) 1 4096 (cmdOn i i4 i4 i4 i4 i4) (tvOn 1 i4) 7 7 ∧
    sourced i i4 i4 i4 i4 i4 ∧ (tvOn 1 i4).d.type = (ewOf 4 0).tc.toNat ∧ (0 : Int) ≤ 7 ∧ (7 : Int) < (tvOn 2 i4).d.cols ∧
    ((tvOn 2 i4).d.rows : Int) ≤ 8 := ⟨(writes_i4 i).1, (writes_i4 i).2, rfl, by decide, by decide, by decide⟩
theorem wit_ShiftsAndCompares (i : Instr) : Claims.writes (runs i i4 i4 i4 i4 i4) 1 4096 (cmdOn i i4 i4 i4 i4 i4) (tvOn 1 i4) 7 7 ∧
    (tvOn 2 i4).d.type = (ewOf 4 0).tc.toNat ∧
    Claims.writes (runs i (14, 8, 8, 1) i4 i4 i4 i4) 1 4096 (cmdOn i (14, 8, 8, 1) i4 i4 i4 i4) (tvOn 1 (14, 8, 8, 1)) 7 7 ∧
    sourced i (14, 8, 8, 1) i4 i4 i4 i4 ∧ (tvOn 1 (14, 8, 8, 1)).d.type = 14 :=
  ⟨(writes_i4 i).1, rfl, writes_on _ _ _ _ _ _ _ _ (by decide +kernel) ⟨rfl, by decide, by decide⟩, sourced_of (by decide +kernel), rfl⟩

/-- Two rows of four columns merge into rows of eight. -/
theorem wit_RowsAreMerged (w : EWord) : let i : Instr := .cxmerge al 1 1 2 3 w
    let h : Nat × Nat × Nat × Nat := (4, 8, 4, 1)
    Claims.writes (runs i i4 h h i4 i4) 1 4096 (cmdOn i i4 h h i4 i4) (tvOn 1 i4) 7 7 ∧ sourced i i4 h h i4 i4 ∧ Claims.fits (tvOn 4 i4) 4096 ∧
    (tvOn 1 i4).base + 4096 ≤ (tvOn 4 i4).base ∧ (tvOn 1 i4).d.cols = (tvOn 2 h).d.cols + (tvOn 3 h).d.cols ∧
    (tvOn 4 i4).d.cols = (tvOn 1 i4).d.cols ∧ (tvOn 4 i4).d.rows = (tvOn 1 i4).d.rows ∧ (tvOn 2 h).d.type = 4 :=
  ⟨writes_on _ _ _ _ _ _ _ _ (by decide +kernel) ⟨rfl, by decide, by decide⟩, sourced_of (by decide +kernel), fits_of rfl, by decide, rfl, rfl, rfl, rfl⟩
theorem wit_TablesAreLoaded (w : EWord) : let i : Instr := .vtbl al 7 0 2 0 w
    Claims.completes (runs i f9 f9 f9 f9 f9) 1 (cmdOn i f9 f9 f9 f9 f9) ∧ sourced i f9 f9 f9 f9 f9 ∧ (tvOn 2 f9).d.type = 9 ∧ 255 < 256 :=
  ⟨(writes_f9 _).1.1, (writes_f9 _).2, rfl, by decide⟩
theorem wit_CombinationsRoundOnce (i : Instr) : Claims.writes (runs i i4 i4 i4 i4 i4) 1 4096 (cmdOn i i4 i4 i4 i4 i4) (tvOn 1 i4) 7 7 ∧
    sourced i i4 i4 i4 i4 i4 ∧ Claims.writes (runs i f9 f9 f9 f9 f9) 1 4096 (cmdOn i f9 f9 f9 f9 f9) (tvOn 1 f9) 7 7 ∧ sourced i f9 f9 f9 f9 f9 ∧
    (∀ n ∈ [4, 9], Claims.oneClass (ewOf n 0).ta (ewOf n 0).tc) ∧ (tvOn 1 f9).d.type = (ewOf 9 0).tc.toNat ∧ 1 ≤ (tvOn 2 i4).d.cols ∧
    (ewOf 9 0).tc.toNat ≤ 11 := ⟨(writes_i4 i).1, (writes_i4 i).2, (writes_f9 i).1, (writes_f9 i).2, fun _ _ => Iff.rfl, rfl, by decide, by decide⟩

/-- VRR with its companions in INT32 and in FP32; finite values, NaN and an infinity among the sources' codes. -/
theorem wit_ArgumentsAreReduced (f : BitVec 3) (w : EWord) : let i : Instr := .vrr al f 1 2 0 w
    (∀ x ∈ [i4, f9], Claims.writes (runs i f9 f9 f9 x f9) 1 4096 (cmdOn i f9 f9 f9 x f9) (tvOn 1 f9) 7 7 ∧ sourced i f9 f9 f9 x f9 ∧
      Claims.fits (tvOn 4 x) 4096 ∧ (tvOn 4 x).d.rows = 8 ∧ (tvOn 4 x).d.cols = 8 ∧ ((tvOn 4 x).d.type = 4 ∨ (tvOn 4 x).d.type = 9)) ∧
    (tvOn 1 f9).base + 4096 ≤ (tvOn 4 f9).base ∧ decodeT 9 0x40490FDB = .fin false 0xC90FDB (-22) ∧ (decodeT 9 0x7FC00000).isNan = true ∧
    decodeT 9 0xFF800000 = .inf true := by
  refine ⟨?_, by decide, by decide, by decide, by decide⟩
  intro x hx
  rcases List.mem_cons.mp hx with rfl | hx
  · exact ⟨writes_on _ _ _ _ _ _ _ _ (by decide +kernel) ⟨rfl, by decide, by decide⟩, sourced_of (by decide +kernel), fits_of rfl, rfl, rfl, .inl rfl⟩
  · rcases List.mem_cons.mp hx with rfl | hx
    · exact ⟨writes_on _ _ _ _ _ _ _ _ (by decide +kernel) ⟨rfl, by decide, by decide⟩, sourced_of (by decide +kernel), fits_of rfl, rfl, rfl, .inr rfl⟩
    · cases hx

/-- VFN of a value inside [0, 1), of 1, and of an infinity. -/
theorem wit_FunctionsAreEvaluated (i : Instr) : Claims.writes (runs i f9 f9 f9 f9 f9) 1 4096 (cmdOn i f9 f9 f9 f9 f9) (tvOn 1 f9) 7 7 ∧
    sourced i f9 f9 f9 f9 f9 ∧ (tvOn 1 f9).d.type = (ewOf 9 0).tc.toNat ∧ decodeT 9 0x3F7FFFFF = .fin false 0xFFFFFF (-24) ∧
    0 ≤ Claims.real false 0xFFFFFF (-24) ∧ Claims.real false 0xFFFFFF (-24) < 1 ∧ decodeT 9 0x3F800000 = .fin false 0x800000 (-23) ∧
    1 ≤ Claims.real false 0x800000 (-23) ∧ (∀ n m e, decodeT 9 0x7F800000 ≠ .fin n m e) :=
  ⟨(writes_f9 i).1, (writes_f9 i).2, rfl, by decide, by norm_num [Claims.real, Claims.size], by norm_num [Claims.real, Claims.size], by decide,
    by norm_num [Claims.real, Claims.size], fun _ _ _ h => Val.noConfusion ((by decide : decodeT 9 0x7F800000 = .inf false).symm.trans h)⟩

/-- FP32 tiles, and an MXFP4 tile of two blocks with its scales. -/
theorem wit_TilesAreConverted (i : Instr) : Claims.writes (runs i f9 f9 f9 f9 f9) 1 4096 (cmdOn i f9 f9 f9 f9 f9) (tvOn 1 f9) 7 7 ∧
    sourced i f9 f9 f9 f9 f9 ∧
    (let m : Nat × Nat × Nat × Nat := (12, 8, 64, 2)
     let x : Nat × Nat × Nat × Nat := (13, 8, 2, 1)
     Claims.writes (runs i m f9 f9 x x) 1 4096 (cmdOn i m f9 f9 x x) (tvOn 1 m) 7 63 ∧ sourced i m f9 f9 x x ∧ Claims.fits (tvOn 5 x) 4096 ∧
     (tvOn 1 m).base + 4096 ≤ (tvOn 5 x).base ∧ (tvOn 5 x).d.cols = ((tvOn 1 m).d.cols + 31) / 32 ∧ (tvOn 5 x).d.rows = (tvOn 1 m).d.rows ∧
     (tvOn 5 x).d.type = 13) :=
  ⟨(writes_f9 i).1, (writes_f9 i).2, writes_on _ _ _ _ _ _ _ _ (by decide +kernel) ⟨rfl, by decide, by decide⟩, sourced_of (by decide +kernel), fits_of rfl, by decide, rfl, rfl, rfl⟩
theorem wit_FloatMatrixProducts (i : Instr) : Claims.writes (runs i f9 f9 f9 f9 f9) 1 4096 (cmdOn i f9 f9 f9 f9 f9) (tvOn 1 f9) 7 7 ∧
    sourced i f9 f9 f9 f9 f9 ∧ (tvOn 1 f9).d.type = 9 ∧ (tvOn 2 f9).d.cols ≤ 128 :=
  ⟨(writes_f9 i).1, (writes_f9 i).2, rfl, by decide⟩

/-! Copies. -/

theorem home_of {s : State} {a : Word} {w : Nat} {need : Need} {l : Loc} {t : Trans}
    (h : a.toNat % w = 0 ∧ inTileWindow a = false ∧ canonical a = true ∧ s.cached 0 0 (a.toNat % 2 ^ 55) = some t ∧ t.allows need = true ∧
      l = Loc.phys t (a.toNat % 2 ^ 55)) : Claims.home s 1 0 0 a w need l (some t) :=
  ⟨h.1, .inr ⟨h.2.1, h.2.2.1, t, rfl, h.2.2.2⟩⟩


theorem issues_of {s : State} {c : Cond} {regs : List SReg} {ar : Area} {k : Cell}
    (h : s.area s.cur.1 = some ar ∧ ar.cells.find s.cur.2 = some k ∧ k.qpsn c.q = false ∧ k.cond c = true ∧
      k.pend.any (fun p => regs.contains p.1) = false ∧ k.awaitsMem regs = false) : s.issues c regs ar k := h

theorem paged_of {s : State} {ar : Area} {k : Cell} {need : Need} {l : List Word}
    (h : l.all (fun a => !inTileWindow a && canonical a && (s.hearth k.hid).tlb.any (fun t =>
      decide (s.cached k.hid ar.ctx (a.toNat % 2 ^ 55) = some t) && t.allows need)) = true) : Claims.paged s ar k need l := by
  intro a ha
  have h1 := List.all_eq_true.mp h a ha
  simp only [Bool.and_eq_true, List.any_eq_true, decide_eq_true_eq, Bool.not_eq_true'] at h1
  obtain ⟨⟨h2, h3⟩, t, ht, h4, h5⟩ := h1
  exact ⟨h2, h3, t, ht, h4, h5⟩

/-- A cell with the tiles of `same t`, the address 0x10000 in s1 and `b` in s2. -/
def ck (t : Nat) (b : Word) : Cell := { same t with s := [(1, 0x10000), (2, b)] }

theorem signals_none (t : Nat) (d : Desc) : Claims.signals (st (dar (ck t 0))) (dar (ck t 0)) (ck t 0) 0 false d .none :=
  ⟨rfl, .inl ⟨rfl, rfl⟩⟩
theorem signals_barrier (d : Desc) :
    Claims.signals (st (dar (ck 9 (tw 7 16)))) (dar (ck 9 (tw 7 16))) (ck 9 (tw 7 16)) 2 false d (.barrier 7 16) := by
  refine ⟨by decide +kernel, .inr (.inl ⟨by decide, rfl, by decide +kernel, 7, 16, slot 0 [16], ?_, ?_, ?_, ?_, rfl⟩)⟩ <;> decide +kernel
theorem signals_counter :
    Claims.signals (st (dar (ck 9 0x10041))) (dar (ck 9 0x10041)) (ck 9 0x10041) 2 true (tv 1).d (.counter 0x10040 none 256) := by
  refine ⟨by decide +kernel, .inr (.inr ⟨by decide, rfl, 256, page 1 0x1000F, .inr (.inl ?_), paged_of ?_, ?_, ?_⟩)⟩ <;> decide +kernel

theorem wit_CopyCommandIssue :
    (st (dar (ck 9 0))).issues al [1, 0] (dar (ck 9 0)) (ck 9 0) ∧ (dar (ck 9 0)).isVoted = false ∧ ((st (dar (ck 9 0))).queue 0 2).length < 32 ∧
    Claims.usable (st (dar (ck 9 0))) (dar (ck 9 0)) (ck 9 0) [⟨1, false, true⟩, ⟨2, true, false⟩] ∧
    (let x := descOf ((ck 9 0).dreg 1)
     Claims.paged (st (dar (ck 9 0))) (dar (ck 9 0)) (ck 9 0) .read (Claims.pagesOf 0x10000 (x.memFoot x.stride)) ∧
     Claims.paged (st (dar (ck 9 0))) (dar (ck 9 0)) (ck 9 0) .write (Claims.pagesOf 0x10000 (x.memFoot x.stride)) ∧
     Claims.paged (st (dar (ck 9 0))) (dar (ck 9 0)) (ck 9 0) .write (Claims.pagesOf 0x10000 x.foot)) ∧
    Claims.ty (ck 9 0) 1 = Claims.ty (ck 9 0) 2 ∧ Claims.alike (ck 9 0) 1 2 ∧ (ck 9 0).addr 1 (md 0 0) = 0x10000 ∧ Claims.behind (ck 9 0) ∧
    (∀ l a n, (ck 9 0).clashes l a n = false) :=
  ⟨issues_of (by decide +kernel), by decide +kernel, by decide +kernel, usable_of (by decide +kernel),
    ⟨paged_of (by decide +kernel), paged_of (by decide +kernel),
     paged_of (by decide +kernel)⟩, by decide +kernel, ⟨by decide +kernel, by decide +kernel⟩, by decide +kernel, (fun _ h => nomatch h), fun _ _ _ => rfl⟩

/-- A pages list that reaches into a second page. -/
theorem test_pages_of_two : Claims.pagesOf 0x1FFF0 17 = [0x1FFF0, 0x20000] ∧ Claims.pagesOf 0x1FFF0 16 = [0x1FFF0] := ⟨rfl, rfl⟩

/-- Eight rows of FP32 with the INT32 indices of an 8 × 1 tile, all 0. -/
def gk : Cell := { tiles [(9, 8, 8, 2), (4, 8, 1, 1)] with s := [(1, 0x10000)] }
theorem wit_IndexedCopyIssue : (st (dar gk)).issues al [1] (dar gk) gk ∧ (dar gk).kind ≠ .restore ∧ gk.addr 1 (md 0 0) = 0x10000 ∧
    (descOf (gk.dreg 2)).type = 4 ∧ (descOf (gk.dreg 2)).rows = (descOf (gk.dreg 1)).rows ∧ (descOf (gk.dreg 2)).cols = 1 ∧
    (st (dar gk)).slotOf 1 0 (descOf (gk.dreg 2)).handle = some (2, slot 8 []) ∧
    (descOf (gk.dreg 2)).elems.any (fun p => (st (dar gk)).blockPoison 8192 (descOf (gk.dreg 2)) p.1 p.2) = false ∧
    Claims.usable (st (dar gk)) (dar gk) gk [⟨1, false, true⟩, ⟨2, true, false⟩] ∧ Claims.usable (st (dar gk)) (dar gk) gk [⟨1, true, false⟩, ⟨2, true, false⟩] ∧
    Claims.paged (st (dar gk)) (dar gk) gk .both ((List.replicate 8 (0 : Int)).flatMap (fun o => Claims.pagesOf (0x10000 + BitVec.ofInt 64 o) 32)) ∧
    (descOf (gk.dreg 1)).type ∈ [4, 5, 6, 9] ∧ (∀ l a n, gk.clashes l a n = false) :=
  ⟨issues_of (by decide +kernel), by decide, by decide +kernel, by decide +kernel, by decide +kernel, by decide +kernel, by decide +kernel, by decide +kernel, usable_of (by decide +kernel), usable_of (by decide +kernel),
    paged_of (by decide +kernel), by decide +kernel, fun _ _ _ => rfl⟩

/-- A started CPYIN of the tile of d1. -/
def cpyin0 : Instr := .cpyin al 0 false 1 1 0 (md 0 0)
theorem wit_CopyInLandsItsImage : (queued cpyin0 2).cmdOf (cmd cpyin0).id = some (2, cmd cpyin0) ∧ (cmd cpyin0).started = true ∧
    (cmd cpyin0).landed = 0 ∧ Claims.fits (tv 1) 4096 ∧ (tv 1).d.rows * (tv 1).d.cols ≤ 64 := ⟨rfl, rfl, rfl, fits_tv.1, by decide⟩

/-- A fence of all queues that heads each, and one that heads one of two. -/
def fence0 : Cmd := { cmd (.nop al) with fence := some 3, started := false }
theorem wit_QueueSteps : ({ st (ua []) with queues := [(0, [{ cmd (.nop al) with started := false }])] } : State).queue 0 0 =
      [{ cmd (.nop al) with started := false }] ∧ (cmd (.nop al)).fence = none ∧
    (∀ i, i < 4 → (3 : BitVec 4).getLsbD i = true →
      ∃ e r, ({ st (ua []) with queues := [(0, [fence0]), (1, [fence0])] } : State).queue 0 i = e :: r ∧ e.id = fence0.id) ∧
    (∀ e ∈ (({ st (ua []) with queues := [(0, [fence0]), (1, [cpyin0].map fun i => { cmd i with id := 4 })] } : State).queue 0 1).head?, e.id ≠ fence0.id) ∧
    (queued (.nop al) 0).cmdOf (cmd (.nop al)).id = some (0, cmd (.nop al)) ∧ (queued (.nop al) 0).portOpen (cmd (.nop al)) = true ∧
    (queued (.nop al) 0).awaitsTile (cmd (.nop al)) = false := by
  refine ⟨rfl, rfl, ?_, ?_, rfl, rfl, rfl⟩
  · intro i hi h
    match i, hi, h with
    | 0, _, _ => exact ⟨_, _, rfl, rfl⟩
    | 1, _, _ => exact ⟨_, _, rfl, rfl⟩
    | 2, _, h => exact absurd h (by decide)
    | 3, _, h => exact absurd h (by decide)
  · intro e he
    cases he
    decide

theorem wit_SignalsAndAcknowledgements : (∀ b, ({ st (ua []) with msgs := [packet b] } : State).arrived 4 = some (packet b)) ∧
    (packet (.signal 0x10000 none 1 1 [])).body = .signal 0x10000 none 1 1 [] ∧
    (∀ ar, (st (ua [])).area 1 = some ar → ar.kind = .user ∧ ar.phase = .active) ∧ (0x10000 : Nat) < 2 ^ 47 ∧ (cmd (.nop al)).id = 10 :=
  ⟨fun _ => rfl, rfl, fun ar h => by injection h with h; subst h; exact ⟨rfl, rfl⟩, by decide, rfl⟩

/-! Streams. -/

/-- A stream descriptor: base 0x20000, a template of 8 × 8 FP32, pitch 32, nx 1, one ring slot, one tile, handle 1. -/
def sdesc : Nat := 0x100000000000000000000000000000000000000000000000100000000000000000000000000000000000100010000002000020007079000000000000000020000
def sub0 (f : Option Word) (rep : Bool) (full : List Nat) : Sub := ⟨0, 0, BitVec.ofNat 1024 sdesc, 0, 4, [0], [], full, [], f, rep, false, []⟩
def strm (slot : Nat) : Word := BitVec.ofNat 64 (3 * 2 ^ 60 + slot * 2 ^ 16)
def ss (a : Area) (f : Option Word) (rep : Bool) : State := { st a with subs := [(0, sub0 f rep [0])] }
theorem wit_StreamInstructions : (∀ l, (st (ua l)).issues al [1, 2] (ua l) (cell l) ∧ (st (ua l)).issues al [1] (ua l) (cell l)) ∧
    (st (ua [])).liveStream (ua []) (cell []) (strm 0) 0 = none ∧
    (ss (ua []) none false).liveStream (ua []) (cell []) (strm 0) 0 = some (0, sub0 none false [0]) ∧
    (ss (ua []) none false).liveStream (ua []) (cell []) (strm 0) 1 = none ∧
    (ss (ua []) (some 0x20000) false).liveStream (ua []) (cell []) (strm 0) 0 = some (0, sub0 (some 0x20000) false [0]) ∧
    (ss (ua []) (some 0x20000) true).liveStream (ua []) (cell []) (strm 0) 0 = some (0, sub0 (some 0x20000) true [0]) ∧
    (∀ i, i < (sub0 none false [0]).ring.length → i ∈ (sub0 none false [0]).full) ∧ (sub0 none false [0]).wb = [] ∧ (ss (ua []) none false).msgs = [] :=
  ⟨fun _ => ⟨issues_cell .., issues_cell ..⟩, by decide +kernel, by decide +kernel, by decide +kernel, by decide +kernel, by decide +kernel, by decide +kernel, rfl, rfl⟩
theorem wit_FreedSlotNotices : ({ ss (ua []) none false with msgs := [packet (.notice 0 0)] } : State).arrived 4 =
    some (packet (.notice 0 0)) := rfl

theorem near_page {s : State} (h : (s.hearth 0).tlb = tlb0) : Claims.near s 0 (some (page 1 0x1000F)) := by
  intro x hx
  cases hx
  rw [h]
  exact .head _

/-- The descriptor stands in memory at 0x10000. -/
def smem (a : Area) : State := { ss a none false with mem := writeTab [] 0x10000 (leBytes 128 sdesc) }
theorem wit_StreamCommandIssue_subscription : (smem (ua [(1, 0x10000)])).issues al [3, 1, 0] (ua [(1, 0x10000)]) (cell [(1, 0x10000)]) ∧
    Claims.home (smem (ua [(1, 0x10000)])) 1 0 0 0x10000 64 .read (.dev 0x10000 none) (some (page 1 0x1000F)) ∧
    Claims.home (smem (ua [(1, 0x10000)])) 1 0 0 (0x10000 + 64) 64 .read (.dev 0x10040 none) (some (page 1 0x1000F)) ∧
    ((smem (ua [])).readLoc (.dev 0x10000 none) 64).2 = false ∧
    ofLe ((smem (ua [])).readLoc (.dev 0x10000 none) 64).1 + 2 ^ 512 * ofLe ((smem (ua [])).readLoc (.dev 0x10040 none) 64).1 = sdesc ∧
    streamOk (BitVec.ofNat 1024 sdesc) = true ∧ sdesc % 16 = 0 ∧
    (∀ y ∈ (List.range (sdesc / 2 ^ 176 % 16)).map (fun i => descOf (streamDesc (BitVec.ofNat 1024 sdesc) i)), y.handle = 1 ∧ y.foot ≤ 4096) ∧
    Claims.near (smem (ua [])) 0 (some (page 1 0x1000F)) :=
  ⟨issues_of (by decide +kernel), home_of (by decide +kernel), home_of (by decide +kernel), by decide +kernel,
    by decide +kernel, by decide +kernel, by decide +kernel, by decide +kernel, near_page rfl⟩
theorem wit_StreamCommandIssue_writeback : (smem (ua [(1, 0x10000), (2, strm 0)])).issues al [1, 2] (ua [(1, 0x10000), (2, strm 0)]) (cell [(1, 0x10000), (2, strm 0)]) ∧
    (smem (ua [(1, 0x10000), (2, strm 0)])).liveStream (ua [(1, 0x10000), (2, strm 0)]) (cell [(1, 0x10000), (2, strm 0)]) (strm 0) 0 =
      some (0, sub0 none false [0]) ∧
    Claims.paged (smem (ua [])) (ua []) (cell []) .write
      (Claims.pagesOf 0x10000 ((descOf (streamDesc (BitVec.ofNat 1024 sdesc) 0)).memFoot (sdesc / 2 ^ 128 % 2 ^ 32))) ∧
    (smem (ua [])).slotOf 1 0 (descOf (streamDesc (BitVec.ofNat 1024 sdesc) 0)).handle = some (1, slot 4 []) :=
  ⟨issues_of (by decide +kernel), by decide +kernel, paged_of (by decide +kernel), by decide +kernel⟩

/-! Events. -/

/-- Population 0 of 16 neurons, FP32 states, all on hearth 0, bound and installed; the horizon is 8. -/
def pop0 (desc : Nat) : Pop := ⟨15, BitVec.ofNat 512 desc, [0], true, 0, 0, false⟩
def es (a : Area) : State := { st a with pops := [(0, pop0 0)], parts := [(0, { Part.reset 4 with horizon := 8 })] }
def bankKey (n : Nat) : Word := BitVec.ofNat 64 (4 * 2 ^ 60 + n * 2 ^ 8)
theorem wit_EventInstructions :
    (es (ua [(1, bankKey 15), (2, 0), (4, 8)])).issues al [1, 2, 4] (ua [(1, bankKey 15), (2, 0), (4, 8)]) (cell [(1, bankKey 15), (2, 0), (4, 8)]) ∧
    Claims.bank (es (ua [(1, bankKey 15)])) (ua [(1, bankKey 15)]) (cell [(1, bankKey 15)]) 1 1 (pop0 0) ∧
    Claims.bank (es (ua [(1, bankKey 0)])) (ua [(1, bankKey 0)]) (cell [(1, bankKey 0)]) 1 16 (pop0 0) ∧
    ((es (ua [])).part ((es (ua [])).lead 0)).horizon = 8 ∧ ((es (ua [])).queue 0 3).length < 32 ∧
    ((es (ua [])).hearth ((pop0 0).home 15)).full = false ∧ (7 : Nat) < 8 ∧
    (({ es (ua []) with hearths := [(0, { Hearth.reset with full := true })] } : State).hearth ((pop0 0).home 15)).full = true ∧ ((es (ua [])).events = []) :=
  ⟨issues_of (by decide +kernel), by refine ⟨?_, ?_, ?_, ?_, ?_, ?_⟩ <;> decide +kernel, by refine ⟨?_, ?_, ?_, ?_, ?_, ?_⟩ <;> decide +kernel,
    by decide +kernel, by decide +kernel, by decide +kernel, by decide, rfl, rfl⟩

/-- A dynamics descriptor at 0x10000: a hearth set of one hearth from 0, threshold field 1, no act but a zero state; and one with a reserved bit. -/
def dyn : Nat := 1 * 2 ^ 32 + 0 * 2 ^ 48 + 1 * 2 ^ 64
def ds (n : Nat) (a : Area) : State := { st a with mem := writeTab [] 0x10000 (leBytes 64 n) }
def popKey0 : Word := BitVec.ofNat 64 (2 * 2 ^ 60 + 15 * 2 ^ 32)
theorem wit_PopulationBinding : (ds dyn (ua [(1, popKey0), (2, 0x10000)])).issues al [1, 2] (ua [(1, popKey0), (2, 0x10000)]) (cell [(1, popKey0), (2, 0x10000)]) ∧
    popKey0.toNat / 2 ^ 56 = 2 * 16 ∧ popKey0.toNat / 2 ^ 8 % 2 ^ 24 = 0 ∧
    Claims.home (ds dyn (ua [(2, 0x10000)])) 1 0 0 0x10000 64 .read (.dev 0x10000 none) (some (page 1 0x1000F)) ∧
    BitVec.ofNat 512 (ofLe ((ds dyn (ua [])).readLoc (.dev 0x10000 none) 64).1) = BitVec.ofNat 512 dyn ∧
    (ds dyn (ua [])).dynOk 0 0 (BitVec.ofNat 512 dyn) = true ∧ (ds dyn (ua [])).dynOk 0 0 (BitVec.ofNat 512 (dyn + 2 ^ 13)) = false ∧
    (ds dyn (ua [])).placeSet 16 ((ds dyn (ua [])).hearthSet 0 0 1) [] = some [0] ∧ Claims.near (ds dyn (ua [])) 0 (some (page 1 0x1000F)) :=
  ⟨issues_of (by decide +kernel), by decide +kernel, by decide +kernel, home_of (by decide +kernel), by decide +kernel, by decide +kernel, by decide +kernel,
    by decide +kernel, near_page rfl⟩

/-- An event of time 7 for neuron 15, on the mesh or in the queue. -/
def ev (p : Place) : Ev := ⟨6, 0, 0, 5, 15, 0, 7, 0, p, 0⟩
def evs (p : Place) (desc : Nat) : State := { es (ua []) with pops := [(0, pop0 desc)], events := [ev p] }

/-- Its packet at hearth `h`; the queue and the ring of hearth 0 hold `n` and `r` other events. -/
def come (h n r : Nat) : State :=
  { evs .mesh 0 with
    msgs := [{ packet (.event 6) with dst := h }]
    events := ev .mesh :: (List.replicate n { ev .queue with id := 5 } ++ List.replicate r { ev .ring with id := 5 }) }
theorem wit_EventArrival : (∀ h n r, (come h n r).events.find? (fun v => v.id = 6) = some (ev .mesh) ∧
      (come h n r).arrival (.event 6) = some { packet (.event 6) with dst := h } ∧
      (come h n r).evCount 0 .queue = n ∧ (come h n r).evCount 0 .ring = r) ∧
    min 4096 ((come 0 0 0).hearth 0).spill = 4096 ∧ (ev .mesh).hid = 0 := by
  refine ⟨fun h n r => ⟨rfl, ?_, ?_, ?_⟩, rfl, rfl⟩
  · simp [come, State.arrival, State.inOrder, Msg.mates, packet]
  all_goals simp [come, State.evCount, ev, evs, es]
theorem wit_EventDelivery :
    (evs .queue 0).firstEvent 0 = some (ev .queue) ∧ (ev .queue).time < ((evs .queue 0).part 0).horizon ∧
    (evs .queue 0).pops.find 0 = some (pop0 0) ∧ 0 ∈ (pop0 0).members ∧ (pop0 0).gone = false ∧ (ev .queue).neuron ≤ (pop0 0).count ∧
    ((evs .queue 0).acc 0 0 15 (pop0 0)).rvalid = false ∧
    ({ (evs .queue 0).acc 0 0 15 (pop0 0) with rvalid := true, trefr := 7 } : Acc).trefr ≥ (ev .queue).time ∧
    ({ pop0 0 with gone := true } : Pop).gone = true :=
  ⟨rfl, by decide, rfl, by decide, rfl, by decide, rfl, by decide, rfl⟩
theorem wit_IntegerIntegration : 0 ≤ Claims.intCode 4 ((pop0 (1 + 2 * 2 ^ 4 + 3 * 2 ^ 128)).desc.toNat / 2 ^ 128 % 2 ^ 32) := by decide +kernel

/-! Privileged instructions, traps, saving and restoring. -/

/-- A held area of context 0 whose cell faulted at pc 8, and an area of its trap operator that has the scalars `l`. -/
def heldArea (noinstr brk : Bool) (fault : BitVec 8) : Area :=
  { ua [] with phase := .held, trap := some ⟨fault, 0, 0, noinstr, brk, 0, 8, 0, 1, 0⟩ }
def ta (l : Tab Word) : Area := area (.trap 2) (entry true false) (cell l)
def ts (l : Tab Word) (h : Area) : State := { st (ta l) with areas := [(1, ta l), (2, h)] }

theorem serves_held (l : Tab Word) (n b : Bool) (f : BitVec 8) :
    Claims.serves (ta l) (ts l (heldArea n b f)) 2 (heldArea n b f) ⟨f, 0, 0, n, b, 0, 8, 0, 1, 0⟩ 2 (cell []) :=
  ⟨rfl, rfl, rfl, fun _ => rfl, _, rfl, rfl, fun h => absurd rfl h⟩
theorem issues_trap (l : Tab Word) (h : Area) (regs : List SReg) : (ts l h).issues al regs (ta l) (cell l) := ⟨rfl, rfl, rfl, rfl, rfl, rfl⟩

/-- A fault in the second copy of a voted area, the shadow 3. -/
def copyTrap : TrapRec := ⟨0x12, 0, 1, false, false, 0, 8, 0, 1, 0⟩
def copyHeld : Area := { heldArea false false 0x12 with trap := some copyTrap }
def copyState : State := { ts [] copyHeld with areas := [(1, ta []), (2, copyHeld), (3, area (.shadow 1 2) (entry false true) (cell []))] }
theorem serves_copy : Claims.serves (ta []) copyState 2 copyHeld copyTrap 3 (cell []) := by
  refine ⟨rfl, rfl, rfl, fun h => absurd h (by decide), _, rfl, rfl, fun _ => ⟨rfl, ?_⟩⟩
  decide

theorem wit_StatusReads : (∀ l, (st (pa l)).issues al [3, 1] (pa l) (cell l)) ∧ (pa []).privileged = true ∧ (st (pa [])).ctx 0 = some ctx0 ∧
    unitOk 1023 = true ∧ unitOk 1024 = false ∧ (3 : Word).toNat % 256 = 3 ∧ (busyCell []).ops = [] ∧ (busyCell []).cmds = [] :=
  ⟨fun _ => issues_cell .., rfl, rfl, by decide, by decide, rfl, rfl, rfl⟩
theorem wit_ControlRegisters (l : Tab Word) : (ta l).privileged = true ∧ (ts l (heldArea false false 0x12)).ctx 0 = some ctx0 ∧
    (ts l (heldArea false false 0x12)).issues al [3] (ta l) (cell l) ∧ (ts l (heldArea false false 0x12)).issues al [1] (ta l) (cell l) ∧
    Claims.serves (ta l) (ts l (heldArea false false 0x12)) 2 (heldArea false false 0x12) ⟨0x12, 0, 0, false, false, 0, 8, 0, 1, 0⟩ 2 (cell []) ∧
    (cell [(1, 17)]).spsn 1 = false := ⟨rfl, rfl, issues_trap .., issues_trap .., serves_held .., rfl⟩

/-- A ring and none, an operator that is resident and one that is not. -/
def ringed : State := { st (ua []) with ctxs := [(0, { ctx0 with ring := 0x1000, ringLog := 4, sigs := 15 })] }
def resident0 : Resident := ⟨some 0, 5, entry false false, [], [], 0, none⟩
theorem wit_SystemEffects : (∀ l, (st (pa l)).issues al [1, 2] (pa l) (cell l)) ∧ (cell []).posted = false ∧ (busyCell [mop .store line0 none]).posted = true ∧
    ctx0.ring = 0 ∧ ringed.ctx 0 = some { ctx0 with ring := 0x1000, ringLog := 4, sigs := 15 } ∧
    ({ st (ua []) with hearths := [(0, { Hearth.reset with residents := [resident0] })] } : State).isResident 0 0 5 = true ∧
    (st (ua [])).isResident 0 0 0xF06 = false ∧ (st (ua [])).readEntry 0 0xF06 ≠ none :=
  ⟨fun _ => issues_cell .., rfl, rfl, rfl, rfl, rfl, rfl, by decide +kernel⟩

/-- A fault, a breakpoint, a hold without an instruction, a trap operator with a posted store, and an area that serves nothing. -/
theorem wit_TrapReturns : (∀ l, (ts l (heldArea false false 0x12)).issues al [] (ta l) (cell l)) ∧ (heldArea false false 0x12).isVoted = false ∧
    Claims.serves (ta []) (ts [] (heldArea false true 0)) 2 (heldArea false true 0) ⟨0, 0, 0, false, true, 0, 8, 0, 1, 0⟩ 2 (cell []) ∧
    Claims.serves (ta []) (ts [] (heldArea true false 0x42)) 2 (heldArea true false 0x42) ⟨0x42, 0, 0, true, false, 0, 8, 0, 1, 0⟩ 2 (cell []) ∧
    Claims.serves (ta []) (ts [] (heldArea false false 0x05)) 2 (heldArea false false 0x05) ⟨0x05, 0, 0, false, false, 0, 8, 0, 1, 0⟩ 2 (cell []) ∧
    (busyCell [mop .store line0 none]).posted = true ∧ (∀ u, (pa []).kind ≠ .trap u) ∧ (area .save (entry true false) (cell [])).kind = .save :=
  ⟨fun _ => issues_trap .., rfl, serves_held .., serves_held .., serves_held .., rfl, (fun _ h => nomatch h), rfl⟩

/-- A save operator at a multiple of 64 and off it, without and with an area to store. -/
def sa (l : Tab Word) : Area := area .save (entry true false) (cell l)
def suspended : State :=
  { st (sa [(1, 0x10000)]) with areas := [(1, sa [(1, 0x10000)]), (2, { ua [] with phase := .suspended })] }
theorem wit_SaveInstructions : (∀ l, (st (sa l)).issues al [1] (sa l) (cell l) ∧ (st (sa l)).issues al [3, 1] (sa l) (cell l)) ∧
    (sa []).privileged = true ∧ (pa []).kind ≠ .save ∧ (∀ p ∈ (st (sa [])).slots, ¬Claims.carried (sa []) (cell []) p) ∧
    Claims.carried (sa []) (cell []) (7, { slot 0 [] with hid := 1, moving := some ⟨0, 0, 3, true⟩ }) ∧
    Claims.paged (st (sa [(1, 0x10000)])) (sa [(1, 0x10000)]) (cell [(1, 0x10000)]) .write (Claims.pagesOf 0x10000 ((st (sa [])).saveLen 0 0)) ∧
    (cell [(1, 32)]).sreg 1 = 32 ∧ Claims.unstored (st (sa [])) (sa []) (cell []) = [] ∧
    Claims.unstored suspended (sa [(1, 0x10000)]) (cell [(1, 0x10000)]) = [(2, { ua [] with phase := .suspended })] ∧
    Claims.paged suspended (sa [(1, 0x10000)]) (cell [(1, 0x10000)]) .write (Claims.pagesOf 0x10000 (64 + 1024)) :=
  ⟨fun _ => ⟨issues_cell .., issues_cell ..⟩, rfl, by decide, fun p hp h => by
      obtain ⟨_, _, m, hm, _⟩ := h
      exact absurd (hm.symm.trans ((by decide : ∀ p ∈ slots0, p.2.moving = none) p hp)) (by simp), ⟨rfl, rfl, _, rfl, .inr rfl⟩,
    paged_of (by decide +kernel), rfl, by decide +kernel, by decide +kernel, paged_of (by decide +kernel)⟩

/-- A restore operator with an image of no symbols, slots or words at 0x10000, one of one symbol, and an image of version 0; and a record
for the application of one cell that stands in the row. -/
def ra (l : Tab Word) : Area := area .restore (entry true false) (cell l)
def image (version nsym : Nat) : Nat := version + 4160 * 2 ^ 64 + nsym * 2 ^ 96
def withImage (n : Nat) : State := { st (ra [(1, 0x10000)]) with mem := writeTab [] 0x10000 (leBytes 64 n) }
def imageHead (s : State) : Nat := ofLe (s.readPieces (Claims.span s (ra [(1, 0x10000)]) (cell [(1, 0x10000)]) 1 64))
theorem wit_RestoreInstructions_image : (ra []).kind = .restore ∧ (∀ l, (st (ra l)).issues al [1] (ra l) (cell l)) ∧
    Claims.paged (withImage (image 1 0)) (ra [(1, 0x10000)]) (cell [(1, 0x10000)]) .read (Claims.pagesOf 0x10000 4160) ∧
    imageHead (withImage (image 1 0)) = image 1 0 ∧ imageHead (withImage (image 1 1)) = image 1 1 ∧ imageHead (withImage (image 0 0)) = image 0 0 ∧
    image 1 1 % 2 ^ 16 = 1 ∧ image 1 1 / 2 ^ 16 % 64 = 0 ∧ image 1 1 / 2 ^ 64 % 2 ^ 32 = 4160 ∧ image 1 1 / 2 ^ 96 % 2 ^ 32 = 1 ∧
    image 0 0 % 2 ^ 16 ≠ 1 ∧ (withImage (image 1 0)).remakeSlots 0 0 [] = some (withImage (image 1 0)) ∧
    ((waiting .restore 0 0 none (some false) []).wait.bind (·.granted)) ≠ none :=
  ⟨rfl, fun _ => issues_cell .., paged_of (by decide +kernel), by decide +kernel, by decide +kernel, by decide +kernel, rfl, by decide +kernel,
    by decide +kernel, by decide +kernel, by decide, rfl, by decide⟩

/-- The row of context 0: a MARK, then `( OPER 5 )` in cells 1 to 3 of hearth 0. -/
def sy (k : BitVec 4) (v : Word) : Sym := ⟨k, false, false, v⟩
def row0 : Tab Sym := [(0, sy 11 0), (1, sy 1 0), (2, sy 5 5), (3, sy 2 0)]
def rec0 : Nat := 5 * 2 ^ 2 + 3 * 2 ^ 18 + 3 * 2 ^ 37
def restoring : State :=
  { st (ra [(1, 0x10000), (2, 0)]) with row := row0, mem := writeTab [] 0x10000 (leBytes 64 rec0) }
/-- A symbol that may stand in the cells, and one of a reserved kind; an area that an earlier record remade, with cell 0 given back or not. -/
theorem wit_RestoreInstructions_symbols : (symOfCode (5 + 6 * 2 ^ 68)).storable = true ∧ (symOfCode (12 * 2 ^ 68)).storable = false ∧
    ((List.range 1).map (fun i => (image 1 1 + 5 * 2 ^ 512 + 6 * 2 ^ 580) / 2 ^ (512 + 128 * i) % 2 ^ 72)) = [5 + 6 * 2 ^ 68] ∧
    (∀ l, let x : Area := { ua [] with phase := .suspended, taken := l }
      ({ st (ra []) with areas := [(1, ra []), (2, x)] } : State).userAreas 0 = [(2, x)] ∧ x.pos = 0 ∧ x.taken = l) :=
  ⟨by decide +kernel, by decide +kernel, by decide +kernel, fun _ => ⟨rfl, rfl, rfl⟩⟩
theorem wit_RestoreInstructions_record : restoring.issues al [1, 2] (ra [(1, 0x10000), (2, 0)]) (cell [(1, 0x10000), (2, 0)]) ∧
    appAt 0 (restoring.items 0) = some [(1, sy 1 0), (2, sy 5 5), (3, sy 2 0)] ∧ appAt 1 (restoring.items 0) = none ∧
    (restoring.userAreas 0).find? (fun p => p.2.pos = 0) = none ∧ rec0 / 2 ^ 186 % 64 = 0 ∧ rec0 / 2 ^ 18 % 2 ^ 19 = 3 ∧
    rec0 / 2 ^ 2 % 2 ^ 12 = 5 ∧ rec0 / 2 ^ 37 % 2 ^ 9 = 3 ∧ rec0 / 2 ^ 46 % 2 ^ 18 = 0 ∧
    Claims.paged restoring (ra [(1, 0x10000), (2, 0)]) (cell [(1, 0x10000), (2, 0)]) .read (Claims.pagesOf 0x10000 (64 + 1024 * 3)) :=
  ⟨issues_of (by decide +kernel), by decide +kernel, by decide +kernel, by decide +kernel, by decide +kernel, by decide +kernel, by decide +kernel,
    by decide +kernel, by decide +kernel, paged_of (by decide +kernel)⟩

/-! Commands of the host. -/

/-- An entry by its words. -/
def ent (ws : List Nat) : Nat := ws.foldr (fun w n => w + 18446744073709551616 * n) 0

/-- The state in which queue 0 may be served and its head entry is `e`; `x` is context 0. -/
def cs (x : Ctx) (ws : List Nat) : State :=
  { st (ua []) with
    areas := [], ctxs := [(0, x)]
    hq := [(0, { HostQ.reset with base := 0x1000, cfg := 0x80000004, tail := 1, mapped := true })]
    hostMem := writeTab [] 0x1040 (leBytes 64 (ent ws)) }

/-- The device takes the entry now. -/
def ready (s : State) (q : BitVec 6) (e : BitVec 512) (op : Nat) : Prop := Claims.ready s q e op (s.takeEntry q.toNat)
def taken (s : State) (q : BitVec 6) (e : BitVec 512) (op : Nat) (masks : List Nat) : Prop := Claims.taken s q e op masks (s.takeEntry q.toNat)

def readyB (s : State) (e : BitVec 512) (op : Nat) : Bool :=
  s.powered && decide (s.stage = 7) && decide ((s.hostq 0).busy = none) && s.mayTake 0 && decide (s.entryAt 0 = e) &&
    !(s.takeEntry 0).ctxBusy 0 e && decide (e.toNat % 2 ^ 8 = op) && decide ((s.takeEntry 0).parts.find ((s.takeEntry 0).hostq 0).die ≠ none)
theorem ready_of {s : State} {e : BitVec 512} {op : Nat} (h : readyB s e op = true) : ready s 0 e op := by
  simp only [readyB, Bool.and_eq_true, decide_eq_true_eq, Bool.not_eq_true'] at h
  obtain ⟨⟨⟨⟨⟨⟨⟨h1, h2⟩, h3⟩, h4⟩, h5⟩, h6⟩, h7⟩, h8⟩ := h
  exact ⟨⟨h1, h2, .inl ⟨h3, h4, h5, rfl⟩⟩, h6, h7, h8⟩
theorem taken_of {s : State} {e : BitVec 512} {op : Nat} {masks : List Nat}
    (h : (readyB s e op && operandsOk masks e && decide (Claims.word e 7 % 32 = 0)) = true) : taken s 0 e op masks := by
  simp only [Bool.and_eq_true, decide_eq_true_eq] at h
  exact ⟨ready_of h.1.1, h.1.2, h.2⟩

def bw (ws : List Nat) : BitVec 512 := BitVec.ofNat 512 (ent ws)

/-- An entry of queue 0 that was taken and waited, behind one of queue 1 on the same context or with none. -/
def waited (b : Option (BitVec 512)) : State :=
  { cs ctx0 [] with
    hq := [(0, { HostQ.reset with cfg := 0x80000004, mapped := true, busy := some (bw [0x02]), taken := 5 }),
           (1, { HostQ.reset with cfg := 0x80000004, mapped := true, slot := 1, busy := b, taken := 4 })] }
theorem wit_CommandChecks : ready (cs ctx0 [0x02 + 2 ^ 8]) 0 (bw [0x02 + 2 ^ 8]) 0x02 ∧ operandsOk [] (bw [0x02 + 2 ^ 8]) = false ∧
    taken (cs ctx0 [0x02 + 2 ^ 16]) 0 (bw [0x02 + 2 ^ 16]) 0x02 [] ∧ ((cs ctx0 [0x02 + 2 ^ 16]).takeEntry 0).ctx 1 = none ∧
    ready (cs ctx0 [0x12]) 0 (bw [0x12]) 0x12 ∧ ready (cs ctx0 [0]) 0 (bw [0]) 0 ∧ (st (ua [])).mayTake 0 = false ∧
    ((cs ctx0 [0x02]).entryAt 0).toNat % 2 ^ 8 ≠ 0x03 ∧
    Claims.takes (waited (some (bw [0x02]))) 0 (bw [0x02]) (waited (some (bw [0x02]))) ∧
    (waited (some (bw [0x02]))).ctxBusy 0 (bw [0x02]) = true ∧ (waited none).ctxBusy 0 (bw [0x02]) = false := by
  refine ⟨ready_of ?_, ?_, taken_of ?_, ?_, ready_of ?_, ready_of ?_, ?_, ?_, ⟨?_, ?_, .inr ⟨?_, ?_, rfl⟩⟩, ?_, ?_⟩ <;> decide +kernel

/-- CREATE_CONTEXT of context 1 with its root at 0x20000, and of the context 0 that exists. -/
theorem wit_ContextCommands_create :
    (∀ c ∈ [0, 1], taken (cs ctx0 [0x01 + c * 2 ^ 16, 0, 0x20000]) 0 (bw [0x01 + c * 2 ^ 16, 0, 0x20000]) 0x01
      [Claims.full, Claims.full, 0xFFFF0103, Claims.hostMask, 0x1F, 0]) ∧
    ((cs ctx0 [0x01 + 2 ^ 16, 0, 0x20000]).takeEntry 0).leads 0 = true ∧ ((cs ctx0 [0x01]).takeEntry 0).ctx 0 ≠ none ∧
    ((cs ctx0 [0x01]).takeEntry 0).ctx 1 = none ∧ (((cs ctx0 [0x01]).takeEntry 0).partRange 0).1 ≤ 0x20000 ∧
    0x20000 + 65536 ≤ (((cs ctx0 [0x01]).takeEntry 0).partRange 0).2 := by
  refine ⟨?_, ?_, ?_, ?_, ?_, ?_⟩
  · intro c hc
    rcases List.mem_cons.mp hc with rfl | hc
    · exact taken_of (by decide +kernel)
    · rcases List.mem_cons.mp hc with rfl | hc
      · exact taken_of (by decide +kernel)
      · cases hc
  all_goals decide +kernel

/-- DESTROY_CONTEXT, LOAD_OPERATORS, PREEMPT and RESUME of context 0, and READ_EXPR of its empty expression with a buffer of 64 bytes. -/
theorem wit_ContextCommands_others :
    taken (cs ctx0 [0x02]) 0 (bw [0x02]) 0x02 [] ∧ taken (cs ctx0 [0x03]) 0 (bw [0x03]) 0x03 [] ∧
    taken (cs ctx0 [0x06]) 0 (bw [0x06]) 0x06 [] ∧ ctx0.status = .running ∧
    taken (cs { ctx0 with status := .preempted } [0x07]) 0 (bw [0x07]) 0x07 [] ∧
    taken (cs ctx0 [0x08, 0x3000, 64]) 0 (bw [0x08, 0x3000, 64]) 0x08 [Claims.hostMask, Claims.full, 0, 0, 0, 0] ∧
    ((cs ctx0 [0x08, 0x3000, 64]).takeEntry 0).wholeExpr 0 = some [] ∧ ((cs ctx0 [0x08]).takeEntry 0).ctx 0 = some ctx0 := by
  refine ⟨taken_of ?_, taken_of ?_, taken_of ?_, rfl, taken_of ?_, taken_of ?_, ?_, ?_⟩ <;> decide +kernel

/-- Page tables at 0x10000, 0x20000 and 0x30000 that map page 4 onto itself, readable, writable and executable. -/
def tables : Tab Byte :=
  writeTab (writeTab (writeTab [] 0x10000 (leBytes 8 0x20001)) 0x20000 (leBytes 8 0x30001)) 0x30020 (leBytes 8 0x4001F)
def created : Ctx := { ctx0 with status := .created, launch := none, lb := 0x40000 }

/-- LOAD_EXPR of the one symbol INT 5 at 0x40000, with the MARK of another context in hearth 1. -/
def exprState : State :=
  { cs created [0x04, 0x40000] with
    row := [(256, sy 11 1)]
    mem := writeTab tables 0x40000 (leBytes 64 (1 + 80 * 2 ^ 64 + 2 ^ 96) ++ leBytes 16 (5 + 6 * 2 ^ 68)) }
theorem wit_ContextCommands_load :
    taken exprState 0 (bw [0x04, 0x40000]) 0x04 [Claims.full, 0x81FF03FF, 0, 0, 0, 0] ∧
    (exprState.takeEntry 0).run 0 = [] ∧ (exprState.takeEntry 0).segsOf 0 = [] ∧
    ((exprState.takeEntry 0).virtBytes 0 0x40000 64).map ofLe = some (1 + 80 * 2 ^ 64 + 2 ^ 96) ∧
    ((exprState.takeEntry 0).virtBytes 0 0x40000 80).map (fun bs => ofLe (bs.drop 64)) = some (5 + 6 * 2 ^ 68) ∧
    wfExpr [sy 6 5] = true ∧ (exprState.takeEntry 0).exprDefault 0 0 1 = some [0, 1] ∧
    (match ((exprState.takeEntry 0).setSym 0 (sy 11 0)).loadSyms 0 0x40000 0 [(1, sy 6 5)] with | .ok _ => true | .error _ => false) = true := by
  refine ⟨taken_of ?_, ?_, ?_, ?_, ?_, ?_, ?_, ?_⟩ <;> decide +kernel

/-- START with a launch block at 0x40000 and a table of four operators at 0x40200. -/
def lblock : Nat := 1 + 4 * 2 ^ 32 + 0x40200 * 2 ^ 64 + 1 * 2 ^ 128 + 2 * 2 ^ 160 + 3 * 2 ^ 176 + ent [0, 0, 0, 0, 0, 0, 0, 0x40400, 0x40440, 0x40480]
def opent : List Byte := leBytes 16 (0x40500 + 2 ^ 63 + 4 * 2 ^ 64 + 2 ^ 96)
def startState : State :=
  { cs created [0x05] with mem := writeTab (writeTab tables 0x40000 (leBytes 128 lblock)) 0x40200 (opent ++ opent ++ opent ++ opent) }
theorem wit_ContextCommands_start : taken startState 0 (bw [0x05]) 0x05 [] ∧ created.lb.toNat % 64 = 0 ∧
    ((startState.takeEntry 0).virtBytes 0 0x40000 384).map ofLe = some lblock ∧ launchOk lblock = true ∧
    (startState.takeEntry 0).launchMapped 0 0x40000 (launchOf lblock) = true ∧
    (∀ op ∈ [1, 2, 3], ((startState.takeEntry 0).modCtx 0 (fun x => { x with launch := some (launchOf lblock) })).plainOp 0 op = true) ∧
    (launchOf lblock).carve = 0 := by
  refine ⟨taken_of ?_, ?_, ?_, ?_, ?_, ?_, ?_⟩ <;> decide +kernel

/-- MAP and UNMAP of page 4, whose tables stand; a size that is not a multiple, and the last pages below the tile window. -/
def mapWs : List Nat := [0x09, 0x40000, 0x50000, 1, 0xC]
theorem wit_MapCommands : taken { cs ctx0 mapWs with mem := tables } 0 (bw mapWs) 0x09
      [Claims.full, 2 ^ 48 - 1, 0x1FFFFFF, 0x00FF00000000FFFC, Claims.hostMask, 0] ∧
    taken (cs ctx0 [0x0A, 0x40000, 0, 1]) 0 (bw [0x0A, 0x40000, 0, 1]) 0x0A [Claims.full, 0, 0x1FFFFFF, 0, 0, 0] ∧
    canonical 0x40000 = true ∧ (0x40008 : Nat) % 65536 ≠ 0 ∧ (2 ^ 55 - 2 ^ 36 - 65536) + 1 * 2 ^ 16 ≤ 2 ^ 55 - 2 ^ 36 ∧
    ({ st (ua []) with mem := tables } : State).pteAt 0x10000 % 4 = 1 ∧ ({ st (ua []) with mem := tables } : State).pteAt 0x20000 % 4 = 1 ∧
    ({ st (ua []) with mem := tables } : State).pteAt 0x20000 / 2 ^ 16 % 2 ^ 32 * 65536 = 0x30000 := by
  refine ⟨taken_of ?_, taken_of ?_, ?_, ?_, ?_, ?_, ?_, ?_⟩ <;> decide +kernel

/-- A lease of a unit, with its cause and stage. -/
def lease (u cause : Nat) (g : LeaseStage) : Lease := ⟨u, cause, 0, g, 0, 0, 0, 0, 0, 0, 0, false, 0⟩

/-- The device commands; the last unit of a class and one past it; no context for PARTITION. -/
def cut0 (l : List Lease) : State := { cs ctx0 [0x0D, 1] with ctxs := [], leases := l }
def cutting0 (l : List Lease) : State :=
  { cut0 l with cutting := some (0, 2), hq := [(0, { HostQ.reset with mapped := true, busy := some (bw [0x0D, 1]), runs := true })] }
theorem wit_DeviceCommands :
    taken (cs ctx0 [0x0B, 1023]) 0 (bw [0x0B, 1023]) 0x0B [0xFFFF, 0x1FF, 0xFFF, 0, 0, 0] ∧ unitOk 1023 = true ∧ unitOk 1024 = false ∧
    (((cs ctx0 [0x0B, 1023]).takeEntry 0).unit 1023).health ≠ .retired ∧ ((cs ctx0 [0x0B, 1023]).takeEntry 0).nospare 1023 = false ∧
    taken (cs ctx0 [0x0C, 5, 0x20002]) 0 (bw [0x0C, 5, 0x20002]) 0x0C [0xFFFF, 0xFFFF0003, 0, 0, 0, 0] ∧
    taken (cs ctx0 [0x0D, 1]) 0 (bw [0x0D, 1]) 0x0D [3, 0, 0, 0, 0, 0] ∧
    (∀ p ∈ (cut0 []).ctxs, p.2.part ∉ (cut0 []).involved 2) ∧ (∃ p ∈ (cs ctx0 []).ctxs, p.2.status ≠ .dead ∧ p.2.part ∈ (cs ctx0 []).involved 2) ∧
    (∀ p ∈ (cut0 []).hq, p.1 = 0) ∧ (cut0 []).leases = [] ∧ (cut0 []).cutting = none ∧
    (∃ l ∈ (cut0 [lease 0 0 .evacuation]).leases, l.cause ≠ 3 ∧ ∃ d ∈ unitDies l.unit, (cut0 []).lead d ∈ (cut0 []).involved 2) ∧
    (cutting0 []).cutLeases 2 = false ∧ (cutting0 [lease 0 0 .evacuation]).cutLeases 2 = true ∧ ((cutting0 []).hostq 0).busy = some (bw [0x0D, 1]) ∧
    taken (cs ctx0 [0x0E, 0x3000, 64]) 0 (bw [0x0E, 0x3000, 64]) 0x0E [Claims.hostMask, Claims.full, 3, 0, 0, 0] ∧
    taken (cs ctx0 [0x0F, 0x3000, 8]) 0 (bw [0x0F, 0x3000, 8]) 0x0F [Claims.hostMask, Claims.full, 0, 0, 0, 0] ∧
    taken (cs ctx0 [0x10, 0x3000, 0x4000]) 0 (bw [0x10, 0x3000, 0x4000]) 0x10 [Claims.hostMask, Claims.hostMask, 0, 0, 0, 0] ∧
    taken (cs ctx0 [0x11, 0, 1, 0x3000]) 0 (bw [0x11, 0, 1, 0x3000]) 0x11 [0xFFFFFFFF, Claims.full, Claims.hostMask, 0, 0, 0] := by
  refine ⟨taken_of ?_, ?_, ?_, ?_, ?_, taken_of ?_, taken_of ?_, ?_, ?_, ?_, ?_, ?_, ?_, ?_, ?_, ?_, taken_of ?_, taken_of ?_, taken_of ?_, taken_of ?_⟩ <;>
    decide +kernel

/-- A write to the last bytes of device memory, a read, an atomic; a release that may not pass an earlier write of its agent, and one of
another agent; a job with a context and one without. -/
def hr (id agent : Nat) (ord : HostOrd) (ask : HostAsk) : HostReq := ⟨id, agent, ord, ask⟩
def hs (l : List HostReq) : State := { st (ua []) with hostReqs := l }
def hw : HostAsk := .write 0x8DBFFFFFF8 (List.replicate 8 1)
theorem wit_HostAccesses :
    (∀ a, Claims.due (hs [hr 1 0 .plain a]) (hr 1 0 .plain a)) ∧ Claims.due (hs [hr 1 0 .plain hw, hr 2 1 .release hw]) (hr 2 1 .release hw) ∧
    ¬Claims.due (hs [hr 1 0 .plain hw, hr 2 0 .release hw]) (hr 2 0 .release hw) ∧
    ¬Claims.due (hs [hr 1 0 .acquire (.read 0 8), hr 2 0 .plain hw]) (hr 2 0 .plain hw) ∧
    0x8DBFFFFFF8 + 8 ≤ 0x8DC0000000 ∧ (st (ua [])).jobCtx 1 = none ∧ (st (ua [])).jobCtx 0 = some 0 ∧
    (match ({ st (ua []) with mem := tables } : State).jobPages 0 (rangePages (BitVec.ofNat 64 0x40000) 4) [] with | .ok _ => true | .error _ => false) = true ∧
    (match ({ st (ua []) with mem := tables } : State).signalVirt 0 (BitVec.ofNat 64 (0x40008 / 8 * 8)) 1 0 with | .ok _ => true | .error _ => false) = true := by
  refine ⟨fun a => ⟨rfl, rfl, (by decide : 6 ≤ 7), ?_⟩, ⟨rfl, rfl, by decide, ?_⟩, ?_, ?_, by decide, ?_, ?_, ?_, ?_⟩
  · intro e he _ h
    cases he with
    | head => exact absurd h (Nat.lt_irrefl 1)
    | tail _ h => cases h
  · intro e he h h2
    rcases List.mem_cons.mp he with rfl | he
    · cases h
    · rcases List.mem_cons.mp he with rfl | he
      · exact absurd h2 (Nat.lt_irrefl 2)
      · cases he
  · intro h
    exact (h.2.2.2 (hr 1 0 .plain hw) (.head _) rfl (by decide)).2 rfl |>.1 _ _ rfl
  · intro h
    exact (h.2.2.2 (hr 1 0 .acquire (.read 0 8)) (.head _) rfl (by decide)).1 rfl
  all_goals decide +kernel

/-- A queue of 16 entries that is mapped, one that awaits a slot, and an idle one while another waits. -/
def q0 : HostQ := { HostQ.reset with cfg := 0x80000004, mapped := true }
def q1 : HostQ := { HostQ.reset with cfg := 0x80000004, pending := true, ltail := 16 }
def qs (a b : HostQ) : State := { st (ua []) with hq := [(0, a), (1, b)] }
theorem wit_HostQueues : (qs q0 q1).hostq 0 = q0 ∧ (qs q0 q1).hostq 1 = q1 ∧ (16 : Word).toNat ≤ q0.head + 2 ^ (q0.cfg.toNat % 32) ∧
    q0.head + 2 ^ (q0.cfg.toNat % 32) < (17 : Word).toNat ∧ (qs q0 q1).slotsMapped < 16 ∧
    (qs q0 q1).mapOrder.find? (fun i => ((qs q0 q1).hostq i).awaits) = some 1 ∧ q1.head < q1.ltail ∧ q1.ltail ≤ q1.head + 2 ^ (q1.cfg.toNat % 32) ∧
    ({ q1 with ltail := 0 } : HostQ).ltail ≤ q1.head ∧ q0.head = q0.tail ∧ q0.busy = none ∧ (qs q0 q1).hq.any (fun p => p.1 ≠ 0 && p.2.awaits) = true ∧
    q0.enabled = true ∧ HostQ.reset.enabled = false ∧ (st (ua [])).powered = true ∧ (qs q0 q1).agentHeld 0 = false ∧
    (hs [hr 1 0 .acquire (.read 0 8)]).agentHeld 0 = true := by decide +kernel

/-! The package, leases and the memory system. -/

/-- Power off, the reset input asserted, each of the stages of bring-up. -/
theorem wit_PackageResets : (st (ua [])).powered = true ∧ ({ State.reset with powered := false } : State).powered = false ∧
    (st (ua [])).resetHeld = false ∧ (st (ua [])).mem.wf 0 = true ∧ (st (ua [])).units.wf LUnit.reset = true ∧ (st (ua [])).cut = 1 ∧
    ((st (ua [])).part 0).dies = 4 ∧ State.reset.stage < 7 ∧ State.reset.alert = false ∧ ({ State.reset with stage := 6 } : State).stage = 6 ∧
    ({ State.reset with alert := true } : State).alert = true := by decide +kernel

/-- Hearth 0 at `n` times 100 MHz is the busier of two and the slowest of them. -/
def powered (n : Nat) : State :=
  { st (ua []) with
    hearths := [(0, { Hearth.reset with clock := n, asked := (1, 0) }), (1, { Hearth.reset with clock := n + 1 })], busyLast := [(0, 7), (1, 5)] }
theorem wit_PowerAndScan : (powered 35).stage = 7 ∧ (1023 : Nat) < 1024 ∧ (powered 35).ref / 3600000 ≠ 1 ∧ 12 < ((powered 35).hearth 0).clock ∧
    ((powered 12).hearth 0).clock ≤ 12 ∧ ((powered 35).hearth 0).clock < 36 ∧ (∀ p ∈ (powered 35).busyLast, p.2 ≤ (powered 35).busyLast.get 0 0) ∧
    (∀ p ∈ (powered 35).hearths, ((powered 35).hearth 0).clock ≤ p.2.clock) ∧
    (∃ p ∈ (powered 35).busyLast, ((powered 35).unit p.1).health = .inService ∧ 12 < ((powered 35).hearth p.1).clock ∧
      ¬p.2 ≤ (powered 35).busyLast.get 0 1) ∧ (∃ p ∈ (powered 35).hearths, ¬((powered 35).hearth 1).clock ≤ p.2.clock) ∧
    (powered 35).pcap - 50 * ((powered 35).inletDeg - 40) = 3200 ∧ 3200 < 3201 ∧ 100 * 3039 < 95 * 3200 ∧ 95 * 3200 ≤ 100 * 3040 := by decide +kernel

/-- A unit whose place is free and one whose place is taken; turns that wait behind an early lease; a lease in its first and in its second
test, with a score one short of retirement and at it. -/
def leasing (l : List Lease) (us : Tab LUnit) : State := { st (ua []) with leases := l, units := us }
def earlyUnit : LUnit := { LUnit.reset with early := true }
theorem wit_LeaseTurnsAndTests : (leasing [] []).leasable 0 = true ∧ (leasing [] []).placeFree 0 = true ∧ (leasing [] []).nextTurnOf 0 = some 0 ∧
    (leasing [lease 1 0 (.test false)] []).placeFree 0 = false ∧ (leasing [lease 1 0 (.test false)] []).nextTurnOf 0 = some 0 ∧
    ((leasing [] [(5, earlyUnit)]).unit 5).early = true ∧ ((leasing [] [(5, earlyUnit)]).unit 5).holdoff = false ∧
    (leasing [] [(5, earlyUnit)]).leasable 5 = true ∧ (leasing [] [(5, earlyUnit)]).placeFree 5 = true ∧
    (leasing [lease 0 3 .waitHeat] []).leasable 0 = true ∧ (leasing [lease 0 3 .waitHeat] []).placeFree 0 = true ∧
    ({ LUnit.reset with retry := true } : LUnit).retry = true ∧ (leasing [] []).rotaNext.get 0 0 < classSize 0 ∧
    (leasing [lease 0 0 (.test false)] []).leases.find? (fun l => l.unit = 0 && l.cause ≠ 3) = some (lease 0 0 (.test false)) ∧
    (leasing [lease 0 0 (.test true)] []).leases.find? (fun l => l.unit = 0 && l.cause ≠ 3) = some (lease 0 0 (.test true)) ∧
    (leasing [] []).ref < ((leasing [] []).halvings + 1) * Claims.day ∧
    ({ leasing [] [] with cutting := some (0, 2) } : State).quiesced 0 = true ∧ ({ LUnit.reset with forced := [3] } : LUnit).forced ≠ [] ∧
    0 < ({ LUnit.reset with inject := 1 } : LUnit).inject ∧ min (2047 + 2048) 65535 < 4096 ∧ 4096 ≤ min (2048 + 2048) 65535 := by decide +kernel

/-- A hearth that no lease holds, one whose cells are withdrawn and one in its test; the clearance of each, with a lease that waits for it. -/
theorem wit_ThermalEvacuations : (st (ua [])).stage = 7 ∧ (1023 : Nat) < 1024 ∧ ((st (ua [])).unit 1023).hot = false ∧
    ((st (ua [])).unit 1023).health = .inService ∧ (leasing [] []).leases.find? (fun l => l.unit = 5) = none ∧
    (leasing [lease 5 0 .withdrawal] []).leases.find? (fun l => l.unit = 5) = some (lease 5 0 .withdrawal) ∧
    (leasing [lease 5 0 (.test false)] []).leases.find? (fun l => l.unit = 5) = some (lease 5 0 (.test false)) ∧
    (leasing [lease 5 3 .waitHeat] []).leases.find? (fun l => l.unit = 5 && l.cause = 3 && l.stage = .waitHeat) = some (lease 5 3 .waitHeat) ∧
    (∀ m ∈ (leasing [lease 5 3 .waitHeat] []).leases, m.unit = 5 → m.stage = .waitHeat → m.cause = 3) ∧
    (leasing [lease 5 3 .waitHeat, lease 5 0 .waitHeat] []).leases.find? (fun m => m.unit = 5 && m.cause ≠ 3 && m.stage = .waitHeat) =
      some (lease 5 0 .waitHeat) ∧ (∀ l ∈ (leasing [] []).leases, l.unit = 5 → l.cause = 3 → l.stage ≠ .waitHeat) := by decide +kernel

/-- The scores short of a whole day and at it; a lane group. -/
theorem wit_ScoresAndHalvings : (st (ua [])).ref < ((st (ua [])).halvings + 1) * Claims.day ∧
    (({ st (ua []) with ref := 311040000000000 } : State).halvings + 1) * Claims.day ≤ ({ st (ua []) with ref := 311040000000000 } : State).ref ∧
    ({ st (ua []) with ref := 311040000000000 } : State).ref < (({ st (ua []) with ref := 311040000000000 } : State).halvings + 2) * Claims.day ∧
    (st (ua [])).units.wf LUnit.reset = true ∧ unitOk (3 * 4096) = true ∧ 2 ≤ unitClass (3 * 4096) := by decide +kernel

theorem wit_EvacuationsAndDrains :
    (leasing [lease 5 0 .evacuation] []).holdsSomething 5 = false ∧ (leasing [lease 0 0 .evacuation] []).holdsSomething 0 = true ∧
    (leasing [lease 4096 0 .evacuation] []).leases.find? (fun l => unitClass l.unit = 1 && unitIndex l.unit / 64 = 0 && l.stage = .evacuation) =
      some (lease 4096 0 .evacuation) ∧ (1572862 : Nat) + 1 < 1572864 ∧ (leasing [] []).slotOfChan 0 = some 0 ∧
    unitClass 8192 = 2 ∧ (leasing [] []).inService 8192 = true ∧ (leasing [lease 8192 0 .evacuation] []).portBusy (unitIndex 8192) = false := by
  decide +kernel

/-- A slot on its way to hearth 1, and a capacity change that is due to a mapped counter and to none. -/
def moving0 : State := { st (ua []) with slots := [(7, { slot 0 [] with moving := some ⟨1, 0, 3, true⟩ })] }
def l8 : Launch := { launch0 with capctr := 0x40008 }
def due0 : State := { st (ua []) with ctxs := [(0, { ctx0 with launch := some l8, capDue := [(0, 0, 0, false)] })], mem := tables }
def due1 : State := due0.modCtx 0 (fun x => { x with capDue := [] })
theorem wit_MigrationsAndCapacitySignals : moving0.slots.find (0 * 2 ^ 20 + 7) = some { slot 0 [] with moving := some ⟨1, 0, 3, true⟩ } ∧ (slot 0 []).dying = false ∧
    moving0.queues = [] ∧ moving0.subs = [] ∧
    (match due1.signalVirt 0 (BitVec.ofNat 64 l8.capctr) 1 (due1.virtTime 0 (BitVec.ofNat 64 l8.caprec) 64) with | .ok _ => true | .error _ => false) = true ∧
    (match due1.signalVirt 0 0x60000 1 (due1.virtTime 0 (BitVec.ofNat 64 l8.caprec) 64) with | .ok _ => true | .error _ => false) = false := by
  decide +kernel

/-- The last line of the four stacks' memory, read by an engine of hearth 0 for a started command; a slice that holds it. -/
def fetching : State :=
  { st (ua []) with queues := [(2, [{ cmd (.tld al 0 1 1 (md 0 0)) with pages := [page 1 0x1000F] }])] }
def sline : SliceLine := ⟨0x400, 3, false⟩
theorem wit_SliceSteps : (st (ua [])).stage = 7 ∧ 0x10000 < 4 * dieBytes ∧ fetching.engineLine 0x10000 0 = true ∧
    (∀ y ∈ (fetching.slice (Claims.channel fetching 0x10000)).lines, y.line ≠ 0x10000 / 64) ∧
    ({ lines := [sline], dets := [], staged := [] } : Slice).lines.find? (fun y => y.line = 0x10000 / 64) = some sline ∧
    Claims.found (st (ua [])) 0x400 1 = .corrected (List.replicate 64 0) ∧
    Claims.found (st (ua [])) 0x400 (1 + 2 ^ 64) = .lost (1 :: List.replicate 7 0 ++ 1 :: List.replicate 55 0) ∧
    (st (ua [])).tags.find ((st (ua [])).tagKey 0x400) = none ∧ 64 * (4 * dieBytes / 64 - 1) < 4 * dieBytes := by decide +kernel

/-- The tag of a page of zeros that was never written, and another tag; the tag of a page of 512 MiB. -/
def tagged0 (t : BitVec 128) : State := { st (ua []) with tags := [(0, ⟨0, 1024, t⟩)] }
theorem wit_TileStoreErrors : (st (ua [])).powered = true ∧ (1023 : Nat) < 1024 ∧ (98303 : Nat) < 98304 ∧
    (st (ua [])).ref < ((st (ua [])).halvings + 1) * Claims.day := by decide +kernel
theorem wit_PageTagsAreChecked (t : BitVec 128) : (tagged0 t).stage = 7 ∧ 64 * 1023 < 4 * dieBytes ∧ 1023 % 1024 = 1023 ∧
    ({ st (ua []) with tags := [(0, ⟨0, 8388608, t⟩)] } : State).tagKey 8388607 = 0 ∧ 0 = (tagged0 t).tagKey 1023 ∧ (tagged0 t).tags.find (1023 / 1024) = some ⟨0, 1024, t⟩ ∧ (tagged0 ((st (ua [])).tagNow 0 1024 0)).tagNow 0 1024 0 = (st (ua [])).tagNow 0 1024 0 ∧
    (tagged0 ((st (ua [])).tagNow 0 1024 0 + 1)).tagNow 0 1024 0 ≠ (st (ua [])).tagNow 0 1024 0 + 1 := by
  refine ⟨rfl, by decide, rfl, rfl, rfl, rfl, rfl, ?_⟩
  show (st (ua [])).tagNow 0 1024 0 ≠ (st (ua [])).tagNow 0 1024 0 + 1
  bv_omega

/-- Packets of one queue; of age 63 on two ports; of the class in its turn and of another; and none of the class in its turn. -/
def pk (id cls age port : Nat) : Msg := ⟨id, cls, 0, age, 0, 5, 5, port, false, .reply 0 0 id⟩
theorem wit_RoutersPickPackets :
    (∀ x ∈ [pk 1 0 0 0] ++ [pk 3 0 0 0], x.id ≠ (pk 2 0 0 0).id) ∧ (pk 2 0 0 0).behind (pk 1 0 0 0) = true ∧ (pk 2 1 0 0).behind (pk 1 0 0 0) = false ∧
    (pickPacket Arbiter.start [pk 1 0 63 2, pk 2 3 63 1]).map (·.1) = some (pk 2 3 63 1) ∧
    (pickPacket ⟨0, 2, []⟩ [pk 1 1 0 0, pk 2 0 5 3]).map (·.1) = some (pk 2 0 5 3) ∧
    (pickPacket ⟨0, 0, []⟩ [pk 1 2 0 0, pk 2 0 5 3]).map (·.1) = some (pk 1 2 0 0) := by decide +kernel

/-- A walk that finds its page and one that does not. -/
def walkCell : Cell := waiting .port 0x40000 3 none none []
def walkState (m : Tab Byte) : State :=
  { st (area .user (entry false false) walkCell) with walks := [⟨3, 0, 0, 4, [0]⟩], mem := m }
def walked (m : Tab Byte) : State :=
  let s := walkState m
  (s.walkers 3).foldl (fun s c => s.modCell c.1 c.2.1 (fun k => { k with wait := none }))
    (({ s with walks := s.walks.filter (fun y => y.id ≠ 3), msgs := s.msgs.filter (fun m => m.body ≠ .walk 3) } : State).readTables ⟨3, 0, 0, 4, [0]⟩)
theorem wit_PageWalksEnd : (walkState tables).walks.find? (fun w => w.id = 3) = some ⟨3, 0, 0, 4, [0]⟩ ∧
    (walkState tables).walkers 3 = [(1, 0, 0x40000)] ∧
    ((walked tables).walk 0 (4 * 65536)).toOption = some ⟨0, false, 4, 0x4001F⟩ ∧ (walkState tables).msgs = [] ∧
    (({ walkState tables with msgs := [{ packet (.walk 3) with here := false }] } : State).arrival (.walk 3)).isSome = false ∧
    (match (walked []).walk 0 (4 * 65536) with | .error f => f | .ok _ => 0) = fltPageFault := by
  decide +kernel

theorem wit_DiscoveryClaimsApplications : (∀ p ∈ restoring.areas, p.1 < restoring.nextUid) ∧
    (∃ u a, restoring.area u = none ∧ (restoring.discover 0).area u = some a) := ⟨by decide, 10, _, rfl, by rfl⟩

/-- A machine at rest; loads that end; an area that waits for its copies. -/
def rest : State := { State.reset with stage := 7 }
def vfound : Area := { area .user (entry false true) (cell []) with phase := .found, op := 5 }
def voteState : State :=
  { st vfound with hearths := [(0, { Hearth.reset with residents := [⟨some 0, 5, entry false true, [], [], 0, none⟩] })] }
theorem wit_SweepsAndLoads : rest.stage = 7 ∧ rest.ctxs = [] ∧ rest.parts.find 0 = some (Part.reset 4) ∧ State.reset.stage ≠ 7 ∧
    vfound.entry.map (·.voted) = some true ∧ voteState.shadows 1 = [] ∧ voteState.ctxSweep 0 < 0 + 1024 ∧
    ({ Hearth.reset with load := some ⟨none, 0xF06, entry false false, [], 0⟩ } : Hearth).load = some ⟨none, 0xF06, entry false false, [], 0⟩ ∧
    (({ st (ua []) with mem := tables } : State).fetchBytes 1 0 3 0x40000 4).1 = some [0, 0, 0, 0] ∧ ((st (ua [])).fetchBytes 0 0 3 0x40000 4).1 = none := by
  decide +kernel

/-! The ends of areas. -/

/-- The application `( OPER 5 )` in cells 1 to 3, whose first cell is the last to commit; `r` is what it does to its own symbol and what
it inserts. -/
def ending (r : Rewrite) : Area :=
  { ua [] with op := 5, cells :=
    [(0, { Cell.start 1 with rw := r }), (1, { Cell.start 2 with stop := .commit }), (2, { Cell.start 3 with stop := .commit })] }
def endState (r : Rewrite) : State := { st (ending r) with row := row0 }
theorem wit_ResultsFillTheirCells : (∀ r, (endState r).issues al [] (ending r) { Cell.start 1 with rw := r }) ∧
    (∀ r, (ending r).kind = .user ∧ (ending r).phase = .active ∧ (ending r).brk = false ∧ (ending r).isVoted = false ∧
      (((ending r).entry.map (·.pure)).getD false = false) ∧ (endState r).ctx 0 = some ctx0) ∧
    (let ys (r : Rewrite) := (ending r).cells.flatMap (fun p => Claims.contribution (endState r) p.2)
     (ending ⟨.keep, 0, []⟩).cells.map (·.1) = List.range 3 ∧ ((ending ⟨.keep, 0, []⟩).cells.map (fun p => p.2.phys)).Nodup ∧
     (∀ p ∈ (ending ⟨.keep, 0, []⟩).cells, p.1 ≠ 0 → p.2.stop = .commit) ∧ (∀ p ∈ (endState ⟨.keep, 0, []⟩).areas, p.1 < 10) ∧
     ys ⟨.keep, 0, []⟩ = [sy 1 0, sy 5 5, sy 2 0] ∧ wfExpr (ys ⟨.keep, 0, []⟩) = true ∧
     wfExpr (ys ⟨.keep, 1, [(0, sy 5 6)]⟩) = true ∧ 3 < (ys ⟨.keep, 1, [(0, sy 5 6)]⟩).length ∧ wfExpr (ys ⟨.delete, 0, []⟩) = false) :=
  ⟨fun _ => ⟨rfl, rfl, rfl, rfl, rfl, rfl⟩, fun _ => ⟨rfl, rfl, rfl, rfl, rfl, rfl⟩, by decide +kernel⟩

/-- Its result of six symbols finds one cell more; two symbols go into a record. -/
def growing : Area := { ending ⟨.delete, 6, [(0, sy 1 0), (1, sy 5 6), (2, sy 6 1), (3, sy 6 2), (4, sy 6 3), (5, sy 2 0)]⟩ with phase := .committing }
theorem wit_GrowthFillsItsPlaces : ({ st growing with row := row0 } : State).area 1 = some growing ∧ growing.kind = .user ∧ ctx0.part = 0 ∧
    ctx0.launch = some launch0 ∧ ((st growing).parts.find 0).isSome = true ∧ growing.cells ≠ [] ∧
    (growing.cells.map (fun (p : Nat × Cell) => p.2.phys) ++ [4]).Nodup ∧
    (growing.cells.map (fun (p : Nat × Cell) => p.2.phys) ++ [4]).length ≤ ((growing.cells.map (fun (p : Nat × Cell) => p.2.rw.ins.map (·.2))).headD []).length := by
  refine ⟨rfl, ?_, ?_, rfl, ?_, ?_, ?_, ?_⟩ <;> decide +kernel

/-! The move pass and segments. -/

theorem wit_DepthsAreWritten : ((restoring.items 0).filterMap (fun q => match q.2 with | .sym p _ => some p | _ => none)).Nodup ∧
    restoring.items 0 = [] ++ (0, .sym 1 (sy 1 0)) :: [(1, .sym 2 (sy 5 5)), (2, .sym 3 (sy 2 0))] := by decide +kernel

/-- Three things with their homes in hearths 0 and 1 in the gap of the cells 5 to 299, which holds them. -/
theorem wit_GapsAreCompacted : [0, 0, 1].length ≤ restoring.gapSize 5 300 ∧
    (([0, 0, 1] : List Nat).filter (fun g => min (max g (hidOf 5)) (hidOf 299) = 0)).length ≤ (restoring.gapCells 5 300 0).length := by decide +kernel

/-- The three symbols of the application move one cell up. -/
def shifted1 : List (Nat × Tok) :=
  [(0, ⟨0, 0, 0, .cell 0 (sy 11 0) 0 true⟩), (2, ⟨0, 0, 0, .cell 1 (sy 1 0) 0 false⟩), (3, ⟨0, 0, 0, .cell 2 (sy 5 5) 1 false⟩),
   (4, ⟨0, 0, 0, .loaded (sy 2 0) false⟩)]
def still : State := { st (ua []) with areas := [], row := row0 }
theorem wit_SymbolsMoveWithTheirCells : (∀ q ∈ shifted1, (∃ p y n b, q.2.thing = .cell p y n b) ∨ ∃ y b, q.2.thing = .loaded y b) ∧
    (shifted1.map (·.1)).Nodup ∧ (∀ q ∈ shifted1, q.1 ∉ still.pins 0) ∧ (∀ p ∈ still.areas, p.2.growth = 0) := by
  refine ⟨?_, by decide, by decide +kernel, by decide +kernel⟩
  intro q hq
  rcases List.mem_cons.mp hq with rfl | hq
  · exact .inl ⟨_, _, _, _, rfl⟩
  rcases List.mem_cons.mp hq with rfl | hq
  · exact .inl ⟨_, _, _, _, rfl⟩
  rcases List.mem_cons.mp hq with rfl | hq
  · exact .inl ⟨_, _, _, _, rfl⟩
  rcases List.mem_cons.mp hq with rfl | hq
  · exact .inr ⟨_, _, rfl⟩
  · cases hq

/-- A segment of `OPER 6 )` with its record at page 4, on an area without cells; the run is a MARK and an opening `(`. -/
def segSyms : List Sym := [sy 5 6, sy 2 0]
def seg0 : Seg := ⟨0, 1, 2, -1, -1, false, true, 0, 1, false, []⟩
def segState : State :=
  { st (ua []) with
    areas := [], ctxs := [(0, { ctx0 with launch := some { launch0 with ovfbase := 0x40000, ovfsize := 8 } })], row := [(0, sy 11 0), (1, sy 1 0)]
    mem := writeTab tables 0x40000 (segRecord seg0 7 segSyms)
    parts := [(0, { Part.reset 4 with dir := [seg0] })] }
def segToks : List Tok := [⟨0, 0, 0, .cell 0 (sy 11 0) 0 true⟩, ⟨0, 0, 0, .cell 1 (sy 1 0) 0 false⟩, ⟨0, 0, 0, .seg seg0⟩]
theorem wit_SegmentsComeBack : segState.launch 0 = some { launch0 with ovfbase := 0x40000, ovfsize := 8 } ∧ segSyms.length ≤ 448 ∧
    (segState.parts.find 0).isSome = true ∧ segSyms.all (fun y => y.kind ≠ 0 && (y.valueOk || isOpen y || isClose y)) = true ∧
    (∀ i y z, segSyms[i]? = some y → segSyms[i + 1]? = some z → y.kind = 1 → z.kind = 5) ∧
    (match segState.peekVirt 0 (({ launch0 with ovfbase := 0x40000, ovfsize := 8 } : Launch).recAddr 0) 4096 with
      | .ok (bs, _) => decide (bs.take (64 + 9 * segSyms.length) = segRecord seg0 7 segSyms) | .error _ => false) = true := by
  refine ⟨rfl, by decide, rfl, by decide, ?_, by decide +kernel⟩
  intro i y z hy hz hk
  match i, hy with
  | 0, hy =>
    cases hy
    exact absurd hk (by decide)
  | 1, hy => cases hz
  | i + 2, hy => cases hy
theorem wit_SweepOutFreesCells : (segToks.filterMap (fun x => match x.thing with | .cell p _ _ _ => some p | _ => none)).Nodup := by decide

/-- The gap of the whole row has room; one of three cells has not. -/
theorem wit_SegmentsAreTakenIn : segToks.find? (fun t => t.thing = .seg seg0) = some ⟨0, 0, 0, .seg seg0⟩ ∧
    (solid (segToks.filter (fun t => t.gap = 0))).length + seg0.count ≤ segState.gapSize 0 256 ∧
    segState.gapSize 0 3 < (solid (segToks.filter (fun t => t.gap = 0))).length + seg0.count ∧
    segState.loadSegment seg0 = some (segSyms, false) ∧ joinsWell (segState.items 0) [] seg0 segSyms = true := by decide +kernel
theorem wit_SweepsMoveTheRow : (st (ua [])).stage = 7 ∧ (st (ua [])).quiesced 0 = false ∧ (st (ua [])).parts.find 0 = some (Part.reset 4) ∧
    (st (ua [])).ctxs = [(0, ctx0)] ∧ ctx0.part = 0 ∧ ctx0.status = .running ∧ (st (ua [])).leases = [] ∧ (st (ua [])).triggers = [] :=
  ⟨rfl, by decide +kernel, rfl, rfl, rfl, rfl, rfl, rfl⟩

/-! Forms and the ends of contexts. -/

/-- `( OPER 0xF06 INT )`: the identity form with its operand. -/
def formArea (op : Nat) : Area :=
  { ua [] with op := op, cells := [(0, Cell.start 1), (1, Cell.start 2), (2, Cell.start 3), (3, Cell.start 4)] }
def formState (op : Nat) (y : Sym) : State := { st (formArea op) with row := [(1, sy 1 0), (2, sy 5 (BitVec.ofNat 64 op)), (3, y), (4, sy 2 0)] }
theorem wit_CombiningForms : Claims.Obj [sy 6 5] ∧ (∀ x ∈ ([] : List (List Sym)), Claims.Obj x) ∧ (formState 0xF06 (sy 6 5)).area 1 = some (formArea 0xF06) ∧
    (formState 0xF06 (sy 6 5)).inTransit (formArea 0xF06) = false ∧
    (formArea 0xF06).cells.map (fun p => (formState 0xF06 (sy 6 5)).sym p.2.phys) = sy 1 0 :: sy 5 0xF06 :: [[sy 6 5]].flatten ++ [sy 2 0] ∧
    badOperand (formShape 0xF06 1) [[sy 6 5]] 0 = none ∧ badOperand (formShape 0xF08 1) [[sy 6 5]] 0 = some 0 ∧
    (sy 6 5).poison = false ∧ formResult 0xF06 [[sy 6 5]] = some [sy 6 5] ∧ (∀ p q r, formResult 0xF05 [[sy 6 0], [sy 3 p, sy 4 q]] = r → r = none) := by
  refine ⟨.atom _ (by decide) (by decide) (by decide) (by decide), (fun _ h => nomatch h), rfl, by decide +kernel, by decide +kernel, by decide +kernel,
    by decide +kernel, rfl, by decide +kernel, ?_⟩
  intro p q r h
  subst h
  rfl

/-- A context at its interval and short of it; an area held one sweep longer; an invocation that waits for its cell; pre-emptions; dumps
of 63 and of 64 bytes. -/
def c0 (f : Ctx → Ctx) : State := { st (ua []) with ctxs := [(0, f ctx0)] }
def waitSup : Area := { ta [] with phase := .found, op := 1 }
def supState : State := { st waitSup with hearths := [(0, { Hearth.reset with residents := [⟨some 0, 1, entry true false, [], [], 0, none⟩] })] }
def dump0 : Dump := ⟨0, 0x61, 0, 0, 0, false, false, 9⟩
def dumping : State :=
  { c0 (fun x => { x with launch := some { launch0 with hangaddr := 0x40000, hangsize := 64 } }) with mem := tables, dumps := [dump0] }
theorem wit_ContextEnds : (c0 id).ctx 0 = some ctx0 ∧ ctx0.launch = some launch0 ∧ (1048576 : Nat) ≤ ({ ctx0 with idle := 1048576 } : Ctx).idle ∧
    ctx0.idle < 1048576 ∧ (heldArea false false 0x12).trap.isSome = true ∧
    (1048576 : Nat) < ({ c0 id with parts := [(0, { Part.reset 4 with sweep := 1048577 })] } : State).ctxSweep 0 - (heldArea false false 0x12).since ∧
    supState.areas = [(1, waitSup)] ∧ (∃ p ∈ waitSup.cells, p.2.hid = 0 ∧ p.2.sup = none) ∧ (supState.freeSup 0).isSome = true ∧
    (supState.copyFor 0 1 0 1).isSome = true ∧
    (({ ctx0 with status := .preempting } : Ctx).since < ({ Part.reset 4 with sweep := 1 } : Part).sweep) ∧
    ((c0 (fun x => { x with status := .stopping })).evacuatesCells 0 = false) ∧ dump0.ctx = 0 ∧ dump0.cut = false ∧ dump0.hang = false ∧
    launch0.hangsize = 128 ∧ ({ launch0 with hangsize := 63 } : Launch).hangsize < 64 ∧
    (dumping.dumpBlocks 0 [(0x40000, dumpHeader dump0 (dumping.dumpEntries dump0).length 0 (decide (0 < (dumping.dumpEntries dump0).length)))]).2 = true := by
  refine ⟨rfl, rfl, ?_, ?_, rfl, ?_, rfl, ⟨(0, cell []), .head _, rfl, rfl⟩, rfl, ?_, ?_, ?_, rfl, rfl, rfl, rfl, ?_, ?_⟩ <;> decide +kernel

/-! Single steps, with results calculated by hand from the rules named. -/

/-- What `exec i` leaves in s3 of the cell that starts with the scalars `l`. -/
def s3 (i : Instr) (l : Tab Word) : Option Word :=
  match exec i (st (ua l)) with
  | .next t => ((t.area 1).bind (fun a => a.cells.find 0)).map (fun k => k.sreg 3)
  | _ => none

/-- R98–R100: wraps, the high half of a product, the corners of division, counts of a shift modulo 64, sign extensions. -/
theorem test_integer_results :
    [s3 (.add al 3 1 2) [(1, 0xFFFFFFFFFFFFFFFF), (2, 2)], s3 (.sub al 3 1 2) [(2, 1)], s3 (.mulhi al 3 1 2) [(1, 0xFFFFFFFFFFFFFFFF), (2, 2)],
     s3 (.mulhiu al 3 1 2) [(1, 0xFFFFFFFFFFFFFFFF), (2, 2)], s3 (.div al 3 1 2) [(1, 0xFFFFFFFFFFFFFFF9), (2, 2)],
     s3 (.rem al 3 1 2) [(1, 0xFFFFFFFFFFFFFFF9), (2, 2)], s3 (.div al 3 1 2) [(1, 7)], s3 (.shl al 3 1 2) [(1, 1), (2, 65)],
     s3 (.sra al 3 1 2) [(1, 0x8000000000000000), (2, 63)], s3 (.rol al 3 1 2) [(1, 0x8000000000000001), (2, 1)],
     s3 (.minu al 3 1 2) [(1, 0xFFFFFFFFFFFFFFFF), (2, 1)], s3 (.min al 3 1 2) [(1, 0xFFFFFFFFFFFFFFFF), (2, 1)], s3 (.clz al 3 1) [],
     s3 (.popc al 3 1) [(1, 0xF00F)], s3 (.sext al 0 3 1) [(1, 0x80)], s3 (.zext al 1 3 1) [(1, 0xABCDE)], s3 (.addi al 3 1 0xFF) [(1, 5)]] =
    [1, 0xFFFFFFFFFFFFFFFF, 0xFFFFFFFFFFFFFFFF, 1, 0xFFFFFFFFFFFFFFFD, 0xFFFFFFFFFFFFFFFF, 0xFFFFFFFFFFFFFFFF, 2, 0xFFFFFFFFFFFFFFFF, 3,
     1, 0xFFFFFFFFFFFFFFFF, 64, 8, 0xFFFFFFFFFFFFFF80, 0xBCDE, 4].map some := by decide +kernel

/-- R101, R105: a field taken out and put in, a literal's upper half, the value field of a small integer symbol. -/
theorem test_field_results :
    [s3 (.bext al 3 1 7 4) [(1, 0xABCD)], s3 (.bins al 3 1 7 8) [(1, 0x1FF), (3, 0xFFFFFFFFFFFFFFFF)], s3 (.lith al 3 0x12345678) [(3, 0xAAAAAAAABBBBBBBB)],
     s3 (.lit al 0 3 0x80000000) [], s3 (.lit al 1 3 0x80000000) [], s3 (.mksym al 5 3 1) [(1, 0x12345)]] =
    [0xBC, 0xFFFFFFFFFFFFFFFF, 0x12345678BBBBBBBB, 0xFFFFFFFF80000000, 0x80000000, 0x345].map some := by decide +kernel

/-- R61, R102, R103: 1 + 2^-24 is a tie that goes to even and rises in mode RU; 1/0 is infinite; the square root of −1 is the default
NaN; FMIN takes −0. -/
theorem test_float_results :
    [s3 (.fadd al 0 3 1 2) [(1, 0x3F800000), (2, 0x33800000)], s3 (.fadd al 3 3 1 2) [(1, 0x3F800000), (2, 0x33800000)],
     s3 (.fdiv al 0 3 1 2) [(1, 0x3F800000)], s3 (.fsqrt al 0 3 1) [(1, 0xBF800000)], s3 (.fmin al 3 1 2) [(1, 0), (2, 0x80000000)],
     s3 (.ffma al 0 3 1 2 4) [(1, 0x40000000), (2, 0x40400000), (4, 0xC0C00000)], s3 (.fcvt al 3 1 true 1 0 9) [(1, 0x43960000)]] =
    [0x3F800000, 0x3F800001, 0x7F800000, 0x7FC00000, 0x80000000, 0, 127].map some := by decide +kernel

/-- R88, R89, R91: at byte 16 a counter of 2 branches back two words; the last turn goes on; TRAP holds the area with its code. -/
theorem test_control :
    ([2, 1].map (fun n : Word =>
      match exec (.loop al 1 (-2)) (st (area .user (entry false false) { cell [(1, n)] with pc := 16 })) with
      | .next t => ((t.area 1).bind (fun a => a.cells.find 0)).map (fun k => (k.sreg 1, k.pc))
      | _ => none)) = [some (1, 8), some (0, 24)] ∧
    (match exec (.trap al 7) (st (ua [])) with
     | .next t => (t.area 1).map (fun a => (a.phase, (a.trap.map (fun r => (r.fault, r.code)))))
     | _ => none) = some (.held, some (0, 7)) := by decide +kernel

/-- Operation `o` has come to its home at 0x10000, which holds the bytes `bs`; three bytes of memory and what the operation brings. -/
def atHome (o : MemOp) (bs : List Byte) : State :=
  { st (busyArea [o]) with msgs := [packet (.request 1 0 8)], mem := writeTab [] 0x10000 bs }
def seen : Host.Outcome State Fault Refusal → List Byte × Option (Word × Bool)
  | .next t => ([t.mem.get 0 0x10000, t.mem.get 0 0x10001, t.mem.get 0 0x10003],
      ((Claims.cellIn t 1 0).bind (fun k => k.ops.head?)).bind (·.done))
  | _ => ([], none)

/-- R209, R210, R213: the low byte first; a load of two bytes is sign-extended; an atomic gives the old value. -/
theorem test_memory :
    seen (exec (.sliceAccess (.cell 1 0) 0) (atHome { mop .store line0 none with m := md 0 5, x := 0x123489AB } [])) = ([0xAB, 0x89, 0x12], some (0, false)) ∧
    seen (exec (.sliceAccess (.cell 1 0) 0) (atHome { mop .load line0 none with m := md 0 2 } [0xAB, 0x89])) = ([0xAB, 0x89, 0], some (0xFFFFFFFFFFFF89AB, false)) ∧
    seen (exec (.sliceAccess (.cell 1 0) 0) (atHome { mop .atomic line0 none with instr := .aadd al 3 1 2 (md 0 4), m := md 0 4, x := 2 } [0xFF, 0xFF, 0xFF, 0xFF])) =
      ([1, 0, 0], some (0xFFFFFFFFFFFFFFFF, false)) ∧
    (match exec (.loadReply 1 0 8) (st (busyArea [mop .load line0 (some (5, true))])) with
     | .next t => (Claims.cellIn t 1 0).map (fun k => (k.sreg 3, k.spsn 3, k.ops.length))
     | _ => none) = some (5, true, 0) := by decide +kernel

/-- R217: the check symbols of a line of zeros but for its last byte, which is 1, are the generator without its leading 1: the product of
x + α^i for i from 0 to 23 has the constant term α^(0 + 1 + … + 23) = α^276 = α^21, which is 0x75. -/
theorem test_check_symbols : (checkSyms (List.replicate 63 0 ++ [1])).getLast? = some 0x75 := by decide +kernel

end Sys2Proof.Tests
end

section
namespace Sys2Proof.Machine

/-! ## The memories stay canonical (R5, R210)

The canonical form is kept function by function, in the order of the model: `State.canon.f` says that `State.f` keeps it, and
`CanonNext.f` that it holds of the state that `f` goes on with. Each proof is the term of the functions that `f` applies; a function
that leaves the memories alone is closed by the hypothesis itself, since the three memories of the new state are the old ones. -/

/-- Two states with the same memories are canonical together. -/
theorem State.canon.same {s t : State} (hs : s.canon) (e : (s.mem, s.hostMem, s.tile) = (t.mem, t.hostMem, t.tile)) :
    t.canon := by
  obtain ⟨rm, rh, rt⟩ : s.mem = t.mem ∧ s.hostMem = t.hostMem ∧ s.tile = t.tile := by simpa using e
  exact State.canon_of_eq hs rm.symm rh.symm rt.symm

theorem State.canon.setLeases {s : State} {l} (hs : s.canon) : ({ s with leases := l } : State).canon := hs

theorem State.canon.ite {s t : State} {c : Prop} [Decidable c] (hs : s.canon) (ht : t.canon) : (if c then s else t).canon := by
  split <;> assumption

theorem State.canon.foldl {α : Type} {f : State → α → State} {l : List α} {s : State} (hf : ∀ t x, t.canon → (f t x).canon)
    (hs : s.canon) : (l.foldl f s).canon := State.canon_foldl f hf l s hs

/-- A fold that carries more than the state. -/
theorem State.canon.foldl_fst {α β : Type} {f : State × β → α → State × β} {l : List α} {p : State × β}
    (hf : ∀ q x, q.1.canon → (f q x).1.canon) (hp : p.1.canon) : (l.foldl f p).1.canon := by
  induction l generalizing p with
  | nil => exact hp
  | cons x r ih => exact ih (hf p x hp)

/-- A fold that may give up. -/
theorem State.canon.foldl_some {α : Type} {f : Option State → α → Option State} {l : List α} {s t : State}
    (hn : ∀ x, f none x = none) (hf : ∀ s x t, s.canon → f (some s) x = some t → t.canon) (hs : s.canon)
    (ht : l.foldl f (some s) = some t) : t.canon := by
  induction l generalizing s with
  | nil => cases ht; exact hs
  | cons x r ih =>
    rw [List.foldl_cons] at ht
    cases hx : f (some s) x with
    | none =>
      have : r.foldl f none = none := by
        clear ht ih
        induction r with
        | nil => rfl
        | cons y r ih => rw [List.foldl_cons, hn, ih]
      rw [hx, this] at ht; cases ht
    | some u => exact ih (hf s x u hs hx) (hx ▸ ht)

theorem State.canon.getD {s : State} {o : Option State} (ho : ∀ t, o = some t → t.canon) (hs : s.canon) : (o.getD s).canon := by
  cases o with
  | none => exact hs
  | some t => exact ho t rfl

/-- The state of a pair is canonical. -/
theorem State.canon.of_snd {α : Type} {p : α × State} {a : α} {t : State} (hp : p.2.canon) (e : p = (a, t)) : t.canon := by
  subst e; exact hp

/-- What an outcome goes on with is canonical. -/
def CanonNext (o : Host.Outcome State Fault Refusal) : Prop := ∀ t, o = .next t → t.canon

theorem CanonNext.next {s : State} (hs : s.canon) : CanonNext (.next s) := by
  intro t e; cases e; exact hs

theorem CanonNext.fault {f : Fault} : CanonNext (.fault f) := by
  intro t e; cases e

theorem CanonNext.refused {r : Refusal} : CanonNext (.refused r) := by
  intro t e; cases e

theorem CanonNext.ite {o p : Host.Outcome State Fault Refusal} {c : Prop} [Decidable c] (ho : CanonNext o) (hp : CanonNext p) :
    CanonNext (if c then o else p) := by
  split <;> assumption

/-- A command's end leaves a canonical state. -/
def CmdEnd.canon : CmdEnd → Prop
  | .done _ _ s => s.canon
  | .later s => s.canon

theorem CmdEnd.canon.done {s : State} {st r} (hs : s.canon) : (CmdEnd.done st r s).canon := hs
theorem CmdEnd.canon.later {s : State} (hs : s.canon) : (CmdEnd.later s).canon := hs
theorem CmdEnd.canon.ite {x y : CmdEnd} {c : Prop} [Decidable c] (hx : x.canon) (hy : y.canon) : (if c then x else y).canon := by
  split <;> assumption

/-- A TILE symbol that is placed leaves a canonical state. -/
def TileEnd.canon : TileEnd → Prop
  | .placed _ s => s.canon
  | _ => True

theorem TileEnd.canon.placed {s : State} {y} (hs : s.canon) : (TileEnd.placed y s).canon := hs
theorem TileEnd.canon.noSpace : TileEnd.noSpace.canon := trivial
theorem TileEnd.canon.unreadable : TileEnd.unreadable.canon := trivial
theorem TileEnd.canon.ite {x y : TileEnd} {c : Prop} [Decidable c] (hx : x.canon) (hy : y.canon) : (if c then x else y).canon := by
  split <;> assumption

/-- A gap whose things are placed leaves a canonical state. -/
def GapEnd.canon : GapEnd → Prop
  | .placed s _ _ _ => s.canon
  | _ => True

theorem GapEnd.canon.placed {s : State} {l spilt resv} (hs : s.canon) : (GapEnd.placed s l spilt resv).canon := hs
theorem GapEnd.canon.wait {n} : (GapEnd.wait n).canon := trivial
theorem GapEnd.canon.abandon {h} : (GapEnd.abandon h).canon := trivial
theorem GapEnd.canon.stay : GapEnd.stay.canon := trivial
theorem GapEnd.canon.ite {x y : GapEnd} {c : Prop} [Decidable c] (hx : x.canon) (hy : y.canon) : (if c then x else y).canon := by
  split <;> assumption

/-! The laws of Laws/Memory with their data implicit, to be chained. -/

theorem State.canon.writeLoc {s : State} {l bs psn} (hs : s.canon) : (s.writeLoc l bs psn).canon := canon_writeLoc hs _ _ _
theorem State.canon.addCounter {s : State} {l n psn} (hs : s.canon) : (s.addCounter l n psn).canon :=
  canon_addCounter hs _ _ _
theorem State.canon.score {s : State} {u inc} (hs : s.canon) : (s.score u inc).canon := canon_score hs _ _
theorem State.canon.readChannel {s : State} {ch line err} (hs : s.canon) : (s.readChannel ch line err).canon :=
  canon_readChannel hs _ _ _
theorem State.canon.touchBy {s : State} {pa req prio w err} (hs : s.canon) : (s.touchBy pa req prio w err).canon :=
  canon_touchBy hs _ _ _ _ _
theorem State.canon.touchPlain {s : State} {l n write} (hs : s.canon) : (s.touchPlain l n write).canon :=
  canon_touchPlain hs _ _ _
theorem State.canon.tagPage {s : State} {t} (hs : s.canon) : (s.tagPage t).canon := canon_tagPage hs _
theorem State.canon.release_ {s : State} {l rs} (hs : s.canon) : (s.release_ l rs).canon := canon_release_ hs _ _
theorem State.canon.signalLoc {s : State} {l loc amount t} (hs : s.canon) : (s.signalLoc l loc amount t).canon :=
  canon_signalLoc hs _ _ _ _
theorem State.canon.log {s : State} {ctx kind code op area a b} (hs : s.canon) : (s.log ctx kind code op area a b).canon :=
  canon_log hs _ _ _ _ _ _ _
theorem State.canon.logAt {s : State} {sweep ctx kind code op area a b} (hs : s.canon) : (s.logAt sweep ctx kind code op area a b).canon :=
  canon_logAt hs _ _ _ _ _ _ _ _
theorem State.canon.setElem {s : State} {base d r c v} (hs : s.canon) : (s.setElem base d r c v).canon :=
  canon_setElem hs _ _ _ _ _
theorem State.canon.copyTile {s : State} {x y n} (hs : s.canon) : (s.copyTile x y n).canon := canon_copyTile hs _ _ _
theorem State.canon.writeHost {s : State} {a bs} (hs : s.canon) : (s.writeHost a bs).canon := canon_writeHost hs _ _
theorem State.canon.writeDev {s : State} {pa key psn n bs} (hs : s.canon) : (s.writeDev pa key psn n bs).canon :=
  canon_writeDev _ hs _ _ _ _
theorem State.canon.writeLine {s : State} {pa key bs} (hs : s.canon) : (s.writeLine pa key bs).canon :=
  canon_writeLine hs _ _ _
theorem State.canon.writeTileCell {s : State} {a bs psn} (hs : s.canon) : (s.writeTileCell a bs psn).canon :=
  canon_writeTileCell hs _ _ _

/-- Bytes written to the tile store. -/
theorem State.canon.setTile {s t : State} {a bs} (hs : s.canon)
    (e : (t.mem, t.hostMem, t.tile) = (s.mem, s.hostMem, writeTab s.tile a bs)) : t.canon := by
  obtain ⟨rm, rh, rt⟩ : t.mem = s.mem ∧ t.hostMem = s.hostMem ∧ t.tile = writeTab s.tile a bs := by simpa using e
  simp only [State.canon, rm, rh, rt]
  exact ⟨hs.1, hs.2.1, Memory.wf_writeTab _ _ _ hs.2.2⟩

/-! ### Machine/Ops -/

theorem State.canon.modPart {s : State} {l f} (hs : s.canon) : (s.modPart l f).canon := hs

theorem State.canon.modHearth {s : State} {h f} (hs : s.canon) : (s.modHearth h f).canon := hs

theorem State.canon.count {s : State} {h sel n} (hs : s.canon) : (s.count h sel n).canon := hs.modHearth

theorem State.canon.setSym {s : State} {p y} (hs : s.canon) : (s.setSym p y).canon := hs

theorem State.canon.modUnit {s : State} {u f} (hs : s.canon) : (s.modUnit u f).canon := hs

theorem State.canon.modCtx {s : State} {c f} (hs : s.canon) : (s.modCtx c f).canon := hs

theorem State.canon.modArea {s : State} {u f} (hs : s.canon) : (s.modArea u f).canon := hs

theorem State.canon.modCell {s : State} {u i f} (hs : s.canon) : (s.modCell u i f).canon := hs.modArea

theorem State.canon.modCur {s : State} {f} (hs : s.canon) : (s.modCur f).canon := hs.modCell

theorem State.canon.tickFree {s : State} (hs : s.canon) : s.tickFree.canon := hs

theorem State.canon.fresh {s : State} (hs : s.canon) : s.fresh.canon := hs

theorem State.canon.fatal {s : State} {ctx fault area addr pc} (hs : s.canon) : (s.fatal ctx fault area addr pc).canon := by
  unfold State.fatal
  split
  · exact hs
  · split
    · exact hs
    · split
      · exact .ite hs hs
      · exact hs
    · exact hs

theorem State.canon.requestTrap {s : State} {u a phys} (hs : s.canon) : (s.requestTrap u a phys).canon := hs

theorem State.canon.moveTrap {s : State} {u phys} (hs : s.canon) : (s.moveTrap u phys).canon := hs

theorem State.canon.hold {s : State} {u t phys} (hs : s.canon) : (s.hold u t phys).canon := by
  unfold State.hold
  split
  · exact hs
  · refine .ite hs.fatal (.ite (.ite hs hs.modArea.moveTrap) ?_)
    dsimp only
    split
    · exact hs
    · exact .requestTrap hs

theorem State.canon.raiseWith {s : State} {fault code faddr} (hs : s.canon) : (s.raiseWith fault code faddr).canon := by
  unfold State.raiseWith
  split
  · exact hs
  · split
    · exact hs
    · exact hs.modCur.hold

theorem State.canon.raise {s : State} {fault faddr} (hs : s.canon) : (s.raise fault faddr).canon := hs.raiseWith

theorem State.canon.holdNoInstr {s : State} {u fault cix} (hs : s.canon) : (s.holdNoInstr u fault cix).canon := by
  unfold State.holdNoInstr
  split
  · exact hs
  · split
    · exact hs
    · exact hs.hold

theorem State.canon.markConsumed {s : State} (hs : s.canon) : s.markConsumed.canon := hs.modArea

theorem State.canon.finish {s : State} {c n f} (hs : s.canon) : (s.finish c n f).canon := hs.count.modCur

theorem State.canon.jump {s : State} {c target f} (hs : s.canon) : (s.jump c target f).canon := hs.count.modCur

theorem State.canon.waitOn {s : State} {kind waddr value} (hs : s.canon) : (s.waitOn kind waddr value).canon := hs.modCur

theorem State.canon.waitQueue {s : State} {mask ids} (hs : s.canon) : (s.waitQueue mask ids).canon := hs.modCur

theorem State.canon.waitPend {s : State} {k regs} (hs : s.canon) : (s.waitPend k regs).canon := hs.waitQueue

/-- An instruction's gate, whose body keeps the memories canonical. -/
theorem CanonNext.gate {s : State} {k n regs body} (hs : s.canon)
    (hb : ∀ a c (t : State), t.canon → (body a c t).canon) : CanonNext (s.gate k n regs body) := by
  unfold State.gate
  split
  · exact .fault
  · split
    · exact .fault
    · have hm : ∀ b : Bool, (if b then s.markConsumed else s).canon := fun b => .ite hs.markConsumed hs
      exact .next (.ite hs.raise (.ite (hm _).finish (.ite (hm _).waitPend (.ite (hm _).waitOn (hb _ _ _ (hm _))))))

theorem CanonNext.privGate {s : State} {k n regs body} (hs : s.canon)
    (hb : ∀ a c (t : State), t.canon → (body a c t).canon) : CanonNext (s.privGate k n regs body) := by
  unfold State.privGate
  split
  · exact .fault
  · refine .ite (.gate hs hb) ?_
    split
    · exact .fault
    · exact .next hs.raise

theorem State.canon.consume {s : State} {a p faddr k} (hs : s.canon) (hk : ∀ (z : State), z.canon → (k z).canon) :
    (s.consume a p faddr k).canon := .ite (.ite hs.raise (hk _ hs.markConsumed)) (hk _ hs)

theorem State.canon.draw {s : State} {h mode} (hs : s.canon) : (s.draw h mode).2.canon := by
  unfold State.draw
  dsimp only
  split
  · exact hs.modHearth
  · exact hs

/-! ### Machine/Times -/

theorem State.canon.meet {s : State} {h t} (hs : s.canon) : (s.meet h t).canon := .ite hs hs.modHearth

theorem State.canon.meetLine {s : State} {h line} (hs : s.canon) : (s.meetLine h line).canon := .same hs.meet rfl

theorem State.canon.wroteLine {s : State} {h line} (hs : s.canon) : (s.wroteLine h line).canon := .meet hs

theorem State.canon.l1Drop {s : State} {h line} (hs : s.canon) : (s.l1Drop h line).canon := .ite hs.modHearth hs

theorem State.canon.wroteLines {s : State} {h ls} (hs : s.canon) : (s.wroteLines h ls).canon :=
  .foldl (fun _ _ h1 => h1.wroteLine.l1Drop) hs

theorem State.canon.reachTo {s : State} {l t} (hs : s.canon) : (s.reachTo l t).canon := hs.modPart

theorem State.canon.clearReleases {s : State} {l} (hs : s.canon) : (s.clearReleases l).canon := hs

theorem State.canon.moveReleases {s : State} {a b n} (hs : s.canon) : (s.moveReleases a b n).canon := hs

theorem State.canon.acquire {s : State} {rs scope h u i} (hs : s.canon) : (s.acquire rs scope h u i).canon :=
  .foldl (fun _ _ h1 => .ite h1.meet h1) hs

theorem State.canon.metReleases {s : State} {rs acq scope h u i} (hs : s.canon) :
    (s.metReleases rs acq scope h u i).canon := .ite hs (.ite hs.acquire hs.modCell)

theorem State.canon.readWord {s : State} {l acq scope h u i} (hs : s.canon) : (s.readWord l acq scope h u i).canon :=
  hs.metReleases

/-! ### Machine/Mem -/

theorem State.canon.stampLine {s : State} {line} (hs : s.canon) : (s.stampLine line).canon := hs

theorem State.canon.fillTlb {s : State} {h t} (hs : s.canon) : (s.fillTlb h t).canon := .same hs.tagPage rfl

theorem State.canon.dropTrans {s : State} {ctx lo hi} (hs : s.canon) : (s.dropTrans ctx lo hi).canon := hs

theorem State.canon.sendSlot {s t : State} {key h mark} (hs : s.canon) (ht : s.sendSlot key h mark = some t) : t.canon := by
  unfold State.sendSlot at ht
  split at ht
  · cases ht; exact hs
  · split at ht
    · split at ht <;> cases ht
      exact hs
    · split at ht
      · cases ht; exact hs
      · obtain ⟨i, -, rfl⟩ := Option.map_eq_some_iff.mp ht
        exact hs

theorem State.canon.startMove {s : State} {key h} (hs : s.canon) : (s.startMove key h).canon :=
  .getD (fun _ e1 => .sendSlot hs e1) hs

theorem State.canon.sendSlots {s t : State} {h mark keys} (hs : s.canon) (ht : s.sendSlots h mark keys = some t) :
    t.canon :=
  .foldl_some (fun _ => rfl) (fun _ _ _ h1 e => h1.sendSlot e) hs ht

theorem State.canon.reclaim {s : State} (hs : s.canon) : s.reclaim.canon := hs

theorem State.canon.callTile {s : State} {k key handle} (hs : s.canon) : (s.callTile k key handle).canon :=
  .waitOn (.getD (fun _ e1 => .sendSlots hs e1) hs)

theorem State.canon.grantBarrier {s : State} {f} (hs : s.canon) : (s.grantBarrier f).canon := hs

theorem State.canon.wakeErrors {s : State} (hs : s.canon) : s.wakeErrors.canon := hs.grantBarrier

theorem State.canon.flagTile {s : State} {a v n} (hs : s.canon) : (s.flagTile a v n).canon := hs

/-! ### Machine/Operands -/

theorem State.canon.setBlockPoison {s : State} {base d r j p} (hs : s.canon) : (s.setBlockPoison base d r j p).canon :=
  .foldl (fun _ _ h1 => h1) hs

/-! ### Machine/Health -/

theorem State.canon.halve {s : State} {n} (hs : s.canon) : (s.halve n).canon := hs

/-! ### Machine/Mesh -/

theorem State.canon.send {s : State} {cls src dst b} (hs : s.canon) : (s.send cls src dst b).canon := hs

theorem State.canon.sendControl {s : State} (hs : s.canon) : s.sendControl.canon := hs.send

theorem State.canon.route {s : State} {r out} (hs : s.canon) : (s.route r out).canon := by
  unfold State.route
  dsimp only
  split
  · exact hs
  · exact .same (.ite hs.count hs) rfl

theorem State.canon.dropMsg {s : State} {id} (hs : s.canon) : (s.dropMsg id).canon := hs

theorem State.canon.dropMsgs {s : State} {p} (hs : s.canon) : (s.dropMsgs p).canon := hs

/-! ### Machine/Slices -/

theorem State.canon.modSlice {s : State} {ch f} (hs : s.canon) : (s.modSlice ch f).canon := hs

theorem State.canon.touch {s : State} {pa req prio w err} (hs : s.canon) : (s.touch pa req prio w err).canon := hs.touchBy

theorem State.canon.checkPage {s : State} {ch page t} (hs : s.canon) : (s.checkPage ch page t).canon := by
  unfold State.checkPage
  refine .ite hs ?_
  extract_lets s1
  have h1 : s1.canon := hs.score
  clear_value s1
  exact h1

theorem CanonNext.execScrubLineRead {s : State} {line err} (hs : s.canon) : CanonNext (execScrubLineRead line err s) := by
  unfold Machine.execScrubLineRead
  refine .next (.ite hs ?_)
  dsimp only
  split
  · exact .ite hs.readChannel.checkPage hs.readChannel
  · exact hs.readChannel

/-! ### Machine/Virt -/

theorem State.canon.joinWalk {s : State} {ctx hid page} (hs : s.canon) : (s.joinWalk ctx hid page).2.canon := by
  unfold State.joinWalk
  dsimp only
  split
  · exact hs
  · split
    · exact hs
    · exact .send (.same (s := s.count hid 15 1) hs.count rfl)

theorem State.canon.need {s : State} {h ctx a need} (hs : s.canon) : (s.need h ctx a need).2.canon := by
  unfold State.need
  dsimp only
  split
  · exact hs
  · split
    · exact hs
    · exact hs

theorem State.canon.behindWalks {s t : State} (hs : s.canon) (ht : t.canon) : (s.behindWalks t).canon := by
  unfold State.behindWalks
  refine .foldl (fun _ _ h1 => .ite h1 ?_) (.ite ht hs)
  split
  · next ht =>
      exact .count (.of_snd h1.joinWalk ht)
  · next ht =>
      exact .of_snd h1.joinWalk ht

/-! ### Machine/Barrier -/

theorem State.canon.wakeBarrier {s : State} {key off} (hs : s.canon) : (s.wakeBarrier key off).canon := hs.grantBarrier

theorem State.canon.setBarrier {s : State} {key off b} (hs : s.canon) : (s.setBarrier key off b).canon :=
  .ite hs (.wakeBarrier (hs.setTile rfl))

theorem State.canon.landing {s : State} {key off k} (hs : s.canon) : (s.landing key off k).canon := hs.setBarrier

theorem State.canon.failBarrier {s : State} {key off} (hs : s.canon) : (s.failBarrier key off).canon := hs.setBarrier

theorem State.canon.acquireBarrier {s : State} {k rels} (hs : s.canon) : (s.acquireBarrier k rels).canon := hs.acquire

theorem State.canon.barrierAt {s : State} {ar k a tagged body} (hs : s.canon)
  (hbody : ∀ x0 x1 (z : State), z.canon → (body x0 x1 z).canon) :
    (s.barrierAt ar k a tagged body).canon := by
  unfold State.barrierAt
  refine .consume hs (fun _ h1 => ?_)
  split
  · exact h1.raise
  · split
    · exact h1.raise
    · exact .ite h1.waitOn (.ite h1.raise (.ite h1.raise (.ite h1.raise (.ite h1.raise (.ite h1.callTile (.ite h1.waitOn (hbody _
        _ _ h1)))))))

theorem CanonNext.execBinit {s : State} {c a b} (hs : s.canon) : CanonNext (execBinit c a b s) :=
  .gate hs (fun _ _ _ h1 => .barrierAt h1 (fun _ _ _ h2 => .ite h2.raise (.finish (.setBarrier (.clearReleases (.ite
    (.wakeErrors (.flagTile h2)) h2))))))

theorem CanonNext.execBexp {s : State} {c a b} (hs : s.canon) : CanonNext (execBexp c a b s) :=
  .gate hs (fun _ _ _ h1 => .barrierAt h1 (fun _ _ _ h2 => .ite h2.raise (.finish (.setBarrier (.ite h2.flagTile.wakeErrors
    h2)))))

theorem CanonNext.execBarv {s : State} {c a} (hs : s.canon) : CanonNext (execBarv c a s) :=
  .gate hs (fun _ _ _ h1 => .barrierAt h1 (fun _ _ _ h2 => .ite h2.raise h2.release_.setBarrier.finish))

theorem CanonNext.execBwait {s : State} {c d a b} (hs : s.canon) : CanonNext (execBwait c d a b s) := by
  unfold Machine.execBwait
  refine .gate hs (fun _ _ _ h1 => ?_)
  split
  · exact h1.acquireBarrier.finish
  · exact .barrierAt h1 (fun _ _ _ h2 => .consume h2 (fun _ h3 => .ite h3.acquireBarrier.finish h3.waitOn))

theorem CanonNext.execBtry {s : State} {c d a b} (hs : s.canon) : CanonNext (execBtry c d a b s) :=
  .gate hs (fun _ _ _ h1 => .barrierAt h1 (fun _ _ _ h2 => .consume h2 (fun _ h3 => .finish (.ite h3.acquireBarrier h3))))

/-! ### Machine/Integer -/

theorem State.canon.predOp {a2 : State} {d v p a a1} (hs : a2.canon) : (predOp d v p a a1 a2).canon := hs.finish

theorem State.canon.wordOp {a2 : State} {n d v p a a1} (hs : a2.canon) : (wordOp n d v p a a1 a2).canon := hs.finish

theorem State.canon.alu2 {a3 : State} {d a b f a1 a2} (hs : a3.canon) : (alu2 d a b f a1 a2 a3).canon := hs.wordOp

theorem State.canon.alu1 {a3 : State} {d a f a1 a2} (hs : a3.canon) : (alu1 d a f a1 a2 a3).canon := hs.wordOp

theorem CanonNext.cmpi {s : State} {f c d a i} (hs : s.canon) : CanonNext (cmpi f c d a i s) :=
  .gate hs (fun _ _ _ h1 => h1.predOp)

/-! ### Machine/FloatScalar -/

theorem State.canon.roundOp {s : State} {n rnd d v p a k} (hs : s.canon) : (roundOp n rnd d v p a k s).canon :=
  .finish hs.draw

theorem CanonNext.execFcvt {s : State} {c d a sat rnd dt st} (hs : s.canon) :
    CanonNext (execFcvt c d a sat rnd dt st s) :=
  .gate hs (fun _ _ _ h1 => .finish h1.draw)

/-! ### Machine/Symbol -/

theorem State.canon.rewriteOp {a2 : State} {body a a1} (hs : a2.canon)
  (hbody : ∀ x0 x1 (z : State), z.canon → (body x0 x1 z).canon) :
    (rewriteOp body a a1 a2).canon := by
  unfold Machine.rewriteOp
  exact .ite hs.raise (hbody _ _ _ hs)

theorem CanonNext.execEmit {s : State} {c k a} (hs : s.canon) : CanonNext (execEmit c k a s) :=
  .gate hs (fun _ _ _ h1 => .rewriteOp h1 (fun _ _ _ h2 => h2.finish))

theorem CanonNext.execEmitn {s : State} {c k a b} (hs : s.canon) : CanonNext (execEmitn c k a b s) :=
  .gate hs (fun _ _ _ h1 => .rewriteOp h1 (fun _ _ _ h2 => .consume h2 (fun _ h3 => .ite h3.raise h3.finish)))

theorem CanonNext.execInsert {s : State} {c a} (hs : s.canon) : CanonNext (execInsert c a s) :=
  .gate hs (fun _ _ _ h1 => .rewriteOp h1 (fun _ _ _ h2 => .consume h2 (fun _ h3 => .ite h3.raise h3.finish)))

theorem CanonNext.execDelete {s : State} {c} (hs : s.canon) : CanonNext (execDelete c s) :=
  .gate hs (fun _ _ _ h1 => .rewriteOp h1 (fun _ _ _ h2 => h2.finish))

theorem State.canon.descOp {a2 : State} {d v p a a1} (hs : a2.canon) : (descOp d v p a a1 a2).canon := hs.finish

/-! ### Machine/Control -/

theorem CanonNext.execBrkpt {s : State} {c} (hs : s.canon) : CanonNext (execBrkpt c s) :=
  .gate hs (fun _ _ _ h1 => .ite h1.logAt.modArea.finish h1.finish)

theorem State.canon.branchReg {a3 : State} {kind a a1 a2} (hs : a3.canon) : (branchReg kind a a1 a2 a3).canon :=
  .consume hs (fun _ h1 => .ite h1.raise (.jump (.ite h1.log h1)))

theorem CanonNext.execBrc {s : State} {c f a b off} (hs : s.canon) : CanonNext (execBrc c f a b off s) :=
  .gate hs (fun _ _ _ h1 => .consume h1 (fun _ h2 => .ite h2.jump h2.finish))

theorem CanonNext.execLoop {s : State} {c d off} (hs : s.canon) : CanonNext (execLoop c d off s) :=
  .gate hs (fun _ _ _ h1 => .consume h1 (fun _ h2 => .ite h2.jump h2.finish))

theorem CanonNext.execEncodingNotInstruction {s : State} {why} (hs : s.canon) : CanonNext (execEncodingNotInstruction why s) := by
  unfold Machine.execEncodingNotInstruction
  split
  · exact .fault
  · split
    · exact .fault
    · exact .next hs.raise

/-! ### Machine/Row -/

theorem State.canon.shiftSegs {s : State} {ctx p d} (hs : s.canon) : (s.shiftSegs ctx p d).canon := by
  unfold State.shiftSegs
  split
  · exact hs
  · exact hs.modPart

/-! ### Machine/Area -/

theorem State.canon.putOvfptr {s : State} {ctx} (hs : s.canon) : (s.putOvfptr ctx).canon := by
  unfold State.putOvfptr
  split
  · exact hs
  · next ht =>
      split
      · exact hs
      · next ht1 =>
          exact State.canon_storeVirt hs _ _ _ ht1

theorem State.canon.setUsed {s : State} {ctx l r b} (hs : s.canon) : (s.setUsed ctx l r b).canon := by
  unfold State.setUsed
  split
  · exact hs
  · next ht =>
      dsimp only
      split
      · exact State.canon_loadVirt hs _ _ _ ht
      · next ht1 =>
          exact State.canon_storeVirt (State.canon_loadVirt hs _ _ _ ht) _ _ _ ht1

theorem State.canon.allocRec {s t : State} {ctx l n r i} (hs : s.canon) (ht : s.allocRec ctx l n r = some (i, t)) :
    t.canon := by
  induction n generalizing r with
  | zero => cases ht
  | succ n ih =>
    rw [State.allocRec] at ht
    dsimp only at ht
    split at ht
    · exact ih ht
    · cases ht
      exact hs.setUsed.modCtx.putOvfptr

theorem State.canon.freeRec {s : State} {ctx r} (hs : s.canon) : (s.freeRec ctx r).canon := by
  unfold State.freeRec
  split
  · exact hs
  · exact hs.setUsed.modCtx.putOvfptr

theorem State.canon.touchRec {s : State} {g} (hs : s.canon) : (s.touchRec g).canon := by
  unfold State.touchRec
  split
  · exact hs
  · next ht =>
      split
      · next ht1 =>
          exact State.canon_loadVirt hs _ _ _ ht1
      · exact hs

theorem State.canon.placeSyms {s : State} {ps ys} (hs : s.canon) : (s.placeSyms ps ys).canon := by
  induction ps generalizing s ys with
  | nil => exact hs
  | cons p ps ih =>
    cases ys with
    | nil => exact ih hs.setSym
    | cons y ys => exact ih hs.setSym

theorem State.canon.eraseAreas {s : State} {us} (hs : s.canon) : (s.eraseAreas us).canon := hs

theorem State.canon.freeWhere {s : State} {p} (hs : s.canon) : (s.freeWhere p).canon := .reclaim hs

theorem State.canon.dropShadows {s : State} {u} (hs : s.canon) : (s.dropShadows u).canon := .ite hs hs.eraseAreas.freeWhere

theorem State.canon.drain {s : State} {u} (hs : s.canon) : (s.drain u).canon := by
  unfold State.drain
  split
  · exact hs
  · exact .ite hs.dropShadows.modArea hs.dropShadows.eraseAreas

theorem State.canon.logOverrun {s : State} {u} (hs : s.canon) : (s.logOverrun u).canon := by
  unfold State.logOverrun
  split
  · exact hs
  · exact .ite hs.log.modArea hs

theorem State.canon.logEnd {s : State} {a code} (hs : s.canon) : (s.logEnd a code).canon := .ite hs.log hs

theorem State.canon.discardArea {s : State} {u} (hs : s.canon) : (s.discardArea u).canon := by
  unfold State.discardArea
  split
  · exact hs
  · exact hs.logOverrun.logEnd.count.drain

theorem State.canon.applyResult {s : State} {u a ys} (hs : s.canon) : (s.applyResult u a ys).canon := by
  unfold State.applyResult
  refine .drain (.count (.logEnd (.modCtx (.logOverrun (.placeSyms ?_)))))
  split
  · exact .ite hs hs.shiftSegs
  · exact hs

theorem State.canon.holdAtCommit {s : State} {u cix fault} (hs : s.canon) : (s.holdAtCommit u cix fault).canon := by
  unfold State.holdAtCommit
  split
  · exact hs
  · split
    · exact hs
    · exact .ite hs.holdNoInstr hs.modCell.hold

theorem State.canon.commitArea {s : State} {u cix ys eff} (hs : s.canon) (heff : ∀ (z : State), z.canon → (eff z).canon) :
    (s.commitArea u cix ys eff).canon := by
  unfold State.commitArea
  split
  · exact hs
  · split
    · exact hs.holdAtCommit
    · dsimp only
      split
      · exact heff _ (.ite hs hs.logOverrun)
      · exact .ite (.applyResult (heff _ (.ite hs hs.logOverrun))) (.modArea (heff _ (.ite hs hs.logOverrun)))

theorem State.canon.applyEnding {s : State} {u cix} (hs : s.canon) : (s.applyEnding u cix).canon := by
  unfold State.applyEnding
  split
  · exact hs
  · exact .ite (.commitArea hs (fun _ h2 => h2)) hs.discardArea

theorem State.canon.restart {s : State} {u} (hs : s.canon) : (s.restart u).canon := hs.modArea

theorem State.canon.releaseFor {s : State} {src l} (hs : s.canon) : (s.releaseFor src l).canon := hs.release_

theorem State.canon.releaseAt {s : State} {pa n src write} (hs : s.canon)
    (hwrite : ∀ (z : State), z.canon → (write z).canon) :
    (s.releaseAt pa n src write).canon := by
  unfold State.releaseAt
  exact .releaseFor (.wroteLines (hwrite _ (.foldl (fun _ _ h1 => h1.touch) hs)))

theorem State.canon.release {s : State} {ws} (hs : s.canon) : (s.release ws).canon := by
  induction ws generalizing s with
  | nil => exact hs
  | cons w r ih =>
    cases w with
    | bytes pa key bs psn src => exact ih (.releaseAt hs (fun _ h1 => h1.writeDev))
    | cadd pa key n psn src => exact ih (.releaseAt hs (fun _ h1 => h1.addCounter))
    | landing slot off k src => exact ih hs.releaseFor.landing

theorem State.canon.reach {s : State} {h} (hs : s.canon) : (s.reach h).canon := hs.reachTo

theorem State.canon.releaseCopy {s : State} {a} (hs : s.canon) : (s.releaseCopy a).canon := by
  unfold State.releaseCopy
  refine .foldl (fun _ _ h1 => ?_) (.foldl (fun _ _ h1 => h1.reach) hs.release)
  split
  · exact h1.log
  · exact h1

theorem State.canon.copyPayload {s : State} {u ctx src dst} (hs : s.canon) : (s.copyPayload u ctx src dst).canon := by
  unfold State.copyPayload
  split
  · exact hs.copyTile
  · exact hs

theorem State.canon.copyOperand {s : State} {v ctx h} (hs : s.canon) : (s.copyOperand v ctx h).canon := by
  unfold State.copyOperand
  split
  · exact .ite hs (hs.setTile rfl)
  · exact hs

theorem State.canon.adopt {s : State} {u ctx ys zs} (hs : s.canon) : (s.adopt u ctx ys zs).1.canon := by
  induction ys generalizing s zs with
  | nil => exact hs
  | cons y r ih =>
    unfold State.adopt
    split
    · cases zs with
      | nil => exact ih hs
      | cons z t => exact ih hs.copyPayload
    · exact ih hs

theorem State.canon.freshSlots {s : State} {v ctx hs1} (hs : s.canon) : (s.freshSlots v ctx hs1).canon :=
  .foldl (fun _ _ h1 => h1.copyOperand) hs.freeWhere

theorem State.canon.freshCopies {s : State} {u dissent} (hs : s.canon) : (s.freshCopies u dissent).canon := by
  unfold State.freshCopies
  split
  · exact hs
  · exact .modArea (.foldl (fun _ _ h2 => h2.restart.freshSlots) hs.restart)

theorem State.canon.voted {s : State} {u cix c ys} (hs : s.canon) : (s.voted u cix c ys).canon :=
  .ite (.commitArea hs.modArea (fun _ h1 => h1.releaseCopy.modArea.dropShadows)) hs.modArea.discardArea

theorem State.canon.vote {s : State} {u} (hs : s.canon) : (s.vote u).canon := by
  unfold State.vote
  split
  · exact hs
  · split
    · refine .ite hs (.ite (.voted (.ite hs.score (.ite hs.score hs))) (.ite (.ite hs.score.adopt.voted hs.score.voted) (.ite
        hs.freshCopies ?_)))
      split
      · exact hs
      · exact hs.hold
    · exact hs

theorem State.canon.endRows {s : State} {u cix} (hs : s.canon) : (s.endRows u cix).canon := by
  unfold State.endRows
  split
  · exact hs
  · exact .ite hs.modArea.vote (.ite hs.log.restart.modArea hs.applyEnding)

theorem State.canon.ended {s : State} {u cix} (hs : s.canon) : (s.ended u cix).canon := by
  unfold State.ended
  split
  · exact hs
  · split
    · exact hs.vote
    · refine .ite hs (.ite ?_ hs.endRows)
      split
      · exact hs
      · exact .hold (.ite hs hs.logOverrun)
    · exact hs

theorem State.canon.acknowledged {s : State} {u} (hs : s.canon) : (s.acknowledged u).canon := by
  unfold State.acknowledged
  split
  · exact hs
  · split
    · exact hs.vote
    · exact .ite (.ite hs hs.eraseAreas) (.ite hs.vote hs)

theorem State.canon.endBreak {s : State} {u cix} (hs : s.canon) : (s.endBreak u cix).canon := hs.modArea.endRows

/-! ### Machine/Memory -/

theorem State.canon.tlbMiss {s : State} {ctx hid va a} (hs : s.canon) : (s.tlbMiss ctx hid va a).canon := by
  unfold State.tlbMiss
  dsimp only
  split
  · next ht =>
      exact .waitOn (.of_snd (.joinWalk (.ite hs hs.count)) ht)
  · next ht =>
      exact .waitOn (.of_snd (.joinWalk (.ite hs hs.count)) ht)

theorem State.canon.noteTrans {s : State} {hid t} (hs : s.canon) : (s.noteTrans hid t).canon := by
  unfold State.noteTrans
  split
  · exact hs
  · exact .ite hs hs.count.fillTlb

theorem State.canon.access {s : State} {ar k sa m w need body} (hs : s.canon)
  (hbody : ∀ x0 x1 (z : State), z.canon → (body x0 x1 z).canon) :
    (s.access ar k sa m w need body).canon := by
  unfold State.access
  refine .consume hs (fun _ h1 => ?_)
  split
  · exact h1.raise
  · exact h1.waitOn
  · exact h1.callTile
  · exact h1.tlbMiss
  · exact .ite h1.waitOn (hbody _ _ _ h1.noteTrans)

theorem State.canon.notVoted {a2 : State} {body a a1} (hs : a2.canon)
  (hbody : ∀ x0 x1 (z : State), z.canon → (body x0 x1 z).canon) :
    (notVoted body a a1 a2).canon := by
  unfold Machine.notVoted
  exact .ite hs.raise (hbody _ _ _ hs)

theorem State.canon.l1Put {s : State} {h y} (hs : s.canon) : (s.l1Put h y).canon := hs.modHearth

theorem State.canon.l1Hit {s : State} {h y pa n prio} (hs : s.canon) : (s.l1Hit h y pa n prio).2.canon := hs.l1Put.count

theorem State.canon.keepLine {s : State} {h pa key prio} (hs : s.canon) : (s.keepLine h pa key prio).canon :=
  .ite (.l1Drop (.ite hs.count hs)) (.l1Put (.same (.ite hs.count hs) rfl))

theorem State.canon.countLoad {s : State} {h o} (hs : s.canon) : (s.countLoad h o).canon := by
  unfold State.countLoad
  split
  · exact hs.count
  · exact hs.count

theorem State.canon.perform1 {s : State} {u i h o} (hs : s.canon) : (s.perform1 u i h o).2.canon := by
  have hm : ∀ t : State, t.canon → (match o.home with | .dev pa _ => t.meetLine h (pa / 64) | _ => t).canon := by
    intro t ht
    split
    · exact ht.meetLine
    · exact ht
  have hw : ∀ t : State, t.canon → (match o.home with | .dev pa _ => t.wroteLines h [pa / 64] | _ => t).canon := by
    intro t ht
    split
    · exact ht.wroteLines
    · exact ht
  unfold State.perform1
  extract_lets n ws read wrote s1 s2 s3 s4
  have hread : ∀ t : State, t.canon → (read t).canon := fun t ht => (hm t ht).readWord
  have hwrote : ∀ t : State, t.canon → (wrote t).canon := fun t ht => .ite (hw t ht).release_ (hw t ht)
  have h1 : s1.canon := hread _ hs.countLoad
  have h3 : s3.canon := hread _ hs
  have h4 : s4.canon := by
    simp only [s4]
    split
    · exact h3.l1Drop
    · exact h3
  clear_value read wrote s1 s4
  split
  rename_i bs p _
  split
  · dsimp only [s2]
    split
    · exact .ite h1.keepLine h1
    · exact h1
  · split
    · exact .ite hs.meetLine.keepLine hs
    · exact hs
  · exact hwrote _ hs.writeLoc
  · exact hwrote _ hs.addCounter
  · dsimp only
    split
    · exact hwrote _ h4.writeLoc
    · exact h4

theorem State.canon.setDone {s : State} {u i id v} (hs : s.canon) : (s.setDone u i id v).canon := hs.modCell

theorem State.canon.serve {s : State} {u i h o err} (hs : s.canon) : (s.serve u i h o err).canon := by
  unfold State.serve
  dsimp only
  split
  · exact hs.touch.perform1.setDone.send
  · refine .setDone (.perform1 ?_)
    split
    · exact hs.touch
    · exact hs

theorem State.canon.request {s : State} {u i h o} (hs : s.canon) : (s.request u i h o).canon := by
  unfold State.request
  split
  · exact hs.send.modCell
  · exact hs

theorem State.canon.lookUp {s : State} {u i n} (hs : s.canon) : (s.lookUp u i n).canon := by
  induction n generalizing s with
  | zero => exact hs
  | succ n ih =>
    rw [State.lookUp]
    split
    · exact hs
    · refine .ite hs ?_
      split
      · split
        · refine ih (.setDone (.metReleases ?_))
          exact hs
        · exact hs.request
      · exact hs

theorem State.canon.settle {s : State} {u i n} (hs : s.canon) : (s.settle u i n).canon := by
  induction n generalizing s with
  | zero => exact hs
  | succ n ih =>
    rw [State.settle]
    split
    · exact hs
    · exact ih hs.dropMsgs.serve

theorem State.canon.post {s : State} {k o} (hs : s.canon) : (s.post k o).canon := by
  unfold State.post
  split
  · dsimp only
    split
    · exact .ite hs.fresh.finish.lookUp hs.fresh.finish.request
    · exact hs.fresh.finish.perform1.setDone

theorem CanonNext.execLd {s : State} {c d a m} (hs : s.canon) : CanonNext (execLd c d a m s) :=
  .gate hs (fun _ _ _ h1 => .access h1 (fun _ _ _ h2 => h2.post))

theorem State.canon.holdOr {s : State} {ar k a w} (hs : s.canon) : (s.holdOr ar k a w).canon := by
  unfold State.holdOr
  split
  · exact hs.raise
  · exact hs.modArea.finish

theorem State.canon.logPoison {s : State} {ar a p} (hs : s.canon) : (s.logPoison ar a p).canon := .ite hs.log hs

theorem CanonNext.execSt {s : State} {c a b m} (hs : s.canon) : CanonNext (execSt c a b m s) := by
  unfold Machine.execSt
  refine .gate hs (fun _ _ _ h1 => .access h1 (fun _ _ _ h2 => ?_))
  dsimp only
  split
  · exact h2.holdOr
  · exact h2.raise
  · exact h2.logPoison.post
  · exact h2.post

theorem CanonNext.execPref {s : State} {c a m} (hs : s.canon) : CanonNext (execPref c a m s) := by
  unfold Machine.execPref
  refine .gate hs (fun _ _ _ h1 => .consume h1 (fun _ h2 => .ite h2.finish ?_))
  split
  · exact .ite h2.waitOn h2.noteTrans.post
  · next ht =>
      refine .ite h2.waitOn ?_
      split
      · next ht1 =>
          exact .waitOn (.of_snd (.joinWalk (.ite h2 h2.count)) ht1)
      · next ht1 =>
          exact .finish (.fresh (.of_snd (.joinWalk (.ite h2 h2.count)) ht1))
  · exact h2.finish

theorem State.canon.wakePrefs {s : State} {ctx h page t} (hs : s.canon) : (s.wakePrefs ctx h page t).canon := by
  unfold State.wakePrefs
  refine .foldl (fun _ _ h1 => .foldl (fun _ _ h2 => .foldl (fun _ _ h3 => ?_) h2) h1) hs
  split
  · exact h3.modCell
  · exact h3.modCell.request

theorem State.canon.atomicOp {a3 : State} {i d a b m a1 a2} (hs : a3.canon) : (atomicOp i d a b m a1 a2 a3).canon :=
  .notVoted hs (fun _ _ _ h1 => .access h1 (fun _ _ _ h2 => h2.post))

theorem State.canon.readWatched {s : State} {h m l} (hs : s.canon) : (s.readWatched h m l).canon := by
  unfold State.readWatched
  split
  · exact hs.touch.meetLine
  · exact hs

theorem State.canon.satisfied {s : State} {k m rels} (hs : s.canon) : (s.satisfied k m rels).canon := hs.metReleases.finish

theorem State.canon.watch {s : State} {ar k kind a l m t cond a1} (hs : s.canon) :
    (s.watch ar k kind a l m t cond a1).canon := .ite hs.waitOn (.ite hs.readWatched.satisfied hs.readWatched.modCur)

theorem CanonNext.execWaita {s : State} {c f a b m} (hs : s.canon) : CanonNext (execWaita c f a b m s) := by
  unfold Machine.execWaita
  refine .gate hs (fun _ _ _ h1 => ?_)
  split
  · exact h1.satisfied
  · exact .access h1 (fun _ _ _ h2 => h2.watch)

theorem CanonNext.execCadd {s : State} {c a b m} (hs : s.canon) : CanonNext (execCadd c a b m s) := by
  unfold Machine.execCadd
  refine .gate hs (fun _ _ _ h1 => .consume h1 (fun _ h2 => .ite h2.raise (.ite h2.raise (.access h2 (fun _ _ _ h3 => ?_)))))
  split
  · exact h3.holdOr
  · exact h3.raise
  · exact h3.logPoison.post

theorem CanonNext.execCwait {s : State} {c a b m} (hs : s.canon) : CanonNext (execCwait c a b m s) := by
  unfold Machine.execCwait
  refine .gate hs (fun _ _ _ h1 => ?_)
  split
  · exact h1.satisfied
  · exact .consume h1 (fun _ h2 => .ite h2.raise (.ite h2.raise (.access h2 (fun _ _ _ h3 => h3.watch))))

theorem CanonNext.execFence {s : State} {c scope ord} (hs : s.canon) : CanonNext (execFence c scope ord s) :=
  .gate hs (fun _ _ _ h1 => .ite h1.waitOn (.finish (.ite h1.acquire h1)))

theorem State.canon.carryLine {s : State} {pa req} (hs : s.canon) : (s.carryLine pa req).canon := hs.send.send

theorem CanonNext.execSliceAccess {s : State} {r err} (hs : s.canon) : CanonNext (execSliceAccess r err s) := by
  unfold Machine.execSliceAccess
  refine .next ?_
  split
  · split
    · exact hs
    · exact .ite hs.dropMsgs.serve.lookUp hs
  · split
    · exact hs
    · exact .ite hs.dropMsgs.serve hs
  · exact .ite hs.carryLine.touch hs

theorem State.canon.deliver {s : State} {u i o v} (hs : s.canon) : (s.deliver u i o v).canon := hs.dropMsgs.modCell

theorem State.canon.finishOps {s : State} {u} (hs : s.canon) : (s.finishOps u).canon := by
  unfold State.finishOps
  split
  · exact hs
  · refine .foldl (fun _ _ h2 => .foldl (fun _ _ h3 => ?_) h2.settle) hs
    split
    · split
      · exact h3.deliver
      · exact h3.dropMsgs.deliver
    · exact h3

theorem CanonNext.execLoadReply {s : State} {u cix op} (hs : s.canon) : CanonNext (execLoadReply u cix op s) := by
  unfold Machine.execLoadReply
  refine .next ?_
  split
  · exact hs
  · exact .ite hs hs.deliver

theorem CanonNext.execStoreAcknowledged {s : State} {u cix op} (hs : s.canon) : CanonNext (execStoreAcknowledged u cix op s) := by
  unfold Machine.execStoreAcknowledged
  refine .next ?_
  split
  · exact hs
  · exact .ite hs.deliver.acknowledged hs

theorem CanonNext.execWaitaPeriodicRead {s : State} {u cix} (hs : s.canon) : CanonNext (execWaitaPeriodicRead u cix s) := by
  unfold Machine.execWaitaPeriodicRead
  refine .next ?_
  split
  · exact hs
  · split
    · exact hs
    · split
      · exact hs
      · refine .ite ?_ hs
        split
        · exact hs
        · exact .ite hs.readWatched.modCell hs.readWatched

/-! ### Machine/Collective -/

theorem CanonNext.collGate {s : State} {c regs arr} (hs : s.canon) : CanonNext (s.collGate c regs arr) := by
  unfold State.collGate
  split
  · exact .fault
  · split
    · exact .fault
    · exact .next (.ite hs.raise (.ite (.waitPend (.ite hs.markConsumed hs)) (.ite (.waitOn (.ite hs.markConsumed hs)) (.modCur
        (.count (.settle (.ite hs.markConsumed hs)))))))

theorem State.canon.meetArea {s : State} {a t} (hs : s.canon) : (s.meetArea a t).canon := .foldl (fun _ _ h1 => h1.meet) hs

theorem State.canon.meetAll {s : State} {a} (hs : s.canon) : (s.meetAll a).canon := hs.meetArea

theorem CanonNext.execCollectiveComplete {s : State} {u} (hs : s.canon) : CanonNext (execCollectiveComplete u s) := by
  unfold Machine.execCollectiveComplete
  refine .next ?_
  split
  · exact hs
  · refine .ite hs ?_
    split
    · exact hs
    · refine .ite hs.meetAll.modArea ?_
      dsimp only
      split
      · exact hs
      · exact hs.modCell.hold

/-! ### Machine/Operators -/

theorem State.canon.dropStale {s : State} (hs : s.canon) : s.dropStale.canon := hs

theorem State.canon.noteRun {s : State} {h ctx op} (hs : s.canon) : (s.noteRun h ctx op).canon := hs.modHearth

theorem State.canon.invalidate {s : State} {ctx} (hs : s.canon) : (s.invalidate ctx).canon := hs

theorem State.canon.shadowSlots {s t : State} {v ctx h xs} (hs : s.canon) (ht : s.shadowSlots v ctx h xs = some t) :
    t.canon := by
  induction xs generalizing s with
  | nil => cases ht; exact hs
  | cons x r ih =>
    conv at ht => lhs; whnf
    split at ht
    · split at ht
      · cases ht
      · refine ih ?_ ht
        exact .same hs.copyTile rfl
    · exact ih hs ht

theorem State.canon.placeShadow {s t : State} {u a n avoid hids h} (hs : s.canon)
    (ht : s.placeShadow u a n avoid hids = some (h, t)) : t.canon := by
  induction hids with
  | nil => cases ht
  | cons g r ih =>
    rw [State.placeShadow] at ht
    dsimp only at ht
    split at ht
    · exact ih ht
    · split at ht
      · exact ih ht
      · next hp => cases ht; exact .same (hs.shadowSlots hp) rfl

theorem State.canon.placeShadows {s t : State} {u a} (hs : s.canon) (ht : s.placeShadows u a = some t) : t.canon := by
  unfold State.placeShadows at ht
  dsimp only at ht
  split at ht
  · cases ht
  · next h1 =>
    obtain ⟨⟨h, x⟩, h2, rfl⟩ := Option.map_eq_some_iff.mp ht
    exact (hs.placeShadow h1).placeShadow h2

theorem State.canon.captureCode {s : State} {u} (hs : s.canon) : (s.captureCode u).canon := hs.modArea

theorem State.canon.tryStart {s : State} {u} (hs : s.canon) : (s.tryStart u).canon := by
  unfold State.tryStart
  split
  · exact hs
  · refine .ite hs (.ite hs.dropShadows.captureCode (.ite hs.holdNoInstr ?_))
    dsimp only
    split
    · exact hs.modArea
    · next t ht =>
      have h1 : t.canon := by
        split at ht
        · exact hs.placeShadows ht
        · cases ht; exact hs
      exact .ite (.foldl (fun _ _ h2 => h2.captureCode) h1.captureCode) h1

theorem State.canon.checkFound {s : State} {u} (hs : s.canon) : (s.checkFound u).canon := by
  unfold State.checkFound
  split
  · exact hs
  · refine .ite hs ?_
    dsimp only
    split
    · exact hs.holdNoInstr
    · exact .ite hs.modArea (.ite hs.modArea.holdNoInstr (.ite (.getD (fun _ e3 => .placeShadows hs.modArea e3) hs.modArea)
        hs.modArea))

theorem State.canon.tryResume {s : State} {u} (hs : s.canon) : (s.tryResume u).canon := by
  unfold State.tryResume
  split
  · exact hs
  · exact .ite hs.captureCode.modArea hs

theorem State.canon.startAreas {s : State} (hs : s.canon) : s.startAreas.canon :=
  .foldl (fun _ _ h1 => h1.tryStart.tryResume) hs.dropStale

theorem State.canon.failLoad {s : State} {h ctx op} (hs : s.canon) : (s.failLoad h ctx op).canon :=
  .foldl (fun _ _ h1 => h1.holdNoInstr) hs

theorem State.canon.beginLoad {s : State} {h} (hs : s.canon) : (s.beginLoad h).canon := by
  unfold State.beginLoad
  refine .ite hs.dropStale ?_
  split
  · exact hs.dropStale
  · split
    · exact hs.dropStale.failLoad
    · exact .ite hs.dropStale hs

theorem State.canon.fetchBytes {s : State} {h ctx fuel va n} (hs : s.canon) : (s.fetchBytes h ctx fuel va n).2.canon := by
  induction fuel generalizing s va n with
  | zero => exact hs
  | succ fuel ih =>
    cases n with
    | zero => exact hs
    | succ n =>
      rw [State.fetchBytes]
      split
      · next hn => exact .of_snd hs.need hn
      · next hn => exact ih (.touchPlain (.of_snd hs.need hn))
      · exact Nat.succ_ne_zero n

theorem CanonNext.execMicroprogramFetchComplete {s : State} {h} (hs : s.canon) : CanonNext
  (execMicroprogramFetchComplete h s) := by
  unfold Machine.execMicroprogramFetchComplete
  refine .next ?_
  split
  · exact hs
  · refine .behindWalks hs ?_
    split
    · refine .failLoad ?_
      split
      · exact hs.modHearth
      · exact hs.modHearth.fetchBytes
    · refine .startAreas (.count (.modHearth ?_))
      split
      · exact hs.modHearth
      · exact hs.modHearth.fetchBytes

theorem CanonNext.execVotedPlacementTimeout {s : State} {u} (hs : s.canon) : CanonNext (execVotedPlacementTimeout u s) := by
  unfold Machine.execVotedPlacementTimeout
  refine .next ?_
  split
  · exact hs
  · exact .ite hs.holdNoInstr hs

theorem CanonNext.execCombiningFormApplied {s : State} {u} (hs : s.canon) : CanonNext (execCombiningFormApplied u s) := by
  refine .next ?_
  split
  · exact hs
  · refine .ite hs ?_
    dsimp only
    split
    · exact hs.holdNoInstr
    · refine .ite hs.holdNoInstr ?_
      split
      · exact hs.holdNoInstr
      · exact hs.modArea.ended

/-! ### Machine/Tiles -/

theorem State.canon.enqueue {s : State} {q c} (hs : s.canon) : (s.enqueue q c).canon := .modCell hs

theorem State.canon.setLayouts {s : State} {u a k uses} (hs : s.canon) : (s.setLayouts u a k uses).canon := by
  unfold State.setLayouts
  refine .foldl (fun _ _ h1 => .ite ?_ h1) hs
  dsimp only
  split
  · exact h1
  · exact h1

theorem State.canon.enter {s : State} {k q n c accept} (hs : s.canon) (haccept : ∀ (z : State), z.canon → (accept z).canon) :
    (s.enter k q n c accept).canon := .ite hs.waitQueue (.finish (haccept _ hs.enqueue))

theorem State.canon.issue {s : State} {a k q i pri uses fmt fill accept} (hs : s.canon)
  (haccept : ∀ (z : State), z.canon → (accept z).canon) :
    (s.issue a k q i pri uses fmt fill accept).canon := by
  unfold State.issue
  refine .consume hs (fun _ h1 => .ite h1.raise ?_)
  dsimp only
  split
  · exact h1.raise
  · exact h1.callTile
  · exact .enter h1 (fun _ h2 => haccept _ h2.setLayouts)

theorem CanonNext.execTalloc {s : State} {c d a} (hs : s.canon) : CanonNext (execTalloc c d a s) := by
  refine .gate hs (fun _ _ _ h1 => .ite h1.raise ?_)
  dsimp only
  split
  · exact .finish (.same h1 rfl)
  · exact h1.finish

theorem State.canon.modSub {s : State} {st f} (hs : s.canon) : (s.modSub st f).canon := hs

theorem State.canon.failRing {s : State} {a i} (hs : s.canon) : (s.failRing a i).canon := .ite hs hs.failBarrier

theorem State.canon.subFault {s : State} {st addr} (hs : s.canon) : (s.subFault st addr).canon := by
  unfold State.subFault
  split
  · exact hs
  · exact .ite hs (.foldl (fun _ _ h2 => h2.failRing) hs.modSub)

theorem CanonNext.execTfree {s : State} {c a} (hs : s.canon) : CanonNext (execTfree c a s) := by
  unfold Machine.execTfree
  refine .gate hs (fun _ _ _ h1 => .consume h1 (fun _ h2 => ?_))
  dsimp only
  split
  · exact h2.raise
  · exact .ite h2.waitOn (.finish (.reclaim (.same (.ite (.foldl (fun _ _ h2 => h2.subFault) h2) h2) rfl)))

theorem CanonNext.execQfence {s : State} {c m} (hs : s.canon) : CanonNext (execQfence c m s) :=
  .gate hs (fun _ _ _ h1 => .ite h1.waitQueue (.finish (.foldl (fun _ _ h2 => h2) h1.fresh)))

theorem CanonNext.execQwait {s : State} {c m} (hs : s.canon) : CanonNext (execQwait c m s) :=
  .gate hs (fun _ _ _ h1 => .ite h1.waitQueue (.finish (.foldl (fun _ _ h2 => h2.meet) h1)))

theorem State.canon.putElem {s : State} {t r c v} (hs : s.canon) : (s.putElem t r c v).canon := .ite hs hs.setElem

theorem State.canon.fillTile {s : State} {hid mode t val} (hs : s.canon) : (s.fillTile hid mode t val).canon :=
  .foldl (fun _ _ h1 => .setBlockPoison (.foldl_fst (fun _ _ h2 => .putElem h2.draw) h1)) hs

theorem State.canon.fillMX {s : State} {hid mode t e val} (hs : s.canon) : (s.fillMX hid mode t e val).canon := by
  unfold State.fillMX
  refine .foldl (fun _ _ h1 => .setBlockPoison (.putElem (.setBlockPoison (.foldl (fun _ _ h2 => h2.putElem) ?_)))) hs
  exact .foldl_fst (fun _ _ h2 => h2.draw) h1

theorem State.canon.reportScales {s : State} {hid t rows cols first} (hs : s.canon) :
    (s.reportScales hid t rows cols first).canon := .foldl (fun _ _ h1 => .foldl (fun _ _ h2 => .ite h2.score h2) h1) hs

/-! ### Machine/Copy -/

theorem State.canon.withPages {s : State} {ctx hid need as got body} (hs : s.canon)
    (hb : ∀ l (t : State), t.canon → (body l t).canon) : (s.withPages ctx hid need as got body).canon := by
  induction as generalizing s got with
  | nil => exact hb _ _ hs
  | cons p r ih =>
    rw [State.withPages]
    refine .ite hs.raise (.ite hs.raise ?_)
    split
    · exact hs.tlbMiss
    · exact .ite (ih hs.noteTrans) hs.raise

theorem State.canon.withSignal {s : State} {ar k b ctr remote d body} (hs : s.canon)
  (hbody : ∀ x0 (z : State), z.canon → (body x0 z).canon) :
    (s.withSignal ar k b ctr remote d body).canon := by
  unfold State.withSignal
  refine .ite (hbody _ _ hs) (.ite ?_ (.ite hs.raise ?_))
  · split
    · exact hs.raise
    · refine .ite (hbody _ _ hs) (.ite hs.raise (.withPages hs (fun _ _ h2 => ?_)))
      split
      · exact .ite h2.waitOn (hbody _ _ h2)
      · exact h2
  · split
    · exact hs.raise
    · split
      · exact hs.raise
      · exact .ite (.ite hs.callTile hs.raise) (.ite hs.raise (hbody _ _ hs))

theorem State.canon.withImage {s : State} {ar k a n need body} (hs : s.canon)
  (hbody : ∀ x0 (z : State), z.canon → (body x0 z).canon) :
    (s.withImage ar k a n need body).canon := by
  unfold State.withImage
  exact .ite hs.raise (.ite hs.raise (.withPages hs (fun _ _ h1 => .ite h1.waitOn (hbody _ _ h1))))

theorem State.canon.heldCheck {s : State} {ar a c body} (hs : s.canon) (hbody : ∀ (z : State), z.canon → (body z).canon) :
    (s.heldCheck ar a c body).canon := .ite hs.raise (hbody _ hs)

theorem State.canon.copyIssue {a3 : State} {i inward pri ctr d a b m a1 a2} (hs : a3.canon) :
    (copyIssue i inward pri ctr d a b m a1 a2 a3).canon :=
  .consume hs (fun _ h1 => .withImage h1 (fun _ _ h2 => .withSignal h2 (fun _ _ h3 => .ite (.ite h3.raise (.issue h3 (fun
    _ h4 => h4))) (.heldCheck h3 (fun _ h4 => .issue h4 (fun _ h5 => h5))))))

theorem CanonNext.execCpyt {s : State} {c pri ctr d a b m} (hs : s.canon) : CanonNext (execCpyt c pri ctr d a b m s) :=
  .gate hs (fun _ _ _ h1 => .consume h1 (fun _ h2 => .withSignal h2 (fun _ _ h3 => .ite h3.raise (.issue h3 (fun _ h4 => h4)))))

theorem CanonNext.execCpyx {s : State} {c pri ctr d a b m} (hs : s.canon) : CanonNext (execCpyx c pri ctr d a b m s) :=
  .gate hs (fun _ _ _ h1 => .notVoted h1 (fun _ _ _ h2 => .consume h2 (fun _ h3 => .ite h3.raise (.ite h3.waitOn
    (.withSignal h3 (fun _ _ h4 => .issue h4 (fun _ h5 => h5)))))))

theorem State.canon.indexedIssue {a3 : State} {i need types dst pri d a b m a1 a2} (hs : a3.canon) :
    (indexedIssue i need types dst pri d a b m a1 a2 a3).canon := by
  unfold Machine.indexedIssue
  refine .consume hs (fun _ h1 => .ite h1.raise (.ite h1.raise (.consume h1 (fun _ h2 => .ite h2.raise ?_))))
  split
  · exact h2.raise
  · exact h2.callTile
  · refine .consume h2 (fun _ h2 => .ite h2.raise ?_)
    split
    · exact h2.raise
    · exact h2.callTile
    · dsimp only
      split
      · exact h2.raise
      · refine .ite h2.waitQueue (.ite h2.waitOn (.consume h2 (fun _ h4 => .withPages h4 (fun _ _ h5 => ?_))))
        split
        · exact h5.raise
        · exact h5.callTile
        · exact .ite h5.waitOn (.ite (.enter h5 (fun _ h5 => h5.setLayouts)) (.heldCheck h5 (fun _ h5 => .enter h5 (fun _ h6 =>
            h6.setLayouts))))

theorem CanonNext.execScatadd {s : State} {c pri d a b m} (hs : s.canon) : CanonNext (execScatadd c pri d a b m s) :=
  .gate hs (fun _ _ _ h1 => .notVoted h1 (fun _ _ _ h2 => h2.indexedIssue))

theorem CanonNext.execTld {s : State} {c pri d a m} (hs : s.canon) : CanonNext (execTld c pri d a m s) :=
  .gate hs (fun _ _ _ h1 => .consume h1 (fun _ h2 => .withImage h2 (fun _ _ h3 => .issue h3 (fun _ h4 => h4))))

theorem CanonNext.execTst {s : State} {c pri a b m} (hs : s.canon) : CanonNext (execTst c pri a b m s) :=
  .gate hs (fun _ _ _ h1 => .consume h1 (fun _ h2 => .withImage h2 (fun _ _ h3 => .heldCheck h3 (fun _ h4 => .issue h4 (fun
    _ h5 => h5)))))

theorem State.canon.landElem {s : State} {t r j v p} (hs : s.canon) : (s.landElem t r j v p).canon :=
  .ite hs.putElem.setBlockPoison (.ite hs.putElem.setBlockPoison hs.putElem)

theorem State.canon.holdMore {s : State} {u l} (hs : s.canon) : (s.holdMore u l).canon := by
  unfold State.holdMore
  split
  · exact hs.modArea
  · exact hs

theorem State.canon.putImage {s : State} {c m} (hs : s.canon) : (s.putImage c m).canon := by
  unfold State.putImage
  refine .foldl (fun _ _ h1 => ?_) hs
  split
  · exact h1.holdMore
  · exact h1
  · exact h1.writeLoc
  · exact h1

theorem State.canon.addElem {s : State} {c t r j} (hs : s.canon) : (s.addElem c t r j).canon := by
  unfold State.addElem
  split
  · exact hs
  · refine .writeLoc ?_
    split
    · exact hs.l1Drop
    · exact hs

theorem State.canon.signalLanding {s : State} {c k outward} (hs : s.canon) : (s.signalLanding c k outward).canon := by
  unfold State.signalLanding
  split
  · split
    · exact hs.holdMore
    · exact hs.release_.landing
  · exact hs

theorem State.canon.landIn {s : State} {c t a y} (hs : s.canon) : (s.landIn c t a y).canon :=
  .foldl (fun _ _ h1 => h1.landElem) hs

theorem State.canon.landGather {s : State} {c t x y} (hs : s.canon) : (s.landGather c t x y).1.canon :=
  .foldl_fst (fun _ _ h1 => h1.landElem) hs

theorem State.canon.landTile {s : State} {d a a1 y} (hs : s.canon) : (s.landTile d a a1 y).canon :=
  .foldl (fun _ _ h1 => h1.landElem) hs

theorem State.canon.landBytesIn {s : State} {c t x y} (hs : s.canon) : (s.landBytesIn c t x y).canon := by
  unfold State.landBytesIn
  have h1 := State.canon.foldl (s := s) (l := partOf (List.range t.d.foot) (x * t.d.width) (y * t.d.width))
    (f := fun s i => match c.loc ((c.addr.toNat + i) % 2 ^ 64) with
      | none => s
      | some l =>
        let (bs, p) := s.readLoc l 1
        let s := s.flagTile (t.base + i) p 1
        if t.tags.any (fun g => i < g + 8 && g ≤ i) then s
        else { s with tile := writeTab s.tile (t.base + i) bs, badScale := s.badScale.put false (t.base + i) false }) ?_ hs
  · exact .ite h1 (.foldl (fun _ _ h2 => h2.setBlockPoison) h1.flagTile)
  · intro u i hu
    dsimp only
    split
    · exact hu
    · exact .ite hu.flagTile (hu.flagTile.setTile rfl)

theorem State.canon.landBytesOut {s : State} {c t a y} (hs : s.canon) : (s.landBytesOut c t a y).canon := hs.putImage

theorem State.canon.touchPieces {s : State} {req prio write back l} (hs : s.canon) :
    (s.touchPieces req prio write back l).canon := .foldl (fun _ _ h1 => .touch (.ite h1.send h1.carryLine)) hs

theorem State.canon.landPart {s : State} {c n} (hs : s.canon) : (s.landPart c n).1.canon := by
  unfold State.landPart
  dsimp only
  split
  · exact hs
  · split
    · exact hs.touchPieces.landIn.signalLanding
    · exact hs.touchPieces.putImage.signalLanding
    · exact hs.touchPieces.putImage.signalLanding
    · exact hs.touchPieces.putImage
    · split
      · exact hs.touchPieces
      · exact hs.touchPieces.landTile.signalLanding
    · exact .same hs.touchPieces.landGather rfl
    · exact hs.touchPieces.putImage
    · exact .foldl (fun _ _ h3 => h3.addElem) hs.touchPieces
    · exact hs.touchPieces.landBytesIn
    · exact hs.touchPieces.landBytesOut
    · exact hs.touchPieces

/-! ### Machine/Stream -/

theorem State.canon.pushPages {s : State} {ctx hid as got} (hs : s.canon) : (s.pushPages ctx hid as got).2.canon := by
  induction as generalizing s got with
  | nil => exact hs
  | cons a r ih =>
    rw [State.pushPages]
    split
    · exact hs
    · split
      · exact hs.count.joinWalk
      · split
        · exact ih hs.noteTrans
        · exact hs

theorem State.canon.startPush {s : State} {st i} (hs : s.canon) : (s.startPush st i).canon := by
  unfold State.startPush
  split
  · exact hs
  · refine .ite hs ?_
    dsimp only
    split
    · next ht => exact .subFault (.of_snd hs.pushPages ht)
    · next ht => exact .of_snd hs.pushPages ht
    · next ht =>
      have h1 := State.canon.of_snd hs.pushPages ht
      exact .same h1 rfl

theorem State.canon.startPushes {s : State} {st} (hs : s.canon) : (s.startPushes st).canon := by
  unfold State.startPushes
  split
  · exact hs
  · exact .foldl (fun _ _ h2 => h2.startPush) hs

theorem State.canon.sweepSub {s : State} {st} (hs : s.canon) : (s.sweepSub st).canon := by
  unfold State.sweepSub
  split
  · exact hs
  · exact .ite hs hs

theorem State.canon.landPush {s : State} {st i n} (hs : s.canon) : (s.landPush st i n).canon := by
  unfold State.landPush
  split
  · exact hs
  · split
    · exact hs
    · extract_lets c d e s1
      split
      · exact hs.dropMsgs.modSub.sweepSub
      · extract_lets s2 s3
        have h2 : s2.canon := hs.touchPieces.landIn.wakeErrors
        have h3 : s3.canon := .ite h2 h2.release_.landing
        exact .ite hs (.ite h3.modSub h3.dropMsgs.modSub.reclaim.sweepSub)

theorem State.canon.sendNotice {s : State} {hid st i} (hs : s.canon) : (s.sendNotice hid st i).canon := hs.send

theorem CanonNext.execFreedSlotNotice {s : State} {id} (hs : s.canon) : CanonNext (execFreedSlotNotice id s) := by
  unfold Machine.execFreedSlotNotice
  refine .next ?_
  split
  · exact hs
  · split
    · exact hs.dropMsg.modSub.startPush
    · exact hs

theorem State.canon.loadDesc {s : State} {ar k a body} (hs : s.canon)
    (hbody : ∀ x0 (z : State), z.canon → (body x0 z).canon) :
    (s.loadDesc ar k a body).canon := by
  unfold State.loadDesc
  split
  · exact hs.raise
  · exact hs.waitOn
  · exact hs.callTile
  · exact hs.tlbMiss
  · refine .ite hs.waitOn (.consume ?_ (fun _ h2 => hbody _ _ h2))
    split
    · exact hs.noteTrans.touch.meetLine
    · exact hs.noteTrans

theorem CanonNext.execSubscr {s : State} {c pri d a b m} (hs : s.canon) : CanonNext (execSubscr c pri d a b m s) := by
  unfold Machine.execSubscr
  refine .gate hs (fun _ _ _ h1 => .notVoted h1 (fun _ _ _ h2 => .consume h2 (fun _ h3 => .loadDesc h3 (fun _ _ h4 => .loadDesc h4
    (fun _ _ h5 => .ite h5.raise (.ite h5.raise ?_))))))
  dsimp only
  split
  · exact h5.raise
  · exact h5.raise
  · exact h5.callTile
  · exact h5.callTile
  · exact .ite h5.raise (.enter h5 (fun _ h2 => h2.modCur))

theorem State.canon.performSubscr {s t : State} {c d scope} (hs : s.canon) (ht : s.performSubscr c d scope = some t) :
    t.canon := by
  obtain ⟨e, -, rfl⟩ := Option.map_eq_some_iff.mp ht
  exact .startPushes (.modCell hs)

theorem State.canon.faulted {s : State} {st a after live} (hs : s.canon) (hafter : ∀ (z : State), z.canon → (after z).canon)
  (hlive : ∀ (z : State), z.canon → (live z).canon) :
    (s.faulted st a after live).canon := by
  unfold State.faulted
  split
  · exact hlive _ hs
  · exact .ite (hafter _ hs) hs.modSub.raise

theorem CanonNext.execSlotrel {s : State} {c a b} (hs : s.canon) : CanonNext (execSlotrel c a b s) := by
  unfold Machine.execSlotrel
  refine .gate hs (fun _ _ _ h1 => .notVoted h1 (fun _ _ _ h2 => .consume h2 (fun _ h3 => ?_)))
  dsimp only
  split
  · exact h3.raise
  · exact .faulted h3 (fun _ h2 => h2.finish) (fun _ h2 => h2.sendNotice.finish)

theorem CanonNext.execUnsubs {s : State} {c a} (hs : s.canon) : CanonNext (execUnsubs c a s) := by
  unfold Machine.execUnsubs
  refine .gate hs (fun _ _ _ h1 => .notVoted h1 (fun _ _ _ h2 => .consume h2 (fun _ h3 => ?_)))
  split
  · exact h3.raise
  · exact .faulted h3 (fun _ h2 => h2.modSub.sweepSub.finish)
      (fun _ h2 => .finish (.sweepSub (.modSub (.foldl (fun _ _ h3 => h3.failRing) h2))))

theorem CanonNext.execSlotwb {s : State} {c pri a b m} (hs : s.canon) : CanonNext (execSlotwb c pri a b m s) := by
  unfold Machine.execSlotwb
  refine .gate hs (fun _ _ _ h1 => .notVoted h1 (fun _ _ _ h2 => .consume h2 (fun _ h3 => ?_)))
  dsimp only
  split
  · exact h3.raise
  · refine .faulted h3 (fun _ h2 => h2.finish) (fun _ h2 => .withImage h2 (fun _ _ h3 => ?_))
    split
    · exact h3.raise
    · exact h3.callTile
    · split
      · exact h3.raise
      · exact .ite h3.raise (.enter h3 (fun _ h4 => h4.modSub))

theorem State.canon.performSlotwb {s : State} {c} (hs : s.canon) : (s.performSlotwb c).canon := by
  unfold State.performSlotwb
  split
  · exact hs
  · exact hs.modSub.sendNotice.startPush.sweepSub

theorem State.canon.resumePushes {s : State} {die} (hs : s.canon) : (s.resumePushes die).canon :=
  .foldl (fun _ _ h1 => h1.startPushes) hs

theorem State.canon.failPushes {s : State} {w} (hs : s.canon) : (s.failPushes w).canon := by
  unfold State.failPushes
  refine .foldl (fun _ _ h1 => .ite ?_ h1) hs
  split
  · exact h1.subFault
  · exact h1

theorem State.canon.readTables {s : State} {w} (hs : s.canon) : (s.readTables w).canon :=
  .foldl (fun _ _ h1 => h1.send) (.foldl (fun _ _ h1 => h1.touchPlain) hs)

theorem CanonNext.execPageWalkComplete {s : State} {id} (hs : s.canon) : CanonNext (execPageWalkComplete id s) := by
  unfold Machine.execPageWalkComplete
  refine .next ?_
  split
  · exact hs
  · refine .ite hs ?_
    dsimp only
    split
    · exact .resumePushes (.foldl (fun _ _ h3 => h3.fillTlb.wakePrefs) (.foldl (fun _ _ h3 => h3.modCell) (.readTables hs)))
    · refine .foldl (fun _ _ h3 => ?_) (.resumePushes (.failPushes (.foldl (fun _ _ h3 => h3.wakePrefs) (.foldl (fun _ _ h3 =>
        h3.modCell) (.readTables hs)))))
      split
      · exact .ite (.raise h3) h3
      · exact h3

/-! ### Machine/Events -/

theorem State.canon.setAcc {s : State} {ctx pop n a e} (hs : s.canon) : (s.setAcc ctx pop n a e).canon := hs

theorem State.canon.upset {s : State} {e} (hs : s.canon) : (s.upset e).canon := by
  cases e with
  | tileCorrected h => exact .ite hs.score.count hs
  | tileChunk h c => exact .ite (.wakeErrors (.flagTile (.same (s := s.score (hearthUnit h) 256) hs.score rfl))) hs
  | tileParity h b => exact .ite hs hs
  | entry c p n =>
    rw [State.upset]
    split
    · exact .ite (.ite hs.score.setAcc hs.score) hs
    · exact hs

theorem State.canon.takeKey {s : State} {h} (hs : s.canon) : (s.takeKey h).2.canon := hs.modHearth

theorem State.canon.logDrop {s : State} {ctx lo hi} (hs : s.canon) : (s.logDrop ctx lo hi).canon := hs.log

theorem State.canon.emit {s : State} {src id ctx pop n time v place} (hs : s.canon) :
    (s.emit src id ctx pop n time v place).canon := .ite hs.modHearth.logDrop (.ite (.send hs) hs)

theorem State.canon.logSkip {s : State} {ctx f a} (hs : s.canon) : (s.logSkip ctx f a).canon := hs.log

theorem State.canon.fireTouch {s : State} {h l n write} (hs : s.canon) : (s.fireTouch h l n write).canon := by
  unfold State.fireTouch
  split
  · exact .foldl (fun _ _ h2 => h2.touch) hs
  · exact hs

theorem State.canon.fireWrote {s : State} {h l n} (hs : s.canon) : (s.fireWrote h l n).canon := by
  unfold State.fireWrote
  split
  · exact hs.wroteLines
  · exact hs

theorem State.canon.fireAccess {s : State} {h ctx a n need body} (hs : s.canon)
  (hbody : ∀ x0 (z : State), z.canon → (body x0 z).canon) :
    (s.fireAccess h ctx a n need body).canon := by
  unfold State.fireAccess
  refine .ite hs.logSkip ?_
  dsimp only
  split
  · next ht =>
      exact .logSkip (.ite (.count (.count (.of_snd hs.need ht))) (.of_snd hs.need ht))
  · next ht =>
      exact hbody _ _ (.fireTouch (.noteTrans (.of_snd hs.need ht)))

theorem State.canon.fireSignal {s : State} {h l} (hs : s.canon) : (s.fireSignal h l).canon := hs.addCounter.fireWrote.release_

theorem State.canon.fireFlush {s : State} {h ctx n a v} (hs : s.canon) : (s.fireFlush h ctx n a v).canon :=
  .fireAccess hs (fun _ _ h1 => h1.writeLoc.fireWrote)

theorem State.canon.fireRecord {s : State} {h ctx t a j} (hs : s.canon) : (s.fireRecord h ctx t a j).canon :=
  .fireAccess hs (fun _ _ h1 => .ite h1.logDrop h1.fresh.emit)

theorem State.canon.fireFan {s : State} {h ctx n t a} (hs : s.canon) : (s.fireFan h ctx n t a).canon :=
  .fireAccess hs (fun _ _ h1 => .ite h1.logDrop (.foldl (fun _ _ h2 => h2.fireRecord) h1))

theorem State.canon.fireRing {s : State} {h ctx pop n t a} (hs : s.canon) : (s.fireRing h ctx pop n t a).canon :=
  .fireAccess hs (fun _ _ h1 => .fireAccess h1.addCounter.fireWrote (fun _ _ h2 => .fireAccess h2.writeLoc.fireWrote (fun
    _ _ h3 => h3.fireSignal)))

theorem State.canon.insertion {s : State} {ctx syms note tick} (hs : s.canon) : (s.insertion ctx syms note tick).canon := by
  unfold State.insertion
  split
  · exact hs
  · exact hs.modPart

theorem State.canon.fireCount {s : State} {h ctx a} (hs : s.canon) : (s.fireCount h ctx a).canon :=
  .fireAccess hs (fun _ _ h1 => h1.fireSignal)

theorem State.canon.fire {s : State} {ctx pop n t a ev} (hs : s.canon) : (s.fire ctx pop n t a ev).canon := by
  unfold State.fire
  extract_lets h e s1 s2 s3 s4 s5
  have h1 : s1.canon := .ite hs.fireFlush hs
  have h2 : s2.canon := .ite h1.fireFan h1
  have h3 : s3.canon := .ite h2.fireRing h2
  have h4 : s4.canon := .ite h3.insertion h3
  have h5 : s5.canon := .ite h4.fireCount h4
  exact h5.setAcc

theorem State.canon.integrate {s : State} {v a} (hs : s.canon) : (s.integrate v a).canon :=
  .ite hs (.ite hs.setAcc.fire hs.setAcc)

theorem CanonNext.execEventArrival {s : State} {id} (hs : s.canon) : CanonNext (execEventArrival id s) := by
  unfold Machine.execEventArrival
  refine .next ?_
  split
  · refine .ite hs.dropMsg.send ?_
    split
    · exact hs
    · exact hs
  · exact hs

theorem CanonNext.execEventDelivery {s : State} {h} (hs : s.canon) : CanonNext (execEventDelivery h s) := by
  refine .next ?_
  split
  · exact hs
  · next e _ =>
    have drop {t : State} (ht : t.canon) :
        ({ t.dropMsgs (fun b => b = .event e.id) with events := t.events.filter (fun x => x.id ≠ e.id) } : State).canon := ht
    refine .ite hs (.behindWalks hs ?_)
    split
    · exact .ite (drop hs.integrate.count) (drop hs.logDrop)
    · exact drop hs.logDrop

theorem State.canon.bankCheck {s : State} {ar k a psn n body} (hs : s.canon)
  (hbody : ∀ x0 (z : State), z.canon → (body x0 z).canon) :
    (s.bankCheck ar k a psn n body).canon := by
  unfold State.bankCheck
  refine .consume hs (fun _ h1 => .ite h1.raise ?_)
  split
  · exact h1.raise
  · exact .ite h1.raise (hbody _ _ h1)

theorem State.canon.sendIssue {a3 : State} {i pri words a b psn time a1 a2} (hs : a3.canon) :
    (sendIssue i pri words a b psn time a1 a2 a3).canon :=
  .notVoted hs (fun _ _ _ h1 => .bankCheck h1 (fun _ _ h2 => .ite h2.raise (.ite h2.raise (.enter h2 (fun _ h3 =>
    h3.emit)))))

theorem CanonNext.execPopset {s : State} {c pri a b} (hs : s.canon) : CanonNext (execPopset c pri a b s) := by
  unfold Machine.execPopset
  refine .gate hs (fun _ _ _ h1 => .notVoted h1 (fun _ _ _ h2 => .consume h2 (fun _ h3 => .ite h3.raise (.ite (.enter h3 (fun
    _ h4 => h4)) (.loadDesc h3 (fun _ _ h4 => .ite h4.raise ?_))))))
  dsimp only
  split
  · exact .enter h4 (fun _ h2 => h2)
  · exact h4.raise

theorem State.canon.freePops {s : State} (hs : s.canon) : s.freePops.canon := hs

theorem State.canon.performPopset {s : State} {c} (hs : s.canon) : (performPopset c s).canon := .ite (.freePops hs) hs

theorem State.canon.performEvsend {s : State} {c} (hs : s.canon) : (performEvsend c s).canon := by
  unfold Machine.performEvsend
  split
  · exact hs
  · exact .send hs

theorem CanonNext.execAccrd {s : State} {c pri d a} (hs : s.canon) : CanonNext (execAccrd c pri d a s) :=
  .gate hs (fun _ _ _ h1 => .bankCheck h1 (fun _ _ h2 => .enter h2 (fun _ h3 => h3.modCur)))

theorem State.canon.performAccrd {s : State} {d c} (hs : s.canon) : (performAccrd d c s).canon := hs.modCell

theorem CanonNext.execAccwr {s : State} {c pri a b} (hs : s.canon) : CanonNext (execAccwr c pri a b s) :=
  .gate hs (fun _ _ _ h1 => .notVoted h1 (fun _ _ _ h2 => .bankCheck h2 (fun _ _ h3 => .enter h3 (fun _ h4 => h4))))

theorem State.canon.performAccwr {s : State} {c} (hs : s.canon) : (performAccwr c s).canon := by
  unfold Machine.performAccwr
  split
  · exact hs
  · exact hs.setAcc

theorem CanonNext.execAccfl {s : State} {c pri a b} (hs : s.canon) : CanonNext (execAccfl c pri a b s) :=
  .gate hs (fun _ _ _ h1 => .notVoted h1 (fun _ _ _ h2 => .bankCheck h2 (fun _ _ h3 => .enter h3 (fun _ h4 => h4))))

theorem State.canon.performAccfl {s : State} {c} (hs : s.canon) : (performAccfl c s).canon := by
  unfold Machine.performAccfl
  split
  · exact hs
  · exact .ite hs.fire hs

theorem CanonNext.execEvwait {s : State} {c a} (hs : s.canon) : CanonNext (execEvwait c a s) :=
  .gate hs (fun _ _ _ h1 => .consume h1 (fun _ h2 => .ite h2.finish h2.waitOn))

/-! ### Machine/Matrix -/

theorem State.canon.mmaIssue {a3 : State} {i d a b w a1 a2} (hs : a3.canon) : (mmaIssue i d a b w a1 a2 a3).canon :=
  .issue hs (fun _ h1 => h1)

theorem State.canon.performMma {s : State} {w c} (hs : s.canon) : (performMma w c s).canon := by
  unfold Machine.performMma
  split
  · exact hs
  · exact hs.fillTile

theorem State.canon.performMmai {s : State} {w c} (hs : s.canon) : (performMmai w c s).canon := by
  unfold Machine.performMmai
  split
  · exact hs
  · exact hs.fillTile

theorem State.canon.performMmax {s : State} {c} (hs : s.canon) : (performMmax c s).canon := by
  unfold Machine.performMmax
  split
  · exact hs
  · exact hs.fillTile

theorem State.canon.performScacc {s : State} {f w c} (hs : s.canon) : (performScacc f w c s).canon := by
  unfold Machine.performScacc
  split
  · exact hs.fillTile.reportScales.reportScales
  · exact hs

theorem State.canon.moveTile {s : State} {hid d a src} (hs : s.canon) : (s.moveTile hid d a src).canon := hs.fillTile

theorem State.canon.performTtrn {s : State} {c} (hs : s.canon) : (performTtrn c s).canon := by
  unfold Machine.performTtrn
  split
  · exact hs.moveTile
  · exact hs

theorem State.canon.performCvt {s : State} {f w c} (hs : s.canon) : (performCvt f w c s).canon := by
  unfold Machine.performCvt
  split
  · dsimp only
    split
    · refine .reportScales (.ite ?_ hs.fillTile)
      dsimp only
      split
      · exact hs.fillMX
      · exact hs
    · refine .ite ?_ hs.fillTile
      dsimp only
      split
      · exact hs.fillMX
      · exact hs
  · exact hs

theorem State.canon.putSorted {s : State} {hid d e row psn} (hs : s.canon) : (s.putSorted hid d e row psn).canon :=
  hs.fillTile.fillTile

theorem State.canon.performCxsort {s : State} {f w c} (hs : s.canon) : (performCxsort f w c s).canon := by
  unfold Machine.performCxsort
  split
  · exact hs.putSorted
  · exact hs

theorem State.canon.performCxmerge {s : State} {f w c} (hs : s.canon) : (performCxmerge f w c s).canon := by
  unfold Machine.performCxmerge
  split
  · exact hs.putSorted
  · exact hs

/-! ### Machine/Vector -/

theorem State.canon.vec3 {a3 : State} {i d a b w a1 a2} (hs : a3.canon) : (vec3 i d a b w a1 a2 a3).canon :=
  .issue hs (fun _ h1 => h1)

theorem State.canon.vec4 {a3 : State} {i d a b w t a1 a2} (hs : a3.canon) : (vec4 i d a b w t a1 a2 a3).canon :=
  .issue hs (fun _ h1 => h1)

theorem State.canon.vec2 {a3 : State} {i d a w a1 a2} (hs : a3.canon) : (vec2 i d a w a1 a2 a3).canon :=
  .issue hs (fun _ h1 => h1)

theorem State.canon.sumIssue {a3 : State} {i row d a w a1 a2} (hs : a3.canon) : (sumIssue i row d a w a1 a2 a3).canon :=
  .issue hs (fun _ h1 => h1)

theorem CanonNext.execVtbl {s : State} {c f d a b w} (hs : s.canon) : CanonNext (execVtbl c f d a b w s) :=
  .gate hs (fun _ _ _ h1 => .issue h1 (fun _ h2 => h2.modHearth))

theorem State.canon.zipNum {s : State} {c w f} (hs : s.canon) : (s.zipNum c w f).canon := by
  unfold State.zipNum
  split
  · exact hs
  · exact hs.fillTile

theorem State.canon.zipCode {s : State} {c f} (hs : s.canon) : (s.zipCode c f).canon := by
  unfold State.zipCode
  split
  · exact hs
  · exact hs.fillTile

theorem State.canon.mapCode {s : State} {c f} (hs : s.canon) : (s.mapCode c f).canon := by
  unfold State.mapCode
  split
  · exact hs.fillTile
  · exact hs

theorem State.canon.performTzero {s : State} {c} (hs : s.canon) : (performTzero c s).canon := by
  unfold Machine.performTzero
  split
  · exact hs.fillTile
  · exact hs

theorem State.canon.performTfill {s : State} {c} (hs : s.canon) : (performTfill c s).canon := by
  unfold Machine.performTfill
  split
  · exact hs.fillTile
  · exact hs

theorem State.canon.performTlay {s : State} {c} (hs : s.canon) : (performTlay c s).canon := hs.mapCode

theorem State.canon.performVfma {s : State} {w c} (hs : s.canon) : (performVfma w c s).canon := by
  unfold Machine.performVfma
  split
  · exact hs.fillTile
  · exact hs

theorem State.canon.performVsel {s : State} {c} (hs : s.canon) : (performVsel c s).canon := by
  unfold Machine.performVsel
  split
  · exact hs.fillTile
  · exact hs

theorem State.canon.performVscl {s : State} {f w c} (hs : s.canon) : (performVscl f w c s).canon := by
  unfold Machine.performVscl
  split
  · exact hs.fillTile
  · exact hs

theorem State.canon.performVclmp {s : State} {w c} (hs : s.canon) : (performVclmp w c s).canon := by
  unfold Machine.performVclmp
  split
  · exact hs
  · exact hs.fillTile

theorem State.canon.performVbc {s : State} {row f w c} (hs : s.canon) : (performVbc row f w c s).canon := by
  unfold Machine.performVbc
  split
  · exact hs
  · exact hs.fillTile

theorem State.canon.performVsum {s : State} {row f w c} (hs : s.canon) : (performVsum row f w c s).canon := by
  unfold Machine.performVsum
  split
  · exact hs.fillTile
  · exact hs

theorem State.canon.performViota {s : State} {f w c} (hs : s.canon) : (performViota f w c s).canon := by
  unfold Machine.performViota
  split
  · exact hs
  · exact hs.fillTile

theorem State.canon.performVperm {s : State} {f c} (hs : s.canon) : (performVperm f c s).canon := by
  unfold Machine.performVperm
  split
  · exact hs
  · exact hs.fillTile

theorem State.canon.performVtbl {s : State} {n c} (hs : s.canon) : (performVtbl n c s).canon := by
  unfold Machine.performVtbl
  split
  · exact hs
  · exact hs.modHearth

theorem State.canon.performVfn {s : State} {n w c} (hs : s.canon) : (performVfn n w c s).canon := by
  unfold Machine.performVfn
  split
  · exact hs.fillTile
  · exact hs

theorem State.canon.performVrr {s : State} {f w c} (hs : s.canon) : (performVrr f w c s).canon := by
  unfold Machine.performVrr
  split
  · exact .same hs.fillTile.fillTile rfl
  · exact hs

/-! ### Machine/Engine -/

theorem State.canon.modCmd {s : State} {id f} (hs : s.canon) : (s.modCmd id f).canon := hs

theorem State.canon.leaveQueues {s : State} {id} (hs : s.canon) : (s.leaveQueues id).canon := hs

theorem State.canon.failCopy {s : State} {c code} (hs : s.canon) : (s.failCopy c code).canon := by
  unfold State.failCopy
  refine .log (.modCmd ?_)
  split
  · exact hs.setBarrier
  · exact hs

theorem State.canon.startCpyx {s : State} {c dev} (hs : s.canon) : (s.startCpyx c dev).canon := by
  unfold State.startCpyx
  dsimp only
  split
  · split
    · exact hs.failCopy
    · exact hs.modCmd
  · split
    · exact hs.modCmd
    · exact hs.send

theorem CanonNext.execEngineCommandStart {s : State} {h q} (hs : s.canon) : CanonNext (execEngineCommandStart h q s) := by
  unfold Machine.execEngineCommandStart
  refine .next ?_
  split
  · exact hs
  · split
    · exact .ite hs.leaveQueues hs
    · refine .ite hs ?_
      dsimp only
      split
      · exact hs.modCmd.startCpyx
      · exact hs.modCmd

theorem CanonNext.execCopyPartLanded {s : State} {id n} (hs : s.canon) : CanonNext (execCopyPartLanded id n s) := by
  unfold Machine.execCopyPartLanded
  refine .next (.ite hs.landPush ?_)
  split
  · exact hs
  · exact .ite (.modCmd (.wakeErrors (.landPart hs))) hs

theorem State.canon.perform {s : State} {c} (hs : s.canon) : (s.perform c).canon := by
  unfold State.perform
  split
  · exact hs.performMma
  · exact hs.performMmai
  · exact hs.performMmax
  · exact hs.performScacc
  · exact hs.performTtrn
  · exact hs.performCvt
  · exact hs.performCxsort
  · exact hs.performCxmerge
  · exact hs.performTzero
  · exact hs.performTfill
  · exact hs.performTlay
  · exact hs.zipNum
  · exact hs.zipNum
  · exact hs.zipNum
  · exact hs.performVfma
  · exact hs.zipCode
  · exact hs.zipCode
  · exact hs.mapCode
  · exact hs.mapCode
  · exact hs.zipCode
  · exact hs.zipCode
  · exact hs.zipCode
  · exact hs.zipCode
  · exact hs.zipCode
  · exact hs.zipCode
  · exact hs.performVsel
  · exact hs.performCvt
  · exact hs.performVscl
  · exact hs.performVclmp
  · exact hs.performVbc
  · exact hs.performVbc
  · exact hs.performVsum
  · exact hs.performVsum
  · exact hs.performVrr
  · exact hs.performVfn
  · exact hs.performVtbl
  · exact hs.performViota
  · exact hs.performVperm
  · exact hs.performPopset
  · exact hs.performEvsend
  · exact hs.performEvsend
  · exact hs.performAccrd
  · exact hs.performAccwr
  · exact hs.performSlotwb
  · exact hs

theorem State.canon.sendSignal {s : State} {c pa key n} (hs : s.canon) : (s.sendSignal c pa key n).canon := hs.send

theorem State.canon.signalCounter {s : State} {c} (hs : s.canon) : (s.signalCounter c).canon := by
  unfold State.signalCounter
  split
  · dsimp only
    split
    · refine .ite hs.send ?_
      split
      · exact hs.sendSignal
      · exact hs.log
    · split
      · exact hs.holdMore
      · exact hs.sendSignal
    · exact hs.sendSignal
  · exact hs

theorem State.canon.finishCmd {s : State} {key c} (hs : s.canon) : (s.finishCmd key c).canon :=
  hs.leaveQueues.count.modCell.reclaim.acknowledged

theorem CanonNext.execEngineCommandComplete {s : State} {id} (hs : s.canon) : CanonNext (execEngineCommandComplete id s) := by
  unfold Machine.execEngineCommandComplete
  refine .next ?_
  split
  · exact hs
  · next ht =>
      refine .ite hs ?_
      split
      · split
        · next ht2 =>
            exact .finishCmd (.performSubscr hs ht2)
        · exact hs
      · exact .behindWalks hs (.ite hs.performAccfl.modCmd hs.performAccfl.finishCmd)
      · exact hs.perform.wakeErrors.signalCounter.finishCmd

theorem CanonNext.execCounterSignal {s : State} {id} (hs : s.canon) : CanonNext (execCounterSignal id s) := by
  unfold Machine.execCounterSignal
  refine .next ?_
  split
  · exact hs
  · split
    · exact hs.dropMsg.fireTouch.l1Drop.addCounter.release_.acknowledged
    · exact hs

theorem CanonNext.execRemoteAcknowledgement {s : State} {id ok} (hs : s.canon) : CanonNext
  (execRemoteAcknowledgement id ok s) := by
  unfold Machine.execRemoteAcknowledgement
  refine .next ?_
  split
  · exact hs
  · split
    · dsimp only
      split
      · exact hs.dropMsg
      · exact .ite hs.dropMsg.signalLanding.modCmd hs.dropMsg.tickFree.failCopy
    · refine .acknowledged ?_
      split
      · exact .ite hs.dropMsg hs.dropMsg.tickFree.log
      · exact hs.dropMsg
    · exact hs

/-! ### Machine/Units -/

theorem State.canon.capChange1 {s : State} {c a kind unit} (hs : s.canon) : (s.capChange1 c a kind unit).canon := by
  unfold State.capChange1
  dsimp only
  split
  · exact hs.modCtx
  · next ht =>
      split
      · next ht1 =>
          exact (State.canon_storeVirt hs.modCtx _ _ _ ht1).reachTo
      · exact hs.modCtx.log

theorem State.canon.capChange {s : State} {kind unit} (hs : s.canon) : (s.capChange kind unit).canon :=
  .foldl (fun _ _ h1 => .ite h1.capChange1 h1) hs

theorem CanonNext.execCapacityCounterSignal {s : State} {c} (hs : s.canon) : CanonNext (execCapacityCounterSignal c s) := by
  unfold Machine.execCapacityCounterSignal
  refine .next ?_
  split
  · exact hs
  · next ht =>
      split
      · refine .ite (.insertion ?_) ?_
        · split
          · next ht2 =>
              exact (State.canon_signalVirt hs.modCtx _ _ _ _ ht2).reachTo
          · exact hs.modCtx.log
        · split
          · next ht2 =>
              exact (State.canon_signalVirt hs.modCtx _ _ _ _ ht2).reachTo
          · exact hs.modCtx.log
      · exact hs

theorem State.canon.journalAdd {s : State} {kind status opcode ctx queue fault tag swp hash} (hs : s.canon) :
    (s.journalAdd kind status opcode ctx queue fault tag swp hash).canon := hs

/-! ### Machine/Queue -/

theorem State.canon.modHostq {s : State} {q f} (hs : s.canon) : (s.modHostq q f).canon := hs

theorem State.canon.putHeader {s : State} {q} (hs : s.canon) : (s.putHeader q).canon := hs.writeHost

theorem State.canon.journalCmd {s : State} {q kind status e} (hs : s.canon) : (s.journalCmd q kind status e).canon :=
  hs.journalAdd

theorem State.canon.takeEntry {s : State} {q} (hs : s.canon) : (s.takeEntry q).canon := .journalCmd (.putHeader (.modHostq hs))

theorem State.canon.doneEntry {s : State} {q e status result} (hs : s.canon) : (s.doneEntry q e status result).canon :=
  .ite hs.modHostq.journalCmd hs.modHostq.journalCmd.writeHost

theorem State.canon.endWaiter {s : State} {c status} (hs : s.canon) : (s.endWaiter c status).canon := by
  unfold State.endWaiter
  split
  · exact hs
  · dsimp only
    split
    · exact hs.modCtx
    · exact hs.modCtx.doneEntry

/-! ### Machine/System -/

theorem State.canon.csrPut {s : State} {a k n v} (hs : s.canon) : (s.csrPut a k n v).canon := by
  unfold State.csrPut
  refine .ite ?_ (.ite hs.modHearth hs.modCtx)
  split
  · exact hs
  · exact .ite hs.modArea hs.modCell

theorem CanonNext.execCsrwr {s : State} {c a num} (hs : s.canon) : CanonNext (execCsrwr c a num s) :=
  .privGate hs (fun _ _ _ h1 => .consume h1 (fun _ h2 => h2.csrPut.finish))

theorem CanonNext.execTlbinv {s : State} {c a b} (hs : s.canon) : CanonNext (execTlbinv c a b s) :=
  .privGate hs (fun _ _ _ h1 => .consume h1 (fun _ h2 => .ite h2.waitOn (.finish (.ite h2.dropTrans h2.dropTrans))))

theorem CanonNext.execRdctr {s : State} {c f d a} (hs : s.canon) : CanonNext (execRdctr c f d a s) :=
  .gate hs (fun _ _ _ h1 => .ite h1.waitOn (.ite h1.waitQueue h1.finish))

theorem State.canon.hostWrite {s : State} {ar a vec bs} (hs : s.canon) : (s.hostWrite ar a vec bs).canon :=
  .ite hs.tickFree.writeHost hs.tickFree.log

theorem State.canon.signalHost {s : State} {ar a vec v psn} (hs : s.canon) : (s.signalHost ar a vec v psn).canon :=
  .ite hs (.same hs.hostWrite.hostWrite rfl)

theorem CanonNext.execHostsig {s : State} {c a b} (hs : s.canon) : CanonNext (execHostsig c a b s) := by
  unfold Machine.execHostsig
  refine .gate hs (fun _ _ _ h1 => .notVoted h1 (fun _ _ _ h2 => .ite h2.waitOn ?_))
  split
  · exact h2.finish
  · exact h2.signalHost.finish

/-! ### Machine/Context -/

theorem State.canon.unclaim {s : State} {u} (hs : s.canon) : (s.unclaim u).canon := hs.dropShadows.finishOps.eraseAreas

theorem State.canon.stopArea {s : State} {u why} (hs : s.canon) : (s.stopArea u why).canon := by
  unfold State.stopArea
  split
  · exact hs
  · refine .ite hs ?_
    split
    · exact hs.unclaim
    · exact hs.unclaim
    · exact .ite hs.unclaim hs.finishOps.modArea
    · exact hs.modArea
    · exact hs

theorem State.canon.endSubs {s : State} {c} (hs : s.canon) : (s.endSubs c).canon :=
  .foldl (fun _ _ h1 => .ite h1.modSub.sweepSub h1) hs

theorem State.canon.freeSlots {s : State} {c} (hs : s.canon) : (s.freeSlots c).canon := .reclaim hs

theorem State.canon.pushAll {s : State} {c} (hs : s.canon) : (s.pushAll c).canon :=
  .foldl (fun _ _ h1 => .ite h1.startPushes h1) hs

theorem State.canon.teardown {s : State} {c} (hs : s.canon) : (s.teardown c).canon := by
  unfold State.teardown
  split
  · exact hs
  · extract_lets mark s1 us s2 s3 s4 s5 s6
    have h1 : s1.canon := .foldl (fun _ _ h => h.setSym) hs
    have h2 : s2.canon := .eraseAreas (.foldl (fun _ _ h => h.finishOps) h1)
    have h4 : s4.canon := .same h2 rfl
    exact h4.modPart.modCtx.endSubs.freeSlots.endWaiter

theorem State.canon.dumpBlocks {s : State} {c bs} (hs : s.canon) : (s.dumpBlocks c bs).1.canon := by
  induction bs generalizing s with
  | nil => exact hs
  | cons b r ih =>
    rw [State.dumpBlocks]
    split
    · exact hs
    · next ht => exact ih (State.canon_storeVirt hs _ _ _ ht)

theorem CanonNext.execDumpWrite {s : State} (hs : s.canon) : CanonNext (execDumpWrite s) := by
  refine .next ?_
  split
  · exact hs
  · next d r _ =>
    have h1 : (if d.cut then s.tickFree else s).canon := .ite hs.tickFree hs
    dsimp only
    split
    · exact .ite (.endWaiter (.journalAdd (.same h1 rfl))) (.teardown (.journalAdd (.same h1 rfl)))
    · exact .ite (.endWaiter (.journalAdd (.same h1.dumpBlocks rfl))) (.teardown (.journalAdd (.same h1.dumpBlocks rfl)))

theorem CanonNext.execHang {s : State} {c} (hs : s.canon) : CanonNext (execHang c s) := by
  unfold Machine.execHang
  refine .next ?_
  split
  · exact hs
  · split
    · exact hs
    · exact .ite hs.fatal hs

theorem CanonNext.execWatchdog {s : State} {u} (hs : s.canon) : CanonNext (execWatchdog u s) := by
  unfold Machine.execWatchdog
  refine .next ?_
  split
  · exact hs
  · refine .ite hs ?_
    split
    · split
      · exact hs.unclaim.fatal
      · exact hs
    · exact hs.fatal
    · exact hs.fatal
    · exact hs

theorem State.canon.requestOperator {s : State} {c kind op} (hs : s.canon) : (s.requestOperator c kind op).canon := by
  unfold State.requestOperator
  split
  · exact hs
  · exact hs

theorem CanonNext.execSupervisorInvocationStart {s : State} {h} (hs : s.canon) : CanonNext
  (execSupervisorInvocationStart h s) := by
  unfold Machine.execSupervisorInvocationStart
  refine .next ?_
  dsimp only
  split
  · split
    · exact hs
    · refine .modArea (.sendControl (.tickFree ?_))
      split
      · exact hs.finishOps
      · exact hs
  · exact hs

theorem State.canon.preemptNow {s : State} {c} (hs : s.canon) : (s.preemptNow c).canon :=
  .foldl (fun _ _ h1 => h1.stopArea) hs.modCtx

theorem CanonNext.execPreemptionEffect {s : State} {c} (hs : s.canon) : CanonNext (execPreemptionEffect c s) := by
  unfold Machine.execPreemptionEffect
  refine .next ?_
  split
  · exact hs
  · exact .ite hs.preemptNow hs

theorem CanonNext.execSaveOperatorStart {s : State} {c} (hs : s.canon) : CanonNext (execSaveOperatorStart c s) := by
  unfold Machine.execSaveOperatorStart
  refine .next ?_
  split
  · exact .ite hs.modCtx.requestOperator hs
  · exact hs

theorem State.canon.releaseContext {s : State} {c} (hs : s.canon) : (s.releaseContext c).canon :=
  .endWaiter (.invalidate (.freeSlots (.endSubs (.modCtx (.eraseAreas (.foldl (fun _ _ h1 => h1.setSym) hs))))))

theorem State.canon.endSave {s : State} {u} (hs : s.canon) : (s.endSave u).canon := by
  unfold State.endSave
  split
  · exact hs
  · exact .ite hs.releaseContext hs.eraseAreas.modCtx.pushAll.startAreas.endWaiter

theorem State.canon.closeHoles {s : State} {c} (hs : s.canon) : (s.closeHoles c).canon := by
  unfold State.closeHoles
  split
  · exact hs
  · exact hs.modPart.modCtx

theorem State.canon.endRestore {s : State} {u} (hs : s.canon) : (s.endRestore u).canon := by
  unfold State.endRestore
  split
  · exact hs
  · exact .ite hs.fatal (.endWaiter (.startAreas (.pushAll (.modCtx (.closeHoles (.foldl (fun _ _ h2 => h2.modArea.meetArea)
      hs.eraseAreas))))))

theorem State.canon.stopCell {s : State} {ar k stop} (hs : s.canon) : (s.stopCell ar k stop).canon := by
  unfold State.stopCell
  split
  rename_i u i _
  extract_lets s1 s2 end_
  have h2 : s2.canon := .modArea (.modCell (.count hs.settle.reach))
  have hend : ∀ f : State → State, (∀ t, t.canon → (f t).canon) → (end_ f).canon := by
    intro f hf
    simp only [end_]
    split
    · exact h2
    · exact .ite (hf _ h2) h2
  split
  · exact hs.raise
  · exact hend _ (fun _ h => h.endSave)
  · exact .ite hs.raise (hend _ (fun _ h => h.endRestore))
  · exact hend _ (fun _ h => h.ended)

theorem State.canon.tret {s : State} {kill ar k f} (hs : s.canon)
  (hf : ∀ x0 x1 x2 x3 (z : State), z.canon → (f x0 x1 x2 x3 z).canon) :
    (s.tret kill ar k f).canon := by
  unfold State.tret
  split
  · refine .ite hs.waitOn ?_
    dsimp only
    split
    · exact hs.count.finishOps.eraseAreas
    · exact hf _ _ _ _ _ hs.count.finishOps.eraseAreas.meetArea
  · exact .ite hs.raise (.ite hs.waitOn hs.count.fatal)
  · exact .ite hs.raise (.ite hs.waitOn hs.count.fatal)
  · exact hs.raise

theorem State.canon.goOn {s : State} {u cix pc} (hs : s.canon) : (s.goOn u cix pc).canon := hs.modArea.modCell

theorem State.canon.tretResume {s : State} {u h t a} (hs : s.canon) : (State.tretResume u h t a s).canon :=
  .ite hs.dropShadows.modArea.tryStart (.ite hs.endBreak (.ite hs.freshCopies hs.goOn))

theorem CanonNext.execTretResume {s : State} {c} (hs : s.canon) : CanonNext (execTretResume c s) :=
  .privGate hs (fun _ _ _ h1 => .tret h1 (fun _ _ _ _ _ h2 => h2.tretResume))

theorem State.canon.tretSkip {s : State} {u h t a} (hs : s.canon) : (State.tretSkip u h t a s).canon :=
  .ite hs.endBreak (.ite hs.discardArea hs.goOn)

theorem CanonNext.execTretSkip {s : State} {c} (hs : s.canon) : CanonNext (execTretSkip c s) :=
  .privGate hs (fun _ _ _ h1 => .tret h1 (fun _ _ _ _ _ h2 => h2.tretSkip))

theorem CanonNext.execTretDiscard {s : State} {c} (hs : s.canon) : CanonNext (execTretDiscard c s) :=
  .privGate hs (fun _ _ _ h1 => .tret h1 (fun _ _ _ _ _ h2 => h2.discardArea))

theorem State.canon.tretKill {s : State} {u h t a} (hs : s.canon) : (State.tretKill u h t a s).canon :=
  hs.logOverrun.logEnd.unclaim.fatal

theorem CanonNext.execTretKill {s : State} {c} (hs : s.canon) : CanonNext (execTretKill c s) :=
  .privGate hs (fun _ _ _ h1 => .tret h1 (fun _ _ _ _ _ h2 => h2.tretKill))

theorem State.canon.withRange {s : State} {ar k a n need body} (hs : s.canon)
  (hbody : ∀ x0 (z : State), z.canon → (body x0 z).canon) :
    (s.withRange ar k a n need body).canon := by
  unfold State.withRange
  refine .ite hs.waitOn (.ite ?_ (.withPages hs (fun _ _ h1 => hbody _ _ h1)))
  split
  · exact hs.raise
  · exact .ite hs.waitOn (.ite hs.raise (.ite hs.raise (.ite hs.raise (.ite hs.callTile (hbody _ _ hs)))))

theorem State.canon.writePieces {s : State} {ps bs} (hs : s.canon) : (s.writePieces ps bs).canon := by
  induction ps generalizing s bs with
  | nil => exact hs
  | cons p r ih => exact ih hs.writeLoc

theorem State.canon.touchRange {s : State} {h l write} (hs : s.canon) : (s.touchRange h l write).canon := by
  unfold State.touchRange
  refine .foldl (fun _ _ h1 => ?_) hs
  split
  · exact .foldl (fun _ _ h2 => h2.touch) h1
  · exact h1

theorem State.canon.meetPieces {s : State} {h l} (hs : s.canon) : (s.meetPieces h l).canon :=
  .foldl (fun _ _ h1 => h1.meetLine) hs.touchRange

theorem State.canon.wrotePieces {s : State} {h l} (hs : s.canon) : (s.wrotePieces h l).canon := hs.touchRange.wroteLines

theorem State.canon.onlyIn {a2 : State} {kind regs body a a1} (hs : a2.canon)
  (hbody : ∀ x0 x1 (z : State), z.canon → (body x0 x1 z).canon) :
    (onlyIn kind regs body a a1 a2).canon := by
  unfold Machine.onlyIn
  exact .ite hs.raise (.consume hs (fun _ h1 => hbody _ _ _ h1))

theorem CanonNext.execSavec {s : State} {c a} (hs : s.canon) : CanonNext (execSavec c a s) := by
  unfold Machine.execSavec
  refine .privGate hs (fun _ _ _ h1 => .onlyIn h1 (fun _ _ _ h2 => ?_))
  dsimp only
  split
  · exact h2.waitOn
  · exact .ite h2.raise (.withRange h2 (fun _ _ h2 => .finish (.wrotePieces (.same h2.writePieces rfl))))

theorem CanonNext.execAreard {s : State} {c d a} (hs : s.canon) : CanonNext (execAreard c d a s) := by
  unfold Machine.execAreard
  refine .privGate hs (fun _ _ _ h1 => .onlyIn h1 (fun _ _ _ h2 => ?_))
  dsimp only
  split
  · exact h2.finish
  · exact .withRange h2 (fun _ _ h2 => h2.writePieces.wrotePieces.modArea.finish)

/-- The recursion's equation is out of the elaborator's reach (a slot's size is a large literal); its head normal form shows the
  branch. -/
theorem State.canon.remakeSlots {s t : State} {ctx h es} (hs : s.canon) (ht : s.remakeSlots ctx h es = some t) :
    t.canon := by
  induction es generalizing s with
  | nil => cases ht; exact hs
  | cons e r ih =>
    conv at ht => lhs; whnf
    generalize instDecidableEqBool _ true = d at ht
    cases d with
    | isTrue => cases ht
    | isFalse =>
      dsimp only at ht
      split at ht
      · cases ht
      · refine ih ?_ ht
        exact hs.setTile rfl

theorem State.canon.retag {s : State} {ctx e} (hs : s.canon) : (s.retag ctx e).canon := hs

theorem CanonNext.execRestc {s : State} {c a} (hs : s.canon) : CanonNext (execRestc c a s) := by
  unfold Machine.execRestc
  refine .privGate hs (fun _ _ _ h1 => .onlyIn h1 (fun _ _ _ h2 => .ite h2.finish (.withRange h2 (fun _ _ h3 => .ite h3.raise
    (.withRange h3 (fun _ _ h4 => .ite h4.meetPieces.raise ?_))))))
  split
  · exact h4.meetPieces.raise
  · next ht =>
      exact .ite (.finish (.foldl (fun _ _ h2 => h2.retag) (.remakeSlots h4.meetPieces ht)))
        (.waitOn (.modPart (.foldl (fun _ _ h2 => h2.retag) (.remakeSlots h4.meetPieces ht))))

theorem CanonNext.execAreawr {s : State} {c a b} (hs : s.canon) : CanonNext (execAreawr c a b s) := by
  unfold Machine.execAreawr
  refine .privGate hs (fun _ _ _ h1 => .onlyIn h1 (fun _ _ _ h2 => .withRange h2 (fun _ _ h3 => .ite h3.raise ?_)))
  split
  · exact h3.raise
  · exact .ite h3.raise (.withRange h3 (fun _ _ h2 => .finish (.same h2.meetPieces rfl)))

/-! ### Machine/Lease -/

theorem State.canon.beginLease {s : State} {u cause pset stage} (hs : s.canon) :
    (s.beginLease u cause pset stage).canon := .sendControl (.capChange hs)

theorem State.canon.takeTurn {s : State} {u} (hs : s.canon) : (s.takeTurn u).canon :=
  .ite (.ite hs.modUnit hs) (.ite hs.modUnit hs.modUnit.beginLease)

theorem State.canon.startDue {s : State} (hs : s.canon) : s.startDue.canon := .foldl (fun _ _ h1 => h1.takeTurn) hs

theorem State.canon.logLease {s : State} {l result} (hs : s.canon) : (s.logLease l result).canon := by
  have h1 : ∀ n log, ({ s with lseq := n, leaseLog := log } : State).canon := fun _ _ => hs
  exact h1 _ _

theorem State.canon.storeRetirement {s : State} {l} (hs : s.canon) : (s.storeRetirement l).canon := .ite hs hs

theorem State.canon.resetHearth {s : State} {h} (hs : s.canon) : (s.resetHearth h).canon := hs.modHearth

theorem State.canon.returnUnit {s : State} {u} (hs : s.canon) : (s.returnUnit u).canon := by
  unfold State.returnUnit
  split
  · exact hs.resetHearth
  · exact hs
  · exact hs

theorem State.canon.dropLease {s : State} {u heat} (hs : s.canon) : (s.dropLease u heat).canon := hs

theorem State.canon.endLease {s : State} {l result} (hs : s.canon) : (s.endLease l result).canon :=
  .ite hs hs.logLease.dropLease.returnUnit.capChange.startDue

theorem State.canon.retire {s : State} {l} (hs : s.canon) : (s.retire l).canon := by
  unfold State.retire
  extract_lets u s1 s2 s3 s4
  have h1 : s1.canon := by
    dsimp only [s1]
    split
    · exact hs.logLease.capChange
    · exact hs
  have h2 : s2.canon := h1.logLease.storeRetirement.modUnit
  clear_value s2
  have h4 : s4.canon := .ite h2 h2
  exact h4.capChange.startDue

theorem CanonNext.execLeaseTestComplete {s : State} {u run} (hs : s.canon) : CanonNext (execLeaseTestComplete u run s) := by
  refine .next ?_
  split
  · exact hs
  · dsimp only
    split
    · have h1 : (if decide (0 < (s.unit u).inject) then s.modUnit u (fun x => { x with inject := x.inject - 1 }) else s).canon :=
        .ite hs.modUnit hs
      exact .ite (.ite h1.score.retire h1.score.setLeases)
        (.ite h1.endLease (.ite h1.modUnit.endLease h1.score.endLease))
    · exact hs

theorem State.canon.endEvac {s : State} {h} (hs : s.canon) : (s.endEvac h).canon := hs

theorem State.canon.abandon {s : State} {h} (hs : s.canon) : (s.abandon h).canon :=
  .startDue (.startAreas (.endEvac (.foldl (fun _ _ h1 => h1.capChange) (.same (.foldl (fun _ _ h1 => h1.logLease) hs)
    rfl))))

theorem CanonNext.execThermalClearance {s : State} {h} (hs : s.canon) : CanonNext (execThermalClearance h s) := by
  unfold Machine.execThermalClearance
  refine .next ?_
  dsimp only
  split
  · exact hs
  · split
    · exact hs.modUnit.logLease.dropLease.capChange.endLease
    · exact hs.modUnit.logLease.dropLease.capChange.startDue

theorem State.canon.setTransit {s : State} {phys b} (hs : s.canon) : (s.setTransit phys b).canon := hs.setSym

theorem State.canon.arrive {s : State} {ctx handle h} (hs : s.canon) : (s.arrive ctx handle h).canon :=
  .foldl (fun _ _ h1 => .ite h1 h1.setTransit) hs

theorem State.canon.followTiles {s : State} {ctx} (hs : s.canon) : (s.followTiles ctx).canon := by
  unfold State.followTiles
  refine .foldl_fst (fun acc p h1 => ?_) hs
  dsimp only
  split
  · split
    · exact h1.setTransit
    · exact h1
  · split
    · exact h1
    · split
      · exact h1
      · split
        · exact .ite h1.setTransit h1
        · exact h1.setTransit.startMove

theorem State.canon.moveEvent {s : State} {h g e} (hs : s.canon) : (s.moveEvent h g e).canon := by
  unfold State.moveEvent
  dsimp only
  split
  · exact hs
  · exact hs
  · split
    · exact hs
    · exact .send hs

theorem State.canon.moveEvents {s : State} {h g which} (hs : s.canon) : (s.moveEvents h g which).canon :=
  .foldl (fun _ _ h1 => h1.moveEvent) hs

theorem State.canon.moveBanks {s t : State} {h} (hs : s.canon) (ht : s.moveBanks h = some t) : t.canon := by
  unfold State.moveBanks at ht
  dsimp only at ht
  split at ht
  · cases ht
  · next u hu =>
    have h1 : u.canon := by
      refine .foldl_some (fun _ => rfl) (fun s p t h2 e => ?_) hs hu
      dsimp only at e
      split at e
      · cases e; exact h2
      · split at e
        · cases e
        · cases e; exact .moveEvents h2
    split at ht
    · obtain ⟨g, -, rfl⟩ := Option.map_eq_some_iff.mp ht
      exact h1.moveEvents
    · cases ht; exact h1

theorem State.canon.rebind {s : State} {h} (hs : s.canon) : (s.rebind h).canon := hs

theorem State.canon.emptyHearth {s : State} {h} (hs : s.canon) : (s.emptyHearth h).canon := by
  unfold State.emptyHearth
  dsimp only
  split
  · exact hs.abandon
  · next t ht =>
    have h1 : t.canon := by
      split at ht
      · cases ht; exact hs
      · obtain ⟨g, -, hg⟩ := List.exists_of_findSome?_eq_some ht
        split at hg
        · exact hs.sendSlots hg
        · cases hg
    split
    · exact hs.abandon
    · next hb => exact (h1.moveBanks hb).rebind

theorem CanonNext.execTileMigrationComplete {s : State} {ctx handle} (hs : s.canon) :
    CanonNext (execTileMigrationComplete ctx handle s) := by
  refine .next ?_
  dsimp only
  split
  · exact hs
  · split
    · exact hs
    · exact .ite hs (.reclaim (.arrive (.meet (.moveReleases hs.copyTile))))

theorem State.canon.cleanGranule {s : State} {ch n} (hs : s.canon) : (s.cleanGranule ch n).canon := hs.modSlice

theorem CanonNext.execGranuleMigration {s : State} {stack} (hs : s.canon) : CanonNext (execGranuleMigration stack s) := by
  refine .next ?_
  split
  · exact hs
  · next l _ =>
    have h1 : (s.cleanGranule (unitIndex l.unit) l.granules).canon := hs.cleanGranule
    dsimp only
    refine .ite h1 ?_
    split
    · exact h1
    · exact h1

/-! ### Machine/Sweep -/

theorem State.canon.writeDepths {s : State} {d l} (hs : s.canon) : (s.writeDepths d l).canon := by
  induction l generalizing s d with
  | nil => exact hs
  | cons p r ih =>
    obtain ⟨n, i⟩ := p
    cases i with
    | seg g => exact ih hs
    | sym p y => exact .ite (ih hs.setSym) (.ite (ih hs.setSym) (ih hs))

theorem State.canon.claim {s : State} {c f} (hs : s.canon) : (s.claim c f).canon := by
  unfold State.claim
  refine .foldl (fun _ _ h1 => h1.modHearth) ?_
  dsimp only
  split
  · exact .meetArea (.modCtx hs)
  · exact .modCtx hs

theorem State.canon.consider {s : State} {c f} (hs : s.canon) : (s.consider c f).canon := by
  unfold State.consider
  split
  · exact .ite hs (.ite (.ite hs hs.claim) hs.modPart)
  · exact hs

theorem State.canon.discover {s : State} {c} (hs : s.canon) : (s.discover c).canon := by
  unfold State.discover
  dsimp only
  split
  · exact hs.writeDepths.fatal
  · exact .foldl (fun _ _ h2 => h2.consider) hs.writeDepths

theorem State.canon.putSegment {s : State} {l c lpos r ys notes} (hs : s.canon) :
    (s.putSegment l c lpos r ys notes).canon := by
  unfold State.putSegment
  split
  · exact hs
  · next ht =>
      refine .modPart ?_
      dsimp only
      split
      · next ht1 =>
          exact State.canon_storeVirt hs _ _ _ ht1
      · exact hs

theorem State.canon.sweepChunks {s : State} {l resv ks} (hs : s.canon) : (s.sweepChunks l resv ks).1.canon := by
  induction ks generalizing s with
  | nil => exact hs
  | cons k r ih =>
    cases k with
    | nil => exact ih hs
    | cons x k =>
      rw [State.sweepChunks]
      dsimp only
      split
      · exact ih hs
      · next i t ht =>
        have h1 : t.canon := by
          split at ht
          · split at ht
            · cases ht
            · exact hs.allocRec ht
          · cases ht
        exact ih h1.putSegment

theorem State.canon.sweepOut {s : State} {l k resv ts} (hs : s.canon) : (s.sweepOut l k resv ts).1.canon := by
  unfold State.sweepOut
  dsimp only
  split
  · exact hs
  · exact hs.sweepChunks

theorem State.canon.takeIn {s0 s : State} {l base top pins n got gs ts} (hs : s.canon) :
    (s0.takeIn l base top pins n got gs s ts).1.canon := by
  induction gs generalizing s n got ts with
  | nil => cases n <;> exact hs
  | cons g r ih =>
    cases n with
    | zero => exact hs
    | succ n =>
      rw [State.takeIn]
      split
      · exact ih hs
      · dsimp only
        split
        · exact ih hs
        · split
          · exact ih hs.fatal
          · split
            · exact ih hs.fatal
            · exact ih (.freeRec (.modPart (.ite hs.touchRec.log hs.touchRec)))

theorem GapEnd.canon.gapPass {s : State} {l base top pins resv i ts} (hs : s.canon) :
  (s.gapPass l base top pins resv i ts).canon := by
  unfold State.gapPass
  split
  · dsimp only
    split
    · exact .wait
    · refine .ite (.placed hs.sweepOut) ?_
      split
      · exact .wait
      · exact .wait
      · exact .abandon
      · exact .stay

theorem State.canon.gapPasses {s : State} {l base top pins ts is got} (hs : s.canon) :
    (s.gapPasses l base top pins ts is got).1.canon := by
  induction is generalizing s got with
  | nil => exact hs
  | cons i r ih =>
    rw [State.gapPasses]
    have h1 : (s.gapPass l base top pins got.resv i (ts.filter (fun t => t.gap = i))).canon := .gapPass hs
    split
    · next he => rw [he] at h1; exact ih h1
    · exact ih hs
    · exact hs

theorem State.canon.tryMove {s : State} {l fuel w} (hs : s.canon) : (State.tryMove l fuel w s).1.canon := by
  induction fuel generalizing s w with
  | zero => exact hs
  | succ fuel ih =>
    rw [State.tryMove]
    dsimp only
    split
    · exact .gapPasses hs.takeIn
    · exact ih hs
    · exact ih hs
    · exact ih hs.abandon
    · exact .gapPasses hs.takeIn

theorem State.canon.spillTail {s : State} {l c lpos ys notes} (hs : s.canon) : (s.spillTail l c lpos ys notes).canon := by
  unfold State.spillTail
  split
  · next ht =>
      split
      · next ht1 =>
          exact .putSegment (.allocRec hs ht1)
      · exact hs.putSegment
  · exact hs

theorem State.canon.applyGrowth {s : State} {l u more} (hs : s.canon) : (s.applyGrowth l u more).canon := by
  unfold State.applyGrowth
  split
  · exact hs
  · exact .drain (.count (.logEnd (.modCtx (.logOverrun (.foldl (fun _ _ h2 => h2.spillTail) hs.shiftSegs.placeSyms.modArea)))))

theorem State.canon.spillIns {s : State} {l k i n spilt} (hs : s.canon) : (s.spillIns l k i n spilt).canon := by
  unfold State.spillIns
  dsimp only
  split
  · exact hs
  · exact hs.spillTail

theorem State.canon.meetMoved {s : State} {dest} (hs : s.canon) : (s.meetMoved dest).canon :=
  .foldl (fun _ _ h1 => .ite h1 (.foldl (fun _ _ h2 => .ite h2 h2.meet) h1)) hs

theorem State.canon.applyMove {s : State} {l got spilt} (hs : s.canon) : (s.applyMove l got spilt).canon := by
  unfold State.applyMove
  extract_lets moves old left dest s1 s2 s3 ins done s4 s5
  have h1 : s1.canon := .foldl (fun _ _ h => h.setSym) hs
  have h2 : s2.canon := by
    refine .foldl (fun t p ht => ?_) h1.meetMoved
    split
    · exact ht.setSym
    · exact ht.setSym
    · exact ht.setSym
    · exact ht.setSym
    · exact ht
  have h3 : s3.canon := h2
  have h4 : s4.canon := by
    refine .foldl (fun t k ht => ?_) h3
    split
    · exact ht
    · dsimp only
      split
      · exact ht.modPart.modCtx
      · exact ht.modPart
  have h5 : s5.canon := by
    refine .foldl (fun t k ht => ?_) h4
    split
    · exact ht
    · exact ht.spillIns
  clear_value s5
  refine .foldl (fun _ _ h => h.applyGrowth) (.foldl (fun _ _ h => .ite h h.modCell) (.modPart (.foldl (fun t c ht => ?_)
    h5.modPart.freePops)))
  split
  · exact ht.modCtx
  · exact ht

theorem State.canon.movePass {s : State} {l} (hs : s.canon) : (s.movePass l).canon := by
  unfold State.movePass
  extract_lets w
  have h1 := State.canon.tryMove (l := l) (fuel := w.ins.length + s.leases.length + 3) (w := w) hs
  split
  rename_i he
  rw [he] at h1
  exact .ite h1 h1.applyMove

theorem State.canon.withdraw {s : State} {h} (hs : s.canon) : (s.withdraw h).canon :=
  .ite (.foldl (fun _ _ h1 => h1.stopArea) hs) (.same (.foldl (fun _ _ h1 => h1.stopArea) hs) rfl)

theorem State.canon.publish {s : State} {l} (hs : s.canon) : (s.publish l).canon := .foldl (fun _ _ h1 => h1.modHearth) hs.modPart

theorem State.canon.countHang {s : State} {c a} (hs : s.canon) : (s.countHang c a).canon := hs.modCtx

theorem State.canon.fireTriggers {s : State} {l} (hs : s.canon) : (s.fireTriggers l).canon :=
  .foldl (fun _ _ h1 => .ite (.takeTurn (.modUnit h1)) h1) hs

theorem CanonNext.execSweep {s : State} {l} (hs : s.canon) : CanonNext (execSweep l s) := by
  unfold Machine.execSweep
  extract_lets mine s1 s2 s3 s4 s5 s6 s7 s8 s9 s10 s11
  have h1 : s1.canon := .foldl (fun _ _ h => .ite h.preemptNow (.ite (.foldl (fun _ _ g => g.stopArea) h) h)) hs
  have h2 : s2.canon := h1.modPart.sendControl
  have h3 : s3.canon := .foldl (fun _ _ h => h.withdraw) h2
  have h4 : s4.canon := .foldl (fun _ _ h => h.discover) h3
  have h5 : s5.canon := h4.movePass
  have h6 : s6.canon := .foldl (fun _ _ h => h.checkFound) h5
  have h7 : s7.canon := .foldl (fun _ _ h => h.followTiles) h6
  have h8 : s8.canon := .foldl (fun _ _ h => h.emptyHearth) h7
  have h9 : s9.canon := h8.publish
  have h10 : s10.canon := .foldl (fun _ _ h => h.beginLoad) h9.startAreas
  have h11 : s11.canon := .foldl (fun _ _ h => h.countHang) h10
  exact .next (.ite hs h11.fireTriggers)

/-! ### Machine/Host -/

theorem State.canon.hostAsk {s : State} {agent ord ask} (hs : s.canon) : (s.hostAsk agent ord ask).canon := .ite hs hs

theorem State.canon.dropReq {s : State} {id} (hs : s.canon) : (s.dropReq id).canon := hs

theorem State.canon.hostWrote {s : State} {agent line} (hs : s.canon) : (s.hostWrote agent line).canon := hs

theorem State.canon.hostRelease {s : State} {agent scope ls} (hs : s.canon) : (s.hostRelease agent scope ls).canon :=
  .foldl (fun _ _ h1 => h1.release_) hs

theorem State.canon.windowWrite {s : State} {r addr bytes} (hs : s.canon) : (s.windowWrite r addr bytes).canon :=
  .ite (.hostRelease (.foldl (fun _ _ h1 => h1.hostWrote) (.writeDev (.ite hs hs.touchPlain))))
    (.foldl (fun _ _ h1 => h1.hostWrote) (.writeDev (.ite hs hs.touchPlain)))

theorem State.canon.hostAcquire {s : State} {r addr n} (hs : s.canon) : (s.hostAcquire r addr n).canon :=
  .ite (.foldl (fun _ _ h1 => .ite h1 h1) (.ite hs hs.touchPlain)) (.ite hs hs.touchPlain)

theorem CanonNext.execHostPostedWrite {s : State} {req} (hs : s.canon) : CanonNext (execHostPostedWrite req s) := by
  unfold Machine.execHostPostedWrite
  refine .next ?_
  split
  · split
    · exact hs.dropReq.windowWrite
    · exact hs
  · exact hs

theorem CanonNext.execHostRead {s : State} {req} (hs : s.canon) : CanonNext (execHostRead req s) := by
  unfold Machine.execHostRead
  refine .next ?_
  split
  · split
    · exact .same hs.dropReq.hostAcquire rfl
    · exact hs
    · exact hs
  · exact hs

theorem CanonNext.execHostAtomic {s : State} {req} (hs : s.canon) : CanonNext (execHostAtomic req s) := by
  unfold Machine.execHostAtomic
  refine .next ?_
  split
  · split
    · exact .same hs.dropReq.hostAcquire.windowWrite rfl
    · exact hs
  · exact hs

theorem State.canon.ackPeer {s : State} {job ok} (hs : s.canon) : (s.ackPeer job ok).canon := hs

theorem State.canon.peerWrote {s : State} {job l} (hs : s.canon) : (s.peerWrote job l).canon :=
  .foldl (fun _ _ h1 => h1.hostWrote) hs

theorem CanonNext.execRemoteWrite {s : State} {job va bytes} (hs : s.canon) : CanonNext (execRemoteWrite job va bytes s) := by
  unfold Machine.execRemoteWrite
  refine .next (.ite hs ?_)
  split
  · exact .ackPeer (.peerWrote (.writePieces (.foldl (fun _ _ h2 => h2.touchPlain) (.foldl (fun _ _ h2 => h2.tagPage) hs))))
  · exact hs.ackPeer

theorem CanonNext.execRemoteCounterAdd {s : State} {job va amount} (hs : s.canon) : CanonNext
  (execRemoteCounterAdd job va amount s) := by
  unfold Machine.execRemoteCounterAdd
  refine .next (.ite hs ?_)
  split
  · exact hs.tagPage.touchPlain.addCounter.peerWrote.hostRelease.ackPeer
  · exact hs.ackPeer

theorem State.canon.putTail {s : State} {q t} (hs : s.canon) : (s.putTail q t).canon :=
  .ite hs (.ite hs.modHostq.journalAdd hs.modHostq)

theorem CanonNext.execRegisterWrite {s : State} {agent r v} (hs : s.canon) : CanonNext (execRegisterWrite agent r v s) := by
  unfold Machine.execRegisterWrite
  refine .next ?_
  split
  · exact .ite hs.modHostq hs
  · exact .ite hs.modHostq hs
  · exact hs
  · exact hs
  · exact hs
  · exact .ite hs hs
  · exact .ite hs hs
  · exact .ite hs hs
  · exact .ite hs hs

theorem State.canon.runEntry {s : State} {q e masks body} (hs : s.canon)
    (hb : ∀ e (t : State), t.canon → (body e t).canon) : (s.runEntry q e masks body).canon := by
  unfold State.runEntry
  refine .ite hs.doneEntry ?_
  have h1 : (body e s).canon := hb e s hs
  split
  · next he => rw [he] at h1; exact State.canon.doneEntry h1
  · next he => rw [he] at h1; exact State.canon.modHostq h1

theorem State.canon.nextEntry {s t : State} {q is e} (hs : s.canon) (ht : s.nextEntry q is = some (e, t)) : t.canon := by
  unfold State.nextEntry at ht
  split at ht
  · cases ht
  · split at ht
    · split at ht
      · obtain ⟨-, rfl⟩ := Prod.mk.inj (Option.some.inj ht); exact hs
      · cases ht
    · dsimp only at ht
      split at ht
      · obtain ⟨-, rfl⟩ := Prod.mk.inj (Option.some.inj ht); exact hs.takeEntry
      · cases ht

theorem State.canon.command {s : State} {q is masks body} (hs : s.canon)
    (hb : ∀ e (t : State), t.canon → (body e t).canon) : (s.command q is masks body).canon := by
  unfold State.command
  split
  · exact hs
  · next ht =>
    have h1 := hs.nextEntry ht
    exact .ite h1 (.runEntry h1 hb)

/-! ### Machine/Commands -/

theorem State.canon.touchRead {s : State} {ctx a n} (hs : s.canon) : (s.touchRead ctx a n).canon :=
  .foldl (fun _ _ h1 => h1.touchPlain) hs

theorem CmdEnd.canon.withCtx {s : State} {e body} (hs : s.canon) (hb : ∀ c x (t : State), t.canon → (body c x t).canon) :
    (withCtx e body s).canon := by
  unfold Machine.withCtx
  split
  · exact .done hs
  · exact hb _ _ _ hs

theorem CmdEnd.canon.createContext {s : State} {e} (hs : s.canon) : (State.createContext e s).canon := by
  unfold State.createContext
  refine .ite (.done hs) ?_
  split
  · exact .done hs
  · exact .done hs

theorem State.canon.putPte {s : State} {pa v} (hs : s.canon) : (s.putPte pa v).canon := hs.touchPlain.writeLine

theorem State.canon.dropTags {s : State} {e big} (hs : s.canon) : (s.dropTags e big).canon := .ite hs hs

theorem State.canon.unmapAll {s : State} {root} (hs : s.canon) : (s.unmapAll root).canon :=
  .foldl (fun _ _ h1 => .ite (.foldl (fun _ _ h2 => .ite h2.putPte.dropTags (.ite (.foldl (fun _ _ h3 => .ite
    h3.putPte.dropTags h3) h2) h2)) h1) h1) hs

theorem CmdEnd.canon.destroyContext {s : State} {e} (hs : s.canon) : (State.destroyContext e s).canon := by
  unfold State.destroyContext
  refine .withCtx hs (fun _ _ t h1 => ?_)
  extract_lets t1 t2 t3
  have h2 : t3.canon := .dropTrans (.unmapAll (.ite h1.invalidate h1.invalidate.teardown))
  clear_value t3
  exact .done h2

theorem CanonNext.execLoadOperators {s : State} {q} (hs : s.canon) : CanonNext (execLoadOperators q s) :=
  .next (.command hs (fun _ _ h1 => .withCtx h1 (fun _ _ _ h2 => .done h2.invalidate)))

theorem TileEnd.canon.loadTile {s : State} {c img k h y} (hs : s.canon) : (s.loadTile c img k h y).canon := by
  unfold State.loadTile
  dsimp only
  split
  · refine .ite .noSpace ?_
    split
    · exact .unreadable
    · exact .placed (.foldl (fun _ _ h3 => h3.writeTileCell) (.same hs.touchRead rfl))
  · exact .noSpace

theorem State.canon.loadSyms {s t : State} {c img k l} (hs : s.canon) (ht : s.loadSyms c img k l = .ok t) : t.canon := by
  induction l generalizing s k with
  | nil => cases ht; exact hs
  | cons p r ih =>
    rw [State.loadSyms] at ht
    split at ht
    · have h1 : (s.loadTile c img k (hidOf p.1) p.2).canon := .loadTile hs
      split at ht
      · cases ht
      · cases ht
      · next he => rw [he] at h1; exact ih (State.canon.setSym h1) ht
    · exact ih hs.setSym ht

theorem CmdEnd.canon.loadExpr {s : State} {e} (hs : s.canon) : (State.loadExpr e s).canon := by
  unfold State.loadExpr
  refine .withCtx hs (fun _ _ _ h1 => .ite (.done h1) (.ite (.done h1) ?_))
  split
  · exact .done h1
  · next ht =>
      split
      · exact .done h1
      · split
        · exact .done h1
        · refine .ite (.done h1) ?_
          dsimp only
          split
          · exact .done h1.touchRead
          · exact .done h1.touchRead
          · split
            · exact .done h1.touchRead
            · next ht4 =>
                exact .done (.writeDepths (.loadSyms (.setSym (.foldl (fun _ _ h6 => h6.setSym) h1.touchRead)) ht4))

theorem State.canon.unreserve {s : State} {c} (hs : s.canon) : (s.unreserve c).canon := hs

theorem CmdEnd.canon.startContext {s : State} {e} (hs : s.canon) : (State.startContext e s).canon := by
  unfold State.startContext
  refine .withCtx hs (fun _ _ _ h1 => .ite (.done h1) (.ite (.done h1) ?_))
  split
  · exact .done h1
  · exact .ite (.done h1.touchRead) (.ite (.done h1.touchRead) (.done (.invalidate (.putOvfptr (.foldl (fun _ _ h2 => h2.setUsed)
      (.modCtx (.foldl (fun _ _ h2 => h2) h1.touchRead.modCtx.unreserve)))))))

theorem CmdEnd.canon.preemptContext {s : State} {q e} (hs : s.canon) : (State.preemptContext q e s).canon :=
  .withCtx hs (fun _ _ _ h1 => .ite (.done h1) (.later h1.modCtx))

theorem CmdEnd.canon.resumeContext {s : State} {q e} (hs : s.canon) : (State.resumeContext q e s).canon :=
  .withCtx hs (fun _ _ _ h1 => .ite (.done h1) (.later h1.modCtx.requestOperator))

theorem CmdEnd.canon.readExpr {s : State} {e} (hs : s.canon) : (State.readExpr e s).canon := by
  unfold State.readExpr
  refine .withCtx hs (fun _ _ _ h1 => ?_)
  split
  · exact .done h1
  · exact .ite (.done h1) (.done h1.writeHost)

theorem State.canon.newTable {s : State} {l a n} (hs : s.canon) : (s.newTable l a n).2.canon := by
  unfold State.newTable
  dsimp only
  have h1 : ∀ p : Nat, ((s.lineTime.map (·.1)).foldl (fun s i => if i / 1024 = p / 65536 then s.stampLine i else s)
    s.tickFree).canon :=
    fun p => .foldl (fun _ _ h2 => .ite h2.stampLine h2) hs.tickFree
  exact ⟨Memory.wf_filter _ _ (h1 _).1, (h1 _).2⟩

theorem State.canon.subTable {s : State} {l a n pa} (hs : s.canon) : (s.subTable l a n pa).2.canon := by
  unfold State.subTable
  dsimp only
  split
  · exact hs
  · exact hs.newTable.putPte

theorem State.canon.mapPage {s : State} {x a n va e big} (hs : s.canon) : (s.mapPage x a n va e big).canon :=
  .ite (.putPte hs.subTable) (.putPte (.subTable hs.subTable))

theorem State.canon.makeTags {s : State} {e big} (hs : s.canon) : (s.makeTags e big).canon := hs.tagPage

theorem CmdEnd.canon.mapContext {s : State} {e} (hs : s.canon) : (State.mapContext e s).canon := by
  unfold State.mapContext
  refine .withCtx hs (fun _ _ t h1 => ?_)
  extract_lets v pa n big w enc sz inside t1
  have h2 : t1.canon := .ite (.same h1 rfl) h1
  exact .ite (.done h1) (.done (.foldl (fun _ _ h3 => h3.mapPage.makeTags) h2))

theorem State.canon.unmapPage {s : State} {a va big} (hs : s.canon) : (s.unmapPage a va big).canon :=
  .ite hs (.ite hs.putPte.dropTags (.ite hs hs.putPte.dropTags))

theorem State.canon.cancelSubs {s : State} {c lo hi} (hs : s.canon) : (s.cancelSubs c lo hi).canon := by
  unfold State.cancelSubs
  refine .foldl (fun _ _ h1 => .ite ?_ h1) hs
  split
  · exact h1.subFault
  · exact h1

theorem CmdEnd.canon.unmapContext {s : State} {e} (hs : s.canon) : (State.unmapContext e s).canon :=
  .withCtx hs (fun _ _ _ h1 => .ite (.done h1) (.done (.ite (.foldl (fun _ _ h2 => h2.unmapPage) h1) (.cancelSubs
    (.dropTrans (.foldl (fun _ _ h2 => h2.unmapPage) h1))))))

/-! ### Machine/Device -/

theorem CmdEnd.canon.forceLease {s : State} {e} (hs : s.canon) : (State.forceLease e s).canon :=
  .ite (.done hs) (.ite (.withCtx hs (fun _ _ _ h1 => .done h1)) (.done hs.modUnit.takeTurn))

theorem CmdEnd.canon.injectFault {s : State} {e} (hs : s.canon) : (State.injectFault e s).canon := by
  unfold State.injectFault
  refine .ite (.done hs) ?_
  split
  · exact .done hs.modUnit
  · exact .done hs.score
  · exact .done hs.score
  · exact .done hs

theorem State.canon.rekey {s t : State} (ht : t.canon) : (s.rekey t).canon := by
  refine ⟨?_, ht.2⟩
  unfold State.rekey
  dsimp only
  generalize hm : ([] : Tab Byte) = m
  have h0 : Memory.wf m = true := hm ▸ Memory.wf_nil
  clear hm
  induction s.mem generalizing m with
  | nil => exact h0
  | cons p r ih =>
    refine ih _ ?_
    dsimp only
    split
    · exact Tab.wf_put 0 m _ _ h0
    · exact h0

theorem State.canon.recut {s : State} {n} (hs : s.canon) : (s.recut n).canon :=
  .rekey (.same (.foldl (fun _ _ h1 => h1.modHearth) hs) rfl)

theorem State.canon.quiesce {s : State} {q n} (hs : s.canon) : (s.quiesce q n).canon :=
  .same (.foldl (fun _ _ h1 => h1.withdraw) hs) rfl

theorem CmdEnd.canon.partitionDevice {s : State} {q e} (hs : s.canon) : (State.partitionDevice q e s).canon := by
  unfold State.partitionDevice
  refine .ite (.done hs) ?_
  dsimp only
  split
  · exact .ite (.later hs.quiesce) (.done hs.recut)
  · exact .done hs

theorem State.canon.endCut {s : State} {q n} (hs : s.canon) : (s.endCut q n).canon := by
  unfold State.endCut
  split
  · exact hs.recut.doneEntry.startDue
  · exact hs

theorem CanonNext.execPartition {s : State} {q} (hs : s.canon) : CanonNext (execPartition q s) := by
  unfold Machine.execPartition
  refine .next ?_
  split
  · exact .ite hs.endCut hs
  · exact .command hs (fun _ _ h2 => .partitionDevice h2)

theorem CmdEnd.canon.report {s : State} {a size bs result} (hs : s.canon) : (s.report a size bs result).canon :=
  .ite (.done hs) (.done hs.writeHost)

theorem CmdEnd.canon.queryCapacity {s : State} {e} (hs : s.canon) : (State.queryCapacity e s).canon :=
  .ite (.done hs) (.report hs)

theorem CmdEnd.canon.readRetirements {s : State} {e} (hs : s.canon) : (State.readRetirements e s).canon := .report hs

theorem CmdEnd.canon.attest {s : State} {e} (hs : s.canon) : (State.attest e s).canon := .done hs.writeHost

theorem CmdEnd.canon.readJournal {s : State} {e} (hs : s.canon) : (State.readJournal e s).canon := .done hs.writeHost

/-! ### Machine/Package -/

theorem State.canon.bootChannels {s : State} (hs : s.canon) : s.bootChannels.canon := .foldl (fun _ _ h1 => h1) hs

theorem State.canon.afterReset {s : State} {cold} (hs : s.canon) : (s.afterReset cold).canon :=
  ⟨Memory.wf_nil, hs.2.1, Memory.wf_nil⟩

theorem State.canon.unpowered {s : State} (hs : s.canon) : s.unpowered.canon := .same (s := s.afterReset true) hs.afterReset rfl

theorem State.canon.warmMap {s : State} (hs : s.canon) : s.warmMap.canon := .bootChannels hs

theorem State.canon.warmReset {s : State} (hs : s.canon) : s.warmReset.canon := by
  have h1 : (s.rekey s.warmMap).canon := .rekey hs.warmMap
  exact ⟨h1.1, hs.2.1, Memory.wf_nil⟩

theorem State.canon.endExtest {s : State} (hs : s.canon) : s.endExtest.canon := .ite hs hs

theorem CanonNext.execResetInput {s : State} {held} (hs : s.canon) : CanonNext (execResetInput held s) :=
  .next (.ite (.ite hs (.same (.ite hs.warmReset hs) rfl)) (.endExtest hs))

theorem CanonNext.execPowerUp {s : State} (hs : s.canon) : CanonNext (execPowerUp s) :=
  .next (.ite hs (.same (s := s.afterReset true) hs.afterReset rfl))

theorem State.canon.restoreUnits {s : State} (hs : s.canon) : s.restoreUnits.canon :=
  .bootChannels (.foldl (fun _ _ h1 => h1.modUnit) (.foldl (fun _ _ h1 => h1.modUnit) hs))

theorem State.canon.endStage {s : State} (hs : s.canon) : s.endStage.canon := by
  unfold State.endStage
  split
  · exact .ite ⟨Memory.wf_nil, hs.2⟩ hs
  · exact hs.restoreUnits
  · exact hs
  · exact hs
  · exact hs

theorem CanonNext.execBringupStageComplete {s : State} {ok} (hs : s.canon) : CanonNext (execBringupStageComplete ok s) :=
  .next (.ite hs (.ite hs (.endExtest (.same hs.endStage rfl))))

theorem State.canon.setClock {s : State} {h n} (hs : s.canon) : (s.setClock h n).canon := hs.modHearth

theorem State.canon.askClock {s : State} {h f} (hs : s.canon) : (s.askClock h f).canon := hs.modHearth.setClock

theorem CanonNext.execPowerControllerStep {s : State} {watts h} (hs : s.canon) : CanonNext (execPowerControllerStep watts h s) :=
  .next (.ite hs (.ite (.askClock hs) (.ite (.askClock hs) hs)))

/-! ### Machine/Sched -/

theorem State.canon.nextTurn {s : State} (hs : s.canon) : s.nextTurn.2.canon := by
  unfold State.nextTurn
  split
  · exact hs
  · exact hs

theorem State.canon.passBusy {s : State} {dt} (hs : s.canon) : (s.passBusy dt).canon := .ite hs hs

theorem State.canon.passTime {s : State} {dt} (hs : s.canon) : (s.passTime dt).canon := .ite hs (.same hs.passBusy rfl)

theorem State.canon.chosen {s : State} {h l} (hs : s.canon) : (s.chosen h l).canon := hs.modHearth

theorem State.canon.laneTurn {s : State} {h l may} (hs : s.canon) : (s.laneTurn h l may).2.canon := by
  unfold State.laneTurn
  dsimp only
  split
  · exact hs
  · split
    · exact hs.chosen.count
    · split
      · exact .same (s := s.chosen h l) hs.chosen rfl
      · split
        · exact .same (s := s.chosen h l) hs.chosen rfl
        · exact .same (s := s.chosen h l) hs.chosen rfl

theorem State.canon.served {s0 s : State} {h l t} (hs : s.canon) : (s0.served h l t s).canon := by
  unfold State.served
  refine .ite hs.modArea.modHearth ?_
  split
  · exact hs.modArea
  · exact hs.modArea.noteRun.modHearth

/-! ### Every instruction and every step -/

/-- Every instruction keeps the memories canonical. -/
theorem CanonNext.exec {s : State} (hs : s.canon) (i : Instr) : CanonNext (Machine.exec i s) := by
  cases i with
  | nop c => rw [exec_nop]; exact .gate hs (fun _ _ _ h1 => h1.finish)
  | commit c => rw [exec_commit]; exact .gate hs (fun _ _ _ h1 => h1.stopCell)
  | discard c => rw [exec_discard]; exact .gate hs (fun _ _ _ h1 => h1.stopCell)
  | yield c => rw [exec_yield]; exact .gate hs (fun _ _ _ h1 => h1.finish.modHearth)
  | trap c code => rw [exec_trap]; exact .gate hs (fun _ _ _ h1 => h1.raiseWith)
  | brkpt c => exact .execBrkpt hs
  | br c off => rw [exec_br]; exact .gate hs (fun _ _ _ h1 => h1.jump)
  | call c off => rw [exec_call]; exact .gate hs (fun _ _ _ h1 => h1.jump)
  | brx c a => rw [exec_brx]; exact .gate hs (fun _ _ _ h1 => h1.branchReg)
  | retn c a => rw [exec_retn]; exact .gate hs (fun _ _ _ h1 => h1.branchReg)
  | cmp c f d a b => rw [exec_cmp]; exact .gate hs (fun _ _ _ h1 => h1.predOp)
  | fcmp c f d a b => rw [exec_fcmp]; exact .gate hs (fun _ _ _ h1 => h1.predOp)
  | pand c d a b => rw [exec_pand]; exact .gate hs (fun _ _ _ h1 => h1.predOp)
  | por c d a b => rw [exec_por]; exact .gate hs (fun _ _ _ h1 => h1.predOp)
  | pxor c d a b => rw [exec_pxor]; exact .gate hs (fun _ _ _ h1 => h1.predOp)
  | pnot c d a => rw [exec_pnot]; exact .gate hs (fun _ _ _ h1 => h1.predOp)
  | pmov c d a => rw [exec_pmov]; exact .gate hs (fun _ _ _ h1 => h1.predOp)
  | sel c f d a b => rw [exec_sel]; exact .gate hs (fun _ _ _ h1 => h1.wordOp)
  | cmpiEq c d a imm => rw [exec_cmpiEq]; exact .cmpi hs
  | cmpiNe c d a imm => rw [exec_cmpiNe]; exact .cmpi hs
  | cmpiLt c d a imm => rw [exec_cmpiLt]; exact .cmpi hs
  | cmpiLe c d a imm => rw [exec_cmpiLe]; exact .cmpi hs
  | cmpiGt c d a imm => rw [exec_cmpiGt]; exact .cmpi hs
  | cmpiGe c d a imm => rw [exec_cmpiGe]; exact .cmpi hs
  | cmpiLtu c d a imm => rw [exec_cmpiLtu]; exact .cmpi hs
  | cmpiGeu c d a imm => rw [exec_cmpiGeu]; exact .cmpi hs
  | add c d a b => rw [exec_add]; exact .gate hs (fun _ _ _ h1 => h1.alu2)
  | sub c d a b => rw [exec_sub]; exact .gate hs (fun _ _ _ h1 => h1.alu2)
  | mul c d a b => rw [exec_mul]; exact .gate hs (fun _ _ _ h1 => h1.alu2)
  | mulhi c d a b => rw [exec_mulhi]; exact .gate hs (fun _ _ _ h1 => h1.alu2)
  | mulhiu c d a b => rw [exec_mulhiu]; exact .gate hs (fun _ _ _ h1 => h1.alu2)
  | div c d a b => rw [exec_div]; exact .gate hs (fun _ _ _ h1 => h1.alu2)
  | divu c d a b => rw [exec_divu]; exact .gate hs (fun _ _ _ h1 => h1.alu2)
  | rem c d a b => rw [exec_rem]; exact .gate hs (fun _ _ _ h1 => h1.alu2)
  | remu c d a b => rw [exec_remu]; exact .gate hs (fun _ _ _ h1 => h1.alu2)
  | and c d a b => rw [exec_and]; exact .gate hs (fun _ _ _ h1 => h1.alu2)
  | or c d a b => rw [exec_or]; exact .gate hs (fun _ _ _ h1 => h1.alu2)
  | xor c d a b => rw [exec_xor]; exact .gate hs (fun _ _ _ h1 => h1.alu2)
  | shl c d a b => rw [exec_shl]; exact .gate hs (fun _ _ _ h1 => h1.alu2)
  | shr c d a b => rw [exec_shr]; exact .gate hs (fun _ _ _ h1 => h1.alu2)
  | sra c d a b => rw [exec_sra]; exact .gate hs (fun _ _ _ h1 => h1.alu2)
  | rol c d a b => rw [exec_rol]; exact .gate hs (fun _ _ _ h1 => h1.alu2)
  | min c d a b => rw [exec_min]; exact .gate hs (fun _ _ _ h1 => h1.alu2)
  | max c d a b => rw [exec_max]; exact .gate hs (fun _ _ _ h1 => h1.alu2)
  | minu c d a b => rw [exec_minu]; exact .gate hs (fun _ _ _ h1 => h1.alu2)
  | maxu c d a b => rw [exec_maxu]; exact .gate hs (fun _ _ _ h1 => h1.alu2)
  | abs c d a => rw [exec_abs]; exact .gate hs (fun _ _ _ h1 => h1.alu1)
  | neg c d a => rw [exec_neg]; exact .gate hs (fun _ _ _ h1 => h1.alu1)
  | clz c d a => rw [exec_clz]; exact .gate hs (fun _ _ _ h1 => h1.alu1)
  | ctz c d a => rw [exec_ctz]; exact .gate hs (fun _ _ _ h1 => h1.alu1)
  | popc c d a => rw [exec_popc]; exact .gate hs (fun _ _ _ h1 => h1.alu1)
  | sext c f d a => rw [exec_sext]; exact .gate hs (fun _ _ _ h1 => h1.alu1)
  | zext c f d a => rw [exec_zext]; exact .gate hs (fun _ _ _ h1 => h1.alu1)
  | mov c d a => rw [exec_mov]; exact .gate hs (fun _ _ _ h1 => h1.alu1)
  | addi c d a imm => rw [exec_addi]; exact .gate hs (fun _ _ _ h1 => h1.alu1)
  | andi c d a imm => rw [exec_andi]; exact .gate hs (fun _ _ _ h1 => h1.alu1)
  | ori c d a imm => rw [exec_ori]; exact .gate hs (fun _ _ _ h1 => h1.alu1)
  | xori c d a imm => rw [exec_xori]; exact .gate hs (fun _ _ _ h1 => h1.alu1)
  | shli c d a n => rw [exec_shli]; exact .gate hs (fun _ _ _ h1 => h1.alu1)
  | shri c d a n => rw [exec_shri]; exact .gate hs (fun _ _ _ h1 => h1.alu1)
  | srai c d a n => rw [exec_srai]; exact .gate hs (fun _ _ _ h1 => h1.alu1)
  | roli c d a n => rw [exec_roli]; exact .gate hs (fun _ _ _ h1 => h1.alu1)
  | movi c d imm => rw [exec_movi]; exact .gate hs (fun _ _ _ h1 => h1.wordOp)
  | fadd c rnd d a b => rw [exec_fadd]; exact .gate hs (fun _ _ _ h1 => h1.roundOp)
  | fsub c rnd d a b => rw [exec_fsub]; exact .gate hs (fun _ _ _ h1 => h1.roundOp)
  | fmul c rnd d a b => rw [exec_fmul]; exact .gate hs (fun _ _ _ h1 => h1.roundOp)
  | fdiv c rnd d a b => rw [exec_fdiv]; exact .gate hs (fun _ _ _ h1 => h1.roundOp)
  | fsqrt c f d a => rw [exec_fsqrt]; exact .gate hs (fun _ _ _ h1 => h1.roundOp)
  | fmin c d a b => rw [exec_fmin]; exact .gate hs (fun _ _ _ h1 => h1.alu2)
  | fmax c d a b => rw [exec_fmax]; exact .gate hs (fun _ _ _ h1 => h1.alu2)
  | fabs c d a => rw [exec_fabs]; exact .gate hs (fun _ _ _ h1 => h1.alu1)
  | fneg c d a => rw [exec_fneg]; exact .gate hs (fun _ _ _ h1 => h1.alu1)
  | fclass c d a => rw [exec_fclass]; exact .gate hs (fun _ _ _ h1 => h1.alu1)
  | symrd c d => rw [exec_symrd]; exact .gate hs (fun _ _ _ h1 => h1.finish)
  | symkd c d => rw [exec_symkd]; exact .gate hs (fun _ _ _ h1 => h1.finish)
  | mksym c k d a => rw [exec_mksym]; exact .gate hs (fun _ _ _ h1 => h1.alu1)
  | movs c d x => rw [exec_movs]; exact .gate hs (fun _ _ _ h1 => h1.finish)
  | symget c f d a => rw [exec_symget]; exact .gate hs (fun _ _ _ h1 => h1.finish)
  | bcast c d a b => rw [exec_bcast]; exact .collGate hs
  | reduceInt c f d a => rw [exec_reduceInt]; exact .collGate hs
  | reduceFp32 c f d a => rw [exec_reduceFp32]; exact .collGate hs
  | scanInt c f d a => rw [exec_scanInt]; exact .collGate hs
  | scanFp32 c f d a => rw [exec_scanFp32]; exact .collGate hs
  | count c d a => rw [exec_count]; exact .collGate hs
  | first c d a => rw [exec_first]; exact .collGate hs
  | areabar c => rw [exec_areabar]; exact .collGate hs
  | emit c k a => exact .execEmit hs
  | emitn c k a b => exact .execEmitn hs
  | insert c a => exact .execInsert hs
  | delete c => exact .execDelete hs
  | opld c a => rw [exec_opld]; exact .gate hs (fun _ _ _ h1 => .finish (.ite h1 h1.modHearth))
  | movd c d a => rw [exec_movd]; exact .gate hs (fun _ _ _ h1 => h1.descOp)
  | movds c d a => rw [exec_movds]; exact .gate hs (fun _ _ _ h1 => h1.wordOp)
  | dset c f d a => rw [exec_dset]; exact .gate hs (fun _ _ _ h1 => h1.descOp)
  | talloc c d a => rw [exec_talloc]; exact .execTalloc hs
  | tfree c a => exact .execTfree hs
  | qfence c m => exact .execQfence hs
  | qwait c m => exact .execQwait hs
  | slotrel c a b => exact .execSlotrel hs
  | unsubs c a => exact .execUnsubs hs
  | binit c a b => exact .execBinit hs
  | barv c a => exact .execBarv hs
  | bexp c a b => exact .execBexp hs
  | bwait c d a b => exact .execBwait hs
  | btry c d a b => exact .execBtry hs
  | fence c scope ord => exact .execFence hs
  | popset c pri a b => exact .execPopset hs
  | evsend c pri a b => rw [exec_evsend]; exact .gate hs (fun _ _ _ h1 => h1.sendIssue)
  | accrd c pri d a => exact .execAccrd hs
  | accwr c pri a b => exact .execAccwr hs
  | accfl c pri a b => exact .execAccfl hs
  | evwait c a => exact .execEvwait hs
  | caprd c d a => rw [exec_caprd]; exact .gate hs (fun _ _ _ h1 => h1.finish)
  | susrd c d a => rw [exec_susrd]; exact .privGate hs (fun _ _ _ h1 => h1.finish)
  | tretResume c => exact .execTretResume hs
  | tretSkip c => exact .execTretSkip hs
  | tretDiscard c => exact .execTretDiscard hs
  | tretKill c => exact .execTretKill hs
  | areard c d a => exact .execAreard hs
  | areawr c a b => exact .execAreawr hs
  | savec c a => exact .execSavec hs
  | restc c a => exact .execRestc hs
  | tlbinv c a b => exact .execTlbinv hs
  | rdctr c f d a => exact .execRdctr hs
  | mark c a => rw [exec_mark]; exact .privGate hs (fun _ _ _ h1 => h1.journalAdd.finish)
  | hostsig c a b => exact .execHostsig hs
  | brc c f a b off => exact .execBrc hs
  | loop c d off => exact .execLoop hs
  | bext c d a w lo => rw [exec_bext]; exact .gate hs (fun _ _ _ h1 => h1.wordOp)
  | bins c d a w lo => rw [exec_bins]; exact .gate hs (fun _ _ _ h1 => h1.wordOp)
  | ffma c rnd d a b e => rw [exec_ffma]; exact .gate hs (fun _ _ _ h1 => h1.roundOp)
  | fcvt c d a sat rnd dt st => exact .execFcvt hs
  | evsendt c pri a b e => rw [exec_evsendt]; exact .gate hs (fun _ _ _ h1 => h1.sendIssue)
  | csrrd c d num => rw [exec_csrrd]; exact .privGate hs (fun _ _ _ h1 => h1.finish)
  | csrwr c a num => exact .execCsrwr hs
  | ld c d a m => exact .execLd hs
  | st c a b m => exact .execSt hs
  | pref c a m => exact .execPref hs
  | aadd c d a b m => rw [exec_aadd]; exact .gate hs (fun _ _ _ h1 => h1.atomicOp)
  | afadd c d a b m => rw [exec_afadd]; exact .gate hs (fun _ _ _ h1 => h1.atomicOp)
  | amin c d a b m => rw [exec_amin]; exact .gate hs (fun _ _ _ h1 => h1.atomicOp)
  | amax c d a b m => rw [exec_amax]; exact .gate hs (fun _ _ _ h1 => h1.atomicOp)
  | aand c d a b m => rw [exec_aand]; exact .gate hs (fun _ _ _ h1 => h1.atomicOp)
  | aor c d a b m => rw [exec_aor]; exact .gate hs (fun _ _ _ h1 => h1.atomicOp)
  | axor c d a b m => rw [exec_axor]; exact .gate hs (fun _ _ _ h1 => h1.atomicOp)
  | aswp c d a b m => rw [exec_aswp]; exact .gate hs (fun _ _ _ h1 => h1.atomicOp)
  | acas c d a b m => rw [exec_acas]; exact .gate hs (fun _ _ _ h1 => h1.atomicOp)
  | waita c f a b m => exact .execWaita hs
  | cpyin c pri ctr d a b m => rw [exec_cpyin]; exact .gate hs (fun _ _ _ h1 => h1.copyIssue)
  | cpyout c pri ctr d a b m => rw [exec_cpyout]; exact .gate hs (fun _ _ _ h1 => h1.copyIssue)
  | cpyt c pri ctr d a b m => exact .execCpyt hs
  | cpyx c pri ctr d a b m => exact .execCpyx hs
  | gather c pri d a b m => rw [exec_gather]; exact .gate hs (fun _ _ _ h1 => h1.indexedIssue)
  | scatter c pri d a b m => rw [exec_scatter]; exact .gate hs (fun _ _ _ h1 => h1.indexedIssue)
  | scatadd c pri d a b m => exact .execScatadd hs
  | subscr c pri d a b m => exact .execSubscr hs
  | slotwb c pri a b m => exact .execSlotwb hs
  | cadd c a b m => exact .execCadd hs
  | cwait c a b m => exact .execCwait hs
  | tld c pri d a m => exact .execTld hs
  | tst c pri a b m => exact .execTst hs
  | mma c f d a b w => rw [exec_mma]; exact .gate hs (fun _ _ _ h1 => h1.mmaIssue)
  | mmai c f d a b w => rw [exec_mmai]; exact .gate hs (fun _ _ _ h1 => h1.mmaIssue)
  | mmax c f d a b w => rw [exec_mmax]; exact .gate hs (fun _ _ _ h1 => .issue h1 (fun _ h2 => h2))
  | scacc c f d a b w => rw [exec_scacc]; exact .gate hs (fun _ _ _ h1 => .issue h1 (fun _ h2 => h2))
  | ttrn c f d a b w => rw [exec_ttrn]; exact .gate hs (fun _ _ _ h1 => .issue h1 (fun _ h2 => h2))
  | tcvt c f d a b w => rw [exec_tcvt]; exact .gate hs (fun _ _ _ h1 => .issue h1 (fun _ h2 => h2))
  | cxsort c f d a b w => rw [exec_cxsort]; exact .gate hs (fun _ _ _ h1 => .issue h1 (fun _ h2 => h2))
  | cxmerge c f d a b w => rw [exec_cxmerge]; exact .gate hs (fun _ _ _ h1 => .issue h1 (fun _ h2 => h2))
  | tzero c f d a b w => rw [exec_tzero]; exact .gate hs (fun _ _ _ h1 => .issue h1 (fun _ h2 => h2))
  | tfill c f d a b w => rw [exec_tfill]; exact .gate hs (fun _ _ _ h1 => .issue h1 (fun _ h2 => h2))
  | tlay c f d a b w => rw [exec_tlay]; exact .gate hs (fun _ _ _ h1 => h1.vec2)
  | vadd c f d a b w => rw [exec_vadd]; exact .gate hs (fun _ _ _ h1 => h1.vec3)
  | vsub c f d a b w => rw [exec_vsub]; exact .gate hs (fun _ _ _ h1 => h1.vec3)
  | vmul c f d a b w => rw [exec_vmul]; exact .gate hs (fun _ _ _ h1 => h1.vec3)
  | vfma c f d a b w => rw [exec_vfma]; exact .gate hs (fun _ _ _ h1 => h1.vec4)
  | vmin c f d a b w => rw [exec_vmin]; exact .gate hs (fun _ _ _ h1 => h1.vec3)
  | vmax c f d a b w => rw [exec_vmax]; exact .gate hs (fun _ _ _ h1 => h1.vec3)
  | vabs c f d a b w => rw [exec_vabs]; exact .gate hs (fun _ _ _ h1 => h1.vec2)
  | vneg c f d a b w => rw [exec_vneg]; exact .gate hs (fun _ _ _ h1 => h1.vec2)
  | vand c f d a b w => rw [exec_vand]; exact .gate hs (fun _ _ _ h1 => h1.vec3)
  | vor c f d a b w => rw [exec_vor]; exact .gate hs (fun _ _ _ h1 => h1.vec3)
  | vxor c f d a b w => rw [exec_vxor]; exact .gate hs (fun _ _ _ h1 => h1.vec3)
  | vshl c f d a b w => rw [exec_vshl]; exact .gate hs (fun _ _ _ h1 => h1.vec3)
  | vshr c f d a b w => rw [exec_vshr]; exact .gate hs (fun _ _ _ h1 => h1.vec3)
  | vcmp c f d a b w => rw [exec_vcmp]; exact .gate hs (fun _ _ _ h1 => h1.vec3)
  | vsel c f d a b w => rw [exec_vsel]; exact .gate hs (fun _ _ _ h1 => h1.vec4)
  | vcvt c f d a b w => rw [exec_vcvt]; exact .gate hs (fun _ _ _ h1 => .issue h1 (fun _ h2 => h2))
  | vscl c f d a b w => rw [exec_vscl]; exact .gate hs (fun _ _ _ h1 => .issue h1 (fun _ h2 => h2))
  | vclmp c f d a b w => rw [exec_vclmp]; exact .gate hs (fun _ _ _ h1 => .issue h1 (fun _ h2 => h2))
  | vbcr c f d a b w => rw [exec_vbcr]; exact .gate hs (fun _ _ _ h1 => .issue h1 (fun _ h2 => h2))
  | vbcc c f d a b w => rw [exec_vbcc]; exact .gate hs (fun _ _ _ h1 => .issue h1 (fun _ h2 => h2))
  | vrsum c f d a b w => rw [exec_vrsum]; exact .gate hs (fun _ _ _ h1 => h1.sumIssue)
  | vcsum c f d a b w => rw [exec_vcsum]; exact .gate hs (fun _ _ _ h1 => h1.sumIssue)
  | vrr c f d a b w => rw [exec_vrr]; exact .gate hs (fun _ _ _ h1 => .issue h1 (fun _ h2 => h2))
  | vfn c f d a b w => rw [exec_vfn]; exact .gate hs (fun _ _ _ h1 => .issue h1 (fun _ h2 => h2))
  | vtbl c f d a b w => exact .execVtbl hs
  | viota c f d a b w => rw [exec_viota]; exact .gate hs (fun _ _ _ h1 => .issue h1 (fun _ h2 => h2))
  | vperm c f d a b w => rw [exec_vperm]; exact .gate hs (fun _ _ _ h1 => .issue h1 (fun _ h2 => h2))
  | lit c f d lit => rw [exec_lit]; exact .gate hs (fun _ _ _ h1 => h1.wordOp)
  | lith c d lit => rw [exec_lith]; exact .gate hs (fun _ _ _ h1 => h1.wordOp)
  | createContext queue => rw [exec_createContext]; exact .next (.command hs (fun _ _ h1 => .createContext h1))
  | destroyContext queue => rw [exec_destroyContext]; exact .next (.command hs (fun _ _ h1 => .destroyContext h1))
  | loadOperators queue => exact .execLoadOperators hs
  | loadExpr queue => rw [exec_loadExpr]; exact .next (.command hs (fun _ _ h1 => .loadExpr h1))
  | start queue => rw [exec_start]; exact .next (.command hs (fun _ _ h1 => .startContext h1))
  | preempt queue => rw [exec_preempt]; exact .next (.command hs (fun _ _ h1 => .preemptContext h1))
  | resume queue => rw [exec_resume]; exact .next (.command hs (fun _ _ h1 => .resumeContext h1))
  | readExpr queue => rw [exec_readExpr]; exact .next (.command hs (fun _ _ h1 => .readExpr h1))
  | map queue => rw [exec_map]; exact .next (.command hs (fun _ _ h1 => .mapContext h1))
  | unmap queue => rw [exec_unmap]; exact .next (.command hs (fun _ _ h1 => .unmapContext h1))
  | forceLease queue => rw [exec_forceLease]; exact .next (.command hs (fun _ _ h1 => .forceLease h1))
  | injectFault queue => rw [exec_injectFault]; exact .next (.command hs (fun _ _ h1 => .injectFault h1))
  | partition queue => exact .execPartition hs
  | queryCapacity queue => rw [exec_queryCapacity]; exact .next (.command hs (fun _ _ h1 => .queryCapacity h1))
  | readRetirements queue => rw [exec_readRetirements]; exact .next (.command hs (fun _ _ h1 => .readRetirements h1))
  | attest queue => rw [exec_attest]; exact .next (.command hs (fun _ _ h1 => .attest h1))
  | readJournal queue => rw [exec_readJournal]; exact .next (.command hs (fun _ _ h1 => .readJournal h1))
  | qnotify agent queue tail => rw [exec_qnotify]; exact .next (.ite hs (.ite hs.putTail hs.modHostq.putHeader))
  | resetRegisterWrite v => rw [exec_resetRegisterWrite]; exact .next (.ite hs.warmReset hs)
  | registerWrite agent r v => exact .execRegisterWrite hs
  | i3cDynamicAddress addr => rw [exec_i3cDynamicAddress]; exact .next (.ite hs hs)
  | bypass => rw [exec_bypass]; exact .next hs
  | idcode => rw [exec_idcode]; exact .next hs
  | samplePreload => rw [exec_samplePreload]; exact .next hs
  | extest => rw [exec_extest]; exact .next hs
  | powerUp => exact .execPowerUp hs
  | resetInput held => exact .execResetInput hs
  | bringupStageComplete ok => exact .execBringupStageComplete hs
  | thermalTrip => rw [exec_thermalTrip]; exact .next hs.unpowered
  | coolantOutOfRange => rw [exec_coolantOutOfRange]; exact .next hs
  | hearthOver110c hid => rw [exec_hearthOver110c]; exact .next (.ite hs hs.modUnit.beginLease)
  | thermalClearance hid => exact .execThermalClearance hs
  | junctionClockStep hid => rw [exec_junctionClockStep]; exact .next (.ite hs.askClock hs)
  | powerControllerStep watts hid => exact .execPowerControllerStep hs
  | linkRetune unit => rw [exec_linkRetune]; exact .next hs
  | emberSpillAdjust hid point => rw [exec_emberSpillAdjust]; exact .next (.ite hs.modHearth hs)
  | sweep die => exact .execSweep hs
  | microprogramFetchComplete hid => exact .execMicroprogramFetchComplete hs
  | opldRequestExpiry hid ctx op => rw [exec_opldRequestExpiry]; exact .next hs.modHearth
  | votedPlacementTimeout uid => exact .execVotedPlacementTimeout hs
  | hang ctx => exact .execHang hs
  | watchdog uid => exact .execWatchdog hs
  | collectiveComplete uid => exact .execCollectiveComplete hs
  | supervisorInvocationStart hid => exact .execSupervisorInvocationStart hs
  | preemptionEffect ctx => exact .execPreemptionEffect hs
  | saveOperatorStart ctx => exact .execSaveOperatorStart hs
  | dumpWrite => exact .execDumpWrite hs
  | engineCommandStart hid queue => exact .execEngineCommandStart hs
  | engineCommandComplete id => exact .execEngineCommandComplete hs
  | copyPartLanded id n => exact .execCopyPartLanded hs
  | counterSignal id => exact .execCounterSignal hs
  | freedSlotNotice id => exact .execFreedSlotNotice hs
  | sliceAccess r err => exact .execSliceAccess hs
  | storeAcknowledged uid cix op => exact .execStoreAcknowledged hs
  | loadReply uid cix op => exact .execLoadReply hs
  | waitaPeriodicRead uid cix => exact .execWaitaPeriodicRead hs
  | stagingLineTimeout channel line err => rw [exec_stagingLineTimeout]; exact .next (.ite hs.modSlice.readChannel hs)
  | pageWalkComplete id => exact .execPageWalkComplete hs
  | routerPacketAging id => rw [exec_routerPacketAging]; exact .next hs
  | scrubLineRead line err => exact .execScrubLineRead hs
  | scoreHalving => rw [exec_scoreHalving]; exact .next (.ite hs.halve hs)
  | eventArrival id => exact .execEventArrival hs
  | eventDelivery hid => exact .execEventDelivery hs
  | tileMigrationComplete ctx handle => exact .execTileMigrationComplete hs
  | granuleMigration stack => exact .execGranuleMigration hs
  | leaseRotaTurn unit => rw [exec_leaseRotaTurn]; exact .next (.ite hs (.ite (.takeTurn hs) (.ite hs.takeTurn hs)))
  | leaseRetryTimer unit => rw [exec_leaseRetryTimer]; exact .next (.ite hs.takeTurn hs)
  | evacuationComplete hid => rw [exec_evacuationComplete]; exact .next (.ite hs (.startDue (.startAreas (.endEvac hs))))
  | portDrainComplete unit => rw [exec_portDrainComplete]; exact .next (.ite hs hs)
  | portTrafficReturn unit => rw [exec_portTrafficReturn]; exact .next (.ite hs hs)
  | leaseTestComplete unit run => exact .execLeaseTestComplete hs
  | capacityCounterSignal ctx => exact .execCapacityCounterSignal hs
  | queueSlotIdleUnmap queue => rw [exec_queueSlotIdleUnmap]; exact .next (.ite hs.modHostq hs)
  | queueMap queue => rw [exec_queueMap]; exact .next (.ite (.putHeader (.putTail (.modHostq hs))) hs)
  | hostPostedWrite req => exact .execHostPostedWrite hs
  | hostRead req => exact .execHostRead hs
  | hostAtomic req => exact .execHostAtomic hs
  | remoteWrite job va bytes => exact .execRemoteWrite hs
  | remoteCounterAdd job va amount => exact .execRemoteCounterAdd hs
  | remoteAcknowledgement id ok => exact .execRemoteAcknowledgement hs
  | encodingNotInstruction why => exact .execEncodingNotInstruction hs
  | unassignedCommandOpcode queue => rw [exec_unassignedCommandOpcode]; exact .next (.command hs (fun _ _ h1 => .done h1))
  | combiningFormApplied uid => exact .execCombiningFormApplied hs
  | linkRetry unit => rw [exec_linkRetry]; exact .next (.ite hs.score hs)
  | lossOfPower => rw [exec_lossOfPower]; exact .next hs.unpowered
  | orderlyShutdown => rw [exec_orderlyShutdown]; exact .next hs
  | earlyLeaseHoldoffExpiry unit => rw [exec_earlyLeaseHoldoffExpiry]; exact .next hs.modUnit
  | inletTemperatureChange degrees inRange => rw [exec_inletTemperatureChange]; exact .next hs

/-- Every step keeps the memories canonical. -/
theorem CanonNext.step {s : State} (hs : s.canon) : CanonNext (Machine.step s) := by
  unfold Machine.step
  have hp : (s.nextTurn.2.passTime s.nextTurn.1.dt).canon := State.canon.passTime (State.canon.nextTurn hs)
  generalize s.nextTurn = p at hp ⊢
  obtain ⟨t, u⟩ := p
  dsimp only at hp ⊢
  generalize u.passTime t.dt = v at hp ⊢
  split
  case h_1 i _ => exact .ite (CanonNext.exec hp i) (.next hp)
  case h_2 => exact .next hp.upset
  case h_3 => exact .next hp.route
  case h_4 => exact .next hp.hostAsk
  case h_5 h l may _ =>
    split
    case h_1 e => exact .next (State.canon.of_snd hp.laneTurn e)
    case h_2 n i w e =>
      have hw : w.canon := State.canon.of_snd hp.laneTurn e
      split
      case h_1 x ex => exact .next (State.canon.served (CanonNext.exec hw i x ex))
      case h_2 => exact .fault
      case h_3 => exact .refused

/-- Settles O7: every function of the model keeps the canonical form, so every turn of a step does. -/
theorem memoriesStayCanonical : Obligations.MemoriesStayCanonical := fun _ t hs ht => CanonNext.step hs t ht

end Sys2Proof.Machine
end

section
namespace Sys2Proof.Machine

/-! ## Accesses of a cell: what they leave alone (R208–R212) -/

/-- The memories and the tables of a state that an access of a cell leaves alone, but for the bytes it writes. -/
def State.kept (s : State) : Tab Byte × Tab Byte × Tab Byte × Tab Sym × Tab Slot × Tab (List Cmd) × Tab Ctx :=
  (s.mem, s.hostMem, s.tile, s.row, s.slots, s.queues, s.ctxs)

/-- The tables among them. -/
def State.keptTables (s : State) : Tab Sym × Tab Slot × Tab (List Cmd) × Tab Ctx := (s.row, s.slots, s.queues, s.ctxs)

theorem State.keptTables_of_kept {s t : State} (h : t.kept = s.kept) : t.keptTables = s.keptTables := congrArg (·.2.2.2) h

/-- What every step of a fold leaves alone the fold leaves alone. -/
theorem State.foldl_keeps {α β : Type} {g : State → β} {f : State → α → State} (hf : ∀ s x, g (f s x) = g s) (l : List α)
    (s : State) : g (l.foldl f s) = g s := by
  induction l generalizing s with
  | nil => rfl
  | cons x r ih => rw [List.foldl_cons, ih, hf]

@[simp] theorem State.modCell_kept (s : State) (u i : Nat) (f : Cell → Cell) : (s.modCell u i f).kept = s.kept := rfl
@[simp] theorem State.finish_kept (s : State) (c : Cell) (n : Nat) (f : Cell → Cell) : (s.finish c n f).kept = s.kept := rfl
@[simp] theorem State.fresh_kept (s : State) : s.fresh.kept = s.kept := rfl
@[simp] theorem State.setDone_kept (s : State) (u i id : Nat) (v : Word × Bool) : (s.setDone u i id v).kept = s.kept := rfl
@[simp] theorem State.send_kept (s : State) (cls src dst : Nat) (b : Body) : (s.send cls src dst b).kept = s.kept := rfl
@[simp] theorem State.dropMsgs_kept (s : State) (p : Body → Bool) : (s.dropMsgs p).kept = s.kept := rfl
@[simp] theorem State.count_kept (s : State) (h sel n : Nat) : (s.count h sel n).kept = s.kept := rfl
@[simp] theorem State.l1Put_kept (s : State) (h : Nat) (y : L1Line) : (s.l1Put h y).kept = s.kept := rfl

@[simp] theorem State.request_kept (s : State) (u i h : Nat) (o : MemOp) : (s.request u i h o).kept = s.kept := by
  unfold State.request
  split <;> rfl

@[simp] theorem State.meet_kept (s : State) (h t : Nat) : (s.meet h t).kept = s.kept := by
  unfold State.meet
  split <;> rfl

@[simp] theorem State.wroteLine_kept (s : State) (h line : Nat) : (s.wroteLine h line).kept = s.kept := State.meet_kept _ h _

@[simp] theorem State.l1Drop_kept (s : State) (h line : Nat) : (s.l1Drop h line).kept = s.kept := by
  unfold State.l1Drop
  split <;> rfl

@[simp] theorem State.wroteLines_kept (s : State) (h : Nat) (ls : List Nat) : (s.wroteLines h ls).kept = s.kept :=
  State.foldl_keeps (fun s x => by simp) ls s

@[simp] theorem State.acquire_kept (s : State) (rs : List Release) (scope : BitVec 3) (h u i : Nat) :
    (s.acquire rs scope h u i).kept = s.kept :=
  State.foldl_keeps (fun s x => by split <;> simp) rs s

@[simp] theorem State.metReleases_kept (s : State) (rs : List Release) (acq : Bool) (scope : BitVec 3) (h u i : Nat) :
    (s.metReleases rs acq scope h u i).kept = s.kept := by
  unfold State.metReleases
  split
  · rfl
  · split <;> simp

@[simp] theorem State.release_kept (s : State) (l : Loc) (rs : List Release) : (s.release_ l rs).kept = s.kept := by
  unfold State.release_
  dsimp only
  split <;> rfl

@[simp] theorem State.tagPage_kept (s : State) (t : Trans) : (s.tagPage t).kept = s.kept := by
  unfold State.tagPage
  split
  · rfl
  · extract_lets page n
    split <;> rfl

@[simp] theorem State.fillTlb_kept (s : State) (h : Nat) (t : Trans) : (s.fillTlb h t).kept = s.kept := State.tagPage_kept s t

@[simp] theorem State.noteTrans_kept (s : State) (hid : Nat) (t : Option Trans) : (s.noteTrans hid t).kept = s.kept := by
  unfold State.noteTrans
  split
  · rfl
  · split
    · rfl
    · simp

@[simp] theorem State.lookUp_kept (s : State) (u i n : Nat) : (s.lookUp u i n).kept = s.kept := by
  induction n generalizing s with
  | zero => rfl
  | succ n ih =>
    rw [State.lookUp]
    split
    · rfl
    · split
      · rfl
      · split
        · split
          · simp [ih, State.l1Hit]
          · simp
        · rfl

/-- A channel that is read without errors changes nothing. -/
@[simp] theorem State.readChannel_clean (s : State) (ch line : Nat) : s.readChannel ch line 0 = s := by
  simp [State.readChannel]

/-- An access without errors changes its slice and the counters of its hearth alone, and without a hearth no counter either. -/
theorem State.touchBy_clean (s : State) (pa : Nat) (req : Option Nat) (prio : Nat) (w : Option (BitVec 64)) :
    ∃ sl hs, s.touchBy pa req prio w 0 = { s with slices := sl, hearths := hs } ∧ (req = none → hs = s.hearths) := by
  unfold State.touchBy
  split
  · exact ⟨s.slices, s.hearths, rfl, fun _ => rfl⟩
  · dsimp only
    simp only [State.readChannel_clean]
    cases req with
    | none => split <;> exact ⟨_, s.hearths, rfl, fun _ => rfl⟩
    | some r =>
      dsimp only
      split <;> split <;> exact ⟨_, _, rfl, fun h => nomatch h⟩

@[simp] theorem State.touch_kept (s : State) (pa req prio : Nat) (w : Option (BitVec 64)) : (s.touch pa req prio w 0).kept = s.kept := by
  obtain ⟨sl, hs, e, -⟩ := State.touchBy_clean s pa (some req) prio w
  rw [State.touch, e]
  rfl

/-! ### What a write at a location leaves alone -/

theorem length_aesEnc_le (rk : List (List Byte)) (b : List Byte) : (aesEnc rk b).length ≤ 16 := by
  simp [aesEnc, xorBytes, shiftRows]

@[simp] theorem length_xtsDouble (t : List Byte) : (xtsDouble t).length = 16 := by
  simp [xtsDouble]

/-- A fold that appends at most 16 bytes a time, as long as what it carries on holds 16. -/
theorem length_foldl_blocks_le {f : List Byte × List Byte → Nat → List Byte × List Byte}
    (hf : ∀ p i, p.2.length ≤ 16 → (f p i).1.length ≤ p.1.length + 16 ∧ (f p i).2.length ≤ 16) (l : List Nat)
    (p : List Byte × List Byte) (hp : p.2.length ≤ 16) : (l.foldl f p).1.length ≤ p.1.length + 16 * l.length := by
  induction l generalizing p with
  | nil => simp
  | cons i r ih =>
    obtain ⟨h1, h2⟩ := hf p i hp
    have := ih _ h2
    rw [List.foldl_cons, List.length_cons]
    omega

theorem length_xtsLine_le (enc : Bool) (slot : BitVec 768) (line : Nat) (bs : List Byte) : (xtsLine enc slot line bs).length ≤ 64 := by
  have ht := length_aesEnc_le (aesKeys (keyBytes slot 32 32)) (leBytes 16 line)
  unfold xtsLine
  extract_lets k1 t0
  change t0.length ≤ 16 at ht
  clear_value k1 t0
  refine le_of_le_of_eq (length_foldl_blocks_le ?_ (List.range 4) ([], t0) ht) (by simp)
  intro p i hp
  refine ⟨?_, by simp⟩
  simp only [List.length_append, xorBytes, List.length_zipWith]
  omega

@[simp] theorem State.stampLine_mem (s : State) (line : Nat) : (s.stampLine line).mem = s.mem := rfl

/-- On a page that is not encrypted a write of a line changes the bytes themselves. -/
theorem State.writeLine_plain_mem (s : State) (pa : Nat) (bs : List Byte) : (s.writeLine pa none bs).mem = writeTab s.mem pa bs := rfl

/-- On an encrypted page a write of a line writes the line afresh. -/
theorem State.writeLine_encrypted_mem (s : State) (pa k : Nat) (bs : List Byte) :
    ∃ new : List Byte, new.length ≤ 64 ∧ (s.writeLine pa (some k) bs).mem = writeTab s.mem (64 * (pa / 64)) new := by
  unfold State.writeLine
  dsimp only
  rw [State.stampLine_mem]
  refine ⟨_, ?_, rfl⟩
  exact length_xtsLine_le _ _ _ _

/-- The bytes that a write of `n` bytes at a device address leaves alone: those beside them, and on an encrypted page those of
other lines. -/
def besideDev (pa : Nat) (key : Option Nat) (n x : Nat) : Prop :=
  match key with
  | none => x < pa ∨ pa + n ≤ x
  | some _ => x / 64 < pa / 64 ∨ (pa + n - 1) / 64 < x / 64

theorem State.writeLine_out (s : State) (pa : Nat) (key : Option Nat) (bs : List Byte) (hb : bs ≠ []) (x : Nat)
    (hx : besideDev pa key bs.length x) : (s.writeLine pa key bs).mem.get 0 x = s.mem.get 0 x := by
  have hn := List.length_pos_of_ne_nil hb
  cases key with
  | none => rw [State.writeLine_plain_mem]; exact writeTab_get_out _ _ _ _ hx
  | some k =>
    obtain ⟨new, hl, e⟩ := State.writeLine_encrypted_mem s pa k bs
    rw [e, writeTab_get_out]
    simp only [besideDev] at hx
    omega

theorem State.writeDev_out (n : Nat) (s : State) (pa : Nat) (key : Option Nat) (psn : Bool) (bs : List Byte) (x : Nat)
    (hx : besideDev pa key bs.length x) : (s.writeDev pa key psn n bs).mem.get 0 x = s.mem.get 0 x := by
  induction n generalizing s pa bs with
  | zero => cases bs <;> rfl
  | succ n ih =>
    cases bs with
    | nil => rfl
    | cons b r =>
      have hl : (s.writeLine pa key ((b :: r).take (64 - pa % 64))).mem.get 0 x = s.mem.get 0 x := by
        refine State.writeLine_out _ _ _ _ (by simp; omega) _ ?_
        cases key <;> simp only [besideDev, List.length_take, List.length_cons] at hx ⊢ <;> omega
      rw [State.writeDev]
      by_cases hd : (b :: r).drop (64 - pa % 64) = []
      · have hnil : ∀ (z : State) (a : Nat), z.writeDev a key psn n [] = z := fun z a => by cases n <;> rfl
        rw [hd, hnil]
        split
        · exact hl
        · split <;> exact hl
      · rw [ih]
        · split
          · exact hl
          · split <;> exact hl
        · have := List.length_pos_of_ne_nil hd
          cases key <;> simp only [besideDev, List.length_drop, List.length_cons] at hx this ⊢ <;> omega

theorem State.writeLine_kept (s : State) (pa : Nat) (key : Option Nat) (bs : List Byte) :
    (s.writeLine pa key bs).kept.2 = s.kept.2 := by
  cases key with
  | none => rfl
  | some k => simp only [State.writeLine, State.stampLine, State.kept]

theorem State.writeDev_kept (n : Nat) (s : State) (pa : Nat) (key : Option Nat) (psn : Bool) (bs : List Byte) :
    (s.writeDev pa key psn n bs).kept.2 = s.kept.2 := by
  induction n generalizing s pa bs with
  | zero => cases bs <;> rfl
  | succ n ih =>
    cases bs with
    | nil => rfl
    | cons b r =>
      have hl := State.writeLine_kept s pa key ((b :: r).take (64 - pa % 64))
      rw [State.writeDev, ih]
      split
      · exact hl
      · split <;> exact hl

theorem State.writeTileCell_kept (s : State) (a : Nat) (bs : List Byte) (psn : Bool) :
    (s.writeTileCell a bs psn).kept = ({ s with tile := writeTab s.tile a bs } : State).kept := by
  unfold State.writeTileCell
  dsimp only
  split
  · rfl
  · split <;> rfl

/-- What a write leaves alone is a matter of the memories alone. -/
theorem otherBytes_of_kept {s t s' t' : State} {l : Loc} {w : Nat} (hs : s'.kept = s.kept) (ht : t'.kept = t.kept)
    (h : Claims.otherBytes s t l w) : Claims.otherBytes s' t' l w := by
  simp only [State.kept, Prod.mk.injEq] at hs ht
  obtain ⟨hm, hh, hl, -⟩ := hs
  obtain ⟨tm, th, tl, -⟩ := ht
  simpa only [Claims.otherBytes, hm, hh, hl, tm, th, tl] using h

/-- A write at a location changes its bytes alone. -/
theorem State.writeLoc_otherBytes (s : State) (l : Loc) (bs : List Byte) (p : Bool) :
    Claims.otherBytes s (s.writeLoc l bs p) l bs.length := by
  cases l with
  | dev pa key =>
    have hk := State.writeDev_kept (bs.length + 1) s pa key p bs
    simp only [State.kept, Prod.mk.injEq] at hk
    obtain ⟨hh, ht, -⟩ := hk
    refine ⟨fun x hx => State.writeDev_out _ _ _ _ _ _ _ ?_, fun x _ => congrArg (·.get 0 x) hh, fun x _ => congrArg (·.get 0 x) ht⟩
    cases key <;> exact hx
  | host ha => exact ⟨fun _ _ => rfl, fun x hx => writeTab_get_out _ _ _ _ hx, fun _ _ => rfl⟩
  | tile key off a =>
    have hk := State.writeTileCell_kept s a bs p
    simp only [State.kept, Prod.mk.injEq] at hk
    obtain ⟨hm, hh, ht, -⟩ := hk
    refine ⟨fun x _ => congrArg (·.get 0 x) hm, fun x _ => congrArg (·.get 0 x) hh, fun x hx => ?_⟩
    exact (congrArg (·.get 0 x) ht).trans (writeTab_get_out _ _ _ _ hx)

theorem State.writeLoc_keptTables (s : State) (l : Loc) (bs : List Byte) (p : Bool) : (s.writeLoc l bs p).keptTables = s.keptTables := by
  cases l with
  | dev pa key => exact congrArg (·.2.2) (State.writeDev_kept (bs.length + 1) s pa key p bs)
  | host ha => rfl
  | tile key off a => exact congrArg (·.2.2.2) (State.writeTileCell_kept s a bs p)

/-- A state that differs in what accesses keep by one write alone. -/
theorem frame_of_write {s z t : State} {l : Loc} {bs : List Byte} {p : Bool} (hz : z.kept = s.kept)
    (ht : t.kept = (z.writeLoc l bs p).kept) : Claims.otherBytes s t l bs.length ∧ t.keptTables = s.keptTables :=
  ⟨otherBytes_of_kept hz.symm ht (State.writeLoc_otherBytes z l bs p), (State.keptTables_of_kept ht).trans
    ((State.writeLoc_keptTables z l bs p).trans (State.keptTables_of_kept hz))⟩

theorem frame_of_kept {s t : State} {l : Loc} {w : Nat} (h : t.kept = s.kept) :
    Claims.otherBytes s t l w ∧ t.keptTables = s.keptTables :=
  ⟨otherBytes_of_kept rfl h ⟨fun _ _ => rfl, fun _ _ => rfl, fun _ _ => rfl⟩, State.keptTables_of_kept h⟩

/-! ### The store -/

/-- A store performed at its home changes the memories as its write does. -/
theorem State.perform1_store_kept (s : State) (u i h : Nat) (o : MemOp) (hk : o.kind = .store) :
    (s.perform1 u i h o).2.kept = (s.writeLoc o.home (leBytes o.width o.x.toNat) o.xp).kept := by
  simp only [State.perform1, hk]
  split <;> split <;> simp

/-- A store that leaves for device memory changes no byte. -/
theorem State.post_store_dev (s : State) (k : Cell) (o : MemOp) (hk : o.kind = .store) (pa : Nat) (key : Option Nat)
    (hd : o.home = .dev pa key) : (s.post k o).kept = s.kept := by
  simp [State.post, hd, hk]

/-- Any other store is performed at once (R212). -/
theorem State.post_store_local (s : State) (k : Cell) (o : MemOp) (hk : o.kind = .store) (hd : ∀ pa key, o.home ≠ .dev pa key) :
    ∃ z : State, z.kept = s.kept ∧ (s.post k o).kept = (z.writeLoc o.home (leBytes o.width o.x.toNat) o.xp).kept := by
  refine ⟨s.fresh.finish k 2 (fun k => { k with ops := k.ops ++ [o] }), rfl, ?_⟩
  rw [← State.perform1_store_kept _ s.cur.1 s.cur.2 k.hid o hk]
  unfold State.post
  cases h : o.home with
  | dev pa key => exact absurd h (hd pa key)
  | host ha => rfl
  | tile key off a => rfl

/-- A store changes its bytes alone, and those of device memory not before its home is served. -/
theorem State.post_store_frame (s : State) (k : Cell) (o : MemOp) (hk : o.kind = .store) :
    Claims.otherBytes s (s.post k o) o.home o.width ∧ (s.post k o).keptTables = s.keptTables := by
  by_cases hd : ∃ pa key, o.home = .dev pa key
  · obtain ⟨pa, key, hd⟩ := hd
    exact frame_of_kept (State.post_store_dev s k o hk pa key hd)
  · obtain ⟨z, hz, h⟩ := State.post_store_local s k o hk (fun pa key e => hd ⟨pa, key, e⟩)
    simpa using frame_of_write hz h

theorem bits_zero (x n : Nat) : bits x 0 n = x % 2 ^ n := by
  rw [bits, Nat.pow_zero, Nat.div_one]

/-- The home that an access of R208 goes to is what its checks find. -/
theorem State.resolve_home {s : State} {u ctx hid w : Nat} {a : Word} {need : Need} {l : Loc} {t : Option Trans}
    (h : Claims.home s u ctx hid a w need l t) : s.resolve u ctx hid a w need = .loc l t := by
  obtain ⟨ha, h | h⟩ := h
  · obtain ⟨hw, rfl, key, x, hx, hm, rfl, hb, hn, rfl⟩ := h
    have htag : (need ≠ .read && x.meetsTag (a.toNat % 2 ^ 16) w) = false := by
      rcases hn with hn | hn
      · rw [hn]; rfl
      · rw [hn, Bool.and_false]
    have hfit : ¬x.size < a.toNat % 2 ^ 16 + w := by rw [Slot.size]; omega
    simp only [State.resolve, bits_zero, show bits a.toNat 16 20 = a.toNat / 2 ^ 16 % 2 ^ 20 from rfl]
    rw [if_neg (not_not.mpr ha), if_pos hw, hx]
    dsimp only
    rw [if_neg (by simp [hm]), if_neg (by simp), if_neg hfit, if_neg (by rw [htag]; exact Bool.false_ne_true), if_neg (by simp)]
  · obtain ⟨hw, hc, x, rfl, hx, hn, rfl⟩ := h
    simp only [State.resolve, bits_zero]
    rw [if_neg (not_not.mpr ha), if_neg (by simp [hw]), if_neg (by simp [hc]), hx]
    exact if_pos hn

theorem settled_of_behind {k : Cell} (h : Claims.behind k) : k.settled = true := by
  simp only [Cell.settled, List.all_eq_true, Bool.or_eq_true, decide_eq_true_eq]
  intro o ho
  exact (h o ho).imp (fun hd => by cases hx : o.done <;> simp_all) id

/-- An access that is free to go goes on with its body. -/
theorem State.access_goes {s : State} {ar : Area} {k : Cell} {a : SReg} {m : MWord} {w : Nat} {need : Need} {l : Loc} {t : Option Trans}
    (body : Loc → Option Trans → State → State) (h : Claims.goes s ar k a m w need l t) :
    s.access ar k a m w need body = body l t (s.noteTrans k.hid t) := by
  obtain ⟨hp, hn, hb, hh⟩ := h
  have hfree : decide (16 ≤ k.ops.length) = false := decide_eq_false (by omega)
  rw [State.access, State.consume_clean hp, State.resolve_home hh]
  cases l with
  | dev pa key => simp [hfree]
  | host ha =>
    cases hr : isRel m
    · simp [hfree]
    · have := settled_of_behind (hb (.inr ⟨⟨ha, rfl⟩, hr⟩))
      simp [hfree, this]
  | tile key off p =>
    have := settled_of_behind (hb (.inl ⟨key, off, p, rfl⟩))
    simp [hfree, this]

/-- ST outside a voted area, with an unpoisoned source, leaves as the operation that it posts (R210). -/
theorem exec_st_goes {s : State} {ar : Area} {k : Cell} {c : Cond} {a b : SReg} {m : MWord} {l : Loc} {t : Option Trans}
    (hi : s.issues c [a, b] ar k) (hv : ar.isVoted = false) (hb : k.spsn b = false)
    (hg : Claims.goes s ar k a m (accWidth m.type) .write l t) :
    exec (.st c a b m) s = .next ((s.noteTrans k.hid t).post k
      ((s.noteTrans k.hid t).newOp .store (.st c a b m) m k (k.addr a m) l t 0 b)) := by
  rw [exec_st, execSt, State.gate_issues 2 _ hi, State.access_goes _ hg, hv, hb]
  cases l <;> rfl

/-- The first operation of a cell that is not performed is the next one that its home serves. -/
theorem State.nextOp_first {s : State} {u i : Nat} {k : Cell} {o : MemOp} (hk : Claims.cellIn s u i = some k) (ho : Claims.first k o) :
    s.nextOp u i = some (k.hid, o) := by
  obtain ⟨pre, post, e, hpre, hd, hn⟩ := ho
  have hfind : k.ops.find? (fun o => o.done.isNone && o.kind ≠ .pref) = some o := by
    rw [e, List.find?_append, List.find?_eq_none.mpr, Option.none_or, List.find?_cons_of_pos]
    · simp [hd, hn]
    · intro x hx
      rcases hpre x hx with h | h
      · simp [h]
      · simp [h]
  rw [State.nextOp, show (s.area u).bind (fun a => a.cells.find i) = some k from hk, Option.bind_some, hfind]
  rfl

/-- A home that serves a store without errors in its line changes the store's bytes alone. -/
theorem State.serve_store_frame (s : State) (u i h : Nat) (o : MemOp) (hk : o.kind = .store) :
    Claims.otherBytes s (s.serve u i h o 0) o.home o.width ∧ (s.serve u i h o 0).keptTables = s.keptTables := by
  have hw : ∃ z : State, z.kept = s.kept ∧ (s.serve u i h o 0).kept = (z.perform1 u i h o).2.kept := by
    unfold State.serve
    cases o.home with
    | dev pa key => exact ⟨s.touch pa h o.m.evict.toNat (o.bytes pa) 0, State.touch_kept _ _ _ _ _, by simp⟩
    | host ha => exact ⟨s, rfl, by simp⟩
    | tile key off p => exact ⟨s, rfl, by simp⟩
  obtain ⟨z, hz, h⟩ := hw
  simpa using frame_of_write hz (h.trans (State.perform1_store_kept z u i _ o hk))

/-- A step of a home for a store of a cell changes the store's bytes alone. -/
theorem sliceAccess_store_frame {s t : State} {u i : Nat} {k : Cell} {o : MemOp} (hc : Claims.cellIn s u i = some k)
    (hf : Claims.first k o) (hk : o.kind = .store) (hx : exec (.sliceAccess (.cell u i) 0) s = .next t) :
    Claims.otherBytes s t o.home o.width ∧ t.keptTables = s.keptTables := by
  rw [exec_sliceAccess, execSliceAccess, State.nextOp_first hc hf] at hx
  obtain rfl := Host.Outcome.next.inj hx
  dsimp only
  split
  · obtain ⟨hby, htab⟩ := State.serve_store_frame (s.dropMsgs (fun x => x = .request u i o.id)) u i k.hid o hk
    have hl := State.lookUp_kept ((s.dropMsgs (fun x => x = .request u i o.id)).serve u i k.hid o 0) u i 16
    exact ⟨otherBytes_of_kept (State.dropMsgs_kept s _).symm hl hby, (State.keptTables_of_kept hl).trans htab⟩
  · exact frame_of_kept rfl

theorem storeFrame : Claims.StoreFrame := by
  intro s t
  refine ⟨fun ar k c a b m l tr hi hv hb _ hg hx => ?_, fun u i k o pa key hc hf hk _ _ hx => ?_⟩
  · rw [exec_st_goes hi hv hb hg] at hx
    obtain rfl := Host.Outcome.next.inj hx
    have hn := State.noteTrans_kept s k.hid tr
    obtain ⟨hby, htab⟩ := State.post_store_frame (s.noteTrans k.hid tr) k
      ((s.noteTrans k.hid tr).newOp .store (.st c a b m) m k (k.addr a m) l tr 0 b) rfl
    have htab := htab.trans (State.keptTables_of_kept hn)
    simp only [State.keptTables, Prod.mk.injEq] at htab
    refine ⟨otherBytes_of_kept hn.symm rfl hby, ?_, htab⟩
    rintro ⟨pa, key, rfl⟩
    have hd := (State.post_store_dev (s.noteTrans k.hid tr) k
      ((s.noteTrans k.hid tr).newOp .store (.st c a b m) m k (k.addr a m) (.dev pa key) tr 0 b) rfl pa key rfl).trans hn
    simp only [State.kept, Prod.mk.injEq] at hd
    exact ⟨hd.1, hd.2.2.1, hd.2.1⟩
  · obtain ⟨hby, htab⟩ := sliceAccess_store_frame hc hf hk hx
    simp only [State.keptTables, Prod.mk.injEq] at htab
    exact ⟨hby, htab⟩

/-! ### A read behind a write -/

theorem writeTab_append (t : Tab Byte) (a : Nat) (xs ys : List Byte) :
    writeTab t a (xs ++ ys) = writeTab (writeTab t a xs) (a + xs.length) ys := by
  induction xs generalizing t a with
  | nil => rfl
  | cons x r ih => rw [List.cons_append, writeTab, writeTab, ih, List.length_cons, Nat.add_assoc, Nat.add_comm 1]

/-- Line by line, a write on a page that is not encrypted writes its bytes. -/
theorem State.writeDev_plain_mem (n : Nat) (s : State) (pa : Nat) (psn : Bool) (bs : List Byte) (h : bs.length < n) :
    (s.writeDev pa none psn n bs).mem = writeTab s.mem pa bs := by
  induction n generalizing s pa bs with
  | zero => omega
  | succ n ih =>
    cases bs with
    | nil => rfl
    | cons b r =>
      have hmem : ∀ z : State, z.mem = (s.writeLine pa none ((b :: r).take (64 - pa % 64))).mem →
          (z.writeDev (pa + (64 - pa % 64)) none psn n ((b :: r).drop (64 - pa % 64))).mem = writeTab s.mem pa (b :: r) := by
        intro z hz
        rw [ih _ _ _ (by simp only [List.length_drop, List.length_cons] at h ⊢; omega), hz, State.writeLine_plain_mem]
        by_cases hd : (b :: r).length ≤ 64 - pa % 64
        · rw [List.take_of_length_le hd, List.drop_of_length_le hd]; rfl
        · have hlen : ((b :: r).take (64 - pa % 64)).length = 64 - pa % 64 := by rw [List.length_take]; omega
          conv_rhs => rw [← List.take_append_drop (64 - pa % 64) (b :: r), writeTab_append, hlen]
      rw [State.writeDev]
      refine hmem _ ?_
      split
      · rfl
      · split <;> rfl

theorem State.writeLine_linePoison (s : State) (pa : Nat) (key : Option Nat) (bs : List Byte) :
    (s.writeLine pa key bs).linePoison = s.linePoison := by
  cases key with
  | none => rfl
  | some k => simp only [State.writeLine, State.stampLine]

/-- A flag that is set stays so when another one is set. -/
theorem get_put_true (t : Tab Bool) (x y : Nat) (h : x = y ∨ t.get false x = true) : (t.put false y true).get false x = true := by
  by_cases e : x = y
  · rw [e, Tab.get_put_self]
  · rw [Tab.get_put_ne _ _ _ e]; exact h.resolve_left e

/-- A poisoned write leaves no poisoned line clean. -/
theorem State.writeDev_keeps_poison (n : Nat) (s : State) (pa : Nat) (key : Option Nat) (bs : List Byte) (x : Nat)
    (h : s.linePoison.get false x = true) : (s.writeDev pa key true n bs).linePoison.get false x = true := by
  induction n generalizing s pa bs with
  | zero => cases bs <;> exact h
  | succ n ih =>
    cases bs with
    | nil => exact h
    | cons b r =>
      rw [State.writeDev]
      refine ih _ _ _ ?_
      rw [if_pos rfl]
      exact get_put_true _ _ _ (.inr (by rw [State.writeLine_linePoison]; exact h))

/-- What a poisoned write wrote reads as poisoned (R210). -/
theorem State.devPoison_writeDev (s : State) (pa : Nat) (key : Option Nat) (bs : List Byte) (hb : bs ≠ []) :
    (s.writeDev pa key true (bs.length + 1) bs).devPoison pa bs.length = true := by
  have hfirst : (s.writeDev pa key true (bs.length + 1) bs).linePoison.get false (pa / 64) = true := by
    cases bs with
    | nil => exact absurd rfl hb
    | cons b r =>
      rw [State.writeDev]
      refine State.writeDev_keeps_poison _ _ _ _ _ _ ?_
      rw [if_pos rfl]
      exact get_put_true _ _ _ (.inl rfl)
  rw [State.devPoison, List.any_eq_true]
  exact ⟨0, List.mem_range.mpr (by omega), hfirst⟩

theorem flagTab_get_out (t : Tab Bool) (a : Nat) (v : Bool) (n x : Nat) (h : x < a) : (flagTab t a v n).get false x = t.get false x := by
  induction n generalizing t a with
  | zero => rfl
  | succ n ih => rw [flagTab, ih _ _ (by omega), Tab.get_put_ne _ _ _ (by omega)]

theorem anyTab_flagTab (t : Tab Bool) (a n : Nat) (h : 0 < n) : anyTab (flagTab t a true n) a n = true := by
  cases n with
  | zero => omega
  | succ n => rw [anyTab, flagTab, flagTab_get_out _ _ _ _ _ (by omega), Tab.get_put_self, Bool.true_or]

theorem readAfterWrite : Claims.ReadAfterWrite := by
  intro s l bs p hb hl
  have hn := List.length_pos_of_ne_nil hb
  cases l with
  | dev pa key =>
    cases key with
    | some k => exact absurd rfl (hl pa k)
    | none =>
      refine ⟨?_, fun _ hp => ?_⟩
      · show readTab (s.writeDev pa none p (bs.length + 1) bs).mem pa bs.length = bs
        rw [State.writeDev_plain_mem _ _ _ _ _ (Nat.lt_succ_self _), readTab_writeTab]
      · subst hp
        exact State.devPoison_writeDev s pa none bs hb
  | host ha => exact ⟨readTab_writeTab _ _ _, fun h => absurd rfl (h ha)⟩
  | tile key off a =>
    refine ⟨?_, fun _ hp => ?_⟩
    · have hk := State.writeTileCell_kept s a bs p
      simp only [State.kept, Prod.mk.injEq] at hk
      obtain ⟨-, -, ht, -⟩ := hk
      show readTab (s.writeTileCell a bs p).tile a bs.length = bs
      rw [ht, readTab_writeTab]
    · subst hp
      exact anyTab_flagTab _ _ _ (by omega)

/-- Settles O28: a store is one write at its home, and a read behind a write finds what was written. -/
theorem storeFrameAndReadBack : Obligations.StoreFrameAndReadBack := ⟨storeFrame, readAfterWrite⟩

end Sys2Proof.Machine
end

section
namespace Sys2Proof

/-! ## The host link (R337–R340, R346, R355) -/

/-! ### Updates of a table -/

theorem Tab.erase_ins {α : Type} (t : Tab α) (k : Nat) (v : α) : (t.ins k v).erase k = t.erase k := by
  induction t with
  | nil => simp [Tab.ins, Tab.erase]
  | cons p r ih =>
    rw [Tab.ins]
    split
    · rw [Tab.erase_cons (k, v), if_pos rfl]
    · rw [Tab.erase_cons, Tab.erase_cons, ih]

theorem Tab.erase_erase {α : Type} (t : Tab α) (k : Nat) : (t.erase k).erase k = t.erase k := by
  simp [Tab.erase]

theorem Tab.erase_put {α : Type} [DecidableEq α] (d : α) (t : Tab α) (k : Nat) (v : α) : (t.put d k v).erase k = t.erase k := by
  rw [Tab.put]
  split
  · exact Tab.erase_erase t k
  · rw [Tab.set, Tab.erase_ins, Tab.erase_erase]

theorem Tab.put_of_erase {α : Type} [DecidableEq α] (d : α) {t u : Tab α} {k : Nat} (v : α) (h : t.erase k = u.erase k) :
    t.put d k v = u.put d k v := by
  simp only [Tab.put, Tab.set, h]

/-- The last of two writes of a key is what counts. -/
theorem Tab.put_put {α : Type} [DecidableEq α] (d : α) (t : Tab α) (k : Nat) (v w : α) : (t.put d k v).put d k w = t.put d k w :=
  Tab.put_of_erase d w (Tab.erase_put d t k v)

end Sys2Proof

namespace Sys2Proof.Machine

@[simp] theorem State.hostq_modHostq (s : State) (q : Nat) (f : HostQ → HostQ) : (s.modHostq q f).hostq q = f (s.hostq q) :=
  Tab.get_put_self _ _ _ _

theorem State.modHostq_modHostq (s : State) (q : Nat) (f g : HostQ → HostQ) :
    (s.modHostq q f).modHostq q g = s.modHostq q (fun x => g (f x)) := by
  unfold State.modHostq
  simp only [State.hostq, Tab.put_put, Tab.get_put_self]

/-! ### What host requests leave alone -/

/-- The device memory, the host's requests and the answers to peers. -/
def State.linkKept (s : State) : Tab Byte × List HostReq × List (Nat × Bool) := (s.mem, s.hostReqs, s.fabAcks)

/-- An access of the device itself, or of the host or a peer, changes the slices alone. -/
theorem State.touchPlain_eq (s : State) (l : Loc) (n : Nat) (write : Bool) : ∃ sl, s.touchPlain l n write = { s with slices := sl } := by
  cases l with
  | dev pa key =>
    have hfold : ∀ (ls : List Nat) (z : State) (w : Nat → Option (BitVec 64)),
        ∃ sl, ls.foldl (fun s i => s.touchBy (64 * i) none 3 (w i) 0) z = { z with slices := sl } := by
      intro ls
      induction ls with
      | nil => exact fun z _ => ⟨z.slices, rfl⟩
      | cons i r ih =>
        intro z w
        obtain ⟨sl, hs, e, hn⟩ := State.touchBy_clean z (64 * i) none 3 (w i)
        obtain ⟨sl', e'⟩ := ih { z with slices := sl, hearths := hs } w
        exact ⟨sl', by rw [List.foldl_cons, e, e', hn rfl]⟩
    exact hfold _ s _
  | host ha => exact ⟨s.slices, rfl⟩
  | tile key off a => exact ⟨s.slices, rfl⟩

@[simp] theorem State.touchPlain_linkKept (s : State) (l : Loc) (n : Nat) (write : Bool) :
    (s.touchPlain l n write).linkKept = s.linkKept := by
  obtain ⟨sl, e⟩ := State.touchPlain_eq s l n write
  rw [e]
  rfl

@[simp] theorem State.tagPage_linkKept (s : State) (t : Trans) : (s.tagPage t).linkKept = s.linkKept := by
  unfold State.tagPage
  split
  · rfl
  · extract_lets page n
    split <;> rfl

@[simp] theorem State.release_linkKept (s : State) (l : Loc) (rs : List Release) : (s.release_ l rs).linkKept = s.linkKept := by
  unfold State.release_
  dsimp only
  split <;> rfl

@[simp] theorem State.hostRelease_linkKept (s : State) (agent : Nat) (scope : BitVec 3) (ls : List Loc) :
    (s.hostRelease agent scope ls).linkKept = s.linkKept :=
  State.foldl_keeps (fun s x => by simp) ls s

/-- The lines that an agent outside the device wrote: their times and its clock change alone. -/
@[simp] theorem State.foldl_hostWrote_linkKept (agent : Nat) (ls : List Nat) (s : State) :
    (ls.foldl (fun s l => s.hostWrote agent l) s).linkKept = s.linkKept :=
  State.foldl_keeps (g := State.linkKept) (f := fun s l => s.hostWrote agent l) (fun _ _ => rfl) ls s

theorem State.writeDev_plain_linkKept (n : Nat) (s : State) (pa : Nat) (psn : Bool) (bs : List Byte) (h : bs.length < n) :
    (s.writeDev pa none psn n bs).linkKept = (writeTab s.mem pa bs, s.hostReqs, s.fabAcks) := by
  refine Prod.ext (State.writeDev_plain_mem n s pa psn bs h) ?_
  clear h
  induction n generalizing s pa bs with
  | zero => cases bs <;> rfl
  | succ n ih =>
    cases bs with
    | nil => rfl
    | cons b r =>
      rw [State.writeDev]
      refine (ih _ _ _).trans ?_
      split
      · rfl
      · split <;> rfl

/-- A write of the host stores the bytes that lie before the end of the window's memory. -/
theorem State.windowWrite_linkKept (s : State) (r : HostReq) (addr : Nat) (bs : List Byte) :
    (s.windowWrite r addr bs).linkKept = (writeTab s.mem addr (bs.take (windowEnd - addr)), s.hostReqs, s.fabAcks) := by
  unfold State.windowWrite
  extract_lets ws ls s1 s2
  have h0 : (if ws = [] then s else s.touchPlain (.dev addr none) ws.length true).linkKept = s.linkKept := by
    split <;> simp
  have h1 : s1.linkKept = (writeTab s.mem addr ws, s.hostReqs, s.fabAcks) := by
    simp only [State.linkKept, Prod.mk.injEq] at h0
    simp only [s1, State.writeDev_plain_linkKept _ _ _ _ _ (Nat.lt_succ_self _), h0]
  have h2 : s2.linkKept = s1.linkKept := State.foldl_hostWrote_linkKept _ _ _
  split
  · rw [State.hostRelease_linkKept, h2, h1]
  · rw [h2, h1]

/-- The host's clock after the acquires of an agent's read. -/
theorem foldl_hostClk_eq (a : Nat) (ls : List Release) (s : State) :
    ∃ hc, ls.foldl (fun s x => if s.synchronises x scopeNode (a, 0, 0) then
      { s with hostClk := s.hostClk.put 0 a (max (s.hostClk.get 0 a) x.time) } else s) s = { s with hostClk := hc } := by
  induction ls generalizing s with
  | nil => exact ⟨s.hostClk, rfl⟩
  | cons x r ih =>
    rw [List.foldl_cons]
    split
    · obtain ⟨hc, e⟩ := ih { s with hostClk := s.hostClk.put 0 a (max (s.hostClk.get 0 a) x.time) }
      exact ⟨hc, e⟩
    · exact ih s

/-- A read of the host moves the clock of its agent and changes the slices, nothing else. -/
theorem State.hostAcquire_eq (s : State) (r : HostReq) (addr n : Nat) :
    ∃ sl hc, s.hostAcquire r addr n = { s with slices := sl, hostClk := hc } := by
  have h0 : ∃ sl, (if n = 0 then s else s.touchPlain (.dev addr none) n false) = { s with slices := sl } := by
    split
    · exact ⟨s.slices, rfl⟩
    · exact State.touchPlain_eq s _ n false
  obtain ⟨sl, e⟩ := h0
  simp only [State.hostAcquire, e]
  split
  · obtain ⟨hc, e'⟩ := foldl_hostClk_eq (hostAgent r.agent) ((wordsOf addr n).flatMap ({ s with slices := sl } : State).released)
      { s with slices := sl }
    exact ⟨sl, hc, e'⟩
  · exact ⟨sl, s.hostClk, rfl⟩

/-! ### Requests that may be performed -/

/-- What holds a request back is what R338 says. -/
theorem waitsFor_iff (r e : HostReq) : r.waitsFor e = true ↔
    e.agent = r.agent ∧ e.id < r.id ∧ (r.ord = .release ∧ writesMemory e.ask = true ∨ e.ord = .acquire) := by
  simp [HostReq.waitsFor, and_assoc]

theorem writesMemory_iff (x : HostAsk) :
    writesMemory x = false ↔ (∀ a bs, x ≠ .write a bs) ∧ ∀ op w a y z, x ≠ .atomic op w a y z := by
  cases x with
  | write a bs => exact ⟨fun h => (nomatch h), fun h => absurd rfl (h.1 a bs)⟩
  | atomic op w a y z => exact ⟨fun h => (nomatch h), fun h => absurd rfl (h.2 op w a y z)⟩
  | read a n => simp [writesMemory]
  | readReg a n => simp [writesMemory]

/-- A request of a name may be performed exactly when it is due. -/
theorem State.hostReq_eq_some {s : State} {r : HostReq} {n : Nat} :
    s.hostReq n = some r ↔ s.hostReqs.find? (fun e => e.id = n) = some r ∧ Claims.due s r := by
  have hid : s.hostReqs.find? (fun e => e.id = n) = some r → r.id = n := fun h => by simpa using List.find?_some h
  have hfree : s.hostReqs.any r.waitsFor = false ↔ ∀ e ∈ s.hostReqs, e.agent = r.agent → e.id < r.id → e.ord ≠ .acquire ∧
      (r.ord = .release → (∀ a bs, e.ask ≠ .write a bs) ∧ ∀ op w a x y, e.ask ≠ .atomic op w a x y) := by
    rw [List.any_eq_false]
    refine forall₂_congr (fun e _ => ?_)
    rw [waitsFor_iff, ← writesMemory_iff]
    constructor
    · intro h ha hb
      exact ⟨fun hq => h ⟨ha, hb, .inr hq⟩, fun hr => Bool.eq_false_iff.mpr (fun hw => h ⟨ha, hb, .inl ⟨hr, hw⟩⟩)⟩
    · rintro h ⟨ha, hb, ⟨hr, hw⟩ | hq⟩
      · exact Bool.false_ne_true (((h ha hb).2 hr).symm.trans hw)
      · exact (h ha hb).1 hq
  simp only [State.hostReq, Option.filter_eq_some_iff, Claims.due, Bool.and_eq_true, Bool.not_eq_true', State.linked,
    decide_eq_true_eq, hfree]
  constructor
  · rintro ⟨hf, ⟨hp, hs⟩, hw⟩
    exact ⟨hf, by rw [hid hf]; exact hf, hp, hs, hw⟩
  · rintro ⟨hf, -, hp, hs, hw⟩
    exact ⟨hf, ⟨hp, hs⟩, hw⟩

theorem State.hostReq_of_due {s : State} {r : HostReq} (h : Claims.due s r) : s.hostReq r.id = some r :=
  State.hostReq_eq_some.mpr ⟨h.1, h⟩

theorem State.hostReq_of_not_due {s : State} {n : Nat} (h : ∀ e, s.hostReqs.find? (fun e => e.id = n) = some e → ¬Claims.due s e) :
    s.hostReq n = none := by
  cases hr : s.hostReq n with
  | none => rfl
  | some r =>
    obtain ⟨hf, hd⟩ := State.hostReq_eq_some.mp hr
    exact absurd hd (h r hf)

/-! ### Requests of the host -/

/-- A posted write that is due stores its bytes (R337). -/
theorem hostPostedWrite_due {s : State} {r : HostReq} {addr : Nat} {bs : List Byte} (h : Claims.due s r) (ha : r.ask = .write addr bs) :
    ∃ t, exec (.hostPostedWrite r.id) s = .next t ∧ t.hostReqs = s.hostReqs.filter (fun e => e.id ≠ r.id) ∧
      (∀ i, i < bs.length → addr + i < 0x8DC0000000 → t.mem.get 0 (addr + i) = bs.getD i 0) ∧
      (∀ p, (p < addr ∨ addr + bs.length ≤ p ∨ 0x8DC0000000 ≤ p) → t.mem.get 0 p = s.mem.get 0 p) := by
  have hw := State.windowWrite_linkKept (s.dropReq r.id) r addr bs
  simp only [State.linkKept, Prod.mk.injEq] at hw
  obtain ⟨hm, hr, -⟩ := hw
  refine ⟨(s.dropReq r.id).windowWrite r addr bs, ?_, hr, fun i hi hb => ?_, fun p hp => ?_⟩
  · simp only [exec_hostPostedWrite, execHostPostedWrite, State.hostReq_of_due h, ha]
  · rw [hm, writeTab_get_in _ _ _ _ (by rw [List.length_take, windowEnd]; omega), List.getElem_take, List.getD_eq_getElem _ _ hi]
  · rw [hm, writeTab_get_out _ _ _ _ (by rw [List.length_take, windowEnd]; omega)]
    rfl

/-- A read of device memory that is due answers its bytes, all ones beyond them (R337) (log 67). -/
theorem hostRead_due {s : State} {r : HostReq} {addr n : Nat} (h : Claims.due s r) (ha : r.ask = .read addr n) :
    ∃ t, exec (.hostRead r.id) s = .next t ∧
      ({ t with hostReply := s.hostReply, hostReqs := s.hostReqs, hostClk := s.hostClk, slices := s.slices } : State) = s ∧
      t.hostReqs = s.hostReqs.filter (fun e => e.id ≠ r.id) ∧ t.hostReply.length = n ∧
      ∀ i, i < n → t.hostReply.getD i 0 = if addr + i < 0x8DC0000000 then s.mem.get 0 (addr + i) else 0xFF#8 := by
  obtain ⟨sl, hc, e⟩ := State.hostAcquire_eq (s.dropReq r.id) r addr n
  refine ⟨{ (s.dropReq r.id).hostAcquire r addr n with hostReply := s.windowRead addr n }, ?_, ?_, ?_, ?_, fun i hi => ?_⟩
  · simp only [exec_hostRead, execHostRead, State.hostReq_of_due h, ha]
  · rw [e]; rfl
  · rw [e]; rfl
  · simp [State.windowRead]
  · simp [State.windowRead, hi, windowEnd]

/-- A byte of a queue's base or configuration register (Table 21.1). -/
theorem State.regByte_toNat (s : State) (off q : Nat) (hq : q < 64) :
    (64 * q ≤ off → off < 64 * q + 8 → (s.regByte off).toNat = (s.hostq q).base.toNat / 2 ^ (8 * (off - 64 * q)) % 2 ^ 8) ∧
    (64 * q + 8 ≤ off → off < 64 * q + 16 →
      (s.regByte off).toNat = (s.hostq q).cfg.toNat / 2 ^ (8 * (off - 64 * q - 8)) % 2 ^ 8) := by
  unfold State.regByte
  extract_lets x o
  have hd : 64 * q ≤ off → off < 64 * q + 16 → x = s.hostq q ∧ o = off - 64 * q := fun h1 h2 =>
    ⟨by simp only [x, show off / 64 = q by omega], by omega⟩
  clear_value x o
  constructor
  · intro h1 h2
    obtain ⟨rfl, rfl⟩ := hd h1 (by omega)
    rw [if_pos (by simp; omega), BitVec.toNat_ofNat, bits, Nat.mod_mod]
  · intro h1 h2
    obtain ⟨rfl, rfl⟩ := hd (by omega) h2
    rw [if_neg (by simp; omega), if_pos (by simp; omega), BitVec.toNat_ofNat, bits, Nat.mod_mod]

/-- A read of the register window that is due answers its bytes (R339). -/
theorem hostReadReg_due {s : State} {r : HostReq} {addr n : Nat} (h : Claims.due s r) (ha : r.ask = .readReg addr n) :
    ∃ t, exec (.hostRead r.id) s = .next t ∧
      ({ t with hostReply := s.hostReply, hostReqs := s.hostReqs, free := s.free } : State) = s ∧
      t.hostReqs = s.hostReqs.filter (fun e => e.id ≠ r.id) ∧ t.hostReply.length = n ∧
      ∀ i, i < n → t.hostReply.getD i 0 = s.regByte (addr + i) := by
  refine ⟨{ s.dropReq r.id with hostReply := (List.range n).map (fun i => s.regByte (addr + i)), free := s.free + addr + n },
    ?_, rfl, rfl, ?_, fun i hi => ?_⟩
  · simp only [exec_hostRead, execHostRead, State.hostReq_of_due h, ha]
  · simp
  · simp [hi]

theorem readTab_eq_map (t : Tab Byte) (a n : Nat) : readTab t a n = (List.range n).map (fun i => t.get 0 (a + i)) := by
  induction n generalizing a with
  | zero => rfl
  | succ n ih =>
    rw [readTab, ih, List.range_succ_eq_map, List.map_cons, List.map_map, Nat.add_zero]
    congr 1
    exact List.map_congr_left (fun i _ => by rw [Function.comp, Nat.succ_eq_add_one, Nat.add_comm i 1, Nat.add_assoc])

/-- Before the end of the window's memory a request reads the bytes themselves. -/
theorem State.windowRead_eq (s : State) (addr n : Nat) (h : addr + n ≤ windowEnd) : s.windowRead addr n = readTab s.mem addr n := by
  rw [readTab_eq_map]
  exact List.map_congr_left (fun i hi => if_pos (by rw [List.mem_range] at hi; omega))

/-- An atomic that is due answers the old value and writes the new one (R337). -/
theorem hostAtomic_due {s : State} {r : HostReq} {op : HostAtomic} {wide : Bool} {addr : Nat} {x y : Word} (h : Claims.due s r)
    (ha : r.ask = .atomic op wide addr x y) {k : Nat} (hk : k = if wide then 8 else 4) (hb : addr + k ≤ windowEnd) :
    ∃ t, exec (.hostAtomic r.id) s = .next t ∧ t.hostReqs = s.hostReqs.filter (fun e => e.id ≠ r.id) ∧
      t.hostReply = readTab s.mem addr k ∧
      ofLe (readTab t.mem addr k) = applyAtomic op k (ofLe (readTab s.mem addr k)) x.toNat y.toNat % 256 ^ k ∧
      ∀ p, (p < addr ∨ addr + k ≤ p) → t.mem.get 0 p = s.mem.get 0 p := by
  have hread := State.windowRead_eq s addr k hb
  generalize hn : leBytes k (applyAtomic op k (ofLe (readTab s.mem addr k)) x.toNat y.toNat) = new
  have hlen : new.length = k := by rw [← hn, length_leBytes]
  obtain ⟨sl, hc, e⟩ := State.hostAcquire_eq (s.dropReq r.id) r addr k
  have hw := State.windowWrite_linkKept ((s.dropReq r.id).hostAcquire r addr k) r addr new
  rw [List.take_of_length_le (by omega), e] at hw
  simp only [State.linkKept, Prod.mk.injEq] at hw
  obtain ⟨hm, hr, -⟩ := hw
  refine ⟨{ ((s.dropReq r.id).hostAcquire r addr k).windowWrite r addr new with hostReply := readTab s.mem addr k },
    ?_, ?_, rfl, ?_, fun p hp => ?_⟩
  · simp only [exec_hostAtomic, execHostAtomic, State.hostReq_of_due h, ha, ← hk, hread, hn]
  · rw [e]; exact hr
  · rw [e]
    dsimp only
    have hrw := readTab_writeTab s.mem addr new
    rw [hlen] at hrw
    rw [hm, show (s.dropReq r.id).mem = s.mem from rfl, hrw, ← hn, ofLe_leBytes]
  · rw [e]
    dsimp only
    rw [hm, writeTab_get_out _ _ _ _ (by omega)]
    rfl

/-! ### Traffic of peers (R346) -/

/-- What a counter word of plain device memory holds after an addition (R239). -/
theorem State.addCounter_linkKept (s : State) (pa amount : Nat) (psn : Bool) :
    (s.addCounter (.dev pa none) amount psn).linkKept =
      (writeTab s.mem pa (leBytes 8 (min (ofLe (readTab s.mem pa 8) + amount) (2 ^ 64 - 1))), s.hostReqs, s.fabAcks) :=
  State.writeDev_plain_linkKept _ _ _ _ _ (Nat.lt_succ_self _)

@[simp] theorem State.peerWrote_linkKept (s : State) (job : Nat) (l : List Piece) : (s.peerWrote job l).linkKept = s.linkKept :=
  State.foldl_hostWrote_linkKept _ _ _

/-- A peer's counter add that its job's tables allow adds to the word, up to its greatest value, and is acknowledged. -/
theorem remoteCounterAdd_allowed {s : State} {job va c pa : Nat} {x : Word} {p : Trans} (hs : s.stage = 7) (hj : s.jobCtx job = some c)
    (hw : inTileWindow (BitVec.ofNat 64 (va / 8 * 8)) = false) (ht : s.translateDev c (BitVec.ofNat 64 (va / 8 * 8)) .both = .ok p)
    (hl : Loc.phys p (va / 8 * 8 % 2 ^ 55) = .dev pa none) :
    ∃ t, exec (.remoteCounterAdd job va x) s = .next t ∧ t.fabAcks = (job, true) :: s.fabAcks ∧
      ofLe (readTab t.mem pa 8) = min (ofLe (readTab s.mem pa 8) + x.toNat) (2 ^ 64 - 1) ∧
      ∀ i, (i < pa ∨ pa + 8 ≤ i) → t.mem.get 0 i = s.mem.get 0 i := by
  have hva : bits (BitVec.ofNat 64 (va / 8 * 8)).toNat 0 55 = va / 8 * 8 % 2 ^ 55 := by
    rw [bits_zero, BitVec.toNat_ofNat, Nat.mod_mod_of_dvd _ (Nat.pow_dvd_pow 2 (by decide))]
  let l : Loc := .dev pa none
  have h1 : ((s.tagPage p).touchPlain l 8 true).linkKept = s.linkKept := by simp
  let t : State := (((((s.tagPage p).touchPlain l 8 true).addCounter l x.toNat false).peerWrote job [(l, 8)]).hostRelease
    (peerAgent job) 6 [l])
  have h2 : t.linkKept =
      (writeTab s.mem pa (leBytes 8 (min (ofLe (readTab s.mem pa 8) + x.toNat) (2 ^ 64 - 1))), s.hostReqs, s.fabAcks) := by
    simp only [State.linkKept, Prod.mk.injEq] at h1
    obtain ⟨hm, hr, hf⟩ := h1
    rw [State.hostRelease_linkKept, State.peerWrote_linkKept, State.addCounter_linkKept, hm, hr, hf]
  simp only [State.linkKept, Prod.mk.injEq] at h2
  obtain ⟨hm, -, hf⟩ := h2
  refine ⟨t.ackPeer job true, ?_, congrArg ((job, true) :: ·) hf, ?_, fun i hi => ?_⟩
  · rw [exec_remoteCounterAdd, execRemoteCounterAdd]
    dsimp only
    rw [if_neg (by simp [hs]), hj, Option.map_some, hw, if_neg Bool.false_ne_true, ht]
    dsimp only
    rw [hva, hl]
  · have hr := readTab_writeTab s.mem pa (leBytes 8 (min (ofLe (readTab s.mem pa 8) + x.toNat) (2 ^ 64 - 1)))
    rw [length_leBytes] at hr
    rw [show (t.ackPeer job true).mem = t.mem from rfl, hm, hr, ofLe_leBytes, Nat.mod_eq_of_lt (by omega)]
  · rw [show (t.ackPeer job true).mem = t.mem from rfl, hm, writeTab_get_out _ _ _ _ (by rw [length_leBytes]; omega)]

/-- A peer's counter add that its job's tables do not allow is refused. -/
theorem remoteCounterAdd_refused {s : State} {job va : Nat} {x : Word} (hs : s.stage = 7)
    (h : s.jobCtx job = none ∨ ∃ c, s.jobCtx job = some c ∧ (inTileWindow (BitVec.ofNat 64 (va / 8 * 8)) = true ∨
      ∃ f, s.translateDev c (BitVec.ofNat 64 (va / 8 * 8)) .both = .error f)) :
    exec (.remoteCounterAdd job va x) s = .next { s with fabAcks := (job, false) :: s.fabAcks } := by
  rw [exec_remoteCounterAdd, execRemoteCounterAdd]
  dsimp only
  rw [if_neg (by simp [hs])]
  rcases h with hj | ⟨c, hj, hw | ⟨f, ht⟩⟩
  · rw [hj]; rfl
  · rw [hj, Option.map_some, if_pos hw]; rfl
  · rw [hj, Option.map_some, ht]
    split_ifs <;> rfl

/-- A peer's write that its job's tables allow is performed piece by piece and acknowledged. -/
theorem remoteWrite_allowed {s : State} {job va c : Nat} {bs : List Byte} {ts : List Trans} (hs : s.stage = 7) (hb : bs ≠ [])
    (hj : s.jobCtx job = some c) (hp : s.jobPages job (rangePages (BitVec.ofNat 64 va) bs.length) [] = .ok ts) :
    let ps := piecesOf ts c (bs.length / 65536 + 2) (va % 2 ^ 55) bs.length
    let s1 := ps.foldl (fun s p => s.touchPlain p.1 p.2 true) (ts.foldl (fun s t => s.tagPage t) s)
    let t := (s1.writePieces ps bs).peerWrote job ps
    exec (.remoteWrite job va bs) s = .next { t with fabAcks := (job, true) :: t.fabAcks } := by
  rw [exec_remoteWrite, execRemoteWrite]
  dsimp only
  rw [if_neg (by simp [hs, hb]), hj, hp]
  dsimp only
  rw [bits_zero]
  rfl

/-- A peer's write that its job's tables do not allow is refused. -/
theorem remoteWrite_refused {s : State} {job va : Nat} {bs : List Byte} (hs : s.stage = 7) (hb : bs ≠ [])
    (h : s.jobCtx job = none ∨ ∃ f, s.jobPages job (rangePages (BitVec.ofNat 64 va) bs.length) [] = .error f) :
    exec (.remoteWrite job va bs) s = .next { s with fabAcks := (job, false) :: s.fabAcks } := by
  rw [exec_remoteWrite, execRemoteWrite]
  dsimp only
  rw [if_neg (by simp [hs, hb])]
  rcases h with hj | ⟨f, hp⟩
  · rw [hj]; rfl
  · rw [hp]
    cases s.jobCtx job <;> rfl

/-- A request that must wait for an earlier one does nothing yet (R338). -/
theorem hostRequest_waits {s : State} {n : Nat} (hr : s.hostReq n = none) :
    ∀ i ∈ [(.hostPostedWrite n : Instr), .hostRead n, .hostAtomic n], exec i s = .next s := by
  intro i hi
  simp only [List.mem_cons, List.not_mem_nil, or_false] at hi
  obtain rfl | rfl | rfl := hi
  · rw [exec_hostPostedWrite, execHostPostedWrite, hr]
  · rw [exec_hostRead, execHostRead, hr]
  · rw [exec_hostAtomic, execHostAtomic, hr]

theorem hostAccesses : Claims.HostAccesses := by
  intro s r addr n bs op wide x y bound left
  refine ⟨fun hd => ⟨fun ha => hostPostedWrite_due hd ha, fun ha => hostRead_due hd ha, fun ha => ?_, fun k hk ha hb => ?_⟩,
    fun hnot => hostRequest_waits (State.hostReq_of_not_due hnot), fun job va hs => ⟨fun hj => ?_, fun c hj =>
      ⟨fun ts hb hp => remoteWrite_allowed hs hb hj hp, fun f hb hp => remoteWrite_refused hs hb (.inr ⟨f, hp⟩),
        fun h => remoteCounterAdd_refused hs (.inr ⟨c, hj, h⟩), fun p pa hw ht hl _ => remoteCounterAdd_allowed hs hj hw ht hl⟩⟩⟩
  · obtain ⟨t, ht, hsame, hreqs, hlen, hbyte⟩ := hostReadReg_due hd ha
    refine ⟨t, ht, hsame, hreqs, hlen, fun i q hi hq => ?_⟩
    rw [hbyte i hi]
    exact State.regByte_toNat s (addr + i) q hq
  · exact hostAtomic_due hd ha hk hb
  · exact ⟨fun hb => remoteWrite_refused hs hb (.inl hj), remoteCounterAdd_refused hs (.inl hj)⟩

/-! ### Queues (R339, R340) -/

theorem logn_eq (x : HostQ) : x.logn = x.cfg.toNat % 32 := bits_zero _ 5

theorem State.putTail_ignored {s : State} {q t : Nat} (h : t ≤ (s.hostq q).head) : s.putTail q t = s := if_pos h

theorem State.putTail_moves {s : State} {q t : Nat} (h : (s.hostq q).head < t)
    (hr : t ≤ (s.hostq q).head + 2 ^ ((s.hostq q).cfg.toNat % 32)) :
    s.putTail q t = s.modHostq q (fun x => { x with tail := t }) := by
  rw [State.putTail, if_neg (by omega), logn_eq, if_neg (by omega)]

/-- A tail that passes the ring disables its queue and leaves a journal entry. -/
theorem State.putTail_disables {s : State} {q t : Nat} (h : (s.hostq q).head + 2 ^ ((s.hostq q).cfg.toNat % 32) < t) :
    ((s.putTail q t).hostq q).enabled = false ∧
      ({ (s.putTail q t).hostq q with cfg := (s.hostq q).cfg } : HostQ) = s.hostq q ∧ (s.putTail q t).jseq = s.jseq + 1 := by
  have e : s.putTail q t =
      (s.modHostq q (fun x => { x with cfg := setBit x.cfg 31 false })).journalAdd 5 1 0 0 q 0 0 0 0 := by
    rw [State.putTail, if_neg (Nat.not_le.mpr (lt_of_le_of_lt (Nat.le_add_right _ _) h)), logn_eq, if_pos h]
  have hq : (s.putTail q t).hostq q = { s.hostq q with cfg := setBit (s.hostq q).cfg 31 false } := by
    rw [e]
    exact State.hostq_modHostq s q (fun x => { x with cfg := setBit x.cfg 31 false })
  refine ⟨?_, ?_, ?_⟩
  · rw [hq, HostQ.enabled]
    simp [setBit]
  · rw [hq]
  · rw [e]; rfl

theorem qnotify_held {s : State} {agent : Nat} {q : BitVec 6} {tail : Word} (h : s.agentHeld agent = true) :
    exec (.qnotify agent q tail) s = .next s := by
  simp [exec_qnotify, execQnotify, h]

/-- A notification of an unmapped queue, and any before stage 7, is latched in the queue's header. -/
theorem qnotify_latched {s : State} {agent : Nat} {q : BitVec 6} {tail : Word} (h : s.agentHeld agent = false) (hp : s.powered = true)
    (hs : 6 ≤ s.stage) (hm : (s.hostq q.toNat).mapped = false ∨ s.stage ≠ 7) :
    exec (.qnotify agent q tail) s = .next ((s.modHostq q.toNat (fun y => { y with
      pending := true, ltail := if y.pending then max y.ltail tail.toNat else tail.toNat })).putHeader q.toNat) := by
  rw [exec_qnotify, execQnotify]
  dsimp only
  rw [if_neg (by simp [State.linked, hp, hs, h]), if_neg (by rcases hm with hm | hm <;> simp [hm])]

/-- A notification of a mapped queue sets its tail. -/
theorem qnotify_mapped {s : State} {agent : Nat} {q : BitVec 6} {tail : Word} (h : s.agentHeld agent = false) (hp : s.powered = true)
    (hs : s.stage = 7) (hm : (s.hostq q.toNat).mapped = true) :
    exec (.qnotify agent q tail) s = .next (s.putTail q.toNat tail.toNat) := by
  rw [exec_qnotify, execQnotify]
  dsimp only
  rw [if_neg (by simp [State.linked, hp, hs, h]), if_pos (by simp [hm, hs])]

/-- The queue that awaits a slot next is mapped and its latched tail is set. -/
theorem queueMap_next {s : State} {q : Nat} (hs : s.stage = 7) (hn : s.slotsMapped < 16)
    (hq : s.mapOrder.find? (fun i => (s.hostq i).awaits) = some q) :
    exec (.queueMap q) s = .next (((({ s with lastMapped := q } : State).modHostq q (fun y => { y with
      mapped := true, pending := false, slot := s.freeQSlot })).putTail q (s.hostq q).ltail).putHeader q) := by
  rw [exec_queueMap, execQueueMap, if_pos (by simp [hs, hn, hq])]

theorem queueSlotIdleUnmap_idle {s : State} {q : Nat} (hm : (s.hostq q).mapped = true) (he : (s.hostq q).head = (s.hostq q).tail)
    (hw : s.hq.any (fun p => p.1 ≠ q && p.2.awaits) = true) :
    exec (.queueSlotIdleUnmap q) s = .next (s.modHostq q (fun y => { y with mapped := false })) := by
  rw [exec_queueSlotIdleUnmap, execQueueSlotIdleUnmap]
  dsimp only
  rw [if_pos (by rw [hm, hw, decide_eq_true he]; rfl)]

/-! ### Registers (R339, R355) -/

/-- A field of four that are packed 16 bits each. -/
theorem packFields_field (f : Nat → Nat) (hf : ∀ i, f i < 2 ^ 16) (i : Nat) (hi : i < 4) :
    (BitVec.ofNat 64 (packFields ((List.range 4).map (fun i => (16, f i))))).toNat / 2 ^ (16 * i) % 2 ^ 16 = f i := by
  have h0 := hf 0
  have h1 := hf 1
  have h2 := hf 2
  have h3 := hf 3
  have hp : packFields ((List.range 4).map (fun i => (16, f i))) = f 0 + 2 ^ 16 * (f 1 + 2 ^ 16 * (f 2 + 2 ^ 16 * f 3)) := by
    simp only [packFields, show List.range 4 = [0, 1, 2, 3] from rfl, List.map_cons, List.map_nil, Nat.mod_eq_of_lt (hf _)]
    rfl
  rw [hp, BitVec.toNat_ofNat]
  interval_cases i <;> omega

/-- The rota register takes each period that is not 0. -/
theorem registerWrite_rota {s : State} {agent : Nat} {v : Word} (hp : s.powered = true) :
    ∃ t, exec (.registerWrite agent .rota v) s = .next t ∧ ({ t with rota := s.rota } : State) = s ∧
      ∀ i, i < 4 → t.rota.toNat / 2 ^ (16 * i) % 2 ^ 16 =
        if v.toNat / 2 ^ (16 * i) % 2 ^ 16 = 0 then s.rota.toNat / 2 ^ (16 * i) % 2 ^ 16 else v.toNat / 2 ^ (16 * i) % 2 ^ 16 := by
  refine ⟨{ s with rota := BitVec.ofNat 64 (packFields ((List.range 4).map (fun i => (16, rotaField s.rota.toNat v.toNat i)))) },
    ?_, rfl, fun i hi => packFields_field (rotaField s.rota.toNat v.toNat) (fun i => ?_) i hi⟩
  · rw [exec_registerWrite, execRegisterWrite, if_pos hp]
  · rw [rotaField]
    split <;> exact Nat.mod_lt _ (by decide)

/-- A disabled queue's base and configuration are written. -/
theorem registerWrite_disabled {s : State} {agent : Nat} {q : BitVec 6} {v : Word} (h : s.agentHeld agent = false)
    (hp : s.powered = true) (hs : 6 ≤ s.stage) (he : (s.hostq q.toNat).enabled = false) :
    exec (.registerWrite agent (.qbase q) v) s = .next (s.modHostq q.toNat (fun y => { y with base := v &&& 0xFFFFFFFFFFFFF000#64 })) ∧
    exec (.registerWrite agent (.qcfg q) v) s = .next (s.modHostq q.toNat (fun y => { y with cfg := v &&& 0x8000031F#64 })) := by
  have hc : (s.linked && !s.agentHeld agent && !(s.hostq q.toNat).enabled) = true := by simp [State.linked, hp, hs, h, he]
  simp only [exec_registerWrite, execRegisterWrite]
  rw [if_pos hc, if_pos hc]
  exact ⟨rfl, rfl⟩

/-- The registers of an enabled queue hold. -/
theorem registerWrite_enabled {s : State} {agent : Nat} {q : BitVec 6} {v : Word} (he : (s.hostq q.toNat).enabled = true) :
    exec (.registerWrite agent (.qbase q) v) s = .next s ∧ exec (.registerWrite agent (.qcfg q) v) s = .next s := by
  have hc : ¬(s.linked && !s.agentHeld agent && !(s.hostq q.toNat).enabled) = true := by simp [he]
  simp only [exec_registerWrite, execRegisterWrite]
  rw [if_neg hc, if_neg hc]
  exact ⟨rfl, rfl⟩

theorem registerWrite_readOnly (s : State) (agent : Nat) (v : Word) :
    ∀ r ∈ [DevReg.ident, .pmeas, .stage], exec (.registerWrite agent r v) s = .next s := by
  intro r hr
  simp only [List.mem_cons, List.not_mem_nil, or_false] at hr
  obtain rfl | rfl | rfl := hr <;> rfl

/-- The management registers keep to their ranges. -/
theorem registerWrite_ranges {s : State} {agent : Nat} {v : Word} (hp : s.powered = true) :
    exec (.registerWrite agent .pcap v) s = .next (if 1600 ≤ v.toNat ∧ v.toNat ≤ 3200 then { s with pcap := v.toNat } else s) ∧
    exec (.registerWrite agent .scrub v) s = .next (if 1 ≤ v.toNat ∧ v.toNat ≤ 168 then { s with scrub := v.toNat } else s) ∧
    exec (.registerWrite agent .fabdev v) s = .next (if s.stage ≤ 4 then { s with fabdev := v.toNat % 2 ^ 12 } else s) := by
  simp only [exec_registerWrite, execRegisterWrite, hp, Bool.true_and, Bool.and_eq_true, decide_eq_true_eq, bits_zero, and_self]

theorem hostQueues : Claims.HostQueues := by
  rintro s agent q tail v x rfl
  refine ⟨qnotify_held, fun hfree => ⟨qnotify_latched hfree, fun hp hs hm => ⟨fun ht => ?_, fun ht hr => ?_, fun hr => ?_⟩,
    fun hs hn hq ht => ?_, fun hs hn hq ht hr => ?_, queueSlotIdleUnmap_idle, fun hp => ⟨registerWrite_disabled hfree hp,
      registerWrite_enabled, registerWrite_readOnly s agent v, (registerWrite_ranges hp).1, (registerWrite_ranges hp).2.1,
      (registerWrite_ranges hp).2.2, registerWrite_rota hp⟩⟩⟩
  · rw [qnotify_mapped hfree hp hs hm, State.putTail_ignored ht]
  · rw [qnotify_mapped hfree hp hs hm, State.putTail_moves ht hr]
  · exact ⟨_, qnotify_mapped hfree hp hs hm, State.putTail_disables hr⟩
  · rw [queueMap_next hs hn hq, State.putTail_ignored (by rw [State.hostq_modHostq]; exact ht)]
  · rw [queueMap_next hs hn hq, State.putTail_moves (by rw [State.hostq_modHostq]; exact ht) (by rw [State.hostq_modHostq]; exact hr),
      State.modHostq_modHostq]

/-- Settles O50: the windows and a peer's traffic change the bytes that they name, the queues and registers what they hold. -/
theorem hostLink : Obligations.HostLink := ⟨hostAccesses, hostQueues⟩

end Sys2Proof.Machine
end

section
namespace Sys2Proof.Machine

/-! ## The gate of every instruction (R33, R57, R81, R315)

Every instruction of a cell passes one of three gates with the condition and the number of words of its own encoding: the plain one,
that of a privileged opcode, or that of a collective. `exec_gated` says which; the three claims are then facts of the gates alone. -/

/-- How an instruction begins: at one of the three gates, under its own condition and with as many words as it has; or it is a step that
is no instruction and has no words. -/
inductive Gated (i : Instr) (s : State) : Prop
  | plain {c : Cond} {regs : List SReg} {body : Area → Cell → State → State} (hc : Claims.condition i = c)
      (hp : i.privileged = false) (he : exec i s = s.gate c (encode i).length regs body)
  | priv {c : Cond} {regs : List SReg} {body : Area → Cell → State → State} (hc : Claims.condition i = c)
      (hp : i.privileged = true) (he : exec i s = s.privGate c (encode i).length regs body)
  | coll {c : Cond} {regs : List SReg} {arr : Cell → Arrival} (hc : Claims.condition i = c) (hl : Claims.collective i = true)
      (hp : i.privileged = false) (he : exec i s = s.collGate c regs arr)
  | noWords (hw : encode i = []) (hp : i.privileged = false)

/-- Which gate each instruction passes. The wildcard holds the plain instructions whose word 0 is in the R-form. -/
theorem exec_gated (i : Instr) (s : State) : Gated i s := by
  cases i with
  | susrd | tretResume | tretSkip | tretDiscard | tretKill | areard | areawr | savec | restc | tlbinv | mark | csrrd | csrwr =>
    exact .priv (condOf_word0 ..) rfl (by unfold exec; rfl)
  | bcast | reduceInt | reduceFp32 | scanInt | scanFp32 | count | first | areabar =>
    exact .coll (condOf_word0 ..) rfl rfl (by unfold exec; rfl)
  | trap | cmpiEq | cmpiNe | cmpiLt | cmpiLe | cmpiGt | cmpiGe | cmpiLtu | cmpiGeu | addi | andi | ori | xori
  | shli | shri | srai | roli | movi =>
    exact .plain (condOf_iword ..) rfl (by unfold exec; rfl)
  | br | call => exact .plain (condOf_jword ..) rfl (by unfold exec; rfl)
  | encodingNotInstruction | createContext | destroyContext | loadOperators | loadExpr | start | preempt | resume | readExpr | map
  | unmap | forceLease | injectFault | partition | queryCapacity | readRetirements | attest | readJournal | qnotify
  | resetRegisterWrite | registerWrite | i3cDynamicAddress | bypass | idcode | samplePreload | extest | powerUp | resetInput
  | bringupStageComplete | thermalTrip | coolantOutOfRange | hearthOver110c | thermalClearance | junctionClockStep
  | powerControllerStep | linkRetune | emberSpillAdjust | sweep | microprogramFetchComplete | opldRequestExpiry
  | votedPlacementTimeout | hang | watchdog | collectiveComplete | supervisorInvocationStart | preemptionEffect | saveOperatorStart
  | dumpWrite | engineCommandStart | engineCommandComplete | copyPartLanded | counterSignal | freedSlotNotice | sliceAccess
  | storeAcknowledged | loadReply | waitaPeriodicRead | stagingLineTimeout | pageWalkComplete | routerPacketAging | scrubLineRead
  | scoreHalving | eventArrival | eventDelivery | tileMigrationComplete | granuleMigration | leaseRotaTurn | leaseRetryTimer
  | evacuationComplete | portDrainComplete | portTrafficReturn | leaseTestComplete | capacityCounterSignal | queueSlotIdleUnmap
  | queueMap | hostPostedWrite | hostRead | hostAtomic | remoteWrite | remoteCounterAdd | remoteAcknowledgement
  | unassignedCommandOpcode | combiningFormApplied | linkRetry | lossOfPower | orderlyShutdown | earlyLeaseHoldoffExpiry
  | inletTemperatureChange =>
    exact .noWords rfl rfl
  | _ => exact .plain (condOf_word0 ..) rfl (by unfold exec; rfl)

/-- A collective with a poisoned condition faults like any other instruction under strict control (R81). -/
theorem State.collGate_poisoned {s : State} {c : Cond} {ar : Area} {k : Cell} (regs : List SReg) (arr : Cell → Arrival)
    (ha : s.area s.cur.1 = some ar) (hk : ar.cells.find s.cur.2 = some k) (hp : k.qpsn c.q = true) (hs : s.strict ar.ctx = true) :
    s.collGate c regs arr = .next (s.raise fltPoisonConsumed 0) := by
  simp only [State.collGate, ha, hk, hp, hs, Bool.and_self, if_true]

/-- In a privileged area a privileged opcode passes the plain gate. -/
theorem State.privGate_privileged {s : State} {ar : Area} (c : Cond) (n : Nat) (regs : List SReg)
    (body : Area → Cell → State → State) (ha : s.area s.cur.1 = some ar) (hr : ar.privileged = true) :
    s.privGate c n regs body = s.gate c n regs body := by
  simp only [State.privGate, ha, hr, if_true]

theorem falseConditionSkips : Claims.FalseConditionSkips := by
  intro i s ar k hw hl ha hk hr hq hf
  cases exec_gated i s with
  | plain hc _ he => subst hc; rw [he, State.gate_false _ _ _ ha hk hq hf]
  | priv hc hp he => subst hc; rw [he, State.privGate_false _ _ _ ha hk hq hf (hr hp)]
  | coll _ hl' => exact absurd (hl.symm.trans hl') Bool.false_ne_true
  | noWords hw' => exact absurd hw' hw

theorem poisonedConditionFaults : Claims.PoisonedConditionFaults := by
  intro i s ar k hw ha hk hr hq hs
  cases exec_gated i s with
  | plain hc _ he => subst hc; rw [he, State.gate_poisoned _ _ _ ha hk hq hs, fltPoisonConsumed]
  | priv hc hp he =>
    subst hc; rw [he, State.privGate_privileged _ _ _ _ ha (hr hp), State.gate_poisoned _ _ _ ha hk hq hs, fltPoisonConsumed]
  | coll hc _ _ he => subst hc; rw [he, State.collGate_poisoned _ _ ha hk hq hs, fltPoisonConsumed]
  | noWords hw' => exact absurd hw' hw

theorem privilegedOpcodesNeedPrivilege : Claims.PrivilegedOpcodesNeedPrivilege := by
  intro i s ar k hp hr ha hk
  cases exec_gated i s with
  | priv _ _ he => rw [he, State.privGate_user _ _ _ ha hk hr, fltPriv]
  | plain _ hp' | coll _ _ hp' | noWords _ hp' => exact absurd (hp'.symm.trans hp) Bool.false_ne_true

/-- Settles O12: each instruction begins at one of three gates with its own condition, and each gate answers as R33, R81 and R57 say. -/
theorem conditionAndPrivilegeGate : Obligations.ConditionAndPrivilegeGate :=
  ⟨falseConditionSkips, poisonedConditionFaults, privilegedOpcodesNeedPrivilege⟩

end Sys2Proof.Machine
end

section
namespace Sys2Proof.Machine

/-! ## Reading the words of an instruction (R42–R58) -/

open Laws in
/-- Every row of the table is read back from its own words; the wildcard holds the rows that are no instruction of a cell, which have
no words. -/
theorem roundTrip_statement (i : Instr) : RoundTrip.Statement i := by
  cases i with
  | nop => apply RoundTrip.nop | commit => apply RoundTrip.commit | discard => apply RoundTrip.discard
  | yield => apply RoundTrip.yield | trap => apply RoundTrip.trap | brkpt => apply RoundTrip.brkpt | br => apply RoundTrip.br
  | call => apply RoundTrip.call | brx => apply RoundTrip.brx | retn => apply RoundTrip.retn | cmp => apply RoundTrip.cmp
  | fcmp => apply RoundTrip.fcmp | pand => apply RoundTrip.pand | por => apply RoundTrip.por | pxor => apply RoundTrip.pxor
  | pnot => apply RoundTrip.pnot | pmov => apply RoundTrip.pmov | sel => apply RoundTrip.sel | cmpiEq => apply RoundTrip.cmpiEq
  | cmpiNe => apply RoundTrip.cmpiNe | cmpiLt => apply RoundTrip.cmpiLt | cmpiLe => apply RoundTrip.cmpiLe
  | cmpiGt => apply RoundTrip.cmpiGt | cmpiGe => apply RoundTrip.cmpiGe | cmpiLtu => apply RoundTrip.cmpiLtu
  | cmpiGeu => apply RoundTrip.cmpiGeu | add => apply RoundTrip.add | sub => apply RoundTrip.sub | mul => apply RoundTrip.mul
  | mulhi => apply RoundTrip.mulhi | mulhiu => apply RoundTrip.mulhiu | div => apply RoundTrip.div | divu => apply RoundTrip.divu
  | rem => apply RoundTrip.rem | remu => apply RoundTrip.remu | and => apply RoundTrip.and | or => apply RoundTrip.or
  | xor => apply RoundTrip.xor | shl => apply RoundTrip.shl | shr => apply RoundTrip.shr | sra => apply RoundTrip.sra
  | rol => apply RoundTrip.rol | min => apply RoundTrip.min | max => apply RoundTrip.max | minu => apply RoundTrip.minu
  | maxu => apply RoundTrip.maxu | abs => apply RoundTrip.abs | neg => apply RoundTrip.neg | clz => apply RoundTrip.clz
  | ctz => apply RoundTrip.ctz | popc => apply RoundTrip.popc | sext => apply RoundTrip.sext | zext => apply RoundTrip.zext
  | mov => apply RoundTrip.mov | addi => apply RoundTrip.addi | andi => apply RoundTrip.andi | ori => apply RoundTrip.ori
  | xori => apply RoundTrip.xori | shli => apply RoundTrip.shli | shri => apply RoundTrip.shri | srai => apply RoundTrip.srai
  | roli => apply RoundTrip.roli | movi => apply RoundTrip.movi | fadd => apply RoundTrip.fadd | fsub => apply RoundTrip.fsub
  | fmul => apply RoundTrip.fmul | fdiv => apply RoundTrip.fdiv | fsqrt => apply RoundTrip.fsqrt | fmin => apply RoundTrip.fmin
  | fmax => apply RoundTrip.fmax | fabs => apply RoundTrip.fabs | fneg => apply RoundTrip.fneg | fclass => apply RoundTrip.fclass
  | symrd => apply RoundTrip.symrd | symkd => apply RoundTrip.symkd | mksym => apply RoundTrip.mksym | movs => apply RoundTrip.movs
  | symget => apply RoundTrip.symget | bcast => apply RoundTrip.bcast | reduceInt => apply RoundTrip.reduceInt
  | reduceFp32 => apply RoundTrip.reduceFp32 | scanInt => apply RoundTrip.scanInt | scanFp32 => apply RoundTrip.scanFp32
  | count => apply RoundTrip.count | first => apply RoundTrip.first | areabar => apply RoundTrip.areabar
  | emit => apply RoundTrip.emit | emitn => apply RoundTrip.emitn | insert => apply RoundTrip.insert
  | delete => apply RoundTrip.delete | opld => apply RoundTrip.opld | movd => apply RoundTrip.movd | movds => apply RoundTrip.movds
  | dset => apply RoundTrip.dset | talloc => apply RoundTrip.talloc | tfree => apply RoundTrip.tfree
  | qfence => apply RoundTrip.qfence | qwait => apply RoundTrip.qwait | slotrel => apply RoundTrip.slotrel
  | unsubs => apply RoundTrip.unsubs | binit => apply RoundTrip.binit | barv => apply RoundTrip.barv | bexp => apply RoundTrip.bexp
  | bwait => apply RoundTrip.bwait | btry => apply RoundTrip.btry | fence => apply RoundTrip.fence
  | popset => apply RoundTrip.popset | evsend => apply RoundTrip.evsend | accrd => apply RoundTrip.accrd
  | accwr => apply RoundTrip.accwr | accfl => apply RoundTrip.accfl | evwait => apply RoundTrip.evwait
  | caprd => apply RoundTrip.caprd | susrd => apply RoundTrip.susrd | tretResume => apply RoundTrip.tretResume
  | tretSkip => apply RoundTrip.tretSkip | tretDiscard => apply RoundTrip.tretDiscard | tretKill => apply RoundTrip.tretKill
  | areard => apply RoundTrip.areard | areawr => apply RoundTrip.areawr | savec => apply RoundTrip.savec
  | restc => apply RoundTrip.restc | tlbinv => apply RoundTrip.tlbinv | rdctr => apply RoundTrip.rdctr
  | mark => apply RoundTrip.mark | hostsig => apply RoundTrip.hostsig | brc => apply RoundTrip.brc | loop => apply RoundTrip.loop
  | bext => apply RoundTrip.bext | bins => apply RoundTrip.bins | ffma => apply RoundTrip.ffma | fcvt => apply RoundTrip.fcvt
  | evsendt => apply RoundTrip.evsendt | csrrd => apply RoundTrip.csrrd | csrwr => apply RoundTrip.csrwr | ld => apply RoundTrip.ld
  | st => apply RoundTrip.st | pref => apply RoundTrip.pref | aadd => apply RoundTrip.aadd | afadd => apply RoundTrip.afadd
  | amin => apply RoundTrip.amin | amax => apply RoundTrip.amax | aand => apply RoundTrip.aand | aor => apply RoundTrip.aor
  | axor => apply RoundTrip.axor | aswp => apply RoundTrip.aswp | acas => apply RoundTrip.acas | waita => apply RoundTrip.waita
  | cpyin => apply RoundTrip.cpyin | cpyout => apply RoundTrip.cpyout | cpyt => apply RoundTrip.cpyt | cpyx => apply RoundTrip.cpyx
  | gather => apply RoundTrip.gather | scatter => apply RoundTrip.scatter | scatadd => apply RoundTrip.scatadd
  | subscr => apply RoundTrip.subscr | slotwb => apply RoundTrip.slotwb | cadd => apply RoundTrip.cadd
  | cwait => apply RoundTrip.cwait | tld => apply RoundTrip.tld | tst => apply RoundTrip.tst | mma => apply RoundTrip.mma
  | mmai => apply RoundTrip.mmai | mmax => apply RoundTrip.mmax | scacc => apply RoundTrip.scacc | ttrn => apply RoundTrip.ttrn
  | tcvt => apply RoundTrip.tcvt | cxsort => apply RoundTrip.cxsort | cxmerge => apply RoundTrip.cxmerge
  | tzero => apply RoundTrip.tzero | tfill => apply RoundTrip.tfill | tlay => apply RoundTrip.tlay | vadd => apply RoundTrip.vadd
  | vsub => apply RoundTrip.vsub | vmul => apply RoundTrip.vmul | vfma => apply RoundTrip.vfma | vmin => apply RoundTrip.vmin
  | vmax => apply RoundTrip.vmax | vabs => apply RoundTrip.vabs | vneg => apply RoundTrip.vneg | vand => apply RoundTrip.vand
  | vor => apply RoundTrip.vor | vxor => apply RoundTrip.vxor | vshl => apply RoundTrip.vshl | vshr => apply RoundTrip.vshr
  | vcmp => apply RoundTrip.vcmp | vsel => apply RoundTrip.vsel | vcvt => apply RoundTrip.vcvt | vscl => apply RoundTrip.vscl
  | vclmp => apply RoundTrip.vclmp | vbcr => apply RoundTrip.vbcr | vbcc => apply RoundTrip.vbcc | vrsum => apply RoundTrip.vrsum
  | vcsum => apply RoundTrip.vcsum | vrr => apply RoundTrip.vrr | vfn => apply RoundTrip.vfn | vtbl => apply RoundTrip.vtbl
  | viota => apply RoundTrip.viota | vperm => apply RoundTrip.vperm | lit => apply RoundTrip.lit | lith => apply RoundTrip.lith
  | _ => exact fun _ hi => absurd rfl hi

/-- Settles O3: the decoder reads each instruction back, one row of Tables 3.7 and 3.8 at a time. -/
theorem encodedInstructionsDecode : Obligations.EncodedInstructionsDecode := roundTrip_statement

/-- Settles O2: Table 3.12 and the refused words, each by running the decoder on its words. -/
theorem knownWordsDecode : Obligations.KnownWordsDecode :=
  ⟨rfl, rfl, rfl, rfl, rfl, rfl, rfl, rfl, rfl, rfl, rfl, rfl, rfl, rfl, rfl, rfl, rfl⟩

/-- The fault of Table 1.7 that words which are no instruction raise in a cell of area `a` (R57, R58, R320). -/
def faultOfWords (a : Area) : NotInstr → BitVec 8
  | .noExit => match a.kind with | .trap _ => fltOperatorInvalid | _ => fltNoExit
  | .illegalLength => fltIllegalLength
  | .illegalOpcode => fltIllegalOpcode
  | .reservedField priv => if priv && !a.privileged then fltPriv else fltReservedField

theorem exec_encodingNotInstruction_raises {s : State} {ar : Area} {k : Cell} (why : NotInstr) (ha : s.area s.cur.1 = some ar)
    (hk : ar.cells.find s.cur.2 = some k) : exec (.encodingNotInstruction why) s = .next (s.raise (faultOfWords ar why) 0) := by
  simp only [exec_encodingNotInstruction, execEncodingNotInstruction, ha, hk]
  cases why <;> rfl

theorem faultOfWords_trap {a : Area} {u : Nat} (h : a.kind = .trap u) : faultOfWords a .noExit = fltOperatorInvalid := by
  simp only [faultOfWords, h]

theorem faultOfWords_noExit {a : Area} (h : ∀ u, a.kind ≠ .trap u) : faultOfWords a .noExit = fltNoExit := by
  cases hk : a.kind with
  | trap u => exact absurd hk (h u)
  | user | shadow | save | restore => simp only [faultOfWords, hk]

/-- Settles O4: the issuing cell raises the fault of the first failing check, PRIV before RESERVED_FIELD. -/
theorem nonInstructionsRaise : Obligations.NonInstructionsRaise := by
  intro s ar k ha hk
  have raises (why : NotInstr) := exec_encodingNotInstruction_raises why ha hk
  refine ⟨raises .illegalLength, raises .illegalOpcode, raises (.reservedField false), fun hp => ?_, fun hp => ?_, fun hn => ?_,
    fun v hv => ?_⟩
  · rw [raises, faultOfWords, hp]; rfl
  · rw [raises, faultOfWords, hp]; rfl
  · rw [raises, faultOfWords_noExit hn, fltNoExit]
  · rw [raises, faultOfWords_trap hv, fltOperatorInvalid]

end Sys2Proof.Machine
end

section
namespace Sys2Proof.Machine

/-! ## Fields of a word, bit by bit (R101, R106, R157) -/

/-- A mask of the low bits keeps the value modulo a power of two. -/
theorem and_lowMask (x : Word) {n : Nat} (hn : n ≤ 64) : x &&& BitVec.ofNat 64 (2 ^ n - 1) = BitVec.ofNat 64 (x.toNat % 2 ^ n) := by
  have hp : 2 ^ n ≤ 2 ^ 64 := Nat.pow_le_pow_right (by decide) hn
  have hm : (2 ^ n - 1) % 2 ^ 64 = 2 ^ n - 1 := Nat.mod_eq_of_lt (by have := Nat.two_pow_pos n; omega)
  apply BitVec.eq_of_toNat_eq
  rw [BitVec.toNat_and, BitVec.toNat_ofNat, BitVec.toNat_ofNat, hm, Nat.and_two_pow_sub_one_eq_mod,
    Nat.mod_eq_of_lt (Nat.lt_of_lt_of_le (Nat.mod_lt _ (Nat.two_pow_pos n)) hp)]

/-- BEXT's value bit by bit: the field moved to bit 0, zero above it and above bit 63 of the source. -/
theorem getLsbD_ofNat_bits (x : Word) (lo j : Nat) {w : Nat} (hw : w < 64) :
    (BitVec.ofNat 64 (bits x.toNat lo (w + 1))).getLsbD j = (decide (j ≤ w) && x.getLsbD (lo + j)) := by
  rw [BitVec.getLsbD_ofNat, bits, Nat.testBit_mod_two_pow, Nat.testBit_div_two_pow, ← BitVec.testBit_toNat]
  by_cases hj : j ≤ w
  · simp [hj, Nat.lt_succ_of_le hj, Nat.lt_of_le_of_lt hj hw, Nat.add_comm]
  · simp [hj, show ¬ j < w + 1 by omega]

/-- The value of BINS and DSET bit by bit: the field from the low bits of `v`, the rest of `old` kept. -/
theorem getLsbD_bins (old v : Word) (w lo : Nat) {j : Nat} (hj : j < 64) :
    (bins old v w lo).getLsbD j = if lo ≤ j ∧ j ≤ lo + w then v.getLsbD (j - lo) else old.getLsbD j := by
  have mask : (BitVec.ofNat 64 ((2 ^ (w + 1) - 1) * 2 ^ lo)).getLsbD j = decide (lo ≤ j ∧ j ≤ lo + w) := by
    rw [BitVec.getLsbD_ofNat, Nat.testBit_mul_two_pow, Nat.testBit_two_pow_sub_one]
    simp only [hj, decide_true, Bool.true_and, ← Bool.decide_and]
    exact decide_eq_decide.mpr (by omega)
  simp only [bins, BitVec.getLsbD_or, BitVec.getLsbD_and, BitVec.getLsbD_not, BitVec.getLsbD_shiftLeft, mask, hj, decide_true,
    Bool.true_and]
  by_cases hf : lo ≤ j ∧ j ≤ lo + w
  · simp [hf, Nat.not_lt.mpr hf.1]
  · simp [hf]

/-- Clearing bits 47 to 45 is replacing that field by 0 (Table 5.9, kind 8). -/
theorem clear_bits_45_47 (x : Word) : x &&& ~~~(0x7#64 <<< 45) = x.extractLsb' 48 16 ++ 0#3 ++ x.extractLsb' 0 45 := by
  have field : x &&& ~~~(0x7#64 <<< 45) = bins x 0 2 45 := by simp [bins]
  rw [field]
  apply BitVec.eq_of_getLsbD_eq
  intro j hj
  rw [getLsbD_bins x 0 2 45 hj]
  simp only [BitVec.getLsbD_append, BitVec.getLsbD_extractLsb', BitVec.getLsbD_zero]
  rcases Nat.lt_or_ge j 45 with h | h
  · simp [h, show ¬ 45 ≤ j by omega]
  · rcases Nat.lt_or_ge j 48 with h' | h'
    · simp [h, show ¬ j < 45 by omega, show j ≤ 47 by omega, show j - 45 < 3 by omega]
    · simp [h, show ¬ j < 45 by omega, show ¬ j ≤ 47 by omega, show ¬ j - 45 < 3 by omega, show j - 45 - 3 < 16 by omega,
        show 48 + (j - 45 - 3) = j by omega]

/-- MKSYM's value field is that of Table 5.9: kinds 5, 7, 8 and 11 mask their value, the others are the same expression in both. -/
theorem symValue_eq (kind : BitVec 4) (x : Word) : symValue kind x = Claims.symbolValue kind.toNat x := by
  unfold symValue
  generalize kind.toNat = n
  match n with
  | 5 => exact and_lowMask x (n := 12) (by decide)
  | 7 => exact and_lowMask x (n := 32) (by decide)
  | 8 => exact clear_bits_45_47 x
  | 11 => exact and_lowMask x (n := 6) (by decide)
  | 0 | 1 | 2 | 3 | 4 | 6 | 9 | 10 | n + 12 => rfl

/-! ## Literals, draws, symbols, special registers and descriptors (R52, R68, R79, R100, R101, R105–R107, R112, R157)

Each instruction that passes its gate is its body (`State.gate_issues`); what is left is the value that the body writes. -/

theorem literalAndFieldResults : Claims.LiteralAndFieldResults := by
  intro s ar k c d a w lo i n
  refine ⟨fun h => ⟨?_, ?_, ?_, ?_⟩, fun h => ⟨⟨_, ?_, fun j => getLsbD_ofNat_bits (k.sreg a) lo.toNat j w.isLt⟩,
    ⟨_, ?_, fun j hj => getLsbD_bins (k.sreg d) (k.sreg a) w.toNat lo.toNat hj⟩⟩⟩
  · exact (exec_movi c d i s).trans (State.gate_issues 1 _ h)
  · exact (exec_lit c 0 d n s).trans (State.gate_issues 3 _ h)
  · exact (exec_lit c 1 d n s).trans (State.gate_issues 3 _ h)
  · exact (exec_lith c d n s).trans (State.gate_issues 3 _ h)
  · exact (exec_bext c d a w lo s).trans (State.gate_issues 2 _ h)
  · exact (exec_bins c d a w lo s).trans (State.gate_issues 2 _ h)

theorem generatorDraws : Claims.GeneratorDraws := by
  refine fun s h mode => ⟨fun hm => if_neg hm, _, _, _, rfl, rfl, rfl, ?_⟩
  rw [State.draw, if_pos rfl, drawSR, BitVec.toNat_ushiftRight, Nat.shiftRight_eq_div_pow]

theorem Sym.kindWord_eq (y : Sym) : y.kindWord = Claims.kindWord y := by
  obtain ⟨kind, poison, transit, value⟩ := y
  cases poison <;> cases transit <;> rfl

theorem State.symAt_user {s : State} {a : Area} {i : Nat} {y : Cell} (hu : a.kind = .user) (hy : a.cells.find i = some y) :
    s.symAt a i = some (s.sym y.phys) := by
  simp only [State.symAt, hu, hy, Option.map_some]

theorem State.symAt_user_none {s : State} {a : Area} {i : Nat} (hu : a.kind = .user) (hy : a.cells.find i = none) :
    s.symAt a i = none := by
  simp only [State.symAt, hu, hy, Option.map_none]

theorem State.symAt_supervisor {s : State} {a : Area} (i : Nat) (hv : a.kind.supervisor = true) : s.symAt a i = none := by
  cases hk : a.kind with
  | user | shadow => rw [hk] at hv; exact absurd hv Bool.false_ne_true
  | trap | save | restore => simp only [State.symAt, hk]

theorem State.ownSym_of_symAt {s : State} {a : Area} {y : Sym} (h : s.symAt a s.cur.2 = some y) : s.ownSym a = y := by
  rw [State.ownSym, h, Option.getD_some]

theorem State.ownSym_supervisor {s : State} {a : Area} (hv : a.kind.supervisor = true) : s.ownSym a = Sym.empty := by
  rw [State.ownSym, State.symAt_supervisor _ hv, Option.getD_none]

section
variable {s : State} {ar : Area} {k : Cell} {c : Cond} {d a : SReg} {y : Sym}

/-- SYMRD and SYMKD write the value and the kind of what the cell's own symbol reads as (R105). -/
theorem exec_ownSymbol (h : s.issues c [d] ar k) (hy : s.ownSym ar = y) :
    exec (.symrd c d) s = .next (s.finish k 1 (fun x => x.setS d y.value y.poison)) ∧
    exec (.symkd c d) s = .next (s.finish k 1 (fun x => x.setS d (y.kind.zeroExtend 64) false)) := by
  subst hy
  exact ⟨(exec_symrd c d s).trans (State.gate_issues 1 _ h), (exec_symkd c d s).trans (State.gate_issues 1 _ h)⟩

/-- SYMGET of a cell that the area has: its value with both poisons, or its kind word (R112). -/
theorem exec_symget_some (h : s.issues c [d, a] ar k) (hy : s.symAt ar (k.sreg a).toNat = some y) :
    exec (.symget c 0 d a) s = .next (s.finish k 1 (fun x => x.setS d y.value (y.poison || k.spsn a))) ∧
    exec (.symget c 1 d a) s = .next (s.finish k 1 (fun x => x.setS d (Claims.kindWord y) (k.spsn a))) := by
  constructor <;> rw [exec_symget, execSymget, State.gate_issues 1 _ h, hy]
  · rfl
  · rw [← Sym.kindWord_eq]; rfl

/-- SYMGET of a cell that the area has not reads 0 (R112). -/
theorem exec_symget_none (f : BitVec 3) (h : s.issues c [d, a] ar k) (hy : s.symAt ar (k.sreg a).toNat = none) :
    exec (.symget c f d a) s = .next (s.finish k 1 (fun x => x.setS d 0 (k.spsn a))) := by
  rw [exec_symget, execSymget, State.gate_issues 1 _ h, hy]; rfl

theorem exec_mksym_issues (kind : BitVec 4) (h : s.issues c [d, a] ar k) : exec (.mksym c kind d a) s =
    .next (s.finish k 1 (fun x => x.setS d (Claims.symbolValue kind.toNat (k.sreg a)) (k.spsn a))) := by
  rw [← symValue_eq]; exact State.gate_issues 1 _ h

end

theorem symbolReads : Claims.SymbolReads := by
  intro s ar k c d a kind
  refine ⟨fun hu h => ?_, fun hv h => ?_,
    fun h => ⟨exec_mksym_issues kind h, fun hv f => ?_, fun hu => ⟨fun y hy => ?_, fun hn => ?_⟩⟩⟩
  · have ⟨_, hk, _⟩ := h
    exact exec_ownSymbol h (State.ownSym_of_symAt (State.symAt_user hu hk))
  · exact exec_ownSymbol h (State.ownSym_supervisor hv)
  · exact exec_symget_none f h (State.symAt_supervisor _ hv)
  · exact exec_symget_some h (State.symAt_user hu hy)
  · have none_read : s.symAt ar (k.sreg a).toNat = none := State.symAt_user_none hu hn
    exact ⟨exec_symget_none 0 h none_read, exec_symget_none 1 h none_read⟩

/-- The special registers of a leaf cell are the model's, one selector of Table 5.3 at a time. -/
theorem State.special_leaf {s : State} {ar : Area} {k : Cell} (hu : ar.kind = .user) (hs : k.sup = none) :
    ∀ p ∈ Claims.specials s ar k, s.special ar k p.1.toNat = BitVec.ofNat 64 p.2 := by
  have hl : k.lane = k.phys % 16 := by rw [Cell.lane, hs, Option.getD_none]
  have hp : s.leadOf k.hid = s.lead (k.phys / 65536) := by
    rw [State.leadOf, dieOf, Cell.hid, hidOf, Nat.div_div_eq_div_mul]
  simp only [Claims.specials, List.forall_mem_cons, List.not_mem_nil, false_implies, implies_true, and_true]
  refine ⟨rfl, rfl, rfl, rfl, rfl, ?_, ?_, rfl, ?_, rfl, ?_, ?_⟩
  · simp [State.special, hu]
  · simp [State.special, hp]
  · simp [State.special, hu, areaAddr]
  · simp [State.special, hl]
  · simp [State.special, hp]

theorem specialRegisterReads : Claims.SpecialRegisterReads := by
  intro s ar k c d hu hs h p hp
  rw [← State.special_leaf hu hs p hp]
  exact (exec_movs c d p.1 s).trans (State.gate_issues 1 _ h)

/-- DSET's fields are those of Table 9.1, and none is empty. -/
theorem dsetField_eq : ∀ f ∈ Claims.descField, dsetField f.1.toNat = f.2 ∧ 0 < f.2.2 := by decide

theorem descriptorMoves : Claims.DescriptorMoves := by
  intro s ar k c d a h
  refine ⟨(exec_movd c d a s).trans (State.gate_issues 1 _ h), (exec_movds c a d s).trans (State.gate_issues 1 _ h),
    fun f hf => ⟨_, (exec_dset c f.1 d a s).trans (State.gate_issues 1 _ h), fun j hj => ?_⟩⟩
  obtain ⟨hd, hw⟩ := dsetField_eq f hf
  rw [getLsbD_bins _ _ _ _ hj, hd]
  exact if_congr (by omega) rfl rfl

/-- Settles O21: literals, fields and draws by their bits, the moves and reads by what the gate goes on to. -/
theorem literalsSymbolsAndDescriptors : Obligations.LiteralsSymbolsAndDescriptors :=
  ⟨literalAndFieldResults, generatorDraws, descriptorMoves, symbolReads, specialRegisterReads⟩

end Sys2Proof.Machine
end

section
namespace Sys2Proof.Machine

/-! ## The grid of a floating format (R61, R66)

A place k on the grid is d · 2^F + u: u steps of the size 2^(s + d), at most twice 2^F of them, and at least 2^F where d is not 0.
Every fact about the grid follows from its magnitude in these terms (`magnitude_units`). -/

section
variable {F : Nat} {s : Int}

/-- u steps of the size 2^(s + d), the last place of a binade counted as the first of the next. -/
theorem magnitude_units {d u : Nat} (hu : u ≤ 2 ^ (F + 1)) (hd : d = 0 ∨ 2 ^ F ≤ u) :
    Claims.magnitude F s (d * 2 ^ F + u) = u * (2 : ℚ) ^ (s + d) := by
  have hF := Nat.two_pow_pos F
  have twice : 2 ^ (F + 1) = 2 ^ F + 2 ^ F := by omega
  rcases Nat.lt_or_ge u (2 ^ F) with h | h
  · obtain rfl : d = 0 := by omega
    simp [Claims.magnitude, h]
  obtain ⟨v, rfl⟩ := Nat.exists_eq_add_of_le h
  have place : d * 2 ^ F + (2 ^ F + v) = v + (d + 1) * 2 ^ F := by ring
  have past : ¬ d * 2 ^ F + (2 ^ F + v) < 2 ^ F := by omega
  rw [Claims.magnitude, if_neg past, place, Nat.add_mul_mod_self_right, Nat.add_mul_div_right _ _ hF]
  rcases Nat.lt_or_ge v (2 ^ F) with hv | hv
  · rw [Nat.mod_eq_of_lt hv, Nat.div_eq_of_lt hv]
    congr 2; push_cast; ring
  · obtain rfl : v = 2 ^ F := by omega
    rw [Nat.mod_self, Nat.div_self hF, show s + ((1 + (d + 1) : Nat) : Int) - 1 = s + d + 1 by push_cast; ring,
      zpow_add_one₀ two_ne_zero]
    push_cast; ring

/-- The place of a normal code, its leading bit among the units. -/
theorem normal_place {E : Nat} (M : Nat) (pos : 0 < E) : E * 2 ^ F + M = (E - 1) * 2 ^ F + (2 ^ F + M) := by
  obtain ⟨d, rfl⟩ := Nat.exists_eq_add_of_le' pos
  rw [Nat.add_sub_cancel]; ring

/-- Every place in these terms. -/
theorem exists_units (F k : Nat) : ∃ d u, k = d * 2 ^ F + u ∧ u < 2 ^ (F + 1) ∧ (d = 0 ∨ 2 ^ F ≤ u) := by
  have hF := Nat.two_pow_pos F
  rcases Nat.lt_or_ge k (2 ^ F) with h | h
  · exact ⟨0, k, by simp, by omega, .inl rfl⟩
  · have hm := Nat.mod_lt k hF
    refine ⟨k / 2 ^ F - 1, 2 ^ F + k % 2 ^ F, ?_, by omega, .inr (Nat.le_add_right ..)⟩
    rw [← normal_place _ (Nat.div_pos h hF), Nat.div_add_mod']

theorem magnitude_strictMono (F : Nat) (s : Int) : StrictMono (Claims.magnitude F s) := by
  refine strictMono_nat_of_lt_succ fun k => ?_
  obtain ⟨d, u, rfl, hu, hd⟩ := exists_units F k
  rw [magnitude_units hu.le hd, Nat.add_assoc, magnitude_units hu (by omega)]
  exact mul_lt_mul_of_pos_right (by push_cast; linarith) (by positivity)

theorem magnitude_zero : Claims.magnitude F s 0 = 0 := by
  simpa using magnitude_units (F := F) (s := s) (d := 0) (u := 0) (Nat.zero_le _) (.inl rfl)

end

/-! ## The choice of Table 4.3 (R66) -/

/-- Whether y goes up from its whole part `lo` (Table 4.3); a whole number stays. -/
def RoundsUp (mode r : Nat) (neg : Bool) (lo : Nat) (y : ℝ) : Prop :=
  lo < y ∧
    match mode with
    | 0 => lo + 1 / 2 < y ∨ y = lo + 1 / 2 ∧ lo % 2 = 1
    | 1 => False
    | 2 => neg = true
    | 3 => neg = false
    | _ => lo + 1 ≤ y + r / 2 ^ 16

/-- y ≥ 0 rounds to the whole number u. -/
def RoundsToNat (mode r : Nat) (neg : Bool) (y : ℝ) (u : Nat) : Prop :=
  ∃ lo : Nat, lo ≤ y ∧ y < lo + 1 ∧ (¬ RoundsUp mode r neg lo y ∧ u = lo ∨ RoundsUp mode r neg lo y ∧ u = lo + 1)

section
variable {mode r : Nat} {neg : Bool}

theorem roundsToNat_self (n : Nat) : RoundsToNat mode r neg n n :=
  ⟨n, le_rfl, by linarith, .inl ⟨fun h => lt_irrefl _ h.1, rfl⟩⟩

theorem RoundsToNat.ge {y : ℝ} {u a : Nat} (h : RoundsToNat mode r neg y u) (ha : a ≤ y) : a ≤ u := by
  obtain ⟨lo, -, hi, hu⟩ := h
  have : a < lo + 1 := by exact_mod_cast ha.trans_lt hi
  omega

theorem RoundsToNat.le {y : ℝ} {u a : Nat} (h : RoundsToNat mode r neg y u) (ha : y ≤ a) : u ≤ a := by
  obtain ⟨lo, hlo, -, ⟨-, rfl⟩ | ⟨hup, rfl⟩⟩ := h
  · exact_mod_cast hlo.trans ha
  · have : lo < a := by exact_mod_cast hup.1.trans_le ha
    omega

/-- A whole number rounds to itself in every mode, whatever the draw. -/
theorem RoundsToNat.eq_self {u a : Nat} (h : RoundsToNat mode r neg a u) : u = a :=
  Nat.le_antisymm (h.le le_rfl) (h.ge le_rfl)

/-- Table 4.3 for lo + rem / p, in whole numbers. -/
theorem roundsUp_add_div {lo rem p : Nat} (hrem : 0 < rem) (hp : 0 < p) :
    RoundsUp mode r neg lo (lo + rem / p) ↔
      match mode with
      | 0 => p < 2 * rem ∨ p = 2 * rem ∧ lo % 2 = 1
      | 1 => False
      | 2 => neg = true
      | 3 => neg = false
      | _ => 2 ^ 16 ≤ rem * 2 ^ 16 / p + r := by
  have hp' : (0 : ℝ) < p := by exact_mod_cast hp
  have frac : (0 : ℝ) < rem / p := div_pos (by exact_mod_cast hrem) hp'
  refine (and_iff_right (by linarith : (lo : ℝ) < lo + rem / p)).trans ?_
  match mode with
  | 0 =>
    have above : (lo : ℝ) + 1 / 2 < lo + rem / p ↔ p < 2 * rem := by
      rw [add_lt_add_iff_left, div_lt_div_iff₀ two_pos hp', ← Nat.cast_lt (α := ℝ)]; push_cast; ring_nf
    have tie : (lo : ℝ) + rem / p = lo + 1 / 2 ↔ p = 2 * rem := by
      rw [add_right_inj, div_eq_div_iff hp'.ne' two_ne_zero, ← Nat.cast_inj (R := ℝ), eq_comm]; push_cast; ring_nf
    simp only [above, tie]
  | 1 | 2 | 3 => rfl
  | _ + 4 =>
    have draw : (lo : ℝ) + 1 ≤ lo + rem / p + r / 2 ^ 16 ↔ 2 ^ 16 * p ≤ rem * 2 ^ 16 + r * p := by
      rw [add_assoc, add_le_add_iff_left, div_add_div _ _ hp'.ne' (by positivity), one_le_div (by positivity),
        ← Nat.cast_le (α := ℝ)]
      push_cast; ring_nf
    show (lo : ℝ) + 1 ≤ _ ↔ 2 ^ 16 ≤ _
    rw [draw, ← Nat.sub_le_iff_le_add, ← Nat.sub_le_iff_le_add, Nat.le_div_iff_mul_le hp, Nat.sub_mul]

/-- `roundUnits` makes the choice of Table 4.3 for m · 2^(−k). -/
theorem roundUnits_roundsToNat {m : Nat} {k : Int} {y : ℝ} (h : (m : ℝ) = y * 2 ^ k) :
    RoundsToNat mode r neg y (roundUnits mode neg r m k) := by
  rcases le_or_gt k 0 with hk | hk
  · obtain ⟨j, rfl⟩ := Int.exists_eq_neg_ofNat hk
    have whole : y = (m * 2 ^ j : Nat) := by push_cast; rw [h]; simp
    rw [whole, roundUnits, if_pos hk, Int.natAbs_neg, Int.natAbs_natCast]
    exact roundsToNat_self _
  obtain ⟨j, rfl⟩ := Int.eq_ofNat_of_zero_le hk.le
  have hp := Nat.two_pow_pos j
  have split_m := Nat.div_add_mod' m (2 ^ j)
  have rem_lt := Nat.mod_lt m hp
  rw [roundUnits, if_neg (by omega)]
  simp only [Int.natAbs_natCast]
  generalize m / 2 ^ j = lo at *
  generalize m % 2 ^ j = rem at *
  have hp' : (0 : ℝ) < (2 ^ j : Nat) := by exact_mod_cast hp
  have hy : y = lo + rem / (2 ^ j : Nat) := by
    have : ((lo * 2 ^ j + rem : Nat) : ℝ) = y * 2 ^ j := by rw [split_m, h, zpow_natCast]
    field_simp
    push_cast at this ⊢
    linarith
  rcases Nat.eq_zero_or_pos rem with rfl | pos
  · rw [hy, if_pos rfl, Nat.cast_zero, zero_div, add_zero]
    exact roundsToNat_self _
  have frac : (rem : ℝ) / (2 ^ j : Nat) < 1 := by rw [div_lt_one hp']; exact_mod_cast rem_lt
  have frac_nonneg : (0 : ℝ) ≤ rem / (2 ^ j : Nat) := by positivity
  have up_iff := roundsUp_add_div (mode := mode) (r := r) (lo := lo) (neg := neg) pos hp
  refine ⟨lo, by rw [hy]; linarith, by rw [hy]; linarith, ?_⟩
  rw [hy, up_iff, if_neg pos.ne']
  match mode with
  | 0 => simp only; split_ifs <;> omega
  | 1 => simp only [not_false_eq_true, true_and, true_or]
  | 2 | 3 => cases neg <;> simp
  | _ + 4 => simp only; split_ifs <;> omega

end

/-! ## From whole units to the places of the grid (R66, R67) -/

/-- a and b lie alike to every multiple of 2^−16, so they round alike. -/
def SameSixteenths (a b : ℝ) : Prop :=
  ∀ c : Nat, (a < c / 2 ^ 16 ↔ b < c / 2 ^ 16) ∧ (a = c / 2 ^ 16 ↔ b = c / 2 ^ 16)

theorem SameSixteenths.lt_left {a b : ℝ} (h : SameSixteenths a b) (c : Nat) : (c : ℝ) / 2 ^ 16 < a ↔ (c : ℝ) / 2 ^ 16 < b := by
  rw [← not_le, le_iff_lt_or_eq, (h c).1, (h c).2, ← le_iff_lt_or_eq, not_le]

theorem SameSixteenths.roundsUp_iff {a b : ℝ} {mode r lo : Nat} {neg : Bool} (h : SameSixteenths a b) (hr : r < 2 ^ 16) :
    RoundsUp mode r neg lo a ↔ RoundsUp mode r neg lo b := by
  have whole : ((lo * 2 ^ 16 : Nat) : ℝ) / 2 ^ 16 = lo := by push_cast; ring
  have half : ((lo * 2 ^ 16 + 2 ^ 15 : Nat) : ℝ) / 2 ^ 16 = lo + 1 / 2 := by push_cast; ring
  have draw : (((lo + 1) * 2 ^ 16 - r : Nat) : ℝ) / 2 ^ 16 = lo + 1 - r / 2 ^ 16 := by
    rw [Nat.cast_sub (by omega)]; push_cast; ring
  refine and_congr (whole ▸ h.lt_left (lo * 2 ^ 16)) ?_
  match mode with
  | 0 => exact or_congr (half ▸ h.lt_left _) (and_congr_left' (half ▸ (h _).2))
  | 1 | 2 | 3 => rfl
  | _ + 4 =>
    have below := draw ▸ (h ((lo + 1) * 2 ^ 16 - r)).1
    simp only [← not_lt, ← lt_sub_iff_add_lt, below]

theorem SameSixteenths.lt_nat {a b : ℝ} (h : SameSixteenths a b) (n : Nat) : a < n ↔ b < n := by
  have whole : ((n * 2 ^ 16 : Nat) : ℝ) / 2 ^ 16 = n := by push_cast; ring
  exact whole ▸ (h (n * 2 ^ 16)).1

theorem SameSixteenths.nat_le {a b : ℝ} (h : SameSixteenths a b) (n : Nat) : n ≤ a ↔ n ≤ b := by
  simpa only [not_lt] using (h.lt_nat n).not

theorem RoundsToNat.congr {a b : ℝ} {mode r u : Nat} {neg : Bool} (hu : RoundsToNat mode r neg a u) (h : SameSixteenths a b)
    (hr : r < 2 ^ 16) : RoundsToNat mode r neg b u := by
  obtain ⟨lo, hlo, hhi, hup⟩ := hu
  refine ⟨lo, (h.nat_le lo).mp hlo, ?_, by rwa [← h.roundsUp_iff hr]⟩
  exact_mod_cast (h.lt_nat (lo + 1)).mp (by exact_mod_cast hhi)

/-- Of rising points g, the nearer one of the two around x is the nearest of all. -/
theorem nearest_of_between {g : Nat → ℝ} (hg : StrictMono g) {x : ℝ} {K k : Nat} (lo : g K ≤ x) (hi : x < g (K + 1))
    (near : k = K ∧ x - g K ≤ g (K + 1) - x ∧ (x - g K = g (K + 1) - x → K % 2 = 0) ∨
      k = K + 1 ∧ g (K + 1) - x ≤ x - g K ∧ (x - g K = g (K + 1) - x → K % 2 = 1)) (j : Nat) :
    |x - g k| ≤ |x - g j| ∧ (|x - g k| = |x - g j| → j ≠ k → k % 2 = 0) := by
  have below (i : Nat) (hi' : i ≤ K) : |x - g i| = x - g i ∧ g i ≤ g K :=
    have := hg.monotone hi'
    ⟨abs_of_nonneg (by linarith), this⟩
  have above (i : Nat) (hi' : K < i) : |x - g i| = g i - x ∧ g (K + 1) ≤ g i :=
    have := hg.monotone hi'
    ⟨by rw [abs_sub_comm]; exact abs_of_pos (by linarith), this⟩
  rcases Nat.lt_or_ge K j with hj | hj <;> rcases near with ⟨rfl, near, tie⟩ | ⟨rfl, near, tie⟩
  · obtain ⟨dist, far⟩ := above j hj
    rw [dist, (below k le_rfl).1]
    exact ⟨by linarith, fun e _ => tie (by linarith)⟩
  · obtain ⟨dist, far⟩ := above j hj
    rw [dist, (above (K + 1) K.lt_succ_self).1]
    exact ⟨by linarith, fun e ne => absurd (hg.injective (by linarith)) ne⟩
  · obtain ⟨dist, far⟩ := below j hj
    rw [dist, (below k le_rfl).1]
    exact ⟨by linarith, fun e ne => absurd (hg.injective (by linarith)) ne⟩
  · obtain ⟨dist, far⟩ := below j hj
    rw [dist, (above (K + 1) K.lt_succ_self).1]
    exact ⟨by linarith, fun e _ => by have := tie (by linarith); omega⟩

/-- The modes that keep to the lower magnitude (Table 4.3). -/
def towardZero (mode : Nat) (neg : Bool) : Bool := mode = 1 || mode = 2 && !neg || mode = 3 && neg

theorem towardZero_iff {mode : Nat} {neg : Bool} :
    towardZero mode neg = true ↔ mode = 1 ∨ mode = 2 ∧ neg = false ∨ mode = 3 ∧ neg = true := by
  simp [towardZero, or_assoc]

theorem not_towardZero_of_roundsUp {mode r lo : Nat} {neg : Bool} {y : ℝ} (h : RoundsUp mode r neg lo y) :
    towardZero mode neg = false := by
  match mode, h.2 with
  | 0, _ | n + 4, _ => simp [towardZero]
  | 2, h | 3, h => simp [towardZero, show neg = _ from h]

/-- The draw decides by its sum with the whole sixteenths of the fraction (R66, SR). -/
theorem roundsUp_draw_iff {r lo : Nat} {neg : Bool} {y : ℝ} (hr : r < 2 ^ 16) :
    RoundsUp 4 r neg lo y ↔ (2 : ℤ) ^ 16 ≤ ⌊2 ^ 16 * (y - lo)⌋ + r := by
  have sum : (2 : ℤ) ^ 16 ≤ ⌊2 ^ 16 * (y - lo)⌋ + r ↔ (2 : ℤ) ^ 16 - r ≤ ⌊2 ^ 16 * (y - lo)⌋ := by omega
  have draw : (r : ℝ) < 2 ^ 16 := by exact_mod_cast hr
  rw [sum, Int.le_floor]
  push_cast
  refine ⟨fun ⟨_, h⟩ => ?_, fun h => ⟨by linarith, show (lo : ℝ) + 1 ≤ y + r / 2 ^ 16 by linarith⟩⟩
  have : (lo : ℝ) + 1 ≤ y + r / 2 ^ 16 := h
  linarith

/-- The place that a rounded place k is written as: the grid ends at `top` (Table 4.4). -/
def endOfGrid (top mode : Nat) (neg : Bool) (k : Nat) : Nat :=
  if k < top then k else if towardZero mode neg then top - 1 else top

/-- Beyond the grid. -/
theorem roundsTo_of_top_le {F : Nat} {s : Int} {top mode r k : Nat} {neg : Bool} {x : ℝ} (htop : 0 < top) (hk : top ≤ k)
    (hx : (Claims.magnitude F s top : ℝ) ≤ x) : Claims.roundsTo F s top mode r neg x (endOfGrid top mode neg k) := by
  rw [endOfGrid, if_neg hk.not_gt]
  refine ⟨by split <;> omega, fun _ => ⟨fun h => ?_, fun h => ?_⟩, fun h => absurd hx h.not_ge⟩
  · rw [if_pos (towardZero_iff.mpr h)]; omega
  · rw [if_neg (mt towardZero_iff.mp h)]

/-- y units of the size q lie from the place K on before the next place, and `lo` of them make the place K. -/
structure Between (F : Nat) (s : Int) (K lo : Nat) (y q : ℝ) : Prop where
  unit_pos : 0 < q
  lo_le : lo ≤ y
  lt_hi : y < lo + 1
  at_lo : (Claims.magnitude F s K : ℝ) = lo * q
  at_hi : (Claims.magnitude F s (K + 1) : ℝ) = (lo + 1) * q
  parity : 1 ≤ F → K % 2 = lo % 2

/-- Units of a binade d. -/
theorem between_of_units {F : Nat} {s : Int} {lo d : Nat} {y : ℝ} (hlo : lo ≤ y) (hhi : y < lo + 1) (hy : y < 2 ^ (F + 1))
    (hd : d = 0 ∨ 2 ^ F ≤ y) : Between F s (d * 2 ^ F + lo) lo y (2 ^ (s + d)) := by
  have lo_lt : lo < 2 ^ (F + 1) := by exact_mod_cast hlo.trans_lt hy
  have lo_ge : d = 0 ∨ 2 ^ F ≤ lo := hd.imp_right fun h => by
    have : 2 ^ F < lo + 1 := by exact_mod_cast h.trans_lt hhi
    omega
  refine ⟨by positivity, hlo, hhi, ?_, ?_, fun hF => ?_⟩
  · rw [magnitude_units lo_lt.le lo_ge]; push_cast; rfl
  · rw [Nat.add_assoc, magnitude_units lo_lt (by omega)]; push_cast; rfl
  · obtain ⟨G, rfl⟩ := Nat.exists_eq_add_of_le' hF
    rw [pow_succ, ← mul_assoc]; omega

section
variable {F : Nat} {s : Int} {K lo : Nat} {y q : ℝ}

theorem Between.place_le (b : Between F s K lo y q) : (Claims.magnitude F s K : ℝ) ≤ y * q :=
  b.at_lo ▸ mul_le_mul_of_nonneg_right b.lo_le b.unit_pos.le

theorem Between.lt_next (b : Between F s K lo y q) : y * q < Claims.magnitude F s (K + 1) :=
  b.at_hi ▸ mul_lt_mul_of_pos_right b.lt_hi b.unit_pos

theorem magnitude_strictMono_real (F : Nat) (s : Int) : StrictMono fun k => (Claims.magnitude F s k : ℝ) :=
  Rat.cast_strictMono.comp (magnitude_strictMono F s)

variable {mode r k : Nat} {neg : Bool}

/-- RNE goes to the nearest place, and to the even one of two. -/
theorem Between.nearest (b : Between F s K lo y q) (hF : 1 ≤ F)
    (hup : ¬ RoundsUp 0 r neg lo y ∧ k = K ∨ RoundsUp 0 r neg lo y ∧ k = K + 1) (j : Nat) :
    |y * q - Claims.magnitude F s k| ≤ |y * q - Claims.magnitude F s j| ∧
      (|y * q - Claims.magnitude F s k| = |y * q - Claims.magnitude F s j| → j ≠ k → k % 2 = 0) := by
  refine nearest_of_between (magnitude_strictMono_real F s) b.place_le b.lt_next ?_ j
  have gap_lo : y * q - lo * q = (y - lo) * q := by ring
  have gap_hi : (lo + 1) * q - y * q = (lo + 1 - y) * q := by ring
  simp only [b.at_lo, b.at_hi, gap_lo, gap_hi, mul_le_mul_iff_left₀ b.unit_pos, mul_left_inj' b.unit_pos.ne', b.parity hF]
  have lo_le := b.lo_le
  have lt_hi := b.lt_hi
  refine hup.imp ?_ ?_
  · rintro ⟨h, rfl⟩
    refine ⟨rfl, not_lt.mp fun lt => h ⟨by linarith, .inl (by linarith)⟩, fun e => ?_⟩
    by_contra odd
    exact h ⟨by linarith, .inr ⟨by linarith, by omega⟩⟩
  · rintro ⟨⟨-, above | ⟨tie, odd⟩⟩, rfl⟩
    · exact ⟨rfl, by linarith, fun e => by linarith⟩
    · exact ⟨rfl, by linarith, fun _ => odd⟩

/-- Away from zero goes to the least place from the value on. -/
theorem Between.away (b : Between F s K lo y q) (hup : ¬ (lo : ℝ) < y ∧ k = K ∨ (lo : ℝ) < y ∧ k = K + 1) :
    y * q ≤ Claims.magnitude F s k ∧ ∀ j, j < k → (Claims.magnitude F s j : ℝ) < y * q := by
  have mono := magnitude_strictMono_real F s
  rcases hup with ⟨h, rfl⟩ | ⟨h, rfl⟩
  · have whole : y * q = Claims.magnitude F s k := by rw [b.at_lo, le_antisymm (not_lt.mp h) b.lo_le]
    exact ⟨whole.le, fun j hj => whole ▸ mono hj⟩
  · refine ⟨b.lt_next.le, fun j hj => ?_⟩
    have : (Claims.magnitude F s j : ℝ) ≤ lo * q := b.at_lo ▸ mono.monotone (Nat.le_of_lt_succ hj)
    exact this.trans_lt (mul_lt_mul_of_pos_right h b.unit_pos)

/-- The fraction of a step that the draw meets. -/
theorem Between.fraction (b : Between F s K lo y q) :
    2 ^ 16 * (y * q - Claims.magnitude F s K) / (Claims.magnitude F s (K + 1) - Claims.magnitude F s K) = 2 ^ 16 * (y - lo) := by
  have := b.unit_pos
  rw [b.at_lo, b.at_hi]
  field_simp
  ring

/-- Inside the grid the choice between the two places is that of Table 4.3. -/
theorem Between.roundsTo (b : Between F s K lo y q) {top : Nat} (hF : 1 ≤ F) (hmode : mode ≤ 4) (hr : r < 2 ^ 16) (hK : K < top)
    (hup : ¬ RoundsUp mode r neg lo y ∧ k = K ∨ RoundsUp mode r neg lo y ∧ k = K + 1) :
    Claims.roundsTo F s top mode r neg (y * q) k := by
  have lt_top : y * q < Claims.magnitude F s top := b.lt_next.trans_le ((magnitude_strictMono_real F s).monotone hK)
  refine ⟨by omega, fun h => absurd h lt_top.not_ge, fun _ => ⟨?rne, fun toward => ?toward, fun away => ?away, ?draw⟩⟩
  case rne =>
    rintro rfl j -
    exact b.nearest hF hup j
  case toward =>
    have stays : ¬ RoundsUp mode r neg lo y := fun h => by
      simpa [towardZero_iff.mpr toward] using not_towardZero_of_roundsUp h
    obtain rfl : k = K := by tauto
    exact ⟨hK, b.place_le, b.lt_next⟩
  case away =>
    have up_iff : RoundsUp mode r neg lo y ↔ (lo : ℝ) < y := by
      rcases away with ⟨rfl, rfl⟩ | ⟨rfl, rfl⟩ <;> simp [RoundsUp]
    exact b.away (by rwa [up_iff] at hup)
  case draw =>
    rintro rfl
    rw [roundsUp_draw_iff hr, ← b.fraction, not_le] at hup
    exact ⟨K, hK, b.place_le, b.lt_next, hup.symm⟩

end

/-- Units that round to whole ones round to the place of those, up to the end of the grid. -/
theorem roundsTo_of_roundsToNat {F : Nat} {s : Int} {top mode r u d : Nat} {neg : Bool} {y : ℝ} (hF : 1 ≤ F) (htop : 0 < top)
    (hmode : mode ≤ 4) (hr : r < 2 ^ 16) (hu : RoundsToNat mode r neg y u) (hy : y < 2 ^ (F + 1)) (hd : d = 0 ∨ 2 ^ F ≤ y) :
    Claims.roundsTo F s top mode r neg (y * 2 ^ (s + d)) (endOfGrid top mode neg (d * 2 ^ F + u)) := by
  obtain ⟨lo, hlo, hhi, hup⟩ := hu
  have b : Between F s (d * 2 ^ F + lo) lo y (2 ^ (s + d)) := between_of_units hlo hhi hy hd
  rcases Nat.lt_or_ge (d * 2 ^ F + lo) top with hK | hK
  · have inside : endOfGrid top mode neg (d * 2 ^ F + u) = d * 2 ^ F + u := by
      rw [endOfGrid]
      rcases hup with ⟨_, rfl⟩ | ⟨h, rfl⟩
      · rw [if_pos hK]
      · simp only [not_towardZero_of_roundsUp h, Bool.false_eq_true, if_false]
        split <;> omega
    rw [inside]
    exact b.roundsTo hF hmode hr hK (hup.imp (And.imp_right (congrArg _)) (And.imp_right (congrArg _)))
  · exact roundsTo_of_top_le htop (by omega) (((magnitude_strictMono_real F s).monotone hK).trans b.place_le)

/-! ## The formats and their grids (Tables 4.1, 4.2 and 4.4) -/

/-- The sign bit of a code. -/
def Fmt.sign (f : Fmt) (neg : Bool) : Nat := bit neg * 2 ^ (f.frac + f.expo)

/-- The exponent of the least step. -/
def Fmt.step (f : Fmt) : Int := 1 - f.bias - f.frac

theorem Fmt.code_eq (f : Fmt) (neg : Bool) (e m : Nat) : f.code neg e m = f.sign neg + (e * 2 ^ f.frac + m) := Nat.add_assoc ..

/-- The format f of the type code t, whose grid ends at the place `top`. -/
structure Fmt.OnGrid (f : Fmt) (t top : Nat) : Prop where
  fmt : fmtOf t = some f
  grid : Claims.gridOf t = some (f.frac, f.step, top)
  typeBits : Machine.typeBits t = f.frac + f.expo + 1
  frac_pos : 1 ≤ f.frac
  frac_le : 2 ^ f.frac ≤ top
  largest : ∀ neg, f.largest neg = f.sign neg + (top - 1)
  special : (f.hasInf = true ∧ t ≠ 10 ∧ t ≠ 12 ∧ top = (2 ^ f.expo - 1) * 2 ^ f.frac) ∨ (f = e4m3 ∧ t = 10 ∧ top = 127) ∨
    (f = e2m1 ∧ t = 12 ∧ top = 8)
  past : ∀ neg, f.overflow 0 false neg = f.sign neg + if t = 12 then top - 1 else top

theorem bf16_onGrid : bf16.OnGrid 7 0x7F80 :=
  ⟨rfl, rfl, rfl, by decide, by decide, by decide, by decide, by decide⟩
theorem fp16_onGrid : fp16.OnGrid 8 0x7C00 :=
  ⟨rfl, rfl, rfl, by decide, by decide, by decide, by decide, by decide⟩
theorem fp32_onGrid : fp32.OnGrid 9 0x7F800000 :=
  ⟨rfl, rfl, rfl, by decide, by decide, by decide, by decide, by decide⟩
theorem e4m3_onGrid : e4m3.OnGrid 10 0x7F :=
  ⟨rfl, rfl, rfl, by decide, by decide, by decide, by decide, by decide⟩
theorem e5m2_onGrid : e5m2.OnGrid 11 0x7C :=
  ⟨rfl, rfl, rfl, by decide, by decide, by decide, by decide, by decide⟩
theorem e2m1_onGrid : e2m1.OnGrid 12 8 :=
  ⟨rfl, rfl, rfl, by decide, by decide, by decide, by decide, by decide⟩

theorem onGrid_of_gridOf {t F top : Nat} {s : Int} (h : Claims.gridOf t = some (F, s, top)) :
    ∃ f : Fmt, f.OnGrid t top ∧ F = f.frac ∧ s = f.step := by
  match t with
  | 7 => cases h; exact ⟨bf16, bf16_onGrid, rfl, rfl⟩
  | 8 => cases h; exact ⟨fp16, fp16_onGrid, rfl, rfl⟩
  | 9 => cases h; exact ⟨fp32, fp32_onGrid, rfl, rfl⟩
  | 10 => cases h; exact ⟨e4m3, e4m3_onGrid, rfl, rfl⟩
  | 11 => cases h; exact ⟨e5m2, e5m2_onGrid, rfl, rfl⟩
  | 12 => cases h; exact ⟨e2m1, e2m1_onGrid, rfl, rfl⟩

/-- Table 4.4: with sat and toward zero the largest, otherwise what comes past the grid. -/
theorem Fmt.overflow_eq (f : Fmt) (mode : Nat) (sat neg : Bool) :
    f.overflow mode sat neg = if sat || towardZero mode neg then f.largest neg else f.overflow 0 false neg := by
  cases sat
  · match mode with
    | 0 | 1 => rfl
    | 2 | 3 => cases neg <;> rfl
    | n + 4 => rw [if_neg (by simp [towardZero])]; rfl
  · rfl

section
variable {f : Fmt} {t top : Nat}

/-- The place as which a rounded place is written (Table 4.4). -/
def writtenPlace (t top : Nat) (sat : Bool) (k : Nat) : Nat := if k = top ∧ (sat = true ∨ t = 12) then top - 1 else k

theorem Fmt.OnGrid.overflow_eq (g : f.OnGrid t top) (mode : Nat) (sat neg : Bool) {k : Nat} (hk : top ≤ k) :
    f.overflow mode sat neg = f.sign neg + writtenPlace t top sat (endOfGrid top mode neg k) := by
  rw [Fmt.overflow_eq, g.largest, g.past, endOfGrid, if_neg hk.not_gt, writtenPlace]
  cases sat <;> cases towardZero mode neg <;> simp

theorem Fmt.OnGrid.top_pos (g : f.OnGrid t top) : 0 < top := (Nat.two_pow_pos _).trans_le g.frac_le

theorem writtenPlace_of_lt {mode k : Nat} {sat neg : Bool} (hk : k < top) :
    writtenPlace t top sat (endOfGrid top mode neg k) = k := by
  rw [endOfGrid, if_pos hk, writtenPlace, if_neg (by omega)]

/-- A code past the largest is an overflow (R67). -/
theorem Fmt.OnGrid.overflow_or_code (g : f.OnGrid t top) (mode : Nat) (sat neg : Bool) (e m : Nat) :
    (if f.largest false < f.code false e m then f.overflow mode sat neg else f.code neg e m) =
      f.sign neg + writtenPlace t top sat (endOfGrid top mode neg (e * 2 ^ f.frac + m)) := by
  have past_iff : f.largest false < f.code false e m ↔ top ≤ e * 2 ^ f.frac + m := by
    have := g.top_pos
    rw [g.largest, f.code_eq]; omega
  split
  case isTrue h => exact g.overflow_eq mode sat neg (past_iff.mp h)
  case isFalse h => rw [f.code_eq, writtenPlace_of_lt (Nat.lt_of_not_le (mt past_iff.mpr h))]

/-- The end of the grid in a format that has infinities is their place. -/
theorem Fmt.OnGrid.top_of_hasInf (g : f.OnGrid t top) (hf : f.hasInf = true) : top = (2 ^ f.expo - 1) * 2 ^ f.frac := by
  obtain ⟨-, -, -, e⟩ | ⟨rfl, -⟩ | ⟨rfl, -⟩ := g.special
  · exact e
  · exact absurd hf (by decide)
  · exact absurd hf (by decide)

theorem Fmt.OnGrid.hasInf (g : f.OnGrid t top) (h10 : t ≠ 10) (h12 : t ≠ 12) : f.hasInf = true := by
  obtain ⟨inf, -⟩ | ⟨-, e, -⟩ | ⟨-, e, -⟩ := g.special
  · exact inf
  · exact absurd e h10
  · exact absurd e h12

theorem Fmt.OnGrid.eq_e4m3 (g : f.OnGrid 10 top) : f = e4m3 ∧ top = 0x7F := by
  cases g.fmt
  cases g.grid
  exact ⟨rfl, rfl⟩

/-- The binade of a value: how far its leading bit, or the least normal one, lies above the least normal one. -/
def Fmt.binade (f : Fmt) (m : Nat) (e : Int) : Nat := (max (expOf m e) (1 - f.bias) - (1 - f.bias)).toNat

theorem Fmt.binade_unit (f : Fmt) (m : Nat) (e : Int) : max (expOf m e) (1 - f.bias) - f.frac = f.step + f.binade m e := by
  rw [binade, step]; omega

/-- A value has at most frac + 1 bits in units of its binade, and above the least binade as many. -/
theorem Fmt.binade_bounds (f : Fmt) {m : Nat} (hm : m ≠ 0) {e : Int} {y : ℝ}
    (hy : (m : ℝ) = y * 2 ^ (f.step + f.binade m e - e)) :
    y < 2 ^ (f.frac + 1) ∧ (f.binade m e = 0 ∨ 2 ^ f.frac ≤ y) := by
  have unit_pos : (0 : ℝ) < 2 ^ (f.step + f.binade m e - e) := by positivity
  have hunit := f.binade_unit m e
  have leading : (2 : ℝ) ^ (m.log2 : Int) ≤ m := by rw [zpow_natCast]; exact_mod_cast Nat.log2_self_le hm
  have length : (m : ℝ) < 2 ^ ((m.log2 : Int) + 1) := by
    exact_mod_cast Nat.lt_log2_self
  rw [expOf] at hunit
  constructor
  · refine lt_of_mul_lt_mul_right (a := 2 ^ (f.step + f.binade m e - e)) ?_ unit_pos.le
    rw [← hy, ← zpow_natCast, ← zpow_add₀ two_ne_zero]
    exact length.trans_le (zpow_le_zpow_right₀ one_le_two (by push_cast; omega))
  · refine or_iff_not_imp_left.mpr fun hd => ?_
    refine le_of_mul_le_mul_right (a := 2 ^ (f.step + f.binade m e - e)) ?_ unit_pos
    rw [← hy, ← zpow_natCast, ← zpow_add₀ two_ne_zero]
    refine le_trans (zpow_le_zpow_right₀ one_le_two ?_) leading
    rw [binade, expOf] at hd
    omega

/-- A finite value rounds to units of its binade (R66, R67). -/
theorem Fmt.OnGrid.round_fin (g : f.OnGrid t top) {m : Nat} (hm : m ≠ 0) (e : Int) (mode r : Nat) (sat neg : Bool) :
    f.round mode sat r (.fin neg m e) = f.sign neg + writtenPlace t top sat (endOfGrid top mode neg
      (f.binade m e * 2 ^ f.frac + roundUnits mode neg r m (f.step + f.binade m e - e))) := by
  have rounds := roundUnits_roundsToNat (mode := mode) (r := r) (neg := neg) (m := m) (k := f.step + f.binade m e - e)
    (y := m / 2 ^ (f.step + f.binade m e - e)) (by field_simp)
  obtain ⟨short, long⟩ := f.binade_bounds (y := m / 2 ^ (f.step + f.binade m e - e)) hm (by field_simp)
  generalize hu : roundUnits mode neg r m (f.step + f.binade m e - e) = u at rounds ⊢
  have u_le : u ≤ 2 ^ (f.frac + 1) := rounds.le (by push_cast; exact short.le)
  have u_ge : f.binade m e = 0 ∨ 2 ^ f.frac ≤ u := long.imp_right fun h => rounds.ge (by push_cast; exact h)
  have hunit := f.binade_unit m e
  have hstep : f.step = 1 - f.bias - f.frac := rfl
  have frac_le := g.frac_le
  rw [Fmt.round, if_neg hm]
  simp only [hunit, hu]
  generalize f.binade m e = d at *
  rcases Nat.lt_or_ge u (2 ^ f.frac) with h | h
  · obtain rfl : d = 0 := by omega
    have no_carry : u ≠ 2 ^ (f.frac + 1) := by omega
    simp only [no_carry, if_false, h, if_true]
    rw [Nat.zero_mul, Nat.zero_add, writtenPlace_of_lt (h.trans_le frac_le), f.code_eq, Nat.zero_mul, Nat.zero_add]
  · by_cases carry : u = 2 ^ (f.frac + 1)
    · have field : (f.step + d + 1 + f.frac + f.bias).toNat = d + 2 := by omega
      have place : (d + 2) * 2 ^ f.frac + 0 = d * 2 ^ f.frac + u := by rw [carry]; ring
      simp only [carry, if_true, lt_irrefl, if_false, field, Nat.sub_self]
      rw [g.overflow_or_code, place, carry]
    · have field : (f.step + d + f.frac + f.bias).toNat = d + 1 := by omega
      have place : (d + 1) * 2 ^ f.frac + (u - 2 ^ f.frac) = d * 2 ^ f.frac + u := by rw [Nat.succ_mul]; omega
      simp only [carry, if_false, h.not_gt, field]
      rw [g.overflow_or_code, place]

end

/-! ## Codes and the values that they stand for (R61, R62) -/

section
variable {f : Fmt} {t top : Nat}

theorem bit_decide (p : Prop) [Decidable p] : bit (decide p) = if p then 1 else 0 := by simp [bit]

/-- Every code of the width of a format has its three fields. -/
theorem Fmt.exists_code (f : Fmt) {x : Nat} (hx : x < 2 ^ (f.frac + f.expo + 1)) :
    ∃ E M, E < 2 ^ f.expo ∧ M < 2 ^ f.frac ∧ x % 2 ^ (f.frac + f.expo) = E * 2 ^ f.frac + M ∧
      x = f.code (decide (2 ^ (f.frac + f.expo) ≤ x)) E M := by
  have hF := Nat.two_pow_pos f.frac
  have half_pos := Nat.two_pow_pos (f.frac + f.expo)
  refine ⟨x % 2 ^ (f.frac + f.expo) / 2 ^ f.frac, x % 2 ^ (f.frac + f.expo) % 2 ^ f.frac, ?_, Nat.mod_lt _ hF,
    (Nat.div_add_mod' ..).symm, ?_⟩
  · rw [Nat.div_lt_iff_lt_mul hF, Nat.mul_comm, ← pow_add]
    exact Nat.mod_lt _ half_pos
  · rw [f.code_eq, Nat.div_add_mod', Fmt.sign, bit_decide]
    rw [pow_succ] at hx
    split
    case isTrue h => rw [Nat.mod_eq_sub_mod h, Nat.mod_eq_of_lt (by omega)]; omega
    case isFalse h => rw [Nat.mod_eq_of_lt (by omega)]; omega

/-- The fields of a code. -/
theorem Fmt.fields_code (f : Fmt) (n : Bool) {E M : Nat} (hE : E < 2 ^ f.expo) (hM : M < 2 ^ f.frac) :
    bitOf (f.code n E M) (f.frac + f.expo) = n ∧ bits (f.code n E M) f.frac f.expo = E ∧ bits (f.code n E M) 0 f.frac = M := by
  have hF := Nat.two_pow_pos f.frac
  have code : f.code n E M = M + 2 ^ f.frac * (E + 2 ^ f.expo * bit n) := by rw [Fmt.code, pow_add]; ring
  have upper : f.code n E M / 2 ^ f.frac = E + 2 ^ f.expo * bit n := by
    rw [code, Nat.add_mul_div_left _ _ hF, Nat.div_eq_of_lt hM, Nat.zero_add]
  refine ⟨?_, ?_, ?_⟩
  · rw [bitOf, pow_add, ← Nat.div_div_eq_div_mul, upper, Nat.add_mul_div_left _ _ (Nat.two_pow_pos _), Nat.div_eq_of_lt hE]
    cases n <;> rfl
  · rw [bits, upper, Nat.add_mul_mod_self_left, Nat.mod_eq_of_lt hE]
  · rw [bits_zero, code, Nat.add_mul_mod_self_left, Nat.mod_eq_of_lt hM]

/-- A code that is no special one stands for the value of its place. -/
theorem Fmt.plain_code (f : Fmt) (n : Bool) {E M : Nat} (hE : E < 2 ^ f.expo) (hM : M < 2 ^ f.frac) :
    ∃ d u, E * 2 ^ f.frac + M = d * 2 ^ f.frac + u ∧ u < 2 ^ (f.frac + 1) ∧ (d = 0 ∨ 2 ^ f.frac ≤ u) ∧
      f.plain (f.code n E M) = .fin n u (f.step + d) := by
  obtain ⟨hn, he, hm⟩ := f.fields_code n hE hM
  rw [Fmt.plain, hn, he, hm]
  rcases Nat.eq_zero_or_pos E with rfl | pos
  · exact ⟨0, M, rfl, by omega, .inl rfl, by simp [Fmt.step]⟩
  · refine ⟨E - 1, 2 ^ f.frac + M, normal_place M pos, by omega, .inr (Nat.le_add_right ..), ?_⟩
    rw [if_neg pos.ne', Fmt.step]
    congr 1; omega

theorem decodeT_of_fmtOf (h : fmtOf t = some f) (x : Nat) : decodeT t x = f.decode x := by
  match t with
  | 7 | 8 | 9 | 10 | 11 | 12 => cases h; rfl

theorem intOf_of_fmtOf (h : fmtOf t = some f) : intOf t = none := by
  match t with
  | 7 | 8 | 9 | 10 | 11 | 12 => rfl

/-- Below the end of the grid no code is special. -/
theorem Fmt.OnGrid.decode_of_lt (g : f.OnGrid t top) (n : Bool) {E M : Nat} (hE : E < 2 ^ f.expo) (hM : M < 2 ^ f.frac)
    (hk : E * 2 ^ f.frac + M < top) : f.decode (f.code n E M) = f.plain (f.code n E M) := by
  obtain ⟨-, he, hm⟩ := f.fields_code n hE hM
  simp only [Fmt.decode, he, hm]
  rcases g.special with ⟨inf, -, -, rfl⟩ | ⟨rfl, -, rfl⟩ | ⟨rfl, -, -⟩
  · have notSpecial : E ≠ 2 ^ f.expo - 1 := by rintro rfl; omega
    have notE4m3 : f ≠ e4m3 := by rintro rfl; exact absurd inf (by decide)
    simp [notSpecial, notE4m3]
  · have notNan : ¬ (E = 15 ∧ M = 7) := by rintro ⟨rfl, rfl⟩; exact absurd hk (by decide)
    rw [if_neg (by simp [show e4m3.hasInf = false by decide]), if_neg (by simpa using notNan)]
  · rfl

/-- The codes with the greatest exponent field, in a format that has infinities. -/
theorem Fmt.decode_special (hf : f.hasInf = true) (n : Bool) {M : Nat} (hM : M < 2 ^ f.frac) :
    f.decode (f.code n (2 ^ f.expo - 1) M) = if M = 0 then .inf n else .nan n (M * 2 ^ (23 - f.frac)) := by
  obtain ⟨hn, he, hm⟩ := f.fields_code n (Nat.sub_lt (Nat.two_pow_pos f.expo) Nat.one_pos) hM
  simp [Fmt.decode, hf, hn, he, hm]

/-- A place below the end of the grid: the code stands for its units (R61). -/
theorem Fmt.OnGrid.decodeT_of_lt (g : f.OnGrid t top) {x : Nat} (hx : x < 2 ^ Machine.typeBits t)
    (hk : x % 2 ^ (f.frac + f.expo) < top) :
    ∃ d u, x % 2 ^ (f.frac + f.expo) = d * 2 ^ f.frac + u ∧ u < 2 ^ (f.frac + 1) ∧ (d = 0 ∨ 2 ^ f.frac ≤ u) ∧
      decodeT t x = .fin (decide (2 ^ (f.frac + f.expo) ≤ x)) u (f.step + d) := by
  obtain ⟨E, M, hE, hM, place, code⟩ := f.exists_code (g.typeBits ▸ hx)
  obtain ⟨d, u, hdu, hu, hd, plain⟩ := f.plain_code (decide (2 ^ (f.frac + f.expo) ≤ x)) hE hM
  refine ⟨d, u, place.trans hdu, hu, hd, ?_⟩
  rw [decodeT_of_fmtOf g.fmt, ← plain, ← g.decode_of_lt _ hE hM (place ▸ hk), ← code]

/-- A place from the end of the grid on, in a format that has infinities (Table 4.2). -/
theorem Fmt.OnGrid.decodeT_of_ge (g : f.OnGrid t top) (hf : f.hasInf = true) {x : Nat} (hx : x < 2 ^ Machine.typeBits t)
    (hk : top ≤ x % 2 ^ (f.frac + f.expo)) :
    ∃ M, M < 2 ^ f.frac ∧ x % 2 ^ (f.frac + f.expo) = top + M ∧
      x = f.code (decide (2 ^ (f.frac + f.expo) ≤ x)) (2 ^ f.expo - 1) M ∧
      decodeT t x = if M = 0 then .inf (decide (2 ^ (f.frac + f.expo) ≤ x))
        else .nan (decide (2 ^ (f.frac + f.expo) ≤ x)) (M * 2 ^ (23 - f.frac)) := by
  obtain ⟨E, M, hE, hM, place, code⟩ := f.exists_code (g.typeBits ▸ hx)
  have htop := g.top_of_hasInf hf
  obtain rfl : E = 2 ^ f.expo - 1 := by
    by_contra ne
    have := Nat.mul_le_mul_right (2 ^ f.frac) (by omega : E + 1 ≤ 2 ^ f.expo - 1)
    rw [Nat.succ_mul] at this
    omega
  refine ⟨M, hM, by rw [place, htop], code, ?_⟩
  rw [decodeT_of_fmtOf g.fmt, ← Fmt.decode_special hf _ hM, ← code]

/-- Only E4M3 and the formats with infinities have codes from the end of the grid on. -/
theorem Fmt.OnGrid.hasInf_of_ge (g : f.OnGrid t top) (ht : t ≠ 10) {x : Nat} (hk : top ≤ x % 2 ^ (f.frac + f.expo)) :
    f.hasInf = true := by
  refine g.hasInf ht ?_
  rintro rfl
  cases g.fmt
  cases g.grid
  exact absurd hk (Nat.mod_lt _ (by decide)).not_ge

/-- The two NaN codes of FP8E4M3. -/
theorem e4m3_nan {x : Nat} (hx : x < 2 ^ typeBits 10) (hk : x % 2 ^ (e4m3.frac + e4m3.expo) = 0x7F) :
    decodeT 10 x = .nan (decide (2 ^ (e4m3.frac + e4m3.expo) ≤ x)) 0x400000 := by
  have hx' : x < 256 := hx
  have hk' : x % 128 = 127 := hk
  obtain rfl | rfl : x = 127 ∨ x = 255 := by omega
  · rfl
  · rfl

end

theorem codesLieOnTheGrid : Claims.CodesLieOnTheGrid := by
  intro t F top x s h hx
  obtain ⟨f, g, rfl, rfl⟩ := onGrid_of_gridOf h
  have half : typeBits t - 1 = f.frac + f.expo := by rw [g.typeBits]; rfl
  simp only [half]
  refine ⟨fun hk => ?_, fun ht hk => ?_, fun ht hk => ?_, fun ht hk => ?_⟩
  · obtain ⟨d, u, place, hu, hd, value⟩ := g.decodeT_of_lt hx hk
    exact ⟨u, _, value, by rw [place, magnitude_units hu.le hd, Claims.size]⟩
  · obtain ⟨M, -, place, -, value⟩ := g.decodeT_of_ge (g.hasInf_of_ge ht hk.ge) hx hk.ge
    rw [value, if_pos (by omega)]
  · obtain ⟨M, -, place, -, value⟩ := g.decodeT_of_ge (g.hasInf_of_ge ht hk.le) hx hk.le
    rw [value, if_neg (by omega)]; rfl
  · subst ht
    obtain ⟨rfl, rfl⟩ := g.eq_e4m3
    rw [e4m3_nan hx hk]; rfl

/-! ## The one rounding (R66, R67, R70) -/

section
variable {f : Fmt} {t top : Nat}

/-- What lies like a value to the sixteenths of its units rounds to the code to which that value rounds. -/
theorem Fmt.OnGrid.roundsToCode_of_same (g : f.OnGrid t top) {m : Nat} (hm : m ≠ 0) {e : Int} {mode r : Nat} {neg sat : Bool}
    {y : ℝ} (hmode : mode ≤ 4) (hr : r < 2 ^ 16) (hy : SameSixteenths (m / 2 ^ (f.step + f.binade m e - e)) y) :
    Claims.roundsToCode t mode r sat neg (y * 2 ^ (f.step + f.binade m e)) (f.round mode sat r (.fin neg m e)) := by
  have units : (m : ℝ) = m / 2 ^ (f.step + f.binade m e - e) * 2 ^ (f.step + f.binade m e - e) := by field_simp
  have rounds := roundUnits_roundsToNat (mode := mode) (r := r) (neg := neg) units
  obtain ⟨short, long⟩ := f.binade_bounds hm units
  refine ⟨f.frac, f.step, top, _, g.grid, roundsTo_of_roundsToNat g.frac_pos g.top_pos hmode hr (rounds.congr hy hr)
    (by exact_mod_cast (hy.lt_nat (2 ^ (f.frac + 1))).mp (by exact_mod_cast short))
    (long.imp_right fun h => by exact_mod_cast (hy.nat_le (2 ^ f.frac)).mp (by exact_mod_cast h)), ?_⟩
  rw [g.round_fin hm, Fmt.sign, g.typeBits]
  cases neg <;> simp [bit, writtenPlace]

theorem Fmt.round_zero (f : Fmt) (mode r : Nat) (sat neg : Bool) (e : Int) : f.round mode sat r (.fin neg 0 e) = f.sign neg := by
  rw [Fmt.round, if_pos rfl, f.code_eq, Nat.zero_mul]; rfl

/-- Zero is the place 0 in every mode. -/
theorem Fmt.OnGrid.roundsToCode_zero (g : f.OnGrid t top) {mode r : Nat} (neg sat : Bool) (hmode : mode ≤ 4) (hr : r < 2 ^ 16) :
    Claims.roundsToCode t mode r sat neg 0 (f.sign neg) := by
  have rounds : RoundsToNat mode r neg 0 0 := by exact_mod_cast roundsToNat_self 0
  refine ⟨f.frac, f.step, top, 0, g.grid, ?_, ?_⟩
  · simpa [endOfGrid, g.top_pos] using roundsTo_of_roundsToNat (s := f.step) (d := 0) g.frac_pos g.top_pos hmode hr rounds
      (by positivity) (.inl rfl)
  · have below : ¬ (0 = top ∧ (sat = true ∨ t = 12)) := fun h => g.top_pos.ne h.1
    rw [Fmt.sign, g.typeBits, if_neg below]
    cases neg <;> simp [bit]

theorem Fmt.OnGrid.roundsToCode (g : f.OnGrid t top) (m : Nat) (e : Int) {mode r : Nat} (neg sat : Bool) (hmode : mode ≤ 4)
    (hr : r < 2 ^ 16) :
    Claims.roundsToCode t mode r sat neg (Claims.size m e : ℝ) (f.round mode sat r (.fin neg m e)) := by
  rcases eq_or_ne m 0 with rfl | hm
  · simpa [Claims.size, f.round_zero] using g.roundsToCode_zero neg sat hmode hr
  · have value : (Claims.size m e : ℝ) = m / 2 ^ (f.step + f.binade m e - e) * 2 ^ (f.step + f.binade m e) := by
      rw [zpow_sub₀ two_ne_zero, Claims.size]
      push_cast
      field_simp
    rw [value]
    exact g.roundsToCode_of_same hm hmode hr fun _ => ⟨.rfl, .rfl⟩

theorem roundT_of_fmtOf (h : fmtOf t = some f) (mode r : Nat) (sat : Bool) (v : Val) :
    roundT t mode sat r v = f.round mode sat r v := by
  simp only [roundT, h]

theorem arith_fin (t mode r m : Nat) (sat n : Bool) (e : Int) :
    arith t mode sat r (.fin n m e) = roundT t mode sat r (.fin n m e) := rfl

/-- An infinity stays one without sat (R67). -/
theorem Fmt.OnGrid.round_inf (g : f.OnGrid t top) (hf : f.hasInf = true) (mode r : Nat) (n : Bool) :
    f.round mode false r (.inf n) = f.sign n + top := by
  rw [g.top_of_hasInf hf]
  simp [Fmt.round, hf, f.code_eq]

end

theorem valuesRoundToTheGrid : Claims.ValuesRoundToTheGrid := by
  intro t mode r m sat n e h hmode hr
  obtain ⟨⟨F, s, top⟩, grid⟩ := Option.isSome_iff_exists.mp h
  obtain ⟨f, g, -, -⟩ := onGrid_of_gridOf grid
  refine ⟨?_, arith_fin .., fun a k => ?_, fun F' s' top' h' h10 h12 => ?_⟩
  · rw [roundT_of_fmtOf g.fmt]
    exact g.roundsToCode m e n sat hmode hr
  · match t, h with
    | 7, _ | 8, _ | 9, _ | 10, _ | 11, _ | 12, _ => exact (rfl : Fmt.defaultNaN _ = _)
  · cases grid.symm.trans h'
    rw [roundT_of_fmtOf g.fmt, g.round_inf (g.hasInf h10 h12), Fmt.sign, g.typeBits]
    cases n <;> simp [bit]

/-! ## Exact arithmetic and order (R75, R94, R102, R103) -/

/-- The signed mantissa counts units of 2^e0. -/
theorem signedAt_eq (neg : Bool) (m : Nat) {e e0 : Int} (h : e0 ≤ e) :
    (signedAt neg m e e0 : ℚ) * 2 ^ e0 = Claims.real neg m e := by
  obtain ⟨j, hj⟩ := Int.eq_ofNat_of_zero_le (by omega : 0 ≤ e - e0)
  have scale : (2 : ℚ) ^ j * 2 ^ e0 = 2 ^ e := by
    rw [← zpow_natCast, ← zpow_add₀ two_ne_zero]; congr 1; omega
  rw [signedAt, hj, Claims.real, Claims.size, ← scale]
  cases neg <;> simp <;> ring

/-- A signed mantissa as a value: its sign is that of the mantissa, or z for zero. -/
theorem ofSigned_eq (z : Bool) (x e : Int) :
    ∃ n q g, ofSigned z x e = .fin n q g ∧ Claims.real n q g = (x : ℚ) * 2 ^ e ∧ (x = 0 → n = z) := by
  rw [ofSigned]
  split
  case isTrue h => exact ⟨z, 0, 0, rfl, by simp [h, Claims.real, Claims.size], fun _ => rfl⟩
  case isFalse h =>
    refine ⟨_, _, e, rfl, ?_, fun h' => absurd h' h⟩
    have abs : ((x.natAbs : Nat) : ℚ) = |(x : ℚ)| := by rw [Nat.cast_natAbs, Int.cast_abs]
    rcases lt_or_ge x 0 with neg | nonneg
    · have : (x : ℚ) < 0 := by exact_mod_cast neg
      simp [Claims.real, Claims.size, neg, abs, abs_of_neg this]
    · have : (0 : ℚ) ≤ x := by exact_mod_cast nonneg
      simp [Claims.real, Claims.size, nonneg.not_gt, abs, abs_of_nonneg this]

theorem size_zero (e : Int) : Claims.size 0 e = 0 := by rw [Claims.size, Nat.cast_zero, zero_mul]

theorem real_zero (n : Bool) (e : Int) : Claims.real n 0 e = 0 := by simp [Claims.real, size_zero]

/-- Sums are exact; a zero sum has the sign of two equal zeros, or that of the mode. -/
theorem Val.add_fin (mode m k : Nat) (a b : Bool) (e f : Int) :
    ∃ n q g, Val.add mode (.fin a m e) (.fin b k f) = .fin n q g ∧ Claims.real n q g = Claims.real a m e + Claims.real b k f ∧
      (Claims.real n q g = 0 → n = if m = 0 ∧ k = 0 ∧ a = b then a else decide (mode = 2)) := by
  by_cases zeros : m = 0 ∧ k = 0
  · obtain ⟨rfl, rfl⟩ := zeros
    exact ⟨_, 0, 0, rfl, by simp [real_zero], fun _ => by simp⟩
  · obtain ⟨n, q, g, sum, value, sign⟩ :=
      ofSigned_eq (decide (mode = 2)) (signedAt a m e (min e f) + signedAt b k f (min e f)) (min e f)
    have unfolded : Val.add mode (.fin a m e) (.fin b k f) = .fin n q g := by
      rw [← sum, Val.add, if_neg (by simpa using zeros)]
    refine ⟨n, q, g, unfolded, ?_, fun h => ?_⟩
    · rw [value, Int.cast_add, add_mul, signedAt_eq a m (min_le_left e f), signedAt_eq b k (min_le_right e f)]
    · rw [if_neg (by tauto)]
      refine sign ?_
      have := (mul_eq_zero.mp (value.symm.trans h)).resolve_right (by positivity)
      exact_mod_cast this

theorem Val.mul_fin (m k : Nat) (a b : Bool) (e f : Int) :
    ∃ q g, Val.mul (.fin a m e) (.fin b k f) = .fin (a != b) q g ∧ Claims.size q g = Claims.size m e * Claims.size k f := by
  refine ⟨m * k, e + f, rfl, ?_⟩
  simp only [Claims.size, zpow_add₀ (two_ne_zero (α := ℚ))]
  push_cast; ring

/-- A NaN makes every result a NaN (R102). -/
theorem Val.isNan_of_isNan (mode : Nat) (x y : Val) (h : x.isNan = true ∨ y.isNan = true) :
    (Val.add mode x y).isNan = true ∧ (Val.mul x y).isNan = true ∧ (Val.div x y).isNan = true := by
  cases x with
  | nan => exact ⟨rfl, rfl, rfl⟩
  | inf | fin =>
    cases y with
    | nan => exact ⟨rfl, rfl, rfl⟩
    | inf | fin => exact (h.elim Bool.false_ne_true Bool.false_ne_true).elim

theorem arithmeticIsExact : Claims.ArithmeticIsExact := by
  refine ⟨fun mode m k a b e f => ⟨Val.add_fin mode m k a b e f, Val.mul_fin m k a b e f, rfl, rfl, ?_, ?_, fun hk => ⟨?_, ?_⟩,
    rfl, rfl, rfl⟩, Val.isNan_of_isNan, fun x hx => ?_⟩
  · exact if_pos rfl
  · cases a <;> rfl
  · exact if_neg hk
  · rw [Val.mul, if_neg hk]; cases a <;> cases b <;> rfl
  · cases x with
    | nan => rfl
    | inf | fin => exact absurd hx Bool.false_ne_true

theorem valuesAreOrdered : Claims.ValuesAreOrdered := by
  intro a b m k e f
  refine ⟨?_, .rfl, by simp [Val.lt], by simp [Val.lt]⟩
  have unit_pos : (0 : ℚ) < 2 ^ min e f := by positivity
  rw [← signedAt_eq a m (min_le_left e f), ← signedAt_eq b k (min_le_right e f), mul_lt_mul_iff_left₀ unit_pos, Int.cast_lt]
  exact decide_eq_true_iff

/-! ## Quotients and square roots (R102)

The model keeps the whole part q of a great number w and one sticky bit below it. Half the mantissa 2 · q + sticky lies to every
whole number as w does, and so to every sixteenth of the units of rounding, which are far coarser. -/

/-- The mantissa with its sticky bit. -/
theorem sticky_iff {w : ℝ} {q v : Nat} (lo : q ≤ w) (hi : w < q + 1) (hv : v = 2 * q + if w = q then 0 else 1) (c : Nat) :
    ((v : ℝ) < 2 * c ↔ w < c) ∧ ((v : ℝ) = 2 * c ↔ w = c) := by
  have lt_iff : (v : ℝ) < 2 * c ↔ v < 2 * c := by exact_mod_cast Iff.rfl
  have eq_iff : (v : ℝ) = 2 * c ↔ v = 2 * c := by exact_mod_cast Iff.rfl
  rw [lt_iff, eq_iff, hv]
  split
  case isTrue h => rw [h, Nat.cast_lt, Nat.cast_inj]; omega
  case isFalse h =>
    have inside : q < w := lt_of_le_of_ne lo (Ne.symm h)
    have below : w < c ↔ q < c := ⟨fun hc => by exact_mod_cast lo.trans_lt hc, fun hc => hi.trans_le (by exact_mod_cast hc)⟩
    have notWhole : w ≠ c := by
      rintro rfl
      have : q < c := by exact_mod_cast inside
      have : c < q + 1 := by exact_mod_cast hi
      omega
    rw [below, iff_false_right notWhole]
    omega

/-- In units of at least 2^17 the mantissa v with its sticky bit rounds as 2 · w does. -/
theorem sameSixteenths_sticky {w : ℝ} {q v : Nat} (lo : q ≤ w) (hi : w < q + 1) (hv : v = 2 * q + if w = q then 0 else 1) {k : Int}
    (hk : 17 ≤ k) : SameSixteenths (v / 2 ^ k) (2 * w / 2 ^ k) := by
  intro c
  obtain ⟨j, rfl⟩ := Int.eq_ofNat_of_zero_le (by omega : 0 ≤ k)
  obtain ⟨i, rfl⟩ := Nat.exists_eq_add_of_le (by omega : 17 ≤ j)
  have unit_pos : (0 : ℝ) < 2 ^ ((17 + i : Nat) : Int) := by positivity
  have sixteenths : (c : ℝ) / 2 ^ 16 * 2 ^ ((17 + i : Nat) : Int) = 2 * (c * 2 ^ i : Nat) := by
    rw [zpow_natCast, pow_add]; push_cast; ring
  obtain ⟨lt_iff, eq_iff⟩ := sticky_iff lo hi hv (c * 2 ^ i)
  rw [div_lt_iff₀ unit_pos, div_lt_iff₀ unit_pos, div_eq_iff unit_pos.ne', div_eq_iff unit_pos.ne', sixteenths, lt_iff, eq_iff]
  exact ⟨by rw [mul_lt_mul_iff_right₀ two_pos], by rw [mul_right_inj' two_ne_zero]⟩

/-- A great w with its sticky bit rounds to FP32 as w itself (R102). -/
theorem round_sticky {w : ℝ} {q v mode r : Nat} (lo : q ≤ w) (hi : w < q + 1) (hv : v = 2 * q + if w = q then 0 else 1)
    (hq : 2 ^ 40 ≤ q) (hmode : mode ≤ 4) (hr : r < 2 ^ 16) (neg : Bool) (e : Int) :
    Claims.roundsToCode 9 mode r false neg (w * 2 ^ (e + 1)) (roundFP32 mode r (.fin neg v e)) := by
  have v_ge : 2 ^ 41 ≤ v := by omega
  have v_pos : v ≠ 0 := by omega
  set k : Int := fp32.step + fp32.binade v e - e with hk
  have unit_pos : (0 : ℝ) < 2 ^ k := by positivity
  have coarse : 17 ≤ k := by
    by_contra fine
    have unit_le : (2 : ℝ) ^ k ≤ 2 ^ 16 := by
      rw [← zpow_natCast]; exact zpow_le_zpow_right₀ one_le_two (by push_cast; omega)
    have short : (v : ℝ) / 2 ^ k < 2 ^ 24 := (fp32.binade_bounds (e := e) v_pos (by rw [← hk]; field_simp)).1
    have v_lt : (v : ℝ) < 2 ^ 24 * 2 ^ 16 := ((div_lt_iff₀ unit_pos).mp short).trans_le (by linarith)
    have : v < 2 ^ 24 * 2 ^ 16 := by exact_mod_cast v_lt
    omega
  have value : w * 2 ^ (e + 1) = 2 * w / 2 ^ k * 2 ^ (fp32.step + fp32.binade v e) := by
    rw [show fp32.step + fp32.binade v e = k + e by omega, zpow_add_one₀ two_ne_zero, zpow_add₀ two_ne_zero]
    field_simp
  rw [value]
  exact fp32_onGrid.roundsToCode_of_same v_pos hmode hr (sameSixteenths_sticky lo hi hv coarse)

/-- `isqrt` is the whole part of the square root. -/
theorem isqrt_eq_sqrt (k x r : Nat) (lo : r * r ≤ x) (hi : x < (r + 2 ^ k) * (r + 2 ^ k)) : isqrt k x r = Nat.sqrt x := by
  induction k generalizing r with
  | zero => exact (Nat.eq_sqrt.mpr ⟨lo, hi⟩)
  | succ k ih =>
    rw [isqrt]
    split
    case isTrue h => exact ih _ h (by rw [Nat.add_assoc, ← Nat.two_mul, ← Nat.pow_succ']; exact hi)
    case isFalse h => exact ih _ lo (Nat.lt_of_not_le h)

/-- The quotient of two nonzero values is rounded once from its exact value. -/
theorem round_div {m n mode r : Nat} (hm : m ≠ 0) (hn : n ≠ 0) (hn' : n < 2 ^ 24) (hmode : mode ≤ 4) (hr : r < 2 ^ 16)
    (a b : Bool) (e f : Int) :
    Claims.roundsToCode 9 mode r false (a != b) (Claims.size m e / Claims.size n f : ℚ)
      (roundFP32 mode r ((Val.fin a m e).div (.fin b n f))) := by
  have n_pos : 0 < n := Nat.pos_of_ne_zero hn
  have n_pos' : (0 : ℝ) < n := by exact_mod_cast n_pos
  have great : 2 ^ 40 ≤ m * 2 ^ 128 / n := (Nat.le_div_iff_mul_le n_pos).mpr (by omega)
  have value : ((Claims.size m e / Claims.size n f : ℚ) : ℝ) = (m * 2 ^ 128 : Nat) / n * 2 ^ (e - f - 129 + 1) := by
    rw [show e - f - 129 + 1 = e - f - (128 : Nat) by push_cast; ring, zpow_sub₀ two_ne_zero, zpow_sub₀ two_ne_zero,
      zpow_natCast]
    simp only [Claims.size]
    push_cast
    field_simp
    norm_num
  rw [value, Val.div, if_neg hn, if_neg hm]
  have parts : ((m * 2 ^ 128 : Nat) : ℝ) = n * (m * 2 ^ 128 / n : Nat) + (m * 2 ^ 128 % n : Nat) := by
    exact_mod_cast (Nat.div_add_mod (m * 2 ^ 128) n).symm
  have rem_lt : ((m * 2 ^ 128 % n : Nat) : ℝ) < n := by exact_mod_cast Nat.mod_lt _ n_pos
  refine round_sticky ?_ ?_ ?_ great hmode hr _ _
  · rw [le_div_iff₀ n_pos', parts, mul_comm]; exact le_add_of_nonneg_right (Nat.cast_nonneg _)
  · rw [div_lt_iff₀ n_pos', parts, add_one_mul, mul_comm]; exact add_lt_add_right rem_lt _
  · have whole : (m * 2 ^ 128 : Nat) / (n : ℝ) = (m * 2 ^ 128 / n : Nat) ↔ m * 2 ^ 128 % n = 0 := by
      rw [div_eq_iff n_pos'.ne', parts, mul_comm, add_eq_left, Nat.cast_eq_zero]
    simp only [whole]

/-- The square root of a positive value is rounded once from its exact value. -/
theorem round_sqrt {m mode r : Nat} (hm : m ≠ 0) (hm' : m < 2 ^ 24) (hmode : mode ≤ 4) (hr : r < 2 ^ 16) (e : Int) :
    Claims.roundsToCode 9 mode r false false (Real.sqrt (Claims.size m e : ℚ)) (roundFP32 mode r (Val.fin false m e).sqrt) := by
  rw [Val.sqrt, if_neg hm, if_neg Bool.false_ne_true]
  obtain ⟨m2, e2, even, m2_pos, m2_lt, hm2, he2, value⟩ : ∃ (m2 : Nat) (e2 : Int), e2 % 2 = 0 ∧ 0 < m2 ∧ m2 < 2 ^ 25 ∧
      (if e % 2 = 0 then m else 2 * m) = m2 ∧ (if e % 2 = 0 then e else e - 1) = e2 ∧ Claims.size m e = Claims.size m2 e2 := by
    by_cases h : e % 2 = 0
    · exact ⟨m, e, h, by omega, by omega, if_pos h, if_pos h, rfl⟩
    · refine ⟨2 * m, e - 1, by omega, by omega, by omega, if_neg h, if_neg h, ?_⟩
      rw [Claims.size, Claims.size, zpow_sub_one₀ two_ne_zero]
      push_cast; ring
  simp only [hm2, he2]
  have root : isqrt 100 (m2 * 2 ^ 128) 0 = Nat.sqrt (m2 * 2 ^ 128) := isqrt_eq_sqrt _ _ _ (Nat.zero_le _) (by omega)
  have great : 2 ^ 40 ≤ Nat.sqrt (m2 * 2 ^ 128) := Nat.le_sqrt.mpr (by omega)
  have halved : ((Claims.size m e : ℚ) : ℝ) = (m2 * 2 ^ 128 : Nat) * (2 ^ (e2 / 2 - 65 + 1)) ^ 2 := by
    rw [value, Claims.size, ← zpow_natCast (2 ^ (e2 / 2 - 65 + 1)), ← zpow_mul,
      show (e2 / 2 - 65 + 1) * (2 : Nat) = e2 - (128 : Nat) by push_cast; omega, zpow_sub₀ two_ne_zero, zpow_natCast]
    push_cast
    field_simp
    norm_num
  rw [root, halved, Real.sqrt_mul (Nat.cast_nonneg _), Real.sqrt_sq (by positivity)]
  refine round_sticky Real.nat_sqrt_le_real_sqrt Real.real_sqrt_lt_nat_sqrt_succ ?_ great hmode hr _ _
  have whole : Real.sqrt (m2 * 2 ^ 128 : Nat) = (Nat.sqrt (m2 * 2 ^ 128) : Nat) ↔
      Nat.sqrt (m2 * 2 ^ 128) * Nat.sqrt (m2 * 2 ^ 128) = m2 * 2 ^ 128 := by
    rw [Real.sqrt_eq_iff_mul_self_eq (Nat.cast_nonneg _) (Nat.cast_nonneg _)]
    exact_mod_cast eq_comm
  simp only [whole]

/-- A finite FP32 code. -/
theorem fp32_finite {x : Nat} (hx : x < 2 ^ 32) (h : x % 2 ^ 31 < 0x7F800000) :
    ∃ u e, decodeT 9 x = .fin (decide (2 ^ 31 ≤ x)) u e ∧ u < 2 ^ 24 ∧ Claims.size u e = Claims.magnitude 23 (-149) (x % 2 ^ 31) ∧
      (u = 0 ↔ x % 2 ^ 31 = 0) := by
  obtain ⟨d, u, place, hu, hd, value⟩ := fp32_onGrid.decodeT_of_lt (x := x) hx h
  have place' : x % 2 ^ 31 = d * 2 ^ 23 + u := place
  have hd' : d = 0 ∨ 2 ^ 23 ≤ u := hd
  refine ⟨u, _, value, hu, ?_, by omega⟩
  rw [place', Claims.size]
  exact (magnitude_units hu.le hd).symm

theorem fp32_infinite {x : Nat} (hx : x < 2 ^ 32) (h : x % 2 ^ 31 = 0x7F800000) : decodeT 9 x = .inf (decide (2 ^ 31 ≤ x)) := by
  obtain ⟨M, -, place, -, value⟩ := fp32_onGrid.decodeT_of_ge rfl hx h.ge
  have place' : x % 2 ^ 31 = 0x7F800000 + M := place
  rw [value, if_pos (by omega)]; rfl

theorem fp32_sign (n : Bool) : fp32.sign n = if n then 2 ^ 31 else 0 := by cases n <;> rfl

theorem roundFP32_inf (mode r : Nat) (n : Bool) : roundFP32 mode r (.inf n) = (if n then 2 ^ 31 else 0) + 0x7F800000 := by
  rw [← fp32_sign]; exact fp32_onGrid.round_inf rfl mode r n

theorem roundFP32_zero (mode r : Nat) (n : Bool) (e : Int) : roundFP32 mode r (.fin n 0 e) = if n then 2 ^ 31 else 0 := by
  rw [← fp32_sign]; exact fp32.round_zero mode r false n e

theorem quotientsAndRootsRoundOnce : Claims.QuotientsAndRootsRoundOnce := by
  intro mode r x y hmode hr hx hy hx' hy'
  have zero (n : Bool) (e : Int) : Claims.roundsToCode 9 mode r false n 0 (roundFP32 mode r (.fin n 0 e)) := by
    rw [roundFP32_zero, ← fp32_sign]
    exact fp32_onGrid.roundsToCode_zero n false hmode hr
  dsimp only
  refine ⟨fun fx fy hy0 => ?_, fun hy0 => ?_, fun ix => ?_, fun fx iy => ?_, fun fx => ?_, fun ix => ?_, fun hx0 => ?_,
    fun neg => ?_⟩
  · obtain ⟨u, e, vx, -, sx, -⟩ := fp32_finite hx' fx
    obtain ⟨w, f, vy, hw, sy, hw0⟩ := fp32_finite hy' fy
    rw [vx, vy, ← sx, ← sy, ← Rat.cast_div]
    have hw' : w ≠ 0 := mt hw0.mp hy0
    rcases eq_or_ne u 0 with rfl | hu
    · rw [size_zero, zero_div, Rat.cast_zero, Val.div, if_neg hw', if_pos rfl]; exact zero _ 0
    · exact round_div hu hw' hw hmode hr ..
  · obtain ⟨w, f, vy, -, -, hw0⟩ := fp32_finite hy' (by omega)
    obtain rfl := hw0.mpr hy0
    rw [vy]
    rcases hx.lt_or_eq with fx | ix
    · obtain ⟨u, e, vx, -, -, hu0⟩ := fp32_finite hx' fx
      simp only [vx, Val.div, if_true, hu0]
      split
      · rfl
      · exact roundFP32_inf ..
    · rw [fp32_infinite hx' ix, if_neg (by omega)]
      exact roundFP32_inf ..
  · rw [fp32_infinite hx' ix]
    rcases hy.lt_or_eq with fy | iy
    · obtain ⟨w, f, vy, -⟩ := fp32_finite hy' fy
      rw [vy, if_neg (by omega)]
      exact roundFP32_inf ..
    · rw [fp32_infinite hy' iy, if_pos iy]; rfl
  · obtain ⟨u, e, vx, -⟩ := fp32_finite hx' fx
    rw [vx, fp32_infinite hy' iy]
    exact roundFP32_zero ..
  · obtain ⟨u, e, vx, hu, sx, -⟩ := fp32_finite hx' (by omega)
    rw [vx, ← sx, decide_eq_false (by omega)]
    rcases eq_or_ne u 0 with rfl | hu0
    · rw [size_zero, Rat.cast_zero, Real.sqrt_zero, Val.sqrt, if_pos rfl]; exact zero false 0
    · exact round_sqrt hu0 hu hmode hr e
  · rw [ix]; exact roundFP32_inf mode r false
  · rw [hx0]; exact roundFP32_zero mode r true _
  · rcases hx.lt_or_eq with fx | ix
    · obtain ⟨u, e, vx, -, -, hu0⟩ := fp32_finite hx' fx
      rw [vx, decide_eq_true neg.le, Val.sqrt, if_neg (mt hu0.mp (by omega)), if_pos rfl]; rfl
    · rw [fp32_infinite hx' ix, decide_eq_true neg.le]; rfl

/-! ## Integer types (R59, R60, R68, R69) -/

section
variable {t : Nat}

/-- The codes from 0 to 6 are the integer types, the even ones signed (Table 3.10). -/
theorem intOf_of_le (h : t ≤ 6) : intOf t = some (typeBits t, decide (t % 2 = 0)) := by
  match t, h with
  | 0, _ | 1, _ | 2, _ | 3, _ | 4, _ | 5, _ | 6, _ => rfl

theorem fmtOf_of_le (h : t ≤ 6) : fmtOf t = none := by
  match t, h with
  | 0, _ | 1, _ | 2, _ | 3, _ | 4, _ | 5, _ | 6, _ => rfl

theorem typeBits_pos (t : Nat) : 0 < typeBits t := by
  unfold typeBits; split <;> decide

theorem two_pow_cast (n : Nat) : (2 : Int) ^ n = (2 ^ n : Nat) := by push_cast; rfl

theorem intLow_eq (t : Nat) : Claims.intLow t = if t % 2 = 0 then -((2 ^ (typeBits t - 1) : Nat) : Int) else 0 := by
  rw [← two_pow_cast]; rfl

theorem intHigh_eq (t : Nat) :
    Claims.intHigh t = if t % 2 = 0 then ((2 ^ (typeBits t - 1) : Nat) : Int) - 1 else ((2 ^ typeBits t : Nat) : Int) - 1 := by
  rw [← two_pow_cast, ← two_pow_cast]; rfl

theorem intMin_eq (t : Nat) : intMin (typeBits t) (decide (t % 2 = 0)) = Claims.intLow t := by
  simp only [intMin, intLow_eq, decide_eq_true_eq]

theorem intMax_eq (t : Nat) : intMax (typeBits t) (decide (t % 2 = 0)) = Claims.intHigh t := by
  simp only [intMax, intHigh_eq, decide_eq_true_eq]

theorem two_pow_typeBits (t : Nat) : 2 ^ typeBits t = 2 * 2 ^ (typeBits t - 1) := by
  rw [← pow_succ', Nat.sub_add_cancel (typeBits_pos t)]

theorem sInt_eq_bmod (n x : Nat) : sInt n x = (x : Int).bmod (2 ^ n) := by
  simp only [sInt, Int.bmod, ← Int.natCast_emod]
  split <;> split <;> omega

/-- The integer of a code is its residue, balanced around 0 for a signed type. -/
theorem intCode_eq (t x : Nat) :
    Claims.intCode t x = if t % 2 = 0 then (x : Int).bmod (2 ^ typeBits t) else (x : Int) % (2 ^ typeBits t : Nat) := by
  have half := two_pow_typeBits t
  simp only [Claims.intCode, Int.bmod, ← Int.natCast_emod]
  rw [two_pow_cast]
  split_ifs <;> omega

theorem wrap_cast (n : Nat) (z : Int) : (wrap n z : Int) = z % (2 ^ n : Nat) :=
  Int.toNat_of_nonneg (Int.emod_nonneg _ (by positivity))

/-- An integer of the type is what its code stands for. -/
theorem intCode_wrap {z : Int} (lo : Claims.intLow t ≤ z) (hi : z ≤ Claims.intHigh t) :
    Claims.intCode t (wrap (typeBits t) z) = z := by
  have half := two_pow_typeBits t
  rw [intLow_eq] at lo
  rw [intHigh_eq] at hi
  rw [intCode_eq, wrap_cast]
  split
  case isTrue signed =>
    rw [if_pos signed] at lo hi
    rw [Int.emod_bmod, Int.bmod_eq_of_le (by omega) (by omega)]
  case isFalse unsigned =>
    rw [if_neg unsigned] at lo hi
    rw [Int.emod_emod_of_dvd _ dvd_rfl, Int.emod_eq_of_lt (by omega) (by omega)]

theorem intLow_le_intHigh (t : Nat) : Claims.intLow t ≤ 0 ∧ 0 ≤ Claims.intHigh t := by
  have low := Nat.two_pow_pos (typeBits t - 1)
  have high := Nat.two_pow_pos (typeBits t)
  rw [intLow_eq, intHigh_eq]
  split <;> omega

theorem intCode_bounds (t x : Nat) : Claims.intLow t ≤ Claims.intCode t x ∧ Claims.intCode t x ≤ Claims.intHigh t := by
  have low := Nat.mod_lt x (Nat.two_pow_pos (typeBits t))
  have half := two_pow_typeBits t
  simp only [intLow_eq, intHigh_eq, Claims.intCode, two_pow_cast]
  split_ifs <;> omega

/-- A code of the type is the residue of its integer. -/
theorem wrap_intCode {x : Nat} (hx : x < 2 ^ typeBits t) : wrap (typeBits t) (Claims.intCode t x) = x := by
  have residue : Claims.intCode t x % (2 ^ typeBits t : Nat) = x % (2 ^ typeBits t : Nat) := by
    rw [intCode_eq]
    split
    · exact Int.bmod_emod
    · exact Int.emod_emod_of_dvd _ dvd_rfl
  have : (wrap (typeBits t) (Claims.intCode t x) : Int) = x := by
    rw [wrap_cast, residue]; exact_mod_cast Nat.mod_eq_of_lt hx
  exact_mod_cast this

theorem intCode_wrap_clamp (t : Nat) (z : Int) :
    Claims.intCode t (wrap (typeBits t) (clamp z (Claims.intLow t) (Claims.intHigh t))) =
      max (Claims.intLow t) (min z (Claims.intHigh t)) := by
  have := intLow_le_intHigh t
  exact intCode_wrap (le_max_left ..) (max_le (by omega) (min_le_right ..))

theorem decodeT_int (h : t ≤ 6) (x : Nat) : decodeT t x = .ofInt (Claims.intCode t x) := by
  rw [intCode_eq]
  by_cases signed : t % 2 = 0
  · rw [if_pos signed, ← sInt_eq_bmod]
    simp only [decodeT, intOf_of_le h, signed, decide_true]
  · rw [if_neg signed, ← Int.natCast_emod, ← bits_zero]
    simp only [decodeT, intOf_of_le h, signed, decide_false]

end

theorem convert_int {src dst mode r x : Nat} {sat : Bool} (hs : src ≤ 6) (hd : dst ≤ 6) :
    convert src dst mode sat r x = wrap (typeBits dst)
      (if sat then clamp (Claims.intCode src x) (Claims.intLow dst) (Claims.intHigh dst) else Claims.intCode src x) := by
  have value : (if Claims.intCode src x < 0 then -((Claims.intCode src x).natAbs : Int) else (Claims.intCode src x).natAbs) =
      Claims.intCode src x := by split <;> omega
  simp only [convert, intOf_of_le hs, intOf_of_le hd, decodeT_int hs, Val.ofInt, decide_eq_true_eq, value, intMin_eq, intMax_eq]

theorem fcvtCode_same {t mode r x : Nat} {sat : Bool} (h : 7 ≤ t) (h' : t ≤ 12) : fcvtCode t t mode sat r x = x := by
  match t with
  | 7 | 8 | 9 | 10 | 11 | 12 => rfl

theorem fmtOf_isSome_iff (t : Nat) : (fmtOf t).isSome = true ↔ 7 ≤ t ∧ t ≤ 12 := by
  match t with
  | 0 | 1 | 2 | 3 | 4 | 5 | 6 | 7 | 8 | 9 | 10 | 11 | 12 => decide
  | n + 13 => exact ⟨fun h => absurd h Bool.false_ne_true, fun h => absurd h.2 (by omega)⟩

theorem fcvtCode_convert {st dt mode r x : Nat} {sat : Bool} (h : ¬ (st = dt ∧ 7 ≤ st ∧ st ≤ 12)) :
    fcvtCode st dt mode sat r x = convert st dt mode sat r x := by
  rw [fcvtCode, if_neg (by simpa [fmtOf_isSome_iff] using h)]

theorem conversionResults : Claims.ConversionResults := by
  intro s ar k c d a sat rnd dt st h
  refine ⟨fcvtCode st.toNat dt.toNat rnd.toNat sat (s.draw k.hid rnd.toNat).1 ((k.sreg a).toNat % 2 ^ typeBits st.toNat), ?_,
    ?_, fun other => ?_, fun hs hd plain => ?_, fun hs hd clamped => ?_⟩
  · rw [← bits_zero, exec_fcvt]
    exact State.gate_issues 2 _ h
  · rintro rfl lo hi
    exact fcvtCode_same lo hi
  · exact fcvtCode_convert fun ⟨e, lo, hi⟩ => other ⟨BitVec.eq_of_toNat_eq e, lo, hi⟩
  · rw [fcvtCode_convert (by omega), convert_int hs hd, plain]
    rw [if_neg Bool.false_ne_true, wrap]; push_cast; rfl
  · rw [fcvtCode_convert (by omega), convert_int hs hd, clamped, if_pos rfl, intCode_wrap_clamp]

/-! ## Values rounded to integers (R69) -/

section
variable {t : Nat}

theorem roundT_int_nan (h : t ≤ 6) (mode r f : Nat) (sat n : Bool) : roundT t mode sat r (.nan n f) = 0 := by
  match t, h with
  | 0, _ | 1, _ | 2, _ | 3, _ | 4, _ | 5, _ | 6, _ => rfl

theorem roundT_int_inf (h : t ≤ 6) (mode r : Nat) (sat n : Bool) :
    roundT t mode sat r (.inf n) = wrap (typeBits t) (if n then Claims.intLow t else Claims.intHigh t) := by
  rw [← intMin_eq, ← intMax_eq]
  match t, h with
  | 0, _ | 1, _ | 2, _ | 3, _ | 4, _ | 5, _ | 6, _ => rfl

theorem roundT_int_fin (h : t ≤ 6) (mode r m : Nat) (sat n : Bool) (e : Int) :
    roundT t mode sat r (.fin n m e) = wrap (typeBits t) (clamp
      (if n then -(roundUnits mode n r m (-e) : Int) else roundUnits mode n r m (-e)) (Claims.intLow t) (Claims.intHigh t)) := by
  rw [← intMin_eq, ← intMax_eq]
  match t, h with
  | 0, _ | 1, _ | 2, _ | 3, _ | 4, _ | 5, _ | 6, _ => rfl

/-- A conversion that is not between integers rounds the value of its source, BOOL into E8M0 and kept infinities apart. -/
theorem convert_eq_roundT {src dst mode r x : Nat} {sat : Bool} (h : intOf src = none ∨ intOf dst = none) (hs : src ≠ 14)
    (hk : keptInf src dst (decodeT src x) = none) : convert src dst mode sat r x = roundT dst mode sat r (decodeT src x) := by
  simp only [convert, hk, hs, decide_false, Bool.false_and, Bool.false_eq_true, if_false, Option.getD_none]
  rcases h with h | h
  · rw [h]
  · rw [h]; cases intOf src <;> rfl

theorem convert_float_int {src dst mode r x : Nat} {sat : Bool} (hs : (fmtOf src).isSome = true) (hd : dst ≤ 6) :
    convert src dst mode sat r x = roundT dst mode sat r (decodeT src x) := by
  obtain ⟨f, hf⟩ := Option.isSome_iff_exists.mp hs
  refine convert_eq_roundT (.inl (intOf_of_fmtOf hf)) (by rintro rfl; exact absurd hs (by decide)) ?_
  cases decodeT src x <;> simp [keptInf, fmtOf_of_le hd]

end

/-- A number with its sign, as `Claims.real` has it. -/
theorem real_eq (n : Bool) (m : Nat) (e : Int) : Claims.real n m e = if n then -Claims.size m e else Claims.size m e := rfl

section
variable {mode r u : Nat} {n : Bool} {x : ℚ}

/-- The choice of Table 4.3 for a rational magnitude, with its comparisons among the rationals. -/
theorem RoundsToNat.of_rat (h : RoundsToNat mode r n (x : ℝ) u) : ∃ lo : Nat, lo ≤ x ∧ x < lo + 1 ∧
    (¬ RoundsUp mode r n lo (x : ℝ) ∧ u = lo ∨ RoundsUp mode r n lo (x : ℝ) ∧ u = lo + 1) := by
  obtain ⟨lo, hlo, hhi, hup⟩ := h
  exact ⟨lo, by exact_mod_cast hlo, by exact_mod_cast hhi, hup⟩

theorem roundsUp_nearest_iff {lo : Nat} : RoundsUp 0 r n lo (x : ℝ) ↔ (lo : ℚ) + 1 / 2 < x ∨ x = lo + 1 / 2 ∧ lo % 2 = 1 := by
  have half : (lo : ℝ) + 1 / 2 = ((lo + 1 / 2 : ℚ) : ℝ) := by push_cast; ring
  have choice : RoundsUp 0 r n lo (x : ℝ) ↔ (lo : ℝ) < x ∧ ((lo : ℝ) + 1 / 2 < x ∨ (x : ℝ) = lo + 1 / 2 ∧ lo % 2 = 1) := .rfl
  rw [choice, half, Rat.cast_lt, Rat.cast_inj, and_iff_right_of_imp]
  intro up
  have : (lo : ℚ) < x := by rcases up with up | ⟨up, -⟩ <;> linarith
  exact_mod_cast this

theorem RoundsToNat.nearest (h : RoundsToNat 0 r n (x : ℝ) u) : |x - u| ≤ 1 / 2 ∧ (|x - u| = 1 / 2 → u % 2 = 0) := by
  obtain ⟨lo, hlo, hhi, ⟨stay, rfl⟩ | ⟨up, rfl⟩⟩ := h.of_rat
  · rw [roundsUp_nearest_iff, not_or, not_lt, not_and] at stay
    obtain ⟨below, notTie⟩ := stay
    rw [abs_of_nonneg (by linarith)]
    exact ⟨by linarith, fun tie => by have := notTie (by linarith); omega⟩
  · rw [roundsUp_nearest_iff] at up
    push_cast
    rw [abs_sub_comm, abs_of_pos (by linarith)]
    rcases up with above | ⟨tie, odd⟩
    · exact ⟨by linarith, fun tie => by linarith⟩
    · exact ⟨by linarith, fun _ => by omega⟩

/-- Away from zero: the least whole number from x on. -/
theorem RoundsToNat.away (up_iff : ∀ lo : Nat, RoundsUp mode r n lo (x : ℝ) ↔ (lo : ℝ) < x) (h : RoundsToNat mode r n (x : ℝ) u) :
    (u : ℚ) - 1 < x ∧ x ≤ u := by
  obtain ⟨lo, hlo, hhi, ⟨stay, rfl⟩ | ⟨up, rfl⟩⟩ := h.of_rat
  · have : x ≤ u := by rw [up_iff, not_lt] at stay; exact_mod_cast stay
    exact ⟨by linarith, this⟩
  · have : (lo : ℚ) < x := by rw [up_iff] at up; exact_mod_cast up
    push_cast
    exact ⟨by linarith, hhi.le⟩

/-- Toward zero: the greatest whole number up to x. -/
theorem RoundsToNat.toward (never : ∀ lo : Nat, ¬ RoundsUp mode r n lo (x : ℝ)) (h : RoundsToNat mode r n (x : ℝ) u) :
    (u : ℚ) ≤ x ∧ x < u + 1 := by
  obtain ⟨lo, hlo, hhi, ⟨-, rfl⟩ | ⟨up, -⟩⟩ := h.of_rat
  · exact ⟨hlo, hhi⟩
  · exact absurd up (never lo)

theorem RoundsToNat.draw (hr : r < 2 ^ 16) (h : RoundsToNat 4 r n (x : ℝ) u) :
    ∃ up : Bool, (up = true ↔ (2 : ℤ) ^ 16 ≤ ⌊(2 : ℚ) ^ 16 * (x - ⌊x⌋)⌋ + r) ∧ (u : Int) = ⌊x⌋ + if up then 1 else 0 := by
  obtain ⟨lo, hlo, hhi, hup⟩ := h.of_rat
  have floor : ⌊x⌋ = lo := Int.floor_eq_iff.mpr ⟨by exact_mod_cast hlo, by exact_mod_cast hhi⟩
  have fraction : ⌊(2 : ℝ) ^ 16 * (x - lo)⌋ = ⌊(2 : ℚ) ^ 16 * (x - lo)⌋ := by
    rw [← Rat.floor_cast (α := ℝ)]; push_cast; rfl
  rw [roundsUp_draw_iff hr, fraction] at hup
  rw [floor]
  rcases hup with ⟨stay, rfl⟩ | ⟨up, rfl⟩
  · exact ⟨false, by simpa using stay, by simp⟩
  · exact ⟨true, by simpa using up, by simp⟩

/-- The five modes for a value with a sign. -/
theorem RoundsToNat.signed (hr : r < 2 ^ 16) (hx : 0 ≤ x) (h : RoundsToNat mode r n (x : ℝ) u) {v : ℚ} {i : Int}
    (hv : v = if n then -x else x) (hi : i = if n then -(u : Int) else u) :
    (mode = 0 → |v - i| ≤ 1 / 2 ∧ (|v - i| = 1 / 2 → i % 2 = 0)) ∧
    (mode = 1 → |(i : ℚ)| ≤ |v| ∧ |v| < |(i : ℚ)| + 1 ∧ 0 ≤ i * v) ∧
    (mode = 2 → i = ⌊v⌋) ∧ (mode = 3 → i = ⌈v⌉) ∧
    (mode = 4 → ∃ up : Bool, (up = true ↔ (2 : ℤ) ^ 16 ≤ ⌊(2 : ℚ) ^ 16 * (|v| - ⌊|v|⌋)⌋ + r) ∧
      i = (if n then -1 else 1) * (⌊|v|⌋ + if up then 1 else 0)) := by
  have abs_v : |v| = x := by rw [hv]; cases n <;> simp [abs_of_nonneg hx]
  have abs_i : |(i : ℚ)| = u := by rw [hi]; cases n <;> simp
  have distance : |v - i| = |x - u| := by
    rw [hv, hi]
    cases n
    · simp
    · rw [← abs_neg]; congr 1; simp; ring
  refine ⟨?_, ?_, ?_, ?_, ?_⟩
  · rintro rfl
    rw [distance]
    refine ⟨h.nearest.1, fun tie => ?_⟩
    have := h.nearest.2 tie
    rw [hi]; split <;> omega
  · rintro rfl
    obtain ⟨lo, hi'⟩ := h.toward (fun _ up => up.2)
    rw [abs_v, abs_i]
    refine ⟨lo, hi', ?_⟩
    have : 0 ≤ (u : ℚ) * x := by positivity
    rw [hv, hi]; cases n <;> simpa using this
  · rintro rfl
    rw [eq_comm, Int.floor_eq_iff, hv, hi]
    cases n
    · simpa using h.toward (fun _ up => Bool.false_ne_true up.2)
    · obtain ⟨lo, hi'⟩ := h.away (fun _ => and_iff_left rfl)
      simp only [if_true]
      push_cast
      exact ⟨by linarith, by linarith⟩
  · rintro rfl
    rw [eq_comm, Int.ceil_eq_iff, hv, hi]
    cases n
    · simpa using h.away (fun _ => and_iff_left rfl)
    · obtain ⟨lo, hi'⟩ := h.toward (fun _ up => Bool.false_ne_true (Eq.symm up.2))
      simp only [if_true]
      push_cast
      exact ⟨by linarith, by linarith⟩
  · rintro rfl
    obtain ⟨up, up_iff, value⟩ := h.draw hr
    rw [abs_v]
    refine ⟨up, up_iff, ?_⟩
    rw [hi, ← value]; cases n <;> simp

end

theorem floatsRoundToIntegers : Claims.FloatsRoundToIntegers := by
  intro src dst mode r x sat lo hi hd hmode hr
  have hs : (fmtOf src).isSome = true := (fmtOf_isSome_iff src).mpr ⟨lo, hi⟩
  rw [convert_float_int hs hd]
  obtain ⟨low, high⟩ := intLow_le_intHigh dst
  refine ⟨fun n m e value => ?_, fun nan => ?_, fun inf => ?_, fun inf => ?_⟩
  · have units : (m : ℝ) = (Claims.size m e : ℚ) * 2 ^ (-e) := by
      rw [Claims.size, zpow_neg]; push_cast; field_simp
    have rounds := roundUnits_roundsToNat (mode := mode) (r := r) (neg := n) units
    have size_nonneg : 0 ≤ Claims.size m e := by rw [Claims.size]; positivity
    refine ⟨_, ?_, rounds.signed hr size_nonneg (real_eq n m e) rfl⟩
    rw [value, roundT_int_fin hd, intCode_wrap_clamp]
  · cases value : decodeT src x with
    | nan =>
      rw [roundT_int_nan hd]
      exact intCode_wrap low high
    | inf | fin => rw [value] at nan; exact absurd nan Bool.false_ne_true
  · rw [inf, roundT_int_inf hd]; exact intCode_wrap (low.trans high) le_rfl
  · rw [inf, roundT_int_inf hd]; exact intCode_wrap le_rfl (low.trans high)

/-! ## Narrow codes come back from FP32 (R72, R73) -/

section
variable {f : Fmt} {t top : Nat}

/-- A value at a place of the grid rounds to that place, in every mode and whatever the draw. -/
theorem Fmt.OnGrid.round_exact (g : f.OnGrid t top) {m k : Nat} {e : Int} (hk : k < top)
    (h : Claims.size m e = Claims.magnitude f.frac f.step k) (mode r : Nat) (sat neg : Bool) :
    f.round mode sat r (.fin neg m e) = f.sign neg + k := by
  have mono := magnitude_strictMono f.frac f.step
  rcases eq_or_ne m 0 with rfl | hm
  · have : k = 0 := mono.injective (by rw [← h, size_zero, magnitude_zero])
    rw [f.round_zero, this, Nat.add_zero]
  · obtain ⟨y, hy⟩ : ∃ y : ℝ, (m : ℝ) = y * 2 ^ (f.step + f.binade m e - e) :=
      ⟨m / 2 ^ (f.step + f.binade m e - e), by field_simp⟩
    obtain ⟨short, long⟩ := f.binade_bounds hm hy
    have value : (Claims.magnitude f.frac f.step k : ℝ) = y * 2 ^ (f.step + f.binade m e) := by
      rw [← h, Claims.size]; push_cast
      rw [hy, mul_assoc, ← zpow_add₀ two_ne_zero, sub_add_cancel]
    have rounds := roundUnits_roundsToNat (mode := mode) (r := r) (neg := neg) hy
    obtain ⟨lo, hlo, hhi, -⟩ := id rounds
    have b := between_of_units (s := f.step) hlo hhi short long
    have place : f.binade m e * 2 ^ f.frac + lo = k := by
      have from_place := (magnitude_strictMono_real _ _).le_iff_le.mp (value ▸ b.place_le)
      have below_next := (magnitude_strictMono_real _ _).lt_iff_lt.mp (value ▸ b.lt_next)
      omega
    have whole : y = lo := mul_right_cancel₀ b.unit_pos.ne' (by rw [← value, ← place, b.at_lo])
    rw [whole] at rounds
    rw [g.round_fin hm, rounds.eq_self, place, writtenPlace_of_lt hk]

theorem fp32_top : Claims.magnitude 23 (-149) 0x7F800000 = 2 ^ 128 := by norm_num [Claims.magnitude]

/-- Every value of at most 24 bits, of units from 2^−149 on and below 2^128, has a place on the grid of FP32. -/
theorem exists_fp32_place {m : Nat} {e : Int} (hm : m < 2 ^ 24) (he : -149 ≤ e) (hx : Claims.size m e < 2 ^ 128) :
    ∃ k < 0x7F800000, Claims.size m e = Claims.magnitude 23 (-149) k := by
  rcases eq_or_ne m 0 with rfl | hm0
  · exact ⟨0, by decide, by rw [size_zero, magnitude_zero]⟩
  have leading : m.log2 < 24 := (Nat.log2_lt hm0).mpr hm
  have hunit := fp32.binade_unit m e
  obtain ⟨j, hj⟩ : ∃ j : Nat, e = fp32.step + fp32.binade m e + j := by
    refine Int.le.dest ?_ |>.imp fun _ => Eq.symm
    rw [← hunit, expOf, show (fp32.bias : Int) = 127 from rfl, show (fp32.frac : Int) = 23 from rfl]
    omega
  have units : (m : ℝ) = (m * 2 ^ j : Nat) * 2 ^ (fp32.step + fp32.binade m e - e) := by
    rw [show fp32.step + fp32.binade m e - e = -(j : Int) by omega]
    simp
  obtain ⟨short, long⟩ := fp32.binade_bounds hm0 units
  have place : Claims.size m e = Claims.magnitude 23 (-149) (fp32.binade m e * 2 ^ 23 + m * 2 ^ j) := by
    rw [magnitude_units (Nat.le_of_lt (by exact_mod_cast short)) (long.imp_right fun h => by exact_mod_cast h),
      show (-149 : Int) + fp32.binade m e = e - j from (sub_eq_iff_eq_add.mpr hj).symm, zpow_sub₀ two_ne_zero,
      zpow_natCast, Claims.size]
    push_cast
    field_simp
  refine ⟨_, (magnitude_strictMono 23 (-149)).lt_iff_lt.mp ?_, place⟩
  rw [← place, fp32_top]; exact hx

/-- FP32 carries such a value exactly. -/
theorem fp32_carries {m : Nat} {e : Int} (hm : m < 2 ^ 24) (he : -149 ≤ e) (hx : Claims.size m e < 2 ^ 128) (mode r : Nat)
    (sat neg : Bool) :
    ∃ m' e', decodeT 9 (fp32.round mode sat r (.fin neg m e)) = .fin neg m' e' ∧ Claims.size m' e' = Claims.size m e := by
  obtain ⟨k, hk, place⟩ := exists_fp32_place hm he hx
  have code := fp32_onGrid.round_exact hk place mode r sat neg
  rw [fp32_sign] at code
  have small : fp32.round mode sat r (.fin neg m e) < 2 ^ 32 := by rw [code]; split <;> omega
  have low : fp32.round mode sat r (.fin neg m e) % 2 ^ 31 = k := by rw [code]; split <;> omega
  have sign : decide (2 ^ 31 ≤ fp32.round mode sat r (.fin neg m e)) = neg := by
    rw [code]; cases neg <;> simp; omega
  obtain ⟨m', e', value, -, size, -⟩ := fp32_finite small (low.trans_lt hk)
  exact ⟨m', e', by rw [value, sign], by rw [size, low, place]⟩

theorem keptInf_fin (src dst : Nat) (n : Bool) (m : Nat) (e : Int) : keptInf src dst (.fin n m e) = none := by
  cases h : fmtOf dst <;> simp [keptInf]

theorem keptInf_nan (src dst : Nat) (n : Bool) (m : Nat) : keptInf src dst (.nan n m) = none := by
  cases h : fmtOf dst <;> simp [keptInf]

section
variable {x m : Nat} {e : Int} {n : Bool}

/-- A finite value on its way to FP32 and back to a type t. -/
theorem convert_to_fp32 (ht : t ≠ 14) (value : decodeT t x = .fin n m e) (mode r : Nat) (sat : Bool) :
    convert t 9 mode sat r x = fp32.round mode sat r (.fin n m e) := by
  rw [convert_eq_roundT (.inr rfl) ht (by rw [value, keptInf_fin]), value]; rfl

theorem convert_from_fp32 (value : decodeT 9 x = .fin n m e) (mode r : Nat) (sat : Bool) :
    convert 9 t mode sat r x = roundT t mode sat r (.fin n m e) := by
  rw [convert_eq_roundT (.inl rfl) (by decide) (by rw [value, keptInf_fin]), value]

/-- A value that FP32 carries comes back as the rounding of an equal one. -/
theorem convert_through_fp32 (ht : t ≠ 14) (value : decodeT t x = .fin n m e) (hm : m < 2 ^ 24) (he : -149 ≤ e)
    (hx : Claims.size m e < 2 ^ 128) (mode r r2 : Nat) (sat : Bool) :
    ∃ m' e', Claims.size m' e' = Claims.size m e ∧
      convert 9 t mode sat r2 (convert t 9 mode sat r x) = roundT t mode sat r2 (.fin n m' e') := by
  obtain ⟨m', e', value', same⟩ := fp32_carries hm he hx mode r sat n
  exact ⟨m', e', same, by rw [convert_to_fp32 ht value, convert_from_fp32 value']⟩

end

theorem Fmt.sign_add_mod (f : Fmt) {x : Nat} (hx : x < 2 ^ (f.frac + f.expo + 1)) :
    f.sign (decide (2 ^ (f.frac + f.expo) ≤ x)) + x % 2 ^ (f.frac + f.expo) = x := by
  obtain ⟨E, M, -, -, place, code⟩ := f.exists_code hx
  rw [place, ← f.code_eq, ← code]

/-- Every floating format lies within FP32. -/
theorem gridOf_within_fp32 {F : Nat} {s : Int} (h : Claims.gridOf t = some (F, s, top)) :
    F ≤ 23 ∧ -149 ≤ s ∧ Claims.magnitude F s top ≤ 2 ^ 128 ∧ t ≠ 14 := by
  match t with
  | 7 | 8 | 9 | 10 | 11 | 12 => cases h; norm_num [Claims.magnitude]

/-- The value of a narrow floating code comes back as its code. -/
theorem Fmt.OnGrid.returns_finite (g : f.OnGrid t top) {x : Nat} (hx : x < 2 ^ Machine.typeBits t)
    (hk : x % 2 ^ (f.frac + f.expo) < top) (mode r r2 : Nat) (sat : Bool) :
    convert 9 t mode sat r2 (convert t 9 mode sat r x) = x := by
  obtain ⟨d, u, place, hu, hd, value⟩ := g.decodeT_of_lt hx hk
  obtain ⟨frac_le, step_ge, top_le, ht⟩ := gridOf_within_fp32 g.grid
  have size : Claims.size u (f.step + d) = Claims.magnitude f.frac f.step (x % 2 ^ (f.frac + f.expo)) := by
    rw [place, magnitude_units hu.le hd, Claims.size]
  have small : Claims.size u (f.step + d) < 2 ^ 128 := by
    rw [size]; exact (magnitude_strictMono _ _ hk).trans_le top_le
  have bits24 : u < 2 ^ 24 := hu.trans_le (Nat.pow_le_pow_right two_pos (by omega))
  obtain ⟨m, e, same, back⟩ := convert_through_fp32 ht value bits24 (by omega) small mode r r2 sat
  rw [back, roundT_of_fmtOf g.fmt, g.round_exact hk (same.trans size), f.sign_add_mod (g.typeBits ▸ hx)]

/-- A kept infinity (log 28). -/
theorem convert_inf {src dst mode r x : Nat} {sat n : Bool} (hs : intOf src = none) (hs' : src ≠ 14) (hd : fmtOf dst = some f)
    (hf : f.hasInf = true) (ne : ¬ (src = 9 ∧ dst = 9)) (value : decodeT src x = .inf n) :
    convert src dst mode sat r x = f.code n (2 ^ f.expo - 1) 0 := by
  have kept : keptInf src dst (.inf n) = some (f.code n (2 ^ f.expo - 1) 0) := by simpa [keptInf, hd, hf] using ne
  simp [convert, hs, hs', value, kept]

/-- A NaN fraction that a format holds is the fraction of its code (Table 4.7). -/
theorem Fmt.nanCode_mul (hf : f.hasInf = true) (n : Bool) {M : Nat} (hM : M < 2 ^ f.frac) (hM0 : M ≠ 0) :
    f.nanCode n (M * 2 ^ (23 - f.frac)) = f.code n (2 ^ f.expo - 1) M := by
  simp only [Fmt.nanCode, hf, if_true, Nat.mul_div_cancel _ (Nat.two_pow_pos _), Nat.mod_eq_of_lt hM, hM0, if_false]

/-- A NaN in conversion (R71). -/
theorem convert_nan {src dst mode r x q : Nat} {sat n : Bool} (h : intOf src = none ∨ intOf dst = none) (hs : src ≠ 14)
    (hd : fmtOf dst = some f) (value : decodeT src x = .nan n q) : convert src dst mode sat r x = f.nanCode n q := by
  rw [convert_eq_roundT h hs (by rw [value, keptInf_nan]), value, roundT_of_fmtOf hd]; rfl

/-- An infinity comes back with either sat (log 28), a NaN with its fraction (Table 4.7). -/
theorem Fmt.OnGrid.returns_special (g : f.OnGrid t top) (ht : t ≠ 9) (hf : f.hasInf = true) {x : Nat}
    (hx : x < 2 ^ Machine.typeBits t) (hk : top ≤ x % 2 ^ (f.frac + f.expo)) (mode r r2 : Nat) (sat : Bool) :
    convert 9 t mode sat r2 (convert t 9 mode sat r x) = x := by
  obtain ⟨M, hM, -, code, value⟩ := g.decodeT_of_ge hf hx hk
  obtain ⟨frac_le, -, -, ht'⟩ := gridOf_within_fp32 g.grid
  generalize decide (2 ^ (f.frac + f.expo) ≤ x) = n at code value
  rcases eq_or_ne M 0 with rfl | hM0
  · rw [if_pos rfl] at value
    have there : convert t 9 mode sat r x = fp32.code n (2 ^ fp32.expo - 1) 0 :=
      convert_inf (intOf_of_fmtOf g.fmt) ht' rfl rfl (fun h => ht h.1) value
    have inf : decodeT 9 (fp32.code n (2 ^ fp32.expo - 1) 0) = .inf n := Fmt.decode_special (f := fp32) rfl n (by decide)
    rw [there, convert_inf rfl (by decide) g.fmt hf (fun h => ht h.2) inf, ← code]
  · rw [if_neg hM0] at value
    have frac_lt : M * 2 ^ (23 - f.frac) < 2 ^ fp32.frac :=
      calc M * 2 ^ (23 - f.frac) < 2 ^ f.frac * 2 ^ (23 - f.frac) := Nat.mul_lt_mul_of_pos_right hM (Nat.two_pow_pos _)
        _ = 2 ^ fp32.frac := by rw [← pow_add, Nat.add_sub_cancel' frac_le]; rfl
    have frac_ne : M * 2 ^ (23 - f.frac) ≠ 0 := Nat.mul_ne_zero hM0 (Nat.two_pow_pos _).ne'
    have there : convert t 9 mode sat r x = fp32.code n (2 ^ fp32.expo - 1) (M * 2 ^ (23 - f.frac)) := by
      rw [convert_nan (.inr rfl) ht' fp32_onGrid.fmt value, ← Fmt.nanCode_mul rfl n frac_lt frac_ne]
      exact congrArg _ (Nat.mul_one _).symm
    have nan : decodeT 9 (fp32.code n (2 ^ fp32.expo - 1) (M * 2 ^ (23 - f.frac))) = .nan n (M * 2 ^ (23 - f.frac)) := by
      rw [decodeT_of_fmtOf fp32_onGrid.fmt, Fmt.decode_special rfl n frac_lt, if_neg frac_ne]
      exact congrArg _ (Nat.mul_one _)
    rw [there, convert_nan (.inl rfl) (by decide) g.fmt nan, Fmt.nanCode_mul hf n hM hM0, ← code]

/-- The one NaN fraction of FP8E4M3 and of E8M0 in FP32 (Table 4.7). -/
theorem decodeT_fp32_nan (n : Bool) : decodeT 9 (fp32.nanCode n 0x400000) = .nan n 0x400000 := by
  cases n <;> decide

/-- The NaN codes of FP8E4M3 come back with their signs. -/
theorem e4m3_nan_returns {x : Nat} (hx : x < 2 ^ typeBits 10) (hk : x % 2 ^ (e4m3.frac + e4m3.expo) = 0x7F) (mode r r2 : Nat)
    (sat : Bool) : convert 9 10 mode sat r2 (convert 10 9 mode sat r x) = x := by
  rw [convert_nan (.inl rfl) (by decide) fp32_onGrid.fmt (e4m3_nan hx hk),
    convert_nan (.inl rfl) (by decide) e4m3_onGrid.fmt (decodeT_fp32_nan _)]
  exact (congrArg _ hk.symm).trans (e4m3.sign_add_mod hx)

/-- A code of a narrow integer type comes back: FP32 carries its integer, which rounds to itself. -/
theorem returns_int {x : Nat} (ht : t ≤ 3) (hx : x < 2 ^ typeBits t) (mode r r2 : Nat) (sat : Bool) :
    convert 9 t mode sat r2 (convert t 9 mode sat r x) = x := by
  have value : decodeT t x = .fin (decide (Claims.intCode t x < 0)) (Claims.intCode t x).natAbs 0 := decodeT_int (by omega) x
  obtain ⟨low, high⟩ := intCode_bounds t x
  have small : (Claims.intCode t x).natAbs ≤ 2 ^ 16 := by
    have narrow : Claims.intHigh t ≤ 2 ^ 16 ∧ -2 ^ 16 ≤ Claims.intLow t := by
      match t, ht with
      | 0, _ | 1, _ | 2, _ | 3, _ => decide
    omega
  have size : Claims.size (Claims.intCode t x).natAbs 0 = (Claims.intCode t x).natAbs := by
    rw [Claims.size, zpow_zero, mul_one]
  have below : ((Claims.intCode t x).natAbs : ℚ) < 2 ^ 128 := by
    have : ((Claims.intCode t x).natAbs : ℚ) ≤ 2 ^ 16 := by exact_mod_cast small
    exact this.trans_lt (by norm_num)
  obtain ⟨m, e, same, back⟩ :=
    convert_through_fp32 (by omega) value (small.trans_lt (by decide)) (by decide) (size ▸ below) mode r r2 sat
  have units : (m : ℝ) = (Claims.intCode t x).natAbs * 2 ^ (-e) := by
    have : ((m : ℚ) * 2 ^ e : ℚ) = (Claims.intCode t x).natAbs := same.trans size
    rw [← Rat.cast_natCast (Claims.intCode t x).natAbs, ← this, zpow_neg]
    push_cast; field_simp
  have whole (neg : Bool) : roundUnits mode neg r2 m (-e) = (Claims.intCode t x).natAbs := (roundUnits_roundsToNat units).eq_self
  rw [back, roundT_int_fin (by omega), whole]
  simp only [decide_eq_true_eq]
  have integer : (if Claims.intCode t x < 0 then -((Claims.intCode t x).natAbs : Int) else (Claims.intCode t x).natAbs) =
      Claims.intCode t x := by split <;> omega
  rw [integer, clamp, min_eq_left high, max_eq_right low, wrap_intCode hx]

/-- A power of two within E8M0 rounds to its exponent (R63, R69). -/
theorem roundE8M0_of_size {m mode r : Nat} {e z : Int} {sat : Bool} (h : Claims.size m e = 2 ^ z) (lo : -127 ≤ z) (hi : z ≤ 127) :
    roundE8M0 mode sat r (.fin false m e) = (z + 127).toNat := by
  have power : (m : ℚ) = 2 ^ (z - e) := by
    rw [zpow_sub₀ two_ne_zero, ← h, Claims.size]; field_simp
  have at_least : (1 : ℚ) ≤ 2 ^ (z - e) := by
    have : m ≠ 0 := by rintro rfl; exact zpow_ne_zero (z - e) (two_ne_zero (α := ℚ)) (by simpa using power.symm)
    rw [← power]; exact_mod_cast Nat.one_le_iff_ne_zero.mpr this
  obtain ⟨j, hj⟩ := Int.eq_ofNat_of_zero_le ((one_le_zpow_iff_right₀ one_lt_two).mp at_least)
  obtain rfl : m = 2 ^ j := by rw [hj] at power; exact_mod_cast power
  have exponent : expOf (2 ^ j) e = z := by rw [expOf, Nat.log2_two_pow]; omega
  rw [roundE8M0, if_neg (Nat.two_pow_pos j).ne']
  simp only [exponent, Nat.log2_two_pow, Nat.sub_self, if_true, Bool.false_eq_true, if_false]
  rw [if_neg (by omega), if_neg (by omega)]

/-- A code of E8M0 comes back: FP32 carries its power of two. -/
theorem returns_e8m0 {x : Nat} (hx : x < 2 ^ 8) (mode r r2 : Nat) (sat : Bool) :
    convert 9 13 mode sat r2 (convert 13 9 mode sat r x) = x := by
  have low8 : bits x 0 8 = x := by rw [bits_zero, Nat.mod_eq_of_lt hx]
  by_cases nan : x = 255
  · have value : decodeT 13 x = .nan false 0x400000 := by rw [nan]; rfl
    rw [convert_nan (.inl rfl) (by decide) fp32_onGrid.fmt value, convert_eq_roundT (.inl rfl) (by decide)
      (by rw [decodeT_fp32_nan, keptInf_nan]), decodeT_fp32_nan, nan]; rfl
  · have value : decodeT 13 x = .fin false 1 ((x : Int) - 127) := by
      simp [decodeT, intOf, fmtOf, low8, nan]
    have size : Claims.size 1 ((x : Int) - 127) = 2 ^ ((x : Int) - 127) := by rw [Claims.size, Nat.cast_one, one_mul]
    have below : (2 : ℚ) ^ ((x : Int) - 127) < 2 ^ 128 := by
      rw [← zpow_natCast]; exact zpow_lt_zpow_right₀ one_lt_two (by push_cast; omega)
    obtain ⟨m, e, same, back⟩ :=
      convert_through_fp32 (by decide) value (by decide) (by omega) (size ▸ below) mode r r2 sat
    have exponent : roundT 13 mode sat r2 (.fin false m e) = ((x : Int) - 127 + 127).toNat :=
      roundE8M0_of_size (same.trans size) (by omega) (by omega)
    rw [back, exponent]; omega

end

theorem narrowCodesReturnFromFp32 : Claims.NarrowCodesReturnFromFp32 := by
  intro t mode r r2 x sat ht hx
  by_cases int : t ≤ 3
  · exact returns_int int hx mode r r2 sat
  by_cases e8m0 : t = 13
  · subst e8m0; exact returns_e8m0 hx mode r r2 sat
  have isGrid : (Claims.gridOf t).isSome = true ∧ t ≠ 9 := by
    simp only [List.mem_cons, List.not_mem_nil, or_false] at ht
    obtain rfl | rfl | rfl | rfl | rfl : t = 7 ∨ t = 8 ∨ t = 10 ∨ t = 11 ∨ t = 12 := by omega
    all_goals decide
  obtain ⟨⟨F, s, top⟩, grid⟩ := Option.isSome_iff_exists.mp isGrid.1
  obtain ⟨f, g, -, -⟩ := onGrid_of_gridOf grid
  rcases Nat.lt_or_ge (x % 2 ^ (f.frac + f.expo)) top with hk | hk
  · exact g.returns_finite hx hk mode r r2 sat
  by_cases e4 : t = 10
  · subst e4
    obtain ⟨rfl, rfl⟩ := g.eq_e4m3
    exact e4m3_nan_returns hx (Nat.le_antisymm (Nat.le_of_lt_succ (Nat.mod_lt _ (by decide))) hk) mode r r2 sat
  · exact g.returns_special isGrid.2 (g.hasInf_of_ge e4 hk) hx hk mode r r2 sat

/-- Settles O16: FCVT by its cases, integers as residues, and the narrow codes through the places that they have on FP32's grid. -/
theorem conversionsAndNarrowCodes : Obligations.ConversionsAndNarrowCodes := ⟨conversionResults, narrowCodesReturnFromFp32⟩

/-- Settles O17: the units of each rounding against the places of the grid, and the sticky bit of quotients and roots. -/
theorem roundingOnTheGrid : Obligations.RoundingOnTheGrid :=
  ⟨codesLieOnTheGrid, valuesRoundToTheGrid, arithmeticIsExact, quotientsAndRootsRoundOnce, valuesAreOrdered, floatsRoundToIntegers⟩

end Sys2Proof.Machine
end

section
namespace Sys2Proof.Machine

/-! ## The register files (R76, R80) -/

theorem getLsbD_setBit {n : Nat} (x : BitVec n) (i : Nat) (b : Bool) (j : Nat) :
    (setBit x i b).getLsbD j = if j = i ∧ i < n then b else x.getLsbD j := by
  have one : (BitVec.ofNat n (2 ^ i)).getLsbD j = decide (j = i ∧ i < n) := by
    rw [BitVec.getLsbD_ofNat, Nat.testBit_two_pow, ← Bool.decide_and]
    exact decide_eq_decide.mpr ⟨fun ⟨h, e⟩ => ⟨e.symm, e ▸ h⟩, fun ⟨e, h⟩ => ⟨e ▸ h, e.symm⟩⟩
  rcases Nat.lt_or_ge j n with h | h
  · cases b with
    | true => rw [setBit, if_pos rfl, BitVec.getLsbD_or, one]; by_cases hj : j = i ∧ i < n <;> simp [hj]
    | false =>
      rw [setBit, if_neg Bool.false_ne_true, BitVec.getLsbD_and, BitVec.getLsbD_not, one]
      by_cases hj : j = i ∧ i < n <;> simp [hj, h]
  · rw [BitVec.getLsbD_of_ge _ _ h, BitVec.getLsbD_of_ge _ _ h, if_neg (by omega)]

theorem Cell.setS_zero (k : Cell) (v : Word) (p : Bool) : k.setS 0 v p = k := rfl

theorem Cell.setQ_zero (k : Cell) (v p : Bool) : k.setQ 0 v p = k := rfl

theorem Cell.setS_of_ne {d : SReg} (hd : d ≠ 0) (k : Cell) (v : Word) (p : Bool) :
    k.setS d v p = { k with s := k.s.put 0 d.toNat v, psn := setBit k.psn d.toNat p } := if_neg hd

theorem Cell.setQ_of_ne {d : QReg} (hd : d ≠ 0) (k : Cell) (v p : Bool) :
    k.setQ d v p = { k with q := setBit k.q d.toNat v, psn := setBit k.psn (40 + d.toNat) p } := if_neg hd

section
variable (k : Cell)

/-- The poison that a write of s[d] leaves: bits 31 to 0, one for each scalar register. -/
theorem Cell.psn_setS (d : SReg) (v : Word) (p : Bool) (j : Nat) :
    (k.setS d v p).psn.getLsbD j = if d ≠ 0 ∧ j = d.toNat then p else k.psn.getLsbD j := by
  by_cases hd : d = 0
  · subst hd; rw [Cell.setS_zero, if_neg (by simp)]
  · rw [Cell.setS_of_ne hd, getLsbD_setBit]
    have := d.isLt
    exact if_congr ⟨fun h => ⟨hd, h.1⟩, fun h => ⟨h.2, by omega⟩⟩ rfl rfl

/-- The poison that a write of q[d] leaves: bits 47 to 40, one for each predicate register. -/
theorem Cell.psn_setQ (d : QReg) (v p : Bool) (j : Nat) :
    (k.setQ d v p).psn.getLsbD j = if d ≠ 0 ∧ j = 40 + d.toNat then p else k.psn.getLsbD j := by
  by_cases hd : d = 0
  · subst hd; rw [Cell.setQ_zero, if_neg (by simp)]
  · rw [Cell.setQ_of_ne hd, getLsbD_setBit]
    have := d.isLt
    exact if_congr ⟨fun h => ⟨hd, h.1⟩, fun h => ⟨h.2, by omega⟩⟩ rfl rfl

/-- The poison that a write of d[d] leaves: bits 39 to 32, one for each descriptor register. -/
theorem Cell.psn_setD (d : TReg) (v : Word) (p : Bool) (j : Nat) :
    (k.setD d v p).psn.getLsbD j = if j = 32 + d.toNat then p else k.psn.getLsbD j := by
  rw [Cell.setD, getLsbD_setBit]
  exact if_congr (by have := d.isLt; omega) rfl rfl

theorem Cell.sreg_setS (d r : SReg) (v : Word) (p : Bool) :
    (k.setS d v p).sreg r = if r = 0 then 0 else if r = d then v else k.sreg r := by
  by_cases hr : r = 0
  · rw [if_pos hr, Cell.sreg, if_pos hr]
  rw [if_neg hr]
  by_cases hd : d = 0
  · subst hd; rw [Cell.setS_zero, if_neg hr]
  · simp only [Cell.setS_of_ne hd, Cell.sreg, if_neg hr]
    by_cases h : r = d
    · subst h; rw [if_pos rfl, Tab.get_put_self]
    · rw [if_neg h, Tab.get_put_ne _ _ _ (mt BitVec.eq_of_toNat_eq h)]

theorem Cell.spsn_setS (d r : SReg) (v : Word) (p : Bool) :
    (k.setS d v p).spsn r = if r = 0 then false else if r = d then p else k.spsn r := by
  by_cases hr : r = 0
  · simp [Cell.spsn, hr]
  · simp only [Cell.spsn, if_neg hr, Cell.psn_setS, BitVec.toNat_inj]
    exact if_congr ⟨And.right, fun h => ⟨h ▸ hr, h⟩⟩ rfl rfl

@[simp] theorem Cell.qreg_setS (d : SReg) (q : QReg) (v : Word) (p : Bool) : (k.setS d v p).qreg q = k.qreg q := by
  unfold Cell.setS; split <;> rfl

@[simp] theorem Cell.dreg_setS (d : SReg) (t : TReg) (v : Word) (p : Bool) : (k.setS d v p).dreg t = k.dreg t := by
  unfold Cell.setS; split <;> rfl

@[simp] theorem Cell.qpsn_setS (d : SReg) (q : QReg) (v : Word) (p : Bool) : (k.setS d v p).qpsn q = k.qpsn q := by
  have apart : 40 + q.toNat ≠ d.toNat := by have := d.isLt; omega
  simp only [Cell.qpsn, Cell.psn_setS, apart, and_false, if_false]

@[simp] theorem Cell.dpsn_setS (d : SReg) (t : TReg) (v : Word) (p : Bool) : (k.setS d v p).dpsn t = k.dpsn t := by
  have apart : 32 + t.toNat ≠ d.toNat := by have := d.isLt; omega
  simp only [Cell.dpsn, Cell.psn_setS, apart, and_false, if_false]

/-- A write of s[d] changes no field of the cell but the scalar registers and the poison. -/
theorem Cell.setS_frame (d : SReg) (v : Word) (p : Bool) : ({ k.setS d v p with s := k.s, psn := k.psn } : Cell) = k := by
  unfold Cell.setS; split <;> rfl

theorem Cell.qreg_setQ (d r : QReg) (v p : Bool) :
    (k.setQ d v p).qreg r = if r = 0 then true else if r = d then v else k.qreg r := by
  by_cases hr : r = 0
  · rw [if_pos hr, Cell.qreg, if_pos hr]
  rw [if_neg hr]
  by_cases hd : d = 0
  · subst hd; rw [Cell.setQ_zero, if_neg hr]
  · simp only [Cell.setQ_of_ne hd, Cell.qreg, if_neg hr, getLsbD_setBit, BitVec.toNat_inj]
    exact if_congr (and_iff_left d.isLt) rfl rfl

theorem Cell.qpsn_setQ (d r : QReg) (v p : Bool) :
    (k.setQ d v p).qpsn r = if r = 0 then false else if r = d then p else k.qpsn r := by
  by_cases hr : r = 0
  · simp [Cell.qpsn, hr]
  · simp only [Cell.qpsn, if_neg hr, Cell.psn_setQ, Nat.add_left_cancel_iff, BitVec.toNat_inj]
    exact if_congr ⟨And.right, fun h => ⟨h ▸ hr, h⟩⟩ rfl rfl

@[simp] theorem Cell.spsn_setQ (d : QReg) (a : SReg) (v p : Bool) : (k.setQ d v p).spsn a = k.spsn a := by
  have apart : a.toNat ≠ 40 + d.toNat := by have := a.isLt; omega
  simp only [Cell.spsn, Cell.psn_setQ, apart, and_false, if_false]

@[simp] theorem Cell.dpsn_setQ (d : QReg) (t : TReg) (v p : Bool) : (k.setQ d v p).dpsn t = k.dpsn t := by
  have apart : 32 + t.toNat ≠ 40 + d.toNat := by have := t.isLt; omega
  simp only [Cell.dpsn, Cell.psn_setQ, apart, and_false, if_false]

/-- A write of q[d] changes no field of the cell but the predicates and the poison. -/
theorem Cell.setQ_frame (d : QReg) (v p : Bool) : ({ k.setQ d v p with q := k.q, psn := k.psn } : Cell) = k := by
  unfold Cell.setQ; split <;> rfl

theorem Cell.dreg_setD (d r : TReg) (v : Word) (p : Bool) : (k.setD d v p).dreg r = if r = d then v else k.dreg r := by
  by_cases h : r = d
  · subst h; rw [if_pos rfl]; exact Tab.get_put_self ..
  · rw [if_neg h]; exact Tab.get_put_ne _ _ _ (mt BitVec.eq_of_toNat_eq h)

theorem Cell.dpsn_setD (d r : TReg) (v : Word) (p : Bool) : (k.setD d v p).dpsn r = if r = d then p else k.dpsn r := by
  simp only [Cell.dpsn, Cell.psn_setD, Nat.add_left_cancel_iff, BitVec.toNat_inj]

@[simp] theorem Cell.spsn_setD (d : TReg) (a : SReg) (v : Word) (p : Bool) : (k.setD d v p).spsn a = k.spsn a := by
  have apart : a.toNat ≠ 32 + d.toNat := by have := a.isLt; omega
  simp only [Cell.spsn, Cell.psn_setD, apart, if_false]

@[simp] theorem Cell.qpsn_setD (d : TReg) (q : QReg) (v : Word) (p : Bool) : (k.setD d v p).qpsn q = k.qpsn q := by
  have apart : 40 + q.toNat ≠ 32 + d.toNat := by have := d.isLt; omega
  simp only [Cell.qpsn, Cell.psn_setD, apart, if_false]

end

/-- Settles O10: each register and each poison bit is read back from a write of every register. -/
theorem registerFiles : Obligations.RegisterFiles := fun k p =>
  ⟨fun d r v => ⟨k.sreg_setS d r v p, k.spsn_setS d r v p, fun q => ⟨k.qreg_setS d q v p, k.qpsn_setS d q v p⟩,
      fun t => ⟨k.dreg_setS d t v p, k.dpsn_setS d t v p⟩, k.setS_frame d v p, k.setS_zero v p⟩,
    fun d r v => ⟨k.qreg_setQ d r v p, k.qpsn_setQ d r v p, fun a => k.spsn_setQ d a v p, fun t => k.dpsn_setQ d t v p,
      k.setQ_frame d v p, k.setQ_zero v p⟩,
    fun d r v => ⟨k.dreg_setD d r v p, k.dpsn_setD d r v p, fun a => k.spsn_setD d a v p, fun q => k.qpsn_setD d q v p, rfl⟩⟩

/-! ## The frame of an instruction that goes on (R76, R83, R84, R332) -/

@[simp] theorem State.hearth_modHearth_self (s : State) (h : Nat) (f : Hearth → Hearth) : (s.modHearth h f).hearth h = f (s.hearth h) :=
  Tab.get_put_self ..

theorem State.hearth_modHearth_ne (s : State) {g h : Nat} (f : Hearth → Hearth) (hne : g ≠ h) :
    (s.modHearth h f).hearth g = s.hearth g := Tab.get_put_ne _ _ _ hne

theorem pcOf_of_lt {w : Word} (h : w.toNat < 2 ^ 14) : pcOf w = w := if_pos h

/-- A target that 14 bits do not hold: its low 14 bits under the mark in bit 14 (log 50). -/
theorem toNat_pcOf_of_ge {w : Word} (h : 2 ^ 14 ≤ w.toNat) : (pcOf w).toNat = 2 ^ 14 + w.toNat % 2 ^ 14 := by
  have low : (w &&& 0x3FFF).toNat = w.toNat % 2 ^ 14 := by
    rw [BitVec.toNat_and]; exact Nat.and_two_pow_sub_one_eq_mod w.toNat 14
  have lt : w.toNat % 2 ^ 14 < 2 ^ 14 := Nat.mod_lt _ (by decide)
  rw [pcOf, if_neg h.not_gt, BitVec.toNat_or, low, Nat.lor_comm]
  exact (Nat.two_pow_add_eq_or_of_lt lt 1).symm

/-- The end that `finish` and `jump` share: a count of one instruction and a change of the issuing cell. -/
theorem State.count_modCur_frame {s : State} {ar : Area} {k : Cell} (g : Cell → Cell) (ha : s.area s.cur.1 = some ar)
    (hk : ar.cells.find s.cur.2 = some k) :
    let t := (s.count k.hid 1 1).modCur g
    { t with areas := s.areas, hearths := s.hearths } = s ∧
      (∀ u, u ≠ s.cur.1 → t.area u = s.area u) ∧
      t.area s.cur.1 = some { ar with cells := ar.cells.set s.cur.2 (g k) } ∧
      (∀ h, h ≠ k.hid → t.hearth h = s.hearth h) ∧
      ({ t.hearth k.hid with ctrs := (s.hearth k.hid).ctrs } : Hearth) = s.hearth k.hid ∧
      (t.hearth k.hid).ctrs.get 0 1 = ((s.hearth k.hid).ctrs.get 0 1 + 1) % 2 ^ 64 ∧
      (∀ c, c ≠ 1 → (t.hearth k.hid).ctrs.get 0 c = (s.hearth k.hid).ctrs.get 0 c) := by
  intro t
  have hearths (h : Nat) : t.hearth h = (s.count k.hid 1 1).hearth h := rfl
  have counted : t.hearth k.hid = { s.hearth k.hid with
      ctrs := (s.hearth k.hid).ctrs.put 0 1 (((s.hearth k.hid).ctrs.get 0 1 + 1) % 2 ^ 64) } :=
    (hearths _).trans (s.hearth_modHearth_self k.hid _)
  refine ⟨rfl, fun u hu => State.modCur_area_ne hu, ?_, fun h hh => (hearths h).trans (s.hearth_modHearth_ne _ hh), ?_, ?_,
    fun c hc => ?_⟩
  · have changed : t.area s.cur.1 = some { ar with cells := ar.cells.upd s.cur.2 g } :=
      State.modCur_area (s := s.count k.hid 1 1) ha
    rw [changed, Tab.upd, hk]
  · rw [counted]
  · rw [counted, Tab.get_put_self]
  · rw [counted, Tab.get_put_ne _ _ _ hc]

/-- Settles O9: `finish` and `jump` end alike, and the pc is that behind the instruction or that of the target. -/
theorem finishedInstructionFrame : Obligations.FinishedInstructionFrame := by
  rintro s ar k n pc f t ha hk (⟨rfl, rfl⟩ | ⟨w, rfl, short, long⟩)
  · obtain ⟨rest, others, own, h⟩ := State.count_modCur_frame
      (fun c => { f c with pc := c.pc + BitVec.ofNat 64 (4 * n), wait := none }) ha hk
    exact ⟨rest, others, own, fun i hi => Tab.find_set_ne _ _ hi, h⟩
  · obtain rfl : pcOf w = pc := by
      rcases Nat.lt_or_ge w.toNat (2 ^ 14) with h | h
      · rw [pcOf_of_lt h, short h]
      · exact BitVec.eq_of_toNat_eq (by rw [toNat_pcOf_of_ge h, long h])
    obtain ⟨rest, others, own, h⟩ := State.count_modCur_frame (fun c => { f c with pc := pcOf w, wait := none }) ha hk
    exact ⟨rest, others, own, fun i hi => Tab.find_set_ne _ _ hi, h⟩

end Sys2Proof.Machine
end

section
namespace Sys2Proof.Machine

/-! ## Values of the integer instructions (R97–R100)

The model computes on words where the tables of the spec speak of integers; each lemma equates the two for one row. -/

theorem sub_eq_ofInt (x y : Word) : x - y = BitVec.ofInt 64 (x.toInt - y.toInt) := by
  rw [Int.sub_eq_add_neg, BitVec.ofInt_add, BitVec.ofInt_neg, BitVec.ofInt_toInt, BitVec.ofInt_toInt, BitVec.sub_eq_add_neg]

theorem mul_eq_ofNat (x y : Word) : x * y = BitVec.ofNat 64 (x.toNat * y.toNat) := by
  apply BitVec.eq_of_toNat_eq
  rw [BitVec.toNat_mul, BitVec.toNat_ofNat]

/-- The upper half of a 128-bit integer is the whole part of its 2^64th. -/
theorem extract_upper_half (z : Int) : (BitVec.ofInt 128 z).extractLsb' 64 64 = BitVec.ofInt 64 (z / 2 ^ 64) := by
  apply BitVec.eq_of_toNat_eq
  rw [BitVec.extractLsb'_toNat, BitVec.toNat_ofInt, BitVec.toNat_ofInt, Nat.shiftRight_eq_div_pow]
  push_cast
  omega

theorem mulhi_eq (x y : Word) : mulhi x y = (x.signExtend 128 * y.signExtend 128).extractLsb' 64 64 := by
  rw [BitVec.signExtend, BitVec.signExtend, ← BitVec.ofInt_mul, extract_upper_half]; rfl

theorem mulhiu_eq (x y : Word) : mulhiu x y = (x.zeroExtend 128 * y.zeroExtend 128).extractLsb' 64 64 := by
  have wide (w : Word) : w.zeroExtend 128 = BitVec.ofInt 128 (w.toNat : Int) := by
    rw [BitVec.ofInt_natCast]; exact BitVec.eq_of_toNat_eq (by simp)
  rw [wide, wide, ← BitVec.ofInt_mul, extract_upper_half, mulhiu, ← BitVec.ofInt_natCast]
  push_cast; rfl

theorem eq_allOnes_iff (y : Word) : y = BitVec.allOnes 64 ↔ y.toInt = -1 := by
  rw [← BitVec.toInt_inj, BitVec.toInt_allOnes, if_pos (by decide)]

theorem divS_eq (x y : Word) : divS x y =
    if y = 0 then 0xFFFFFFFFFFFFFFFF#64 else if x = Claims.minInt ∧ y.toInt = -1 then x else x.sdiv y := by
  refine if_congr .rfl rfl (if_congr (and_congr_right' (eq_allOnes_iff y)) rfl ?_)
  rw [← BitVec.toInt_inj, BitVec.toInt_ofInt, BitVec.toInt_sdiv]

theorem remS_eq (x y : Word) : remS x y =
    if y = 0 then x else if x = Claims.minInt ∧ y.toInt = -1 then 0 else x.srem y := by
  refine if_congr .rfl rfl (if_congr (and_congr_right' (eq_allOnes_iff y)) rfl ?_)
  rw [← Int.tmod_def, ← BitVec.toInt_srem, BitVec.ofInt_toInt]

theorem divU_eq (x y : Word) : divU x y = if y = 0 then 0xFFFFFFFFFFFFFFFF#64 else x / y := by
  rw [divU, BitVec.udiv_def]; rfl

theorem remU_eq (x y : Word) : remU x y = if y = 0 then x else x % y := by
  rw [remU, BitVec.umod_def]

theorem shiftLeft_eq_ofNat (x : Word) (n : Nat) : x <<< n = BitVec.ofNat 64 (x.toNat * 2 ^ n) := by
  apply BitVec.eq_of_toNat_eq
  rw [BitVec.toNat_shiftLeft, BitVec.toNat_ofNat, Nat.shiftLeft_eq]

theorem ushiftRight_eq_ofNat (x : Word) (n : Nat) : x >>> n = BitVec.ofNat 64 (x.toNat / 2 ^ n) := by
  apply BitVec.eq_of_toNat_eq
  rw [BitVec.toNat_ushiftRight, BitVec.toNat_ofNat, Nat.shiftRight_eq_div_pow, Nat.mod_eq_of_lt]
  exact (Nat.div_le_self ..).trans_lt x.isLt

theorem sshiftRight_eq_ofInt (x : Word) (n : Nat) : x.sshiftRight n = BitVec.ofInt 64 (x.toInt / (2 : Int) ^ n) := by
  rw [BitVec.sshiftRight, Int.shiftRight_eq_div_pow]; push_cast; rfl

theorem rotateLeft_eq_of_lt (x : Word) {n : Nat} (hn : n < 64) : x.rotateLeft n = x <<< n ||| x >>> (64 - n) := by
  rw [BitVec.rotateLeft_def, Nat.mod_eq_of_lt hn]

/-- The count of the register forms is the field s[b][5:0] (R97). -/
theorem shiftCount_eq (y : Word) : shiftCount y = (y.extractLsb' 0 6).toNat := by
  rw [BitVec.extractLsb'_toNat]; rfl

theorem ite_slt {α : Type} (x y : Word) (a b : α) : (if x.slt y then a else b) = if x.toInt < y.toInt then a else b :=
  if_congr BitVec.slt_iff_toInt_lt rfl rfl

theorem ite_ult {α : Type} (x y : Word) (a b : α) : (if x.ult y then a else b) = if x.toNat < y.toNat then a else b :=
  if_congr BitVec.ult_iff_lt rfl rfl

theorem neg_eq_ofInt (x : Word) : -x = BitVec.ofInt 64 (0 - x.toInt) := by
  rw [Int.zero_sub, BitVec.ofInt_neg, BitVec.ofInt_toInt]

theorem abs_eq_ofNat (x : Word) : (if x.getLsbD 63 then -x else x) = BitVec.ofNat 64 x.toInt.natAbs := by
  have sign : x.getLsbD 63 = true ↔ x.toInt < 0 := by
    rw [← BitVec.msb_eq_getLsbD_last (w := 64), BitVec.msb_eq_toInt, decide_eq_true_iff]
  rw [if_congr sign rfl rfl, ← BitVec.ofInt_natCast]
  split
  case isTrue h => rw [Int.ofNat_natAbs_of_nonpos h.le, BitVec.ofInt_neg, BitVec.ofInt_toInt]
  case isFalse h => rw [Int.natAbs_of_nonneg (Int.not_lt.mp h), BitVec.ofInt_toInt]

theorem ofInt_sInt (x : Word) (n : Nat) : BitVec.ofInt 64 (sInt n x.toNat) = (x.extractLsb' 0 n).signExtend 64 := by
  rw [BitVec.signExtend, BitVec.toInt_eq_toNat_cond, BitVec.extractLsb'_toNat]; rfl

theorem ofNat_bits_zero (x : Word) (n : Nat) : BitVec.ofNat 64 (bits x.toNat 0 n) = (x.extractLsb' 0 n).zeroExtend 64 := by
  apply BitVec.eq_of_toNat_eq
  rw [BitVec.toNat_ofNat, BitVec.zeroExtend, BitVec.toNat_setWidth, BitVec.extractLsb'_toNat, bits_zero, Nat.shiftRight_zero]

theorem add_imm8_eq_ofInt (x : Word) (i : BitVec 8) : x + imm8 i = BitVec.ofInt 64 (x.toInt + i.toInt) := by
  rw [BitVec.ofInt_add, BitVec.ofInt_toInt]; rfl

section
variable {s : State} {ar : Area} {k : Cell} {c : Cond} {d a b : SReg}

/-- A two-source instruction that passes its gate writes its value (R80, R97). -/
theorem State.gate_alu2 {f : Word → Word → Word} {v : Word} (h : s.issues c [d, a, b] ar k)
    (hv : f (k.sreg a) (k.sreg b) = v) : s.gate c 1 [d, a, b] (alu2 d a b f) =
      .next (s.finish k 1 (fun x => x.setS d v (k.spsn a || k.spsn b))) := by
  subst hv; exact State.gate_issues 1 _ h

/-- A one-source instruction that passes its gate writes its value (R80, R99). -/
theorem State.gate_alu1 {f : Word → Word} {v : Word} (h : s.issues c [d, a] ar k) (hv : f (k.sreg a) = v) :
    s.gate c 1 [d, a] (alu1 d a f) = .next (s.finish k 1 (fun x => x.setS d v (k.spsn a))) := by
  subst hv; exact State.gate_issues 1 _ h

end

theorem integerTwoSourceResults : Claims.IntegerTwoSourceResults := by
  intro s ar k c d a b h
  have count : shiftCount (k.sreg b) = ((k.sreg b).extractLsb' 0 6).toNat := shiftCount_eq _
  simp only [Claims.intTwo, List.forall_mem_cons, List.not_mem_nil, false_implies, implies_true, and_true, ← count]
  refine ⟨?_, ?_, ?_, ?_, ?_, ?_, ?_, ?_, ?_, ?_, ?_, ?_, ?_, ?_, ?_, ?_, ?_, ?_, ?_, ?_⟩
  · exact State.gate_alu2 h (BitVec.add_def _ _)
  · exact State.gate_alu2 h (sub_eq_ofInt _ _)
  · exact State.gate_alu2 h (mul_eq_ofNat _ _)
  · exact State.gate_alu2 h (mulhi_eq _ _)
  · exact State.gate_alu2 h (mulhiu_eq _ _)
  · exact State.gate_alu2 h (divS_eq _ _)
  · exact State.gate_alu2 h (divU_eq _ _)
  · exact State.gate_alu2 h (remS_eq _ _)
  · exact State.gate_alu2 h (remU_eq _ _)
  · exact State.gate_alu2 h rfl
  · exact State.gate_alu2 h rfl
  · exact State.gate_alu2 h rfl
  · exact State.gate_alu2 h (shiftLeft_eq_ofNat _ _)
  · exact State.gate_alu2 h (ushiftRight_eq_ofNat _ _)
  · exact State.gate_alu2 h (sshiftRight_eq_ofInt _ _)
  · exact State.gate_alu2 h (rotateLeft_eq_of_lt _ (Nat.mod_lt _ (by decide)))
  · exact State.gate_alu2 h (ite_slt ..)
  · exact State.gate_alu2 h (ite_slt ..)
  · exact State.gate_alu2 h (ite_ult ..)
  · exact State.gate_alu2 h (ite_ult ..)

theorem integerOneSourceResults : Claims.IntegerOneSourceResults := by
  intro s ar k c d a i n h
  simp only [Claims.intOne, Claims.intImm, List.cons_append, List.nil_append, List.forall_mem_cons, List.not_mem_nil, false_implies,
    implies_true, and_true]
  refine ⟨?_, ?_, ?_, ?_, ?_, ?_, ?_, ?_, ?_, ?_, ?_, ?_, ?_, ?_, ?_, ?_, ?_⟩
  · exact State.gate_alu1 h (abs_eq_ofNat _)
  · exact State.gate_alu1 h (neg_eq_ofInt _)
  · exact State.gate_alu1 h (ofInt_sInt _ 8)
  · exact State.gate_alu1 h (ofInt_sInt _ 16)
  · exact State.gate_alu1 h (ofInt_sInt _ 32)
  · exact State.gate_alu1 h (ofNat_bits_zero _ 8)
  · exact State.gate_alu1 h (ofNat_bits_zero _ 16)
  · exact State.gate_alu1 h (ofNat_bits_zero _ 32)
  · exact State.gate_alu1 h rfl
  · exact State.gate_alu1 h (add_imm8_eq_ofInt _ i)
  · exact State.gate_alu1 h rfl
  · exact State.gate_alu1 h rfl
  · exact State.gate_alu1 h rfl
  · exact State.gate_alu1 h (shiftLeft_eq_ofNat _ _)
  · exact State.gate_alu1 h (ushiftRight_eq_ofNat _ _)
  · exact State.gate_alu1 h (sshiftRight_eq_ofInt _ _)
  · exact State.gate_alu1 h (rotateLeft_eq_of_lt _ n.isLt)

/-! ## Counts of bits (R99) -/

/-- CLZ: the bits from 64 − n on are 0 and the one below them is 1. -/
theorem clz64_spec (x : Word) : clz64 x ≤ 64 ∧ (∀ i, 64 - clz64 x ≤ i → x.getLsbD i = false) ∧
    (clz64 x < 64 → x.getLsbD (63 - clz64 x) = true) := by
  by_cases hx : x = 0
  · subst hx; exact ⟨by decide, fun i _ => BitVec.getLsbD_zero, fun h => absurd h (by decide)⟩
  · have ne : x.toNat ≠ 0 := BitVec.toNat_ne_iff_ne.mpr hx
    have top : x.toNat.log2 < 64 := (Nat.log2_lt ne).mpr x.isLt
    have place : 63 - (63 - x.toNat.log2) = x.toNat.log2 := by omega
    rw [clz64, if_neg hx, place]
    refine ⟨by omega, fun i hi => ?_, fun _ => Nat.testBit_log2 ne⟩
    exact Nat.testBit_lt_two_pow (Nat.lt_log2_self.trans_le (Nat.pow_le_pow_right two_pos (by omega)))

/-- CTZ: the bits below n are 0 and bit n is 1. -/
theorem ctz64_spec (x : Word) : ctz64 x ≤ 64 ∧ (∀ i, i < ctz64 x → x.getLsbD i = false) ∧
    (ctz64 x < 64 → x.getLsbD (ctz64 x) = true) := by
  unfold ctz64
  cases h : (List.range 64).find? (fun i => x.getLsbD i) with
  | none =>
    refine ⟨le_rfl, fun i hi => ?_, fun h64 => absurd h64 (lt_irrefl _)⟩
    exact Bool.eq_false_iff.mpr (List.find?_eq_none.mp h i (List.mem_range.mpr hi))
  | some n =>
    obtain ⟨hn, hr, below⟩ := List.find?_range_eq_some.mp h
    exact ⟨(List.mem_range.mp hr).le, fun i hi => by simpa using below i hi, fun _ => hn⟩

theorem length_filter_eq_sum {α : Type} (p : α → Bool) (l : List α) : (l.filter p).length = (l.map fun i => (p i).toNat).sum := by
  induction l with
  | nil => rfl
  | cons i l ih => cases hi : p i <;> simp [hi, ih, Nat.add_comm]

theorem bitCountResults : Claims.BitCountResults := fun _ _ _ _ _ _ h =>
  ⟨⟨_, State.gate_alu1 h rfl, clz64_spec _⟩, ⟨_, State.gate_alu1 h rfl, ctz64_spec _⟩,
    State.gate_alu1 h (congrArg _ (length_filter_eq_sum ..))⟩

/-- Settles O1: an instruction that passes its gate writes its row, and the model's operations are the rows of the tables. -/
theorem integerResults : Obligations.IntegerResults := ⟨integerTwoSourceResults, integerOneSourceResults, bitCountResults⟩

/-! ## Division (R98) -/

theorem divU_spec {x y : Word} (hy : y ≠ 0) :
    x.toNat = y.toNat * (divU x y).toNat + (remU x y).toNat ∧ (remU x y).toNat < y.toNat := by
  have pos : 0 < y.toNat := Nat.pos_of_ne_zero (BitVec.toNat_ne_iff_ne.mpr hy)
  rw [divU_eq, remU_eq, if_neg hy, if_neg hy, BitVec.toNat_udiv, BitVec.toNat_umod]
  exact ⟨(Nat.div_add_mod ..).symm, Nat.mod_lt _ pos⟩

/-- But for the overflow the quotient is rounded toward zero, and the rest has the sign of the dividend. -/
theorem divS_spec {x y : Word} (hy : y ≠ 0) (ho : ¬ (x = Claims.minInt ∧ y.toInt = -1)) :
    (divS x y).toInt = x.toInt.tdiv y.toInt ∧ (remS x y).toInt = x.toInt.tmod y.toInt := by
  rw [divS_eq, remS_eq, if_neg hy, if_neg hy, if_neg ho, if_neg ho]
  refine ⟨BitVec.toInt_sdiv_of_ne_or_ne x y ?_, BitVec.toInt_srem x y⟩
  by_contra h
  obtain ⟨rfl, rfl⟩ : x = BitVec.intMin 64 ∧ y = -1#64 := by tauto
  exact ho ⟨rfl, rfl⟩

theorem tmod_nonpos {x : Int} (y : Int) (hx : x ≤ 0) : x.tmod y ≤ 0 := by
  have := Int.tmod_nonneg y (Int.neg_nonneg.mpr hx)
  rwa [Int.neg_tmod, Int.neg_nonneg] at this

/-- Settles O13: the rows of DIV, REM, DIVU and REMU, the signed ones by division toward zero of the integers. -/
theorem divisionResults : Obligations.DivisionResults := by
  intro s ar k c d a b h
  refine ⟨_, _, _, _, State.gate_alu2 h rfl, State.gate_alu2 h rfl, State.gate_alu2 h rfl, State.gate_alu2 h rfl, fun hb => ?_,
    fun hb => ?_⟩
  · rw [divS, remS, divU, remU, if_pos hb, if_pos hb, if_pos hb, if_pos hb]
    exact ⟨rfl, rfl, rfl, rfl⟩
  · obtain ⟨whole, rest⟩ := divU_spec (x := k.sreg a) hb
    refine ⟨whole, rest, fun ho => ?_, fun ho => ?_⟩
    · rw [divS_eq, remS_eq, if_neg hb, if_neg hb, if_pos ho, if_pos ho]
      exact ⟨rfl, rfl⟩
    · obtain ⟨quotient, remainder⟩ := divS_spec hb ho
      have pos : 0 < (k.sreg b).toInt.natAbs := Int.natAbs_pos.mpr fun h0 => hb (BitVec.toInt_inj.mp (h0.trans rfl))
      rw [quotient, remainder]
      exact ⟨(Int.mul_tdiv_add_tmod ..).symm, Int.natAbs_tmod .. ▸ Nat.mod_lt _ pos, Int.tmod_nonneg _, tmod_nonpos _⟩

end Sys2Proof.Machine
end

section
namespace Sys2Proof.Machine

/-! ## Compares of integers and predicates (R53, R93, R95, R96) -/

/-- The model's comparisons of words are those of the integers. -/
theorem compare_iff (f : BitVec 3) (x y : Word) : compare f.toNat x y = true ↔ Claims.compares f.toNat x y := by
  generalize f.toNat = n
  match n with
  | 0 => exact beq_iff_eq
  | 1 => exact bne_iff_ne
  | 2 => exact BitVec.slt_iff_toInt_lt
  | 3 => exact BitVec.sle_iff_toInt_le
  | 4 => exact BitVec.slt_iff_toInt_lt
  | 5 => exact BitVec.sle_iff_toInt_le
  | 6 => exact BitVec.ult_iff_lt
  | _ + 7 => exact BitVec.ule_iff_le

theorem exec_cmpi {s : State} {ar : Area} {k : Cell} {c : Cond} {d : QReg} {a : SReg} (f : BitVec 3) (i : BitVec 8)
    (h : s.issues c [a] ar k) : ∃ v : Bool, (v = true ↔ Claims.compares f.toNat (k.sreg a) (i.signExtend 64)) ∧
      cmpi f.toNat c d a i s = .next (s.finish k 1 (fun x => x.setQ d v (k.spsn a))) :=
  ⟨_, compare_iff .., State.gate_issues 1 _ h⟩

theorem compareResults : Claims.CompareResults := by
  intro s ar k c d a b
  refine ⟨fun f h => ⟨_, compare_iff .., State.gate_issues 1 _ h⟩, fun i h => ?_⟩
  simp only [Claims.cmpiForms, List.forall_mem_cons, List.not_mem_nil, false_implies, implies_true, and_true]
  exact ⟨exec_cmpi 0 i h, exec_cmpi 1 i h, exec_cmpi 2 i h, exec_cmpi 3 i h, exec_cmpi 4 i h, exec_cmpi 5 i h, exec_cmpi 6 i h,
    exec_cmpi 7 i h⟩

theorem predicateResults : Claims.PredicateResults := by
  intro s ar k c
  refine ⟨fun d a b h => ⟨?_, ?_, ?_, ?_, ?_⟩, fun f d a b h => ⟨fun hf => ?_, fun hf => ?_⟩⟩
  · exact State.gate_issues 1 _ h
  · exact State.gate_issues 1 _ h
  · exact State.gate_issues 1 _ h
  · exact State.gate_issues 1 _ h
  · exact State.gate_issues 1 _ h
  · rw [exec_sel, execSel, State.gate_issues 1 _ h, wordOp, hf]; rfl
  · rw [exec_sel, execSel, State.gate_issues 1 _ h, wordOp, hf]; rfl

/-! ## FP32 codes by their keys (R61, R62, R94, R103)

A code of 32 bits is a NaN, an infinity or a finite place with its sign. Its key is that place, with the sign; the order of the values
is the order of the keys, since the magnitude rises strictly along the grid. -/

/-- What the code x of 32 bits stands for. -/
inductive Fp32Code (x : Nat) : Prop
  | nan (hn : Claims.isNan32 x) {n f} (value : decodeT 9 x = .nan n f)
  | inf (place : x % 2 ^ 31 = 0x7F800000) (value : decodeT 9 x = .inf (decide (2 ^ 31 ≤ x)))
  | fin (place : x % 2 ^ 31 < 0x7F800000) {u e} (value : decodeT 9 x = .fin (decide (2 ^ 31 ≤ x)) u e)
      (size : Claims.size u e = Claims.magnitude 23 (-149) (x % 2 ^ 31)) (zero : u = 0 ↔ x % 2 ^ 31 = 0)

theorem fp32Code {x : Nat} (hx : x < 2 ^ 32) : Fp32Code x := by
  rcases Nat.lt_trichotomy (x % 2 ^ 31) 0x7F800000 with h | h | h
  · obtain ⟨u, e, value, -, size, zero⟩ := fp32_finite hx h
    exact .fin h value size zero
  · exact .inf h (fp32_infinite hx h)
  · obtain ⟨M, -, place, -, value⟩ := fp32_onGrid.decodeT_of_ge rfl hx h.le
    have place' : x % 2 ^ 31 = 0x7F800000 + M := place
    exact .nan h (value.trans (if_neg (by omega)))

theorem low32_lt (x : Word) : Claims.low32 x < 2 ^ 32 := Nat.mod_lt _ (by decide)

section
variable {x y : Nat}

theorem isNan_decode_iff (hx : x < 2 ^ 32) : (decodeT 9 x).isNan = true ↔ Claims.isNan32 x := by
  cases fp32Code hx with
  | nan hn value => rw [value]; exact iff_of_true rfl hn
  | inf place value => rw [value]; exact iff_of_false Bool.false_ne_true (by rw [Claims.isNan32, place]; decide)
  | fin place value => rw [value]; exact iff_of_false Bool.false_ne_true place.not_gt

/-- A place of the grid with a sign, both zeros as 0. -/
def signedPlace (n : Bool) (m : Nat) : Int := if n then -(m : Int) else m

theorem signedPlace_lt_iff_left {a b : Bool} {m j : Nat} (h : j < m) : signedPlace a m < signedPlace b j ↔ a = true := by
  cases a <;> cases b <;> simp [signedPlace] <;> omega

theorem signedPlace_lt_iff_right {a b : Bool} {m i : Nat} (h : i < m) : signedPlace a i < signedPlace b m ↔ b = false := by
  cases a <;> cases b <;> simp [signedPlace] <;> omega

theorem sign_bit_iff (hx : x < 2 ^ 32) : x / 2 ^ 31 % 2 = 1 ↔ 2 ^ 31 ≤ x := by omega

theorem key32_eq (hx : x < 2 ^ 32) : Claims.key32 x = signedPlace (decide (2 ^ 31 ≤ x)) (x % 2 ^ 31) :=
  if_congr (by rw [sign_bit_iff hx, decide_eq_true_iff]) rfl rfl

/-- Finite values are ordered as their signed places. -/
theorem real_lt_iff {a b : Bool} {m k i j : Nat} {e f : Int} (hm : Claims.size m e = Claims.magnitude 23 (-149) i)
    (hk : Claims.size k f = Claims.magnitude 23 (-149) j) :
    Claims.real a m e < Claims.real b k f ↔ signedPlace a i < signedPlace b j := by
  have mono := magnitude_strictMono 23 (-149)
  have zero : Claims.magnitude 23 (-149) 0 = 0 := magnitude_zero
  have nonneg (j : Nat) : 0 ≤ Claims.magnitude 23 (-149) j := zero ▸ mono.monotone (Nat.zero_le j)
  have pos_iff (j : Nat) : 0 < Claims.magnitude 23 (-149) j ↔ 0 < j := by rw [← mono.lt_iff_lt (b := j), zero]
  rw [real_eq, real_eq, hm, hk]
  cases a <;> cases b <;> simp only [signedPlace, if_true, if_false, Bool.false_eq_true]
  case false.false => rw [mono.lt_iff_lt]; omega
  case false.true => exact iff_of_false (by linarith [nonneg i, nonneg j]) (by omega)
  case true.false =>
    rw [show (-(i : Int) < j) ↔ 0 < i ∨ 0 < j by omega, ← pos_iff i, ← pos_iff j]
    refine ⟨fun h => ?_, fun h => ?_⟩
    · by_contra! h'; linarith
    · rcases h with h | h <;> linarith [nonneg i, nonneg j]
  case true.true => rw [neg_lt_neg_iff, mono.lt_iff_lt]; omega

/-- Values that are no NaN are ordered as their keys (R94). -/
theorem lt_decode_iff (hx : x < 2 ^ 32) (hy : y < 2 ^ 32) (nx : ¬ Claims.isNan32 x) (ny : ¬ Claims.isNan32 y) :
    (decodeT 9 x).lt (decodeT 9 y) = true ↔ Claims.key32 x < Claims.key32 y := by
  rw [key32_eq hx, key32_eq hy]
  generalize ha : decide (2 ^ 31 ≤ x) = a
  generalize hb : decide (2 ^ 31 ≤ y) = b
  cases fp32Code hx with
  | nan hn => exact absurd hn nx
  | inf px vx =>
    cases fp32Code hy with
    | nan hn => exact absurd hn ny
    | inf py vy =>
      rw [vx, vy, ha, hb, (valuesAreOrdered a b 0 0 0 0).2.2.2, px, py]
      cases a <;> cases b <;> decide
    | @fin py u e vy =>
      rw [vx, vy, ha, hb, (valuesAreOrdered a b 0 u 0 e).2.1, px, signedPlace_lt_iff_left py]
  | @fin px u e vx sx =>
    cases fp32Code hy with
    | nan hn => exact absurd hn ny
    | inf py vy =>
      rw [vx, vy, ha, hb, (valuesAreOrdered b a 0 u 0 e).2.2.1, py, signedPlace_lt_iff_right px]
    | fin py vy sy =>
      rw [vx, vy, ha, hb, (valuesAreOrdered ..).1]
      exact real_lt_iff sx sy

/-- FCMP's conditions on the values of two codes are those on the codes (R53, R94). -/
theorem fcmpV_iff (hx : x < 2 ^ 32) (hy : y < 2 ^ 32) (f : BitVec 3) :
    fcmpV f.toNat (decodeT 9 x) (decodeT 9 y) = true ↔ Claims.fcompares f.toNat x y := by
  have nan : ((decodeT 9 x).isNan || (decodeT 9 y).isNan) = true ↔ Claims.isNan32 x ∨ Claims.isNan32 y := by
    rw [Bool.or_eq_true, isNan_decode_iff hx, isNan_decode_iff hy]
  generalize f.toNat = n
  by_cases h : Claims.isNan32 x ∨ Claims.isNan32 y
  · have un := nan.mpr h
    match n with
    | 0 | 1 | 2 | 3 | 4 | 5 | 6 | _ + 7 => simp [fcmpV, Claims.fcompares, un, h]
  · have ordered := Bool.eq_false_iff.mpr (mt nan.mp h)
    obtain ⟨nx, ny⟩ := not_or.mp h
    have lt : (decodeT 9 x).lt (decodeT 9 y) = decide (Claims.key32 x < Claims.key32 y) := by
      rw [Bool.eq_iff_iff, lt_decode_iff hx hy nx ny, decide_eq_true_iff]
    have gt : (decodeT 9 y).lt (decodeT 9 x) = decide (Claims.key32 y < Claims.key32 x) := by
      rw [Bool.eq_iff_iff, lt_decode_iff hy hx ny nx, decide_eq_true_iff]
    have eqv : (decodeT 9 x).eqv (decodeT 9 y) = decide (Claims.key32 x = Claims.key32 y) := by
      obtain ⟨hx', hy'⟩ := Bool.or_eq_false_iff.mp ordered
      rw [Val.eqv, lt, gt, hx', hy', Bool.eq_iff_iff]
      simp; omega
    match n with
    | 0 | 1 | 2 | 3 | 4 | 5 | 6 | _ + 7 => simp [fcmpV, Claims.fcompares, ordered, nx, ny, lt, gt, eqv]

end

theorem fcompare_iff (f : BitVec 3) (x y : Word) :
    fcompare f.toNat x y = true ↔ Claims.fcompares f.toNat (Claims.low32 x) (Claims.low32 y) := by
  rw [fcompare, bits_zero, bits_zero]
  exact fcmpV_iff (low32_lt x) (low32_lt y) f

theorem floatCompareResults : Claims.FloatCompareResults := fun _ _ _ _ f _ _ _ h =>
  ⟨_, fcompare_iff f .., State.gate_issues 1 _ h⟩

/-- Settles O14: the model's comparisons are those of the integers and, by the keys of the codes, of the values. -/
theorem compareAndPredicateResults : Obligations.CompareAndPredicateResults :=
  ⟨compareResults, floatCompareResults, predicateResults⟩

end Sys2Proof.Machine
end

section
namespace Sys2Proof.Machine

/-! ## FP32 arithmetic, minima, maxima and signs (R102, R103) -/

/-- An instruction that passes its gate rounds its value once, with the draw of its mode (R68, R102). -/
theorem State.gate_roundOp {s : State} {ar : Area} {k : Cell} {c : Cond} {regs : List SReg} {rnd : BitVec 3} {d : SReg} (n : Nat)
    (v : Cell → Val) (p : Cell → Bool) (h : s.issues c regs ar k) : s.gate c n regs (roundOp n rnd d v p) =
      .next ((s.draw k.hid rnd.toNat).2.finish k n (fun x =>
        x.setS d (BitVec.ofNat 64 (roundFP32 rnd.toNat (s.draw k.hid rnd.toNat).1 (v k))) (p k))) :=
  State.gate_issues n _ h

theorem f32_eq (x : Word) : f32 x = decodeT 9 (Claims.low32 x) := by
  rw [f32, bits_zero]; rfl

theorem floatArithmeticResults : Claims.FloatArithmeticResults := by
  intro s ar k c rnd d a b e A B C g res
  have hA : f32 (k.sreg a) = A := f32_eq _
  have hB : f32 (k.sreg b) = B := f32_eq _
  have hC : f32 (k.sreg e) = C := f32_eq _
  refine ⟨fun h => ⟨?_, ?_, ?_, ?_⟩, fun h => ?_, fun h => ?_⟩
  · rw [exec_fadd, execFadd, State.gate_roundOp 1 _ _ h, hA, hB]
  · rw [exec_fsub, execFsub, State.gate_roundOp 1 _ _ h, hA, hB]
  · rw [exec_fmul, execFmul, State.gate_roundOp 1 _ _ h, hA, hB]
  · rw [exec_fdiv, execFdiv, State.gate_roundOp 1 _ _ h, hA, hB]
  · rw [exec_fsqrt, execFsqrt, State.gate_roundOp 1 _ _ h, hA]
  · rw [exec_ffma, execFfma, State.gate_roundOp 2 _ _ h, hA, hB, hC, Val.fma]

/-! ### Minima and maxima: the order with −0 below +0 -/

section
variable {x y : Nat}

/-- What `ltZ` sees of a code that is no NaN beside its order: whether it is a zero, and its sign. -/
theorem isZero_neg_decode (hx : x < 2 ^ 32) (nx : ¬ Claims.isNan32 x) :
    ((decodeT 9 x).isZero = true ↔ x % 2 ^ 31 = 0) ∧ ((decodeT 9 x).neg = true ↔ 2 ^ 31 ≤ x) := by
  cases fp32Code hx with
  | nan hn => exact absurd hn nx
  | inf place value =>
    rw [value]
    exact ⟨iff_of_false Bool.false_ne_true (by rw [place]; decide), decide_eq_true_iff⟩
  | @fin place u e value size zero =>
    rw [value, ← zero]
    refine ⟨?_, decide_eq_true_iff⟩
    cases u with
    | zero => exact iff_of_true rfl rfl
    | succ u => exact iff_of_false Bool.false_ne_true (Nat.succ_ne_zero u)

/-- The order of FMIN and FMAX is that of the keys with −0 below +0 (R103). -/
theorem ltZ_decode_iff (hx : x < 2 ^ 32) (hy : y < 2 ^ 32) (nx : ¬ Claims.isNan32 x) (ny : ¬ Claims.isNan32 y) :
    (decodeT 9 x).ltZ (decodeT 9 y) = true ↔ Claims.zkey32 x < Claims.zkey32 y := by
  obtain ⟨zx, sx⟩ := isZero_neg_decode hx nx
  obtain ⟨zy, sy⟩ := isZero_neg_decode hy ny
  have both_zero : ((decodeT 9 x).isZero && (decodeT 9 y).isZero && (decodeT 9 x).neg && !(decodeT 9 y).neg) = true ↔
      x % 2 ^ 31 = 0 ∧ y % 2 ^ 31 = 0 ∧ 2 ^ 31 ≤ x ∧ ¬ 2 ^ 31 ≤ y := by
    simp only [Bool.and_eq_true, Bool.not_eq_true', ← Bool.not_eq_true, zx, zy, sx, sy, and_assoc]
  rw [Val.ltZ, Bool.or_eq_true, both_zero, lt_decode_iff hx hy nx ny]
  simp only [Claims.key32, Claims.zkey32]
  split <;> split <;> omega

/-- FMIN and FMAX of two codes (R103). -/
theorem fminT_spec (mx : Bool) (hx : x < 2 ^ 32) (hy : y < 2 ^ 32) : Claims.isMinMax mx x y (fminT 9 mx x y) := by
  have nx := isNan_decode_iff hx
  have ny := isNan_decode_iff hy
  refine ⟨fun ⟨h, h'⟩ => ?_, fun ⟨h, h'⟩ => ?_, fun ⟨h, h'⟩ => ?_, fun ⟨h, h'⟩ => ?_⟩
  · simp only [fminT, nx.mpr h, ny.mpr h']; rfl
  · simp only [fminT, nx.mpr h, Bool.eq_false_iff.mpr (mt ny.mp h')]
  · simp only [fminT, Bool.eq_false_iff.mpr (mt nx.mp h), ny.mpr h']
  · have chosen : fminT 9 mx x y =
        if (if mx then Claims.zkey32 x < Claims.zkey32 y else Claims.zkey32 y < Claims.zkey32 x) then y else x := by
      simp only [fminT, Bool.eq_false_iff.mpr (mt nx.mp h), Bool.eq_false_iff.mpr (mt ny.mp h')]
      refine if_congr ?_ rfl rfl
      cases mx
      · exact ltZ_decode_iff hy hx h' h
      · exact ltZ_decode_iff hx hy h h'
    rw [chosen]
    refine ⟨(ite_eq_or_eq ..).symm, ?_⟩
    cases mx
    · simp only [Bool.false_eq_true, if_false]; split <;> omega
    · simp only [if_true]; split <;> omega

end

/-- The class of a code by its place and its sign (R103). -/
theorem fclassBit_eq (x : Nat) : fclassBit x = Claims.classOf x := by
  have place : x % 2 ^ 31 = bits x 23 8 * 2 ^ 23 + bits x 0 23 := by simp only [bits]; omega
  have expo_lt : bits x 23 8 < 2 ^ 8 := Nat.mod_lt _ (by decide)
  have frac_lt : bits x 0 23 < 2 ^ 23 := Nat.mod_lt _ (by decide)
  have quiet : bitOf x 22 = decide (2 ^ 22 ≤ bits x 0 23) := decide_eq_decide.mpr (by simp only [bits]; omega)
  have sign : bitOf x 31 = decide (x / 2 ^ 31 % 2 = 1) := rfl
  rw [fclassBit, Claims.classOf, place, quiet, sign]
  generalize bits x 23 8 = e at *
  generalize bits x 0 23 = m at *
  simp only [decide_eq_true_eq]
  have classes : e = 255 ∧ m = 0 ∨ e = 255 ∧ 0 < m ∧ m < 2 ^ 22 ∨ e = 255 ∧ 2 ^ 22 ≤ m ∨ e = 0 ∧ m = 0 ∨ e = 0 ∧ 0 < m ∨
      0 < e ∧ e < 255 := by omega
  rcases Nat.mod_two_eq_zero_or_one (x / 2 ^ 31) with positive | negative
  · rcases classes with h | h | h | h | h | h <;> simp (disch := omega) only [if_pos, if_neg]
  · rcases classes with h | h | h | h | h | h <;> simp (disch := omega) only [if_pos, if_neg]

/-- The sign bit turned over is 2^31 added modulo 2^32. -/
theorem xor_sign_bit {z : Nat} (hz : z < 2 ^ 32) : z ^^^ 2 ^ 31 = (z + 2 ^ 31) % 2 ^ 32 := by
  apply Nat.eq_of_testBit_eq
  intro j
  rw [Nat.testBit_xor, Nat.testBit_two_pow, Nat.testBit_mod_two_pow, Nat.add_comm]
  rcases Nat.lt_trichotomy j 31 with h | rfl | h
  · rw [Nat.testBit_two_pow_add_gt h]; simp [h.ne', show j < 32 by omega]
  · rw [Nat.testBit_two_pow_add_eq]; simp
  · rw [Nat.testBit_lt_two_pow (hz.trans_le (Nat.pow_le_pow_right two_pos h))]; simp [h.ne, show ¬ j < 32 by omega]

theorem and_placeMask_eq (x : Word) : x &&& 0x7FFFFFFF#64 = BitVec.ofNat 64 (Claims.low32 x % 2 ^ 31) := by
  rw [Claims.low32, Nat.mod_mod_of_dvd _ (by decide)]
  exact and_lowMask x (n := 31) (by decide)

theorem low32_xor_signBit_eq (x : Word) :
    (x &&& 0xFFFFFFFF#64) ^^^ 0x80000000#64 = BitVec.ofNat 64 ((Claims.low32 x + 2 ^ 31) % 2 ^ 32) := by
  have low : x &&& 0xFFFFFFFF#64 = BitVec.ofNat 64 (Claims.low32 x) := and_lowMask x (n := 32) (by decide)
  rw [low, ← xor_sign_bit (low32_lt x), BitVec.ofNat_xor]; rfl

theorem floatSelectionResults : Claims.FloatSelectionResults := by
  intro s ar k c d a b x y
  have hx : bits (k.sreg a).toNat 0 32 = x := bits_zero ..
  have hy : bits (k.sreg b).toNat 0 32 = y := bits_zero ..
  have minMax (mx : Bool) :
      Claims.isMinMax mx x y (fminT 9 mx (bits (k.sreg a).toNat 0 32) (bits (k.sreg b).toNat 0 32)) := by
    rw [hx, hy]; exact fminT_spec mx (low32_lt _) (low32_lt _)
  refine ⟨fun h => ⟨⟨_, State.gate_alu2 h rfl, minMax false⟩, ⟨_, State.gate_alu2 h rfl, minMax true⟩⟩, fun h => ⟨?_, ?_, ?_⟩⟩
  · exact State.gate_alu1 h (and_placeMask_eq _)
  · exact State.gate_alu1 h (low32_xor_signBit_eq _)
  · exact State.gate_alu1 h (by rw [hx, fclassBit_eq])

/-- Settles O15: one rounding of the model's exact value, and the choice by the keys of the codes. -/
theorem floatResults : Obligations.FloatResults := ⟨floatArithmeticResults, floatSelectionResults⟩

end Sys2Proof.Machine
end

section
namespace Sys2Proof.Machine

/-! ## Branches and LOOP (R81, R85–R89) -/

/-- A word offset in bytes (R47). -/
theorem wordOff_eq (off : BitVec 18) : wordOff off = BitVec.ofInt 64 (4 * off.toInt) := by
  rw [wordOff, BitVec.shiftLeft_eq_mul_twoPow, Int.mul_comm, BitVec.ofInt_mul]; rfl

/-- Poison that is consumed without strict control marks the area, and the instruction runs on (R81). -/
theorem State.consume_marked {s : State} {a : Area} {faddr : Word} {body : State → State} (h : s.strict a.ctx = false) :
    s.consume a true faddr body = body s.markConsumed := by
  rw [State.consume, if_pos rfl, h]; rfl

section
variable {s : State} {ar : Area} {k : Cell} {c : Cond} {d a b : SReg} {f : BitVec 3} {off : BitVec 18}

/-- LOOP behind its gate: it counts down and branches unless s[d], not s0, comes to 0 (R88). -/
theorem exec_loop_issues (h : s.issues c [d] ar k) : exec (.loop c d off) s = .next (s.consume ar (k.spsn d) 0 (fun s =>
    if d = 0 ∨ k.sreg d ≠ 1 then
      s.jump k (k.pc + BitVec.ofInt 64 (4 * off.toInt)) (fun x => x.setS d (k.sreg d - 1) (k.spsn d))
    else s.finish k 2 (fun x => x.setS d 0 (k.spsn d)))) := by
  rw [exec_loop, execLoop, State.gate_issues 2 _ h, ← wordOff_eq]
  refine congrArg (fun body => Host.Outcome.next (s.consume ar (k.spsn d) 0 body)) (funext fun t => ?_)
  have counts : k.sreg d - 1 ≠ 0 ↔ k.sreg d ≠ 1 := sub_eq_zero.not
  by_cases branches : d = 0 ∨ k.sreg d ≠ 1
  · rw [if_pos (or_congr_right counts |>.mpr branches), if_pos branches]
  · obtain ⟨-, one⟩ := not_or.mp branches
    rw [if_neg (mt (or_congr_right counts).mp branches), if_neg branches, not_not.mp one]; rfl

/-- BRC behind its gate (R87). -/
theorem exec_brc_issues (h : s.issues c [a, b] ar k) :
    exec (.brc c f a b off) s = .next (s.consume ar (k.spsn a || k.spsn b) 0 (fun s =>
      if compare f.toNat (k.sreg a) (k.sreg b) then s.jump k (k.pc + BitVec.ofInt 64 (4 * off.toInt)) id
      else s.finish k 2 id)) := by
  rw [← wordOff_eq]; exact (exec_brc c f a b off s).trans (State.gate_issues 2 _ h)

/-- BRX and RETN behind their gate: a register branch with the kind of trace record of each (R86). -/
theorem exec_branchReg_issues (h : s.issues c [a] ar k) :
    exec (.brx c a) s = .next (branchReg 4 a ar k s) ∧ exec (.retn c a) s = .next (branchReg 5 a ar k s) :=
  ⟨(exec_brx c a s).trans (State.gate_issues 1 _ h), (exec_retn c a s).trans (State.gate_issues 1 _ h)⟩

end

/-- Settles O19: the words of LOOP by its fields, and the three cases of its count. -/
theorem loopCountsDown : Obligations.LoopCountsDown := by
  intro s ar k c d off
  refine ⟨⟨_, _, encode_loop c d off, ?_, offset_field off⟩, fun h hp => ⟨fun hd => ?_, fun hd h1 => ?_, fun hd h1 => ?_⟩⟩
  · obtain ⟨len, op, -⟩ := word0_fields 0 0 0 d c 0x01 1
    have low := BitVec.extractLsb'_append_extractLsb'_eq_extractLsb' (x := word0 0 0 0 d c 0x01 1) (len₂ := 8) (Nat.zero_add 2).symm
    exact low.symm.trans (congrArg₂ (· ++ ·) op len)
  · subst hd
    rw [exec_loop_issues h, State.consume_clean hp, if_pos (.inl rfl)]; rfl
  · rw [exec_loop_issues h, State.consume_clean hp, if_pos (.inr h1), hp]
  · rw [exec_loop_issues h, State.consume_clean hp, if_neg (not_or.mpr ⟨hd, not_not.mpr h1⟩), hp]

theorem branchesAndHints : Claims.BranchesAndHints := by
  intro s ar k c f a b off dest
  have target : k.pc + wordOff off = dest := by rw [wordOff_eq]
  refine ⟨fun h => ⟨?_, ?_, ?_⟩, fun h => ?_, fun h ha hb => ⟨fun hc => ?_, fun hc => ?_⟩⟩
  · exact (exec_nop c s).trans (State.gate_issues 1 _ h)
  · exact (exec_yield c s).trans (State.gate_issues 1 _ h)
  · rw [← target]; exact (exec_br c off s).trans (State.gate_issues 1 _ h)
  · rw [← target]; exact (exec_call c off s).trans (State.gate_issues 1 _ h)
  · rw [exec_brc_issues h, State.consume_clean (by rw [ha, hb]; rfl), if_pos ((compare_iff ..).mpr hc)]
  · rw [exec_brc_issues h, State.consume_clean (by rw [ha, hb]; rfl), if_neg (mt (compare_iff ..).mp hc)]

/-- A register's bits 1 and 0 are 0 exactly for a multiple of 4. -/
theorem aligned_iff (w : Word) : w.extractLsb' 0 2 = 0 ↔ w.toNat % 4 = 0 := by
  rw [← BitVec.toNat_inj, BitVec.extractLsb'_toNat]; rfl

section
variable {s : State} {ar : Area} {k : Cell} {a : SReg} (kind : Nat)

theorem branchReg_misaligned (hp : k.spsn a = false) (h : (k.sreg a).toNat % 4 ≠ 0) :
    branchReg kind a ar k s = s.raise fltMisaligned 0 := by
  rw [branchReg, State.consume_clean hp, if_pos (mt (aligned_iff _).mp h)]

theorem branchReg_aligned (hp : k.spsn a = false) (h : (k.sreg a).toNat % 4 = 0) : branchReg kind a ar k s =
    (if ((s.ctx ar.ctx).map (fun x => x.trace.getLsbD 1)).getD false then
      s.log ar.ctx kind 0 ar.op (areaAddr ar.ctx ar.pos) k.pc.toNat (k.sreg a).toNat else s).jump k (k.sreg a) id := by
  rw [branchReg, State.consume_clean hp, if_neg (not_not.mpr ((aligned_iff _).mpr h))]

theorem branchReg_strict (hp : k.spsn a = true) (h : s.strict ar.ctx = true) :
    branchReg kind a ar k s = s.raise fltPoisonConsumed 0 := by
  rw [branchReg, hp, State.consume_strict h]

end

theorem registerBranches : Claims.RegisterBranches := by
  intro s ar k c a h hp traced rec_
  obtain ⟨brx, retn⟩ := exec_branchReg_issues h
  rw [brx, retn]
  refine ⟨fun ht => ?_, fun ht hn => ?_, fun ht hy => ?_⟩
  · rw [branchReg_misaligned 4 hp ht, branchReg_misaligned 5 hp ht]; exact ⟨rfl, rfl⟩
  · rw [branchReg_aligned 4 hp ht, branchReg_aligned 5 hp ht, if_neg (Bool.eq_false_iff.mp hn), if_neg (Bool.eq_false_iff.mp hn)]
    exact ⟨rfl, rfl⟩
  · rw [branchReg_aligned 4 hp ht, branchReg_aligned 5 hp ht, if_pos hy, if_pos hy]; exact ⟨rfl, rfl⟩

theorem poisonIsConsumedByControl : Claims.PoisonIsConsumedByControl := by
  intro s ar k c f a b off
  refine ⟨fun strict => ⟨fun h hp => ?_, fun h hp => ?_⟩, fun loose => ⟨fun h hp h1 => ?_, fun h hp hc => ?_⟩, ?_⟩
  · obtain ⟨brx, retn⟩ := exec_branchReg_issues h
    rw [brx, retn, branchReg_strict 4 hp strict, branchReg_strict 5 hp strict, exec_loop_issues h, hp, State.consume_strict strict]
    exact ⟨rfl, rfl, rfl⟩
  · rw [exec_brc_issues h, hp, State.consume_strict strict]; rfl
  · rw [exec_loop_issues h, hp, State.consume_marked loose, if_pos (.inr h1)]
  · rw [exec_brc_issues h, hp, State.consume_marked loose, if_pos ((compare_iff ..).mpr hc)]
  · rintro t rfl
    refine ⟨fun ha => ?_, fun u hu => Tab.find_upd_ne _ _ hu, rfl⟩
    exact (Tab.find_upd_self ..).trans (congrArg (Option.map _) ha)

/-- Settles O22: each branch behind its gate, where poison is consumed, and where its target lies. -/
theorem branchResults : Obligations.BranchResults := ⟨branchesAndHints, registerBranches, poisonIsConsumedByControl⟩

end Sys2Proof.Machine
end

section
namespace Sys2Proof.Machine

/-! ## The rewrite of a cell (R118)

Each of the four instructions passes the plain gate; what is left is whether its area is a supervisor's and where its position or count
lies. -/

theorem rewriteOp_supervisor {ar : Area} {k : Cell} {s : State} (body : Area → Cell → State → State) (hv : ar.kind.supervisor = true) :
    rewriteOp body ar k s = s.raise fltOperatorInvalid 0 := if_pos hv

theorem rewriteOp_program {ar : Area} {k : Cell} {s : State} (body : Area → Cell → State → State) (hv : ar.kind.supervisor = false) :
    rewriteOp body ar k s = body ar k s := if_neg (Bool.eq_false_iff.mp hv)

section
variable {s : State} {ar : Area} {k : Cell} {c : Cond} {regs : List SReg}

theorem State.gate_rewrite_supervisor (body : Area → Cell → State → State) (h : s.issues c regs ar k) (hv : ar.kind.supervisor = true) :
    s.gate c 1 regs (rewriteOp body) = .next (s.raise 0x42 0) :=
  (State.gate_issues 1 _ h).trans (congrArg _ (rewriteOp_supervisor body hv))

theorem State.gate_rewrite_program (body : Area → Cell → State → State) (h : s.issues c regs ar k) (hv : ar.kind.supervisor = false) :
    s.gate c 1 regs (rewriteOp body) = .next (body ar k s) :=
  (State.gate_issues 1 _ h).trans (congrArg _ (rewriteOp_program body hv))

end

/-- Settles O18: behind the gate, an area of a program meets the instruction's own checks, and a supervisor's area none. -/
theorem rewriteRecords : Obligations.RewriteRecords := by
  intro s ar k c kind a b y
  refine ⟨fun hv hab ha h => ⟨?_, ?_, ?_, ?_⟩, fun hv => ⟨fun h => ?_, fun h => ⟨?_, fun hp hn => ?_, fun hp hn => ?_⟩,
    fun h hp => ⟨fun hn => ?_, fun hn => ?_⟩⟩⟩
  · exact State.gate_rewrite_supervisor _ ha hv
  · exact State.gate_rewrite_supervisor _ hab hv
  · exact State.gate_rewrite_supervisor _ ha hv
  · exact State.gate_rewrite_supervisor _ h hv
  · exact State.gate_rewrite_program _ h hv
  · exact State.gate_rewrite_program _ h hv
  · rw [exec_insert, execInsert, State.gate_rewrite_program _ h hv, State.consume_clean hp, if_neg (Nat.not_lt.mpr hn)]
  · rw [exec_insert, execInsert, State.gate_rewrite_program _ h hv, State.consume_clean hp, if_pos hn]; rfl
  · rw [exec_emitn, execEmitn, State.gate_rewrite_program _ h hv, State.consume_clean hp, if_neg (Nat.not_le.mpr hn)]; rfl
  · rw [exec_emitn, execEmitn, State.gate_rewrite_program _ h hv, State.consume_clean hp, if_pos hn]; rfl

end Sys2Proof.Machine
end

section
namespace Sys2Proof

/-! ## Tables whose entries change in place -/

theorem Tab.find_map {α β : Type} (g : Nat → α → β) (t : Tab α) (k : Nat) :
    Tab.find (t.map (fun p => (p.1, g p.1 p.2))) k = (t.find k).map (g k) := by
  induction t with
  | nil => rfl
  | cons p r ih =>
    obtain ⟨j, v⟩ := p
    rw [List.map_cons, Tab.find, Tab.find]
    split
    · next h => rw [h]; rfl
    · exact ih

theorem Tab.mem_of_find {α : Type} {t : Tab α} {k : Nat} {v : α} (h : t.find k = some v) : (k, v) ∈ t := by
  induction t with
  | nil => cases h
  | cons p r ih =>
    obtain ⟨j, w⟩ := p
    rw [Tab.find] at h
    split at h
    · next e => cases h; rw [e]; exact List.mem_cons_self
    · exact List.mem_cons_of_mem _ (ih h)

/-- In a table with rising keys every entry is the one that its key finds. -/
theorem Tab.find_of_mem {α : Type} {t : Tab α} {k : Nat} {v : α} (hs : t.Pairwise (fun p q => p.1 < q.1)) (h : (k, v) ∈ t) :
    t.find k = some v := by
  induction t with
  | nil => cases h
  | cons p r ih =>
    rw [List.pairwise_cons] at hs
    rcases List.mem_cons.mp h with rfl | h
    · exact if_pos rfl
    · exact (if_neg (hs.1 _ h).ne).trans (ih hs.2 h)

/-- The first element that meets `p` is the least one, where keys rise along the list. -/
theorem le_of_find? {α : Type} {key : α → Nat} {p : α → Bool} {l : List α} {x : α} (hs : l.Pairwise (fun a b => key a < key b))
    (h : l.find? p = some x) : ∀ y ∈ l, p y = true → key x ≤ key y := by
  induction l with
  | nil => cases h
  | cons a r ih =>
    rw [List.pairwise_cons] at hs
    rw [List.find?_cons] at h
    intro y hy hp
    split at h
    · next ha =>
      cases h
      rcases List.mem_cons.mp hy with rfl | hy
      · exact le_rfl
      · exact (hs.1 y hy).le
    · next ha =>
      rcases List.mem_cons.mp hy with rfl | hy
      · exact absurd (ha.symm.trans hp) Bool.false_ne_true
      · exact ih hs.2 h y hy hp

end Sys2Proof

namespace Sys2Proof.Machine

/-! ## Arrival at a collective (R109, R117) -/

/-- Whatever its condition, a cell that awaits none of the instruction's registers arrives. -/
theorem State.collGate_arrives {s : State} {ar : Area} {k : Cell} {c : Cond} {regs : List SReg} (arr : Cell → Arrival)
    (ha : s.area s.cur.1 = some ar) (hk : ar.cells.find s.cur.2 = some k) (hq : k.qpsn c.q = false)
    (hw : k.cond c = false ∨ k.pend.any (fun x => regs.contains x.1) = false ∧ k.awaitsMem regs = false) :
    s.collGate c regs arr = .next (((s.settle s.cur.1 s.cur.2 17).count k.hid 1 1).modCur (fun x => { x with
      coll := x.coll + 1, arrs := x.arrs ++ [arr k], wait := none, pc := if (arr k).waits then x.pc else x.pc + 4 })) := by
  have free : (k.cond c && k.pend.any (fun x => regs.contains x.1)) = false ∧ (k.cond c && k.awaitsMem regs) = false := by
    rcases hw with h | ⟨hp, hm⟩
    · rw [h]; exact ⟨rfl, rfl⟩
    · rw [hp, hm, Bool.and_false]; exact ⟨rfl, rfl⟩
  simp only [State.collGate, ha, hk, hq, free, Bool.false_and, Bool.false_eq_true, if_false]

theorem collectiveArrivals : Claims.CollectiveArrivals := by
  intro s ar k c f d a b q ha hk hq
  simp only [Claims.arrivals, List.forall_mem_cons, List.not_mem_nil, false_implies, implies_true, and_true]
  exact ⟨State.collGate_arrives _ ha hk hq, State.collGate_arrives _ ha hk hq, State.collGate_arrives _ ha hk hq,
    State.collGate_arrives _ ha hk hq, State.collGate_arrives _ ha hk hq, State.collGate_arrives _ ha hk hq,
    State.collGate_arrives _ ha hk hq, State.collGate_arrives _ ha hk hq⟩

end Sys2Proof.Machine
end

section
namespace Sys2Proof.Machine

/-! ## Combining integers (R114, Tables 3.11 and 6.2) -/

/-- A fold that keeps the one of two words with the lower key, from a word with the highest key, gives a word of the list with the
lowest key, or that word for the empty list. -/
theorem foldl_least {κ : Word → Int} (inj : ∀ x y, κ x = κ y → x = y) {op : Word → Word → Word}
    (hop : ∀ x y, op x y = if κ y < κ x then y else x) {top : Word} (htop : ∀ x, κ x ≤ κ top) (l : List Word) :
    (∀ x ∈ l, κ (l.foldl op top) ≤ κ x) ∧ (l.foldl op top ∈ l ∨ l = [] ∧ l.foldl op top = top) := by
  have step : ∀ (l : List Word) (a : Word), κ (l.foldl op a) ≤ κ a ∧ (∀ x ∈ l, κ (l.foldl op a) ≤ κ x) ∧
      (l.foldl op a = a ∨ l.foldl op a ∈ l) := by
    intro l
    induction l with
    | nil => exact fun a => ⟨le_rfl, fun x hx => (List.not_mem_nil hx).elim, .inl rfl⟩
    | cons y r ih =>
      intro a
      obtain ⟨below, least, which⟩ := ih (op a y)
      have lower : κ (op a y) ≤ κ a ∧ κ (op a y) ≤ κ y ∧ (op a y = a ∨ op a y = y) := by
        rw [hop]
        split
        · next h => exact ⟨h.le, le_rfl, .inr rfl⟩
        · next h => exact ⟨le_rfl, not_lt.mp h, .inl rfl⟩
      rw [List.foldl_cons]
      refine ⟨below.trans lower.1, List.forall_mem_cons.mpr ⟨below.trans lower.2.1, least⟩, ?_⟩
      rcases which with e | h
      · rw [e]; exact lower.2.2.imp_right (fun h => List.mem_cons.mpr (.inl h))
      · exact .inr (List.mem_cons_of_mem _ h)
  obtain ⟨-, least, which⟩ := step l top
  refine ⟨least, ?_⟩
  cases l with
  | nil => exact .inr ⟨rfl, rfl⟩
  | cons y r =>
    rcases which with e | h
    · have : y = top := inj _ _ (le_antisymm (htop y) (e ▸ least y List.mem_cons_self))
      rw [e, ← this]
      exact .inl List.mem_cons_self
    · exact .inl h

theorem toNat_foldl_add (l : List Word) (a : Word) :
    (l.foldl (fun x y => x + y) a).toNat = (a.toNat + (l.map (·.toNat)).sum) % 2 ^ 64 := by
  induction l generalizing a with
  | nil => exact (Nat.mod_eq_of_lt a.isLt).symm
  | cons y r ih => rw [List.foldl_cons, ih, BitVec.toNat_add, List.map_cons, List.sum_cons, Nat.mod_add_mod, Nat.add_assoc]

theorem getLsbD_foldl_and (l : List Word) (a : Word) (j : Nat) :
    (l.foldl (fun x y => x &&& y) a).getLsbD j = (a.getLsbD j && l.all (fun x => x.getLsbD j)) := by
  induction l generalizing a with
  | nil => exact (Bool.and_true _).symm
  | cons y r ih => rw [List.foldl_cons, ih, BitVec.getLsbD_and, List.all_cons, Bool.and_assoc]

theorem getLsbD_foldl_or (l : List Word) (a : Word) (j : Nat) :
    (l.foldl (fun x y => x ||| y) a).getLsbD j = (a.getLsbD j || l.any (fun x => x.getLsbD j)) := by
  induction l generalizing a with
  | nil => exact (Bool.or_false _).symm
  | cons y r ih => rw [List.foldl_cons, ih, BitVec.getLsbD_or, List.any_cons, Bool.or_assoc]

theorem getLsbD_foldl_xor (l : List Word) (a : Word) (j : Nat) : (l.foldl (fun x y => x ^^^ y) a).getLsbD j =
    (a.getLsbD j ^^ decide ((l.filter (fun x => x.getLsbD j)).length % 2 = 1)) := by
  induction l generalizing a with
  | nil => exact (Bool.xor_false _).symm
  | cons y r ih =>
    rw [List.foldl_cons, ih, BitVec.getLsbD_xor, Bool.xor_assoc, List.filter_cons]
    cases y.getLsbD j with
    | false => rw [Bool.false_xor]; rfl
    | true =>
      have odd_succ (n : Nat) : decide ((n + 1) % 2 = 1) = !decide (n % 2 = 1) := by
        rw [← decide_not]; exact decide_eq_decide.mpr (by omega)
      rw [Bool.true_xor, if_pos rfl, List.length_cons, odd_succ]

/-- The fold from the identity of Table 6.2 combines the list by its op code. -/
theorem combines_foldl (f : Nat) (l : List Word) : Claims.combines f l (l.foldl (combineInt f) (identInt f)) := by
  have neg_injective : ∀ x y : Word, -x.toInt = -y.toInt → x = y := fun x y h => BitVec.eq_of_toInt_eq (Int.neg_inj.mp h)
  match f with
  | 0 => exact (toNat_foldl_add l 0#64).trans (by rw [BitVec.toNat_zero, Nat.zero_add])
  | 1 =>
    exact foldl_least (κ := fun x => x.toInt) (fun _ _ => BitVec.eq_of_toInt_eq) (fun x y => ite_slt y x y x)
      (fun x => Int.le_of_lt_add_one BitVec.toInt_lt) l
  | 2 =>
    have h := foldl_least (κ := fun x => -x.toInt) (op := combineInt 2) neg_injective
      (fun x y => (ite_slt x y y x).trans (if_congr Int.neg_lt_neg_iff.symm rfl rfl)) (top := identInt 2)
      (fun x => Int.neg_le_neg (BitVec.le_toInt x)) l
    exact ⟨fun x hx => Int.neg_le_neg_iff.mp (h.1 x hx), h.2⟩
  | 3 =>
    have h := foldl_least (κ := fun x => (x.toNat : Int)) (op := combineInt 3) (fun _ _ h => BitVec.eq_of_toNat_eq (Int.ofNat_inj.mp h))
      (fun x y => (ite_ult y x y x).trans (if_congr Int.ofNat_lt.symm rfl rfl)) (top := identInt 3)
      (fun x => Int.ofNat_le.mpr (Nat.le_of_lt_succ x.isLt)) l
    exact ⟨fun x hx => Int.ofNat_le.mp (h.1 x hx), h.2⟩
  | 4 =>
    have h := foldl_least (κ := fun x => -(x.toNat : Int)) (op := combineInt 4)
      (fun _ _ h => BitVec.eq_of_toNat_eq (Int.ofNat_inj.mp (Int.neg_inj.mp h)))
      (fun x y => (ite_ult x y y x).trans (if_congr (Int.neg_lt_neg_iff.trans Int.ofNat_lt).symm rfl rfl)) (top := identInt 4)
      (fun x => Int.neg_le_neg (Int.ofNat_le.mpr (Nat.zero_le _))) l
    exact ⟨fun x hx => Int.ofNat_le.mp (Int.neg_le_neg_iff.mp (h.1 x hx)), h.2⟩
  | 5 =>
    intro j hj
    refine (getLsbD_foldl_and l _ j).trans ?_
    rw [show identInt 5 = BitVec.allOnes 64 from rfl, BitVec.getLsbD_allOnes, decide_eq_true hj, Bool.true_and]
  | 6 => exact fun j _ => (getLsbD_foldl_or l 0#64 j).trans (by rw [BitVec.getLsbD_zero, Bool.false_or])
  | _ + 7 => exact fun j _ => (getLsbD_foldl_xor l 0#64 j).trans (by rw [BitVec.getLsbD_zero, Bool.false_xor])

/-- The integer forms of R114 and R115 combine the values of their contributions. -/
theorem combine_int (f : Nat) (below : Option Nat) (l : List Contrib) :
    Claims.combines f (l.map (·.val)) (combine false f below l) := by
  have h := combines_foldl f (l.map (·.val))
  rwa [List.foldl_map] at h

end Sys2Proof.Machine
end

section
namespace Sys2Proof.Machine

/-! ## What a complete collective delivers (R109–R117) -/

/-! ### Contributions -/

/-- The arrival with which a cell contributes to the next collective: that of a running cell, when its condition was true. -/
def Cell.brings (k : Cell) : Option Arrival := if k.stop = .running then k.arrs.head?.filter (·.active) else none

/-- The contribution of a cell at cix `i`. -/
def Cell.contrib (i : Nat) (k : Cell) : Option Contrib := k.brings.map (fun x => ⟨k.phys, i, x.val, x.psn⟩)

theorem Cell.brings_eq_some {k : Cell} {x : Arrival} :
    k.brings = some x ↔ k.stop = .running ∧ k.arrs.head? = some x ∧ x.active = true := by
  rw [Cell.brings]
  split
  · next h => rw [Option.filter_eq_some_iff, and_iff_right h]
  · next h => exact iff_of_false (nomatch ·) (fun hx => h hx.1)

theorem Area.contribs_eq (ar : Area) : ar.contribs = ar.cells.filterMap (fun p => p.2.contrib p.1) := by
  refine List.filterMap_congr fun p _ => ?_
  rw [Cell.contrib, Cell.brings]
  cases hr : p.2.arrs with
  | nil => by_cases hs : p.2.stop = .running <;> simp [hs]
  | cons x r => by_cases hs : p.2.stop = .running <;> cases hx : x.active <;> simp [hs, hx]

/-- The statement's contributions are the model's, without the physical id. -/
theorem brought_eq (ar : Area) : Claims.brought ar = ar.contribs.map (fun x => (x.cix, x.val, x.psn)) := by
  rw [Area.contribs_eq, List.map_filterMap]
  refine List.filterMap_congr fun p _ => ?_
  rw [Cell.contrib, Cell.brings]
  cases hr : p.2.arrs with
  | nil => cases hs : p.2.stop <;> simp
  | cons x r => cases hs : p.2.stop <;> cases hx : x.active <;> simp [hx]

theorem Cell.contrib_eq_some {i : Nat} {k : Cell} {y : Contrib} (h : k.contrib i = some y) :
    y.cix = i ∧ ∃ x, k.brings = some x ∧ y = ⟨k.phys, i, x.val, x.psn⟩ := by
  obtain ⟨x, hx, rfl⟩ := Option.map_eq_some_iff.mp h
  exact ⟨rfl, x, hx, rfl⟩

theorem Area.cell_of_mem_contribs {ar : Area} {y : Contrib} (h : y ∈ ar.contribs) : ∃ k, (y.cix, k) ∈ ar.cells := by
  rw [Area.contribs_eq] at h
  obtain ⟨p, hp, hy⟩ := List.mem_filterMap.mp h
  exact ⟨p.2, (Cell.contrib_eq_some hy).1 ▸ hp⟩

/-- The first element that gives something and what it gives first: `find?` and `filterMap` in step. -/
theorem find?_filterMap_head {α β : Type} (F : α → Option β) (l : List α) :
    l.find? (fun a => (F a).isSome) = none ∧ l.filterMap F = [] ∨
      ∃ a ∈ l, ∃ b r, l.find? (fun a => (F a).isSome) = some a ∧ F a = some b ∧ l.filterMap F = b :: r := by
  induction l with
  | nil => exact .inl ⟨rfl, rfl⟩
  | cons a l ih =>
    cases hb : F a with
    | none =>
      rw [List.find?_cons_of_neg (by simp [hb]), List.filterMap_cons_none hb]
      exact ih.imp_right (fun ⟨a', ha', h⟩ => ⟨a', List.mem_cons_of_mem _ ha', h⟩)
    | some b =>
      exact .inr ⟨a, List.mem_cons_self, b, l.filterMap F, List.find?_cons_of_pos (by simp [hb]), hb, List.filterMap_cons_some hb⟩

/-- The cix that BCAST names: what its first contribution brought as the source (R113). -/
def bcastSource (ar : Area) : Nat :=
  ((Claims.brought ar).head?.bind (fun x => (ar.cells.find x.1).bind (fun k => k.arrs.head?.map (fun y => y.idx.toNat)))).getD 0

section
variable {ar : Area} (hs : ar.cells.Pairwise (fun p q => p.1 < q.1))
include hs

/-- Contributions stand in cix order. -/
theorem Area.contribs_pairwise : ar.contribs.Pairwise (fun x y => x.cix < y.cix) := by
  rw [Area.contribs_eq]
  refine hs.filterMap _ fun p q hpq x hx y hy => ?_
  rw [(Cell.contrib_eq_some hx).1, (Cell.contrib_eq_some hy).1]
  exact hpq

theorem Area.contribs_unique {x y : Contrib} (hx : x ∈ ar.contribs) (hy : y ∈ ar.contribs) (e : x.cix = y.cix) : x = y :=
  List.inj_on_of_nodup_map ((List.pairwise_map.mpr (Area.contribs_pairwise hs)).imp (fun h => h.ne)) hx hy e

/-- The cell at which BCAST finds its source has brought what `bcastSource` reads (R113). -/
theorem Area.collResult_bcast (l : List Contrib) (f i phys : Nat) : ar.collResult l opBcast f i phys =
    ((l.find? (fun x => x.cix = bcastSource ar)).map (fun x => (x.val, x.psn))).getD (0, false) := by
  have contributes (q : Nat × Cell → Bool) (h : ∀ p, q p = (p.2.contrib p.1).isSome) :
      ar.cells.find? q = ar.cells.find? (fun p => (p.2.contrib p.1).isSome) := congrArg (ar.cells.find? ·) (funext h)
  have pairs (o : Option Contrib) : (match o with | some x => (x.val, x.psn) | none => (0, false)) =
      (o.map (fun x => (x.val, x.psn))).getD (0, false) := by cases o <;> rfl
  rw [Area.collResult, if_pos rfl, contributes _ fun p => ?_, bcastSource, brought_eq, Area.contribs_eq]
  · rcases find?_filterMap_head (fun p : Nat × Cell => p.2.contrib p.1) ar.cells with ⟨hf, hm⟩ | ⟨⟨j, k⟩, hp, y, r, hf, hy, hm⟩
    · rw [hf, hm]; exact pairs _
    · obtain ⟨hi, x, hx, -⟩ := Cell.contrib_eq_some hy
      obtain ⟨-, first, -⟩ := Cell.brings_eq_some.mp hx
      rw [hf, hm, List.map_cons, List.head?_cons, Option.bind_some, hi, Tab.find_of_mem hs hp, Option.bind_some]
      dsimp only
      cases hr : k.arrs with
      | nil => rw [hr] at first; cases first
      | cons => exact pairs _
  · rw [Cell.contrib, Cell.brings]
    cases hr : p.2.arrs with
    | nil => by_cases hs : p.2.stop = .running <;> simp [hs]
    | cons x r => by_cases hs : p.2.stop = .running <;> cases hx : x.active <;> simp [hs, hx]

/-- BCAST gives the contribution of its source, and 0 where the source contributes none (R113). -/
theorem Area.bcast_receives (f i phys : Nat) :
    let v := ar.collResult ar.contribs opBcast f i phys
    (∀ x ∈ Claims.brought ar, x.1 = bcastSource ar → v.1 = x.2.1 ∧ v.2 = x.2.2) ∧
      ((∀ x ∈ Claims.brought ar, x.1 ≠ bcastSource ar) → v.1 = 0 ∧ v.2 = false) := by
  intro v
  have hv : v = ((ar.contribs.find? (fun x => x.cix = bcastSource ar)).map (fun x => (x.val, x.psn))).getD (0, false) :=
    Area.collResult_bcast hs ..
  rw [brought_eq]
  simp only [List.forall_mem_map]
  cases hf : ar.contribs.find? (fun x => x.cix = bcastSource ar) with
  | none =>
    rw [hv, hf]
    exact ⟨fun x hx e => absurd (decide_eq_true e) (List.find?_eq_none.mp hf x hx), fun _ => ⟨rfl, rfl⟩⟩
  | some y =>
    have hy := List.mem_of_find?_eq_some hf
    have ey : y.cix = bcastSource ar := by simpa using List.find?_some hf
    rw [hv, hf]
    refine ⟨fun x hx e => ?_, fun h => absurd ey (h y hy)⟩
    rw [Area.contribs_unique hs hx hy (e.trans ey.symm)]
    exact ⟨rfl, rfl⟩

/-- The first predicate that is true (R116). -/
theorem Area.collResult_first (hl : ar.cells.length < 2 ^ 64) (hb : ∀ p ∈ ar.cells, p.1 < ar.cells.length) (f i phys : Nat) :
    let v := (ar.collResult ar.contribs opFirst f i phys).1
    (∀ x ∈ Claims.brought ar, x.2.1 ≠ 0 → v.toNat ≤ x.1) ∧
      ((∃ x ∈ Claims.brought ar, x.2.1 ≠ 0 ∧ v.toNat = x.1) ∨ (∀ x ∈ Claims.brought ar, x.2.1 = 0) ∧ v.toNat = ar.cells.length) := by
  intro v
  rw [brought_eq]
  simp only [List.mem_map, exists_exists_and_eq_and, forall_exists_index, and_imp, forall_apply_eq_imp_iff₂]
  have hv : v = BitVec.ofNat 64 (match ar.contribs.find? (fun x => x.val ≠ 0) with | some x => x.cix | none => ar.cells.length) := rfl
  cases hf : ar.contribs.find? (fun x => x.val ≠ 0) with
  | none =>
    have zero : ∀ x ∈ ar.contribs, x.val = 0 := by simpa using hf
    rw [hv, hf, BitVec.toNat_ofNat, Nat.mod_eq_of_lt hl]
    exact ⟨fun x hx h => absurd (zero x hx) h, .inr ⟨zero, rfl⟩⟩
  | some x =>
    have hx := List.mem_of_find?_eq_some hf
    obtain ⟨k, hk⟩ := Area.cell_of_mem_contribs hx
    rw [hv, hf, BitVec.toNat_ofNat, Nat.mod_eq_of_lt ((hb _ hk).trans hl)]
    exact ⟨fun y hy h => le_of_find? (Area.contribs_pairwise hs) hf y hy (decide_eq_true h),
      .inl ⟨x, hx, by simpa using List.find?_some hf, rfl⟩⟩

omit hs in
/-- The count of true predicates (R116). -/
theorem Area.toNat_collResult_count (hl : ar.cells.length < 2 ^ 64) (f i phys : Nat) :
    (ar.collResult ar.contribs opCount f i phys).1.toNat = ((Claims.brought ar).filter (fun x => x.2.1 ≠ 0)).length := by
  have fits : (ar.contribs.filter (fun x => x.val ≠ 0)).length < 2 ^ 64 := by
    refine (List.length_filter_le ..).trans_lt (lt_of_le_of_lt ?_ hl)
    rw [Area.contribs_eq]
    exact List.length_filterMap_le ..
  rw [brought_eq, List.filter_map, List.length_map]
  exact (BitVec.toNat_ofNat ..).trans (Nat.mod_eq_of_lt fits)

/-- What the model gives a receiving cell is what R113 to R117 say it receives. -/
theorem Area.receives_collResult (hl : ar.cells.length < 2 ^ 64) (hb : ∀ p ∈ ar.cells, p.1 < ar.cells.length) {op : BitVec 8}
    (lo : 0x65 ≤ op.toNat) (hi : op.toNat < 0x6C) (f : BitVec 3) (i : Nat) (k : Cell) :
    Claims.receives ar op f i k (ar.collResult ar.contribs op f.toNat i k.phys).1 (ar.collResult ar.contribs op f.toNat i k.phys).2 := by
  have codes : op = 0x65 ∨ op = 0x66 ∨ op = 0x67 ∨ op = 0x68 ∨ op = 0x69 ∨ op = 0x6A ∨ op = 0x6B := by bv_omega
  have poison (l : List Contrib) : l.any (·.psn) = (l.map (fun x => (x.cix, x.val, x.psn))).any (·.2.2) := by
    rw [List.any_map]; rfl
  have vals (l : List Contrib) : l.map (·.val) = (l.map (fun x => (x.cix, x.val, x.psn))).map (·.2.1) := by
    rw [List.map_map]; rfl
  have low : (ar.contribs.filter (fun x => x.cix < i)).map (fun x => (x.cix, x.val, x.psn)) =
      (Claims.brought ar).filter (fun x => x.1 < i) := by rw [brought_eq, List.filter_map]; rfl
  rcases codes with rfl | rfl | rfl | rfl | rfl | rfl | rfl
  · exact Area.bcast_receives hs ..
  · refine ⟨?_, ?_⟩
    · rw [brought_eq, ← vals]; exact combine_int _ none _
    · rw [brought_eq, ← poison]; rfl
  · refine ⟨rfl, ?_⟩
    rw [brought_eq, ← poison]; rfl
  · refine ⟨?_, ?_⟩
    · rw [← low, ← vals]; exact combine_int _ none _
    · rw [← low, ← poison]; rfl
  · refine ⟨rfl, ?_⟩
    rw [← low, ← poison]; rfl
  · refine ⟨Area.toNat_collResult_count hl .., ?_⟩
    rw [brought_eq, ← poison]; rfl
  · obtain ⟨least, which⟩ := Area.collResult_first hs hl hb f.toNat i k.phys
    refine ⟨least, which, ?_⟩
    rw [brought_eq, ← poison]; rfl

end

end Sys2Proof.Machine
end

section
namespace Sys2Proof.Machine

/-! ### Delivery to the cells of the area -/

/-- A waiting cell goes on behind the collective, with its next arrival at the head. -/
def Cell.passed (k : Cell) (x : Arrival) (r : List Arrival) : Cell := { k with arrs := r, pc := if x.waits then k.pc + 4 else k.pc }

/-- What the cell at cix `i` of an area is once the next collective has been delivered. -/
def Area.delivered (a : Area) (op : BitVec 8) (f i : Nat) (k : Cell) : Cell :=
  match k.arrs with
  | [] => k
  | x :: r =>
    if k.stop ≠ .running then { k with arrs := r }
    else if x.active && op ≠ opAreabar then
      (k.passed x r).setS x.dst (a.collResult a.contribs op f i k.phys).1 (a.collResult a.contribs op f i k.phys).2
    else k.passed x r

/-- A delivery gives every cell what it receives and counts one collective. -/
theorem Area.deliver_eq (a : Area) (op : BitVec 8) (f : Nat) :
    a.deliver op f = { a with done := a.done + 1, cells := a.cells.map (fun p => (p.1, a.delivered op f p.1 p.2)) } := by
  rw [Area.deliver]
  congr 1
  refine List.map_congr_left fun p _ => ?_
  rw [Area.delivered]
  cases hr : p.2.arrs with
  | nil => rfl
  | cons x r =>
    by_cases hs : p.2.stop ≠ .running
    · exact (if_pos hs).trans (congrArg (Prod.mk p.1) (if_pos hs).symm)
    · refine (if_neg hs).trans (congrArg (Prod.mk p.1) (Eq.trans ?_ (if_neg hs).symm))
      unfold Cell.passed
      cases x.waits <;> rfl

section
variable {ar : Area} {op : BitVec 8} {f i : Nat} {k : Cell} {x : Arrival} {r : List Arrival}

theorem Area.delivered_none (h : k.arrs = []) : ar.delivered op f i k = k := by
  rw [Area.delivered, h]

theorem Area.delivered_stopped (h : k.arrs = x :: r) (hs : k.stop ≠ .running) : ar.delivered op f i k = { k with arrs := r } := by
  rw [Area.delivered, h]; exact if_pos hs

theorem Area.delivered_receives (h : k.arrs = x :: r) (hs : k.stop = .running) (hx : x.active = true) (ho : op ≠ opAreabar) :
    ar.delivered op f i k =
      (k.passed x r).setS x.dst (ar.collResult ar.contribs op f i k.phys).1 (ar.collResult ar.contribs op f i k.phys).2 := by
  rw [Area.delivered, h]; exact (if_neg (not_not.mpr hs)).trans (if_pos (by simp [hx, ho]))

theorem Area.delivered_passes (h : k.arrs = x :: r) (hs : k.stop = .running) (hx : x.active = false ∨ op = opAreabar) :
    ar.delivered op f i k = k.passed x r := by
  rw [Area.delivered, h]; exact (if_neg (not_not.mpr hs)).trans (if_neg (by rcases hx with hx | hx <;> simp [hx]))

end

/-! ### The clocks of the area's hearths meet (R117) -/

/-- State `t` is `s` with some clocks of hearths moved on. -/
structure ClocksMoved (s t : State) : Prop where
  frame : { t with hearths := s.hearths } = s
  hearth : ∀ h, { t.hearth h with clk := (s.hearth h).clk } = s.hearth h
  now : ∀ h, s.now h ≤ t.now h

theorem ClocksMoved.refl (s : State) : ClocksMoved s s := ⟨rfl, fun _ => rfl, fun _ => le_rfl⟩

theorem ClocksMoved.trans {s t u : State} (h1 : ClocksMoved s t) (h2 : ClocksMoved t u) : ClocksMoved s u where
  frame := by
    have h := h1.frame
    rw [← h2.frame] at h
    exact h
  hearth h := by
    have e := h1.hearth h
    rw [← h2.hearth h] at e
    exact e
  now h := (h1.now h).trans (h2.now h)

theorem State.meet_hearth_ne (s : State) {g h : Nat} (t : Nat) (hne : g ≠ h) : (s.meet h t).hearth g = s.hearth g := by
  rw [State.meet]
  split
  · rfl
  · exact State.hearth_modHearth_ne s _ hne

theorem State.meet_now_ne (s : State) {g h : Nat} (t : Nat) (hne : g ≠ h) : (s.meet h t).now g = s.now g := by
  have ref : (s.meet h t).ref = s.ref := by rw [State.meet]; split <;> rfl
  rw [State.now, State.now, State.meet_hearth_ne s t hne, ref]

/-- A hearth that meets a time stands at it or behind it. -/
theorem State.meet_now_self (s : State) (h t : Nat) : (s.meet h t).now h = max (s.now h) t := by
  rw [State.meet]
  split
  · next le => exact (max_eq_left le).symm
  · next gt =>
    rw [max_eq_right (not_le.mp gt).le, State.now, State.hearth_modHearth_self]
    rw [State.now] at gt
    show t - s.ref + s.ref = t
    omega

theorem ClocksMoved.meet (s : State) (h t : Nat) : ClocksMoved s (s.meet h t) := by
  refine ⟨?_, fun g => ?_, fun g => ?_⟩
  · rw [State.meet]; split <;> rfl
  · by_cases e : g = h
    · subst e
      rw [State.meet]
      split
      · rfl
      · rw [State.hearth_modHearth_self]
    · rw [State.meet_hearth_ne s t e]
  · by_cases e : g = h
    · rw [e, State.meet_now_self]; exact le_max_left ..
    · rw [State.meet_now_ne s t e]

/-- Hearths that meet a time one after the other. -/
theorem State.foldl_meet (l : List Nat) (t : Nat) (s : State) :
    let z := l.foldl (fun s h => s.meet h t) s
    ClocksMoved s z ∧ (∀ h, h ∉ l → z.hearth h = s.hearth h) ∧ ∀ h ∈ l, t ≤ z.now h := by
  induction l generalizing s with
  | nil => exact ⟨.refl s, fun _ _ => rfl, fun _ h => (List.not_mem_nil h).elim⟩
  | cons g r ih =>
    obtain ⟨moved, others, reached⟩ := ih (s.meet g t)
    refine ⟨(ClocksMoved.meet s g t).trans moved, fun h hh => ?_, fun h hh => ?_⟩
    · rw [List.mem_cons, not_or] at hh
      exact (others h hh.2).trans (State.meet_hearth_ne s t hh.1)
    · rcases List.mem_cons.mp hh with rfl | hh
      · exact ((le_max_right ..).trans_eq (State.meet_now_self s h t).symm).trans (moved.now h)
      · exact reached h hh

theorem le_foldl_max (f : Nat → Nat) (l : List Nat) (a : Nat) :
    a ≤ l.foldl (fun t h => max t (f h)) a ∧ ∀ h ∈ l, f h ≤ l.foldl (fun t h => max t (f h)) a := by
  induction l generalizing a with
  | nil => exact ⟨le_rfl, fun _ h => (List.not_mem_nil h).elim⟩
  | cons g r ih =>
    obtain ⟨start, rest⟩ := ih (max a (f g))
    exact ⟨(le_max_left ..).trans start, List.forall_mem_cons.mpr ⟨(le_max_right ..).trans start, rest⟩⟩

theorem Area.mem_hids {a : Area} {h : Nat} : h ∈ a.hids ↔ ∃ p ∈ a.cells, p.2.hid = h := by
  rw [Area.hids, List.mem_eraseDups, List.mem_map]

/-- What a cell of the area does from now on lies behind what every cell of it has done (R117). -/
theorem State.meetAll_spec (s : State) (a : Area) :
    ClocksMoved s (s.meetAll a) ∧ (∀ h, (∀ p ∈ a.cells, p.2.hid ≠ h) → (s.meetAll a).hearth h = s.hearth h) ∧
      ∀ p ∈ a.cells, ∀ q ∈ a.cells, s.now q.2.hid ≤ (s.meetAll a).now p.2.hid := by
  obtain ⟨moved, others, reached⟩ := State.foldl_meet a.hids (a.hids.foldl (fun t h => max t (s.now h)) 0) s
  refine ⟨moved, fun h hh => others h fun hm => ?_, fun p hp q hq => ?_⟩
  · obtain ⟨p, hp, e⟩ := Area.mem_hids.mp hm
    exact hh p hp e
  · exact ((le_foldl_max s.now a.hids 0).2 _ (Area.mem_hids.mpr ⟨q, hq, rfl⟩)).trans (reached _ (Area.mem_hids.mpr ⟨p, hp, rfl⟩))

/-! ### Completion (R109, R110) -/

theorem State.modArea_const {s : State} {u : Nat} {a : Area} (f : Area → Area) (h : s.area u = some a) :
    s.modArea u f = s.modArea u (fun _ => f a) := by
  rw [State.area] at h
  simp only [State.modArea, Tab.upd, h]

theorem Area.mem_inst1 {a : Area} {p : Nat × Arrival} : p ∈ a.inst1 ↔ ∃ k r, (p.1, k) ∈ a.cells ∧ k.arrs = p.2 :: r := by
  rw [Area.inst1, List.mem_filterMap]
  constructor
  · rintro ⟨⟨i, k⟩, hk, hp⟩
    cases hr : k.arrs with
    | nil => simp [hr] at hp
    | cons x r =>
      obtain rfl : (i, x) = p := by simpa [hr] using hp
      exact ⟨k, r, hk, hr⟩
  · rintro ⟨k, r, hk, hr⟩
    exact ⟨(p.1, k), hk, by simp [hr]⟩

/-- A complete collective whose arrivals agree is delivered. -/
theorem exec_collectiveComplete_agreed {s : State} {u : Nat} {ar : Area} {x0 : Arrival} (ha : s.area u = some ar)
    (hp : ar.phase = .active) (hl : ((s.ctx ar.ctx).map Ctx.live).getD false = true) (hc : ar.complete1 = true)
    (agree : ∀ p ∈ ar.inst1, p.2.opcode = x0.opcode ∧ p.2.f = x0.f) :
    exec (.collectiveComplete u) s = .next ((s.meetAll ar).modArea u (fun a => a.deliver x0.opcode x0.f.toNat)) := by
  have goes : ¬(ar.phase ≠ .active || !ar.complete1 || !((s.ctx ar.ctx).map Ctx.live).getD false) = true := by simp [hp, hl, hc]
  obtain ⟨p, r, hi⟩ : ∃ p r, ar.inst1 = p :: r := by
    cases hi : ar.inst1 with
    | nil => simp [Area.complete1, hi] at hc
    | cons p r => exact ⟨p, r, rfl⟩
  rw [hi, List.forall_mem_cons] at agree
  obtain ⟨⟨op, f⟩, rest⟩ := agree
  have none_bad : r.filter (fun q => q.2.opcode ≠ x0.opcode || q.2.f ≠ x0.f) = [] :=
    List.filter_eq_nil_iff.mpr fun q hq => by simp [rest q hq]
  rw [exec_collectiveComplete, execCollectiveComplete, ha]
  dsimp only
  rw [if_neg goes, hi]
  dsimp only
  rw [op, f, none_bad]
  rfl

theorem collectiveResults : Claims.CollectiveResults := by
  intro s u i0 ar k0 x0 r0 ha hp hl sorted short keys hk0 hr0 lo hi arrived same
  have complete : ar.complete1 = true := by
    have some_arrived : (i0, x0) ∈ ar.inst1 := Area.mem_inst1.mpr ⟨k0, r0, Tab.mem_of_find hk0, hr0⟩
    rw [Area.complete1, Bool.and_eq_true, List.all_eq_true]
    refine ⟨?_, fun p hp => ?_⟩
    · cases h : ar.inst1 with
      | nil => rw [h] at some_arrived; cases some_arrived
      | cons => rfl
    · simpa using arrived p hp
  have agree : ∀ p ∈ ar.inst1, p.2.opcode = x0.opcode ∧ p.2.f = x0.f := by
    intro p hp
    obtain ⟨k, r, hk, hr⟩ := Area.mem_inst1.mp hp
    exact same _ hk p.2 (by rw [hr]; rfl)
  obtain ⟨moved, others, behind⟩ := State.meetAll_spec s ar
  have area_kept : (s.meetAll ar).area u = some ar := (congrArg (·.area u) moved.frame).trans ha
  refine ⟨s.meetAll ar, ar.deliver x0.opcode x0.f.toNat, ?_, moved.frame, moved.hearth, others, behind, ?_, ?_, fun i k hk => ?_⟩
  · rw [exec_collectiveComplete_agreed ha hp hl complete agree, State.modArea_const _ area_kept]
  · rfl
  · rfl
  · have found : (ar.deliver x0.opcode x0.f.toNat).cells.find i = some (ar.delivered x0.opcode x0.f.toNat i k) := by
      rw [Area.deliver_eq, Tab.find_map, hk]; rfl
    rw [found]
    refine ⟨fun h => by rw [Area.delivered_none h],
      fun x r h => ⟨fun hs => by rw [Area.delivered_stopped h hs], fun hs => ⟨fun hx ho => ?_, fun hx => ?_⟩⟩⟩
    · have below : x0.opcode.toNat < 0x6C := lt_of_le_of_ne hi fun e => ho (BitVec.eq_of_toNat_eq e)
      exact ⟨_, _, Area.receives_collResult sorted short keys lo below x0.f i k, by rw [Area.delivered_receives h hs hx ho]; rfl⟩
    · rw [Area.delivered_passes h hs hx]; rfl

/-- Settles O20: arrivals by the gate of the collectives, results by what each op code makes of the contributions. -/
theorem collectives : Obligations.Collectives := ⟨collectiveArrivals, collectiveResults⟩

end Sys2Proof.Machine
end

section
namespace Sys2Proof.Machine

/-! ## What a capacity change leaves alone (R304)

Its record, its counter signals and its log entries are accesses of the device itself: they write memory and clocks, and no unit and no
lease. -/

/-- The units and the leases. -/
def State.unitTables (s : State) : Tab LUnit × List Lease := (s.units, s.leases)

@[simp] theorem State.tagPage_unitTables (s : State) (t : Trans) : (s.tagPage t).unitTables = s.unitTables := by
  unfold State.tagPage
  split
  · rfl
  · extract_lets page n
    split <;> rfl

@[simp] theorem State.touchPlain_unitTables (s : State) (l : Loc) (n : Nat) (write : Bool) :
    (s.touchPlain l n write).unitTables = s.unitTables := by
  obtain ⟨sl, e⟩ := State.touchPlain_eq s l n write
  rw [e]; rfl

@[simp] theorem State.release_unitTables (s : State) (l : Loc) (rs : List Release) : (s.release_ l rs).unitTables = s.unitTables := by
  unfold State.release_
  dsimp only
  split <;> rfl

/-- A write of device memory leaves alone what its lines and their poison leave alone. -/
theorem State.writeDev_keeps {β : Type} (g : State → β) {key : Option Nat} (line : ∀ s pa bs, g (s.writeLine pa key bs) = g s)
    (poison : ∀ (s : State) lp, g { s with linePoison := lp } = g s) (psn : Bool) (n : Nat) (s : State) (pa : Nat) (bs : List Byte) :
    g (s.writeDev pa key psn n bs) = g s := by
  induction n generalizing s pa bs with
  | zero => cases bs <;> rfl
  | succ n ih =>
    cases bs with
    | nil => rfl
    | cons b r =>
      rw [State.writeDev, ih]
      split
      · rw [poison, line]
      · split
        · rw [poison, line]
        · rw [line]

@[simp] theorem State.writeLoc_unitTables (s : State) (l : Loc) (bs : List Byte) (p : Bool) :
    (s.writeLoc l bs p).unitTables = s.unitTables := by
  cases l with
  | dev pa key =>
    have line (z : State) (a : Nat) (cs : List Byte) : (z.writeLine a key cs).unitTables = z.unitTables := by
      cases key with
      | none => rfl
      | some k => simp only [State.writeLine, State.stampLine, State.unitTables]
    exact State.writeDev_keeps State.unitTables line (fun _ _ => rfl) p (bs.length + 1) s pa bs
  | host ha => rfl
  | tile k off a =>
    show (s.writeTileCell a bs p).unitTables = s.unitTables
    unfold State.writeTileCell
    dsimp only
    split
    · rfl
    · split <;> rfl

@[simp] theorem State.signalLoc_unitTables (s : State) (l : Nat) (loc : Loc) (amount t : Nat) :
    (s.signalLoc l loc amount t).unitTables = s.unitTables := by
  simp [State.signalLoc, State.addCounter]

theorem State.storeVirt_unitTables {s t : State} {ctx n : Nat} {a : Word} {bs : List Byte} (h : s.storeVirt ctx a bs = .ok (t, n)) :
    t.unitTables = s.unitTables := by
  unfold State.storeVirt at h
  split at h
  · cases h
  · cases h; simp

theorem State.signalVirt_unitTables {s t : State} {ctx amount n : Nat} {a : Word} (h : s.signalVirt ctx a amount n = .ok t) :
    t.unitTables = s.unitTables := by
  unfold State.signalVirt at h
  split at h
  · cases h
  · split at h
    · cases h
    · cases h; simp

theorem State.loadVirt_unitTables {s t : State} {ctx n : Nat} {a : Word} {r : List Byte × Bool} (h : s.loadVirt ctx a n = .ok (r, t)) :
    t.unitTables = s.unitTables := by
  unfold State.loadVirt at h
  split at h
  · cases h
  · cases h; simp

@[simp] theorem State.logAt_unitTables (s : State) (sweep ctx kind code op area a b : Nat) :
    (s.logAt sweep ctx kind code op area a b).unitTables = s.unitTables := by
  unfold State.logAt
  split
  · rfl
  · split
    · rfl
    · split
      · rfl
      · next hl =>
        dsimp only
        split
        · exact State.loadVirt_unitTables hl
        · next hs =>
          have h := (State.storeVirt_unitTables hs).trans (State.loadVirt_unitTables hl)
          split
          · exact h
          · next hv => exact (State.signalVirt_unitTables hv).trans h

theorem State.capChange1_unitTables (s : State) (c : Nat) (x : Ctx) (kind unit : Nat) :
    (s.capChange1 c x kind unit).unitTables = s.unitTables := by
  unfold State.capChange1
  dsimp only
  split
  · rfl
  · split
    · next h => exact (State.storeVirt_unitTables h).trans rfl
    · exact (State.logAt_unitTables ..).trans rfl

@[simp] theorem State.capChange_unitTables (s : State) (kind unit : Nat) : (s.capChange kind unit).unitTables = s.unitTables :=
  State.foldl_keeps (fun s p => by split; exacts [State.capChange1_unitTables .., rfl]) s.ctxs s

theorem State.capChange_unit (s : State) (kind unit v : Nat) : (s.capChange kind unit).unit v = s.unit v :=
  congrArg (fun t : Tab LUnit × List Lease => t.1.get LUnit.reset v) (State.capChange_unitTables s kind unit)

theorem State.capChange_leases (s : State) (kind unit : Nat) : (s.capChange kind unit).leases = s.leases :=
  congrArg Prod.snd (State.capChange_unitTables s kind unit)

/-! ## Thermal evacuations (R296, R352) -/

@[simp] theorem State.unit_modUnit_self (s : State) (u : Nat) (f : LUnit → LUnit) : (s.modUnit u f).unit u = f (s.unit u) :=
  Tab.get_put_self ..

/-- A hearth that has cooled stands without its thermal evacuation, which is in the log, and its capacity change is out. -/
def State.cooled (s : State) (h : Nat) (l : Lease) : State :=
  (((s.modUnit h (fun x => { x with hot := false })).logLease l 0).dropLease h true).capChange 5 h

theorem State.cooled_leases (s : State) (h : Nat) (l : Lease) :
    (s.cooled h l).leases = s.leases.filter (fun m => !(m.unit = h && (m.cause = 3) = true)) := State.capChange_leases ..

theorem State.cooled_not_hot (s : State) (h : Nat) (l : Lease) : ((s.cooled h l).unit h).hot = false := by
  rw [State.cooled, State.capChange_unit]
  exact congrArg LUnit.hot (State.unit_modUnit_self s h fun x => { x with hot := false })

/-- The lease that waits for the clearance of a hearth. -/
theorem State.cooled_find? (s : State) (h : Nat) (l : Lease) :
    (s.cooled h l).leases.find? (fun m => m.unit = h && m.stage = .waitHeat) =
      s.leases.find? (fun m => m.unit = h && m.cause ≠ 3 && m.stage = .waitHeat) := by
  rw [State.cooled_leases, List.find?_filter]
  congr 1
  funext m
  by_cases hu : m.unit = h <;> by_cases hc : m.cause = 3 <;> simp [hu, hc]

/-- A unit that is not out for heat returns when its lease ends. -/
theorem State.endLease_hearth {s : State} {m : Lease} {h result : Nat} (hm : m.unit = h) (lt : h < 1024) (cool : (s.unit h).hot = false) :
    s.endLease m result = ((((s.logLease m result).dropLease h false).resetHearth h).capChange (1 + result) h).startDue := by
  subst hm
  have cls : unitClass m.unit = 0 := Nat.div_eq_of_lt (by omega)
  have idx : unitIndex m.unit = m.unit := Nat.mod_eq_of_lt (by omega)
  rw [State.endLease, if_neg (by simp [cool])]
  simp only [State.returnUnit, cls, idx]

theorem exec_thermalClearance_none {s : State} {h : Nat}
    (hn : s.leases.find? (fun l => l.unit = h && l.cause = 3 && l.stage = .waitHeat) = none) : exec (.thermalClearance h) s = .next s := by
  rw [exec_thermalClearance, execThermalClearance]
  dsimp only [hearthUnit]
  rw [hn]

theorem exec_thermalClearance_some {s : State} {h : Nat} {l : Lease}
    (hl : s.leases.find? (fun l => l.unit = h && l.cause = 3 && l.stage = .waitHeat) = some l) : exec (.thermalClearance h) s = .next
      ((s.leases.find? (fun m => m.unit = h && m.cause ≠ 3 && m.stage = .waitHeat)).elim (s.cooled h l).startDue
        (fun m => (s.cooled h l).endLease m m.result)) := by
  rw [← State.cooled_find? s h l, exec_thermalClearance, execThermalClearance]
  dsimp only [hearthUnit]
  rw [hl]
  dsimp only
  split
  · next m hm => rw [show (s.cooled h l).leases.find? _ = some m from hm]; rfl
  · next hn => rw [show (s.cooled h l).leases.find? _ = none from hn]; rfl

/-- The stage at which the thermal evacuation of a hearth begins: it joins the first lease of the hearth (R296). -/
def heatStage : Option Lease → LeaseStage
  | some l => if l.stage = .withdrawal then .withdrawal else if l.stage = .evacuation then .evacuation else .waitHeat
  | none => .withdrawal

theorem exec_hearthOver110c_begins {s : State} {h : Nat} (lt : h < 1024) (running : s.stage = 7) (hi : (s.unit h).health = .inService)
    (cool : (s.unit h).hot = false) : exec (.hearthOver110c h) s = .next
      (Claims.begins (s.modUnit h (fun x => { x with hot := true })) h 3 0xFF (heatStage (s.leases.find? (fun l => l.unit = h)))) := by
  have goes : ¬(s.stage ≠ 7 || 1024 ≤ h || (s.unit h).health = .retired || (s.unit h).hot) = true := by
    simp [running, hi, cool, lt]
  rw [exec_hearthOver110c, execHearthOver110c]
  dsimp only [hearthUnit]
  rw [if_neg goes]
  cases hl : s.leases.find? (fun l => l.unit = h) with
  | none => rfl
  | some l => cases hs : l.stage <;> simp only [heatStage, hs] <;> rfl

theorem thermalEvacuations : Claims.ThermalEvacuations := by
  intro s h lt
  refine ⟨fun running hi cool => ⟨fun hn => ?_, fun l hl => ?_⟩, fun stays => ?_,
    fun l hl => ⟨fun heat => ?_, fun m hm => ?_⟩, fun none_waits => ?_⟩
  · rw [exec_hearthOver110c_begins lt running hi cool, hn]; rfl
  · rw [exec_hearthOver110c_begins lt running hi cool, hl]; rfl
  · have stay : (s.stage ≠ 7 || 1024 ≤ h || (s.unit h).health = .retired || (s.unit h).hot) = true := by
      rcases stays with hs | hr | hh
      · simp [hs]
      · simp [hr]
      · simp [hh]
    rw [exec_hearthOver110c, execHearthOver110c, hearthUnit]
    exact congrArg _ (if_pos stay)
  · have none_waits : s.leases.find? (fun m => m.unit = h && m.cause ≠ 3 && m.stage = .waitHeat) = none :=
      List.find?_eq_none.mpr fun m hm => by
        simp only [Bool.and_eq_true, decide_eq_true_eq, not_and]
        exact fun ⟨hu, hc⟩ hw => hc (heat m hm hu hw)
    rw [exec_thermalClearance_some hl, none_waits]
    rfl
  · have unit : m.unit = h := by
      have := List.find?_some hm
      simp only [Bool.and_eq_true, decide_eq_true_eq] at this
      exact this.1.1
    rw [exec_thermalClearance_some hl, hm]
    exact congrArg _ (State.endLease_hearth unit lt (State.cooled_not_hot s h l))
  · refine exec_thermalClearance_none (List.find?_eq_none.mpr fun l hl => ?_)
    simp only [Bool.and_eq_true, decide_eq_true_eq, not_and]
    exact fun ⟨hu, hc⟩ => none_waits l hl hu hc

end Sys2Proof.Machine
end

section
namespace Sys2Proof

/-! ## Scores and halvings (R298, R299) -/

theorem Tab.find_none_of_lt {α : Type} {t : Tab α} {k : Nat} (h : ∀ p ∈ t, k < p.1) : t.find k = none := by
  cases hf : t.find k with
  | none => rfl
  | some v => exact absurd (h _ (Tab.mem_of_find hf)) (lt_irrefl k)

/-- An entry that reads as the default need not be listed. -/
theorem Tab.get_filter_ne {α : Type} [DecidableEq α] (d : α) {t : Tab α} (hs : t.Pairwise (fun p q => p.1 < q.1)) (k : Nat) :
    Tab.get d (t.filter (fun p => p.2 ≠ d)) k = Tab.get d t k := by
  induction t with
  | nil => rfl
  | cons p r ih =>
    obtain ⟨j, v⟩ := p
    rw [List.pairwise_cons] at hs
    have ih := ih hs.2
    rw [Tab.get, Tab.get] at ih ⊢
    by_cases hv : v = d
    · rw [List.filter_cons_of_neg (by simp [hv]), ih, Tab.find]
      split
      · next e => rw [Tab.find_none_of_lt (e ▸ hs.1), hv]; rfl
      · rfl
    · rw [List.filter_cons_of_pos (by simp [hv]), Tab.find, Tab.find]
      split
      · rfl
      · exact ih

theorem Tab.pairwise_map {α β : Type} (g : α → β) {t : Tab α} (hs : t.Pairwise (fun p q => p.1 < q.1)) :
    (t.map (fun p => (p.1, g p.2))).Pairwise (fun p q => p.1 < q.1) := List.pairwise_map.mpr hs

/-- Values changed in a table, in its canonical form again. -/
theorem Tab.get_filter_map {α β : Type} [DecidableEq β] (d : β) (g : α → β) {t : Tab α} (hs : t.Pairwise (fun p q => p.1 < q.1))
    (k : Nat) : Tab.get d ((t.map (fun p => (p.1, g p.2))).filter (fun p => p.2 ≠ d)) k = ((t.find k).map g).getD d := by
  rw [Tab.get_filter_ne d (Tab.pairwise_map g hs), Tab.get, Tab.find_map (fun _ => g)]

end Sys2Proof

namespace Sys2Proof.Machine

/-- A halving that is not due yet: the score is added to as it is. -/
theorem State.halvesDue_of_undue {s : State} (h : Claims.undue s) : s.halvesDue = 0 :=
  Nat.sub_eq_zero_of_le (Nat.le_of_lt_succ ((Nat.div_lt_iff_lt_mul (by decide)).mpr h))

theorem State.halvesDue_of_one {s : State} (h1 : (s.halvings + 1) * Claims.day ≤ s.ref) (h2 : s.ref < (s.halvings + 2) * Claims.day) :
    s.halvesDue = 1 := by
  have lo : s.halvings + 1 ≤ s.ref / dayTicks := (Nat.le_div_iff_mul_le (by decide)).mpr h1
  have hi : s.ref / dayTicks < s.halvings + 2 := (Nat.div_lt_iff_lt_mul (by decide)).mpr h2
  rw [State.halvesDue]
  omega

theorem State.score_undue {s : State} (h : Claims.undue s) (u inc : Nat) : s.score u inc = s.modUnit u (fun x => { x with
    score := min (x.score + inc) 65535, early := x.early || (x.health = .inService && decide (512 ≤ min (x.score + inc) 65535)) }) := by
  rw [State.score, if_pos (State.halvesDue_of_undue h)]

/-- A halving that is due comes before an increment (R299). -/
theorem State.score_halve {s : State} (h1 : (s.halvings + 1) * Claims.day ≤ s.ref) (h2 : s.ref < (s.halvings + 2) * Claims.day)
    (u inc : Nat) : s.score u inc = (s.halve 1).score u inc := by
  have once : (s.halve 1).halvesDue = 0 := State.halvesDue_of_undue h2
  rw [State.score, State.score, State.halvesDue_of_one h1 h2, if_neg Nat.one_ne_zero, if_pos once]

section
variable {s : State} (hw : s.units.wf LUnit.reset = true)
include hw

/-- A halving halves the score of every unit (R299). -/
theorem State.halve_unit (v : Nat) : (s.halve 1).unit v = { s.unit v with score := (s.unit v).score / 2 } := by
  have sorted := ((Tab.wf_iff _ _).mp hw).1
  refine (Tab.get_filter_map LUnit.reset (fun x : LUnit => { x with score := x.score / 2 ^ 1 }) sorted v).trans ?_
  rw [State.unit, Tab.get]
  cases s.units.find v <;> rfl

/-- What is saved is the score of every unit. -/
theorem State.halve_saved (v : Nat) : (s.halve 1).savedScores.get 0 v = ((s.halve 1).unit v).score := by
  have sorted : (s.halve 1).units.Pairwise (fun p q => p.1 < q.1) :=
    (Tab.pairwise_map (fun x : LUnit => { x with score := x.score / 2 ^ 1 }) ((Tab.wf_iff _ _).mp hw).1).filter _
  refine (Tab.get_filter_map 0 LUnit.score sorted v).trans ?_
  rw [State.unit, Tab.get]
  cases (s.halve 1).units.find v <;> rfl

end

theorem exec_linkRetry_scores {u : Nat} (s : State) (ok : unitOk u = true) (cls : 2 ≤ unitClass u) :
    exec (.linkRetry u) s = .next (s.score u 1) := by
  rw [exec_linkRetry, execLinkRetry, if_pos (by simp [ok, cls])]

theorem scoresAndHalvings : Claims.ScoresAndHalvings := by
  intro s u halved t
  have halves : s.halve 1 = t := rfl
  refine ⟨fun h => ?_, fun h => ⟨?_, fun hw v => ?_⟩, fun ok cls => ⟨fun h => ?_, fun h1 h2 => ?_⟩⟩
  · rw [exec_scoreHalving, execScoreHalving]; exact congrArg _ (if_neg (Nat.not_le.mpr h))
  · rw [exec_scoreHalving, execScoreHalving]; exact congrArg _ (if_pos h)
  · rw [← halves, State.halve_saved hw, State.halve_unit hw]
    exact ⟨rfl, rfl⟩
  · rw [exec_linkRetry_scores s ok cls, State.score_undue h]
  · rw [exec_linkRetry_scores s ok cls, exec_linkRetry_scores t ok cls, State.score_halve h1 h2, halves]

end Sys2Proof.Machine
end

section
namespace Sys2Proof

/-- What a table keeps it still finds. -/
theorem Tab.find_filter {α : Type} {p : Nat × α → Bool} {t : Tab α} {k : Nat} {v : α} (h : t.find k = some v) (hp : p (k, v) = true) :
    Tab.find (t.filter p) k = some v := by
  induction t with
  | nil => cases h
  | cons q r ih =>
    obtain ⟨j, w⟩ := q
    rw [Tab.find] at h
    split at h
    · next e =>
      cases h
      rw [List.filter_cons_of_pos (e ▸ hp), Tab.find, if_pos e]
    · next e =>
      cases hq : p (j, w) with
      | false => rw [List.filter_cons_of_neg (Bool.eq_false_iff.mp hq)]; exact ih h
      | true => rw [List.filter_cons_of_pos hq, Tab.find, if_neg e]; exact ih h

end Sys2Proof

namespace Sys2Proof.Machine

/-! ## Evacuations, channels and ports (R197, R291–R293) -/

theorem exec_evacuationComplete_holds {s : State} {h : Nat} (hold : s.holdsSomething h = true) :
    exec (.evacuationComplete h) s = .next s := by
  rw [exec_evacuationComplete, execEvacuationComplete]
  exact congrArg _ (if_pos (by rw [hold, Bool.or_true]))

theorem exec_evacuationComplete_empty {s : State} {h : Nat} (lease : ∃ l ∈ s.leases, l.unit = h ∧ l.stage = .evacuation)
    (empty : s.holdsSomething h = false) : exec (.evacuationComplete h) s = .next ((({ s with leases := s.leases.map (fun l =>
      if l.unit = h ∧ l.stage = .evacuation then { l with t1 := s.ref, stage := if l.cause = 3 then .waitHeat else .test false }
      else l) } : State).endEvac h).startAreas).startDue := by
  have evacuates : s.leases.any (fun l => l.unit = h && l.stage = .evacuation) = true := by simpa using lease
  rw [exec_evacuationComplete, execEvacuationComplete]
  dsimp only [hearthUnit]
  rw [if_neg (by rw [evacuates, empty]; exact Bool.false_ne_true)]
  simp only [Bool.and_eq_true, decide_eq_true_eq]

/-- The stack's channel under lease: one granule more is in the spare, and with the last one the spare has its place (R197). -/
theorem exec_granuleMigration_leased {s : State} {h : Nat} {l : Lease}
    (hl : s.leases.find? (fun l => unitClass l.unit = 1 && unitIndex l.unit / 64 = h && l.stage = .evacuation) = some l) :
    let t := s.cleanGranule (unitIndex l.unit) l.granules
    (l.granules + 1 < 1572864 → exec (.granuleMigration h) s = .next { t with leases := s.leases.map (fun m =>
      if m.unit = l.unit then { m with granules := l.granules + 1 } else m) }) ∧
    ∀ k, 1572864 ≤ l.granules + 1 → s.slotOfChan (unitIndex l.unit) = some k → exec (.granuleMigration h) s = .next { t with
      chanMap := s.chanMap.set (h * 64 + k) (h * 64 + s.spareOf h)
      leases := s.leases.map (fun m =>
        if m.unit = l.unit then { m with granules := l.granules + 1, t1 := s.ref, stage := .test false } else m) } := by
  intro t
  have slot : t.slotOfChan (unitIndex l.unit) = s.slotOfChan (unitIndex l.unit) := rfl
  rw [exec_granuleMigration, execGranuleMigration, hl]
  refine ⟨fun more => congrArg _ (if_pos more), fun k last hk => (congrArg _ (if_neg (Nat.not_lt.mpr last))).trans ?_⟩
  rw [slot, hk]
  rfl

/-- The ports of a die in increasing order. -/
theorem unitPeers_sorted {u : Nat} (h : unitClass u = 2) : (unitPeers u).Pairwise (fun a b => a < b) := by
  simp only [unitPeers, h, List.pairwise_map]
  exact List.pairwise_lt_range.imp (fun h => by omega)

section
variable {s : State} {u : Nat}

theorem exec_portDrainComplete_busy (busy : s.portBusy (unitIndex u) = true) : exec (.portDrainComplete u) s = .next s := by
  rw [exec_portDrainComplete, execPortDrainComplete, if_neg (by simp [busy])]

theorem exec_portTrafficReturn_drained (cls : unitClass u = 2) (serves : s.inService u = true)
    (drained : s.portBusy (s.portTo.get (unitIndex u) (unitIndex u)) = false) :
    exec (.portTrafficReturn u) s = .next { s with portTo := s.portTo.erase (unitIndex u) } := by
  rw [exec_portTrafficReturn, execPortTrafficReturn, if_pos (by simp [cls, serves, drained])]

/-- The state in which port `d` has the traffic of port `u`, whose test begins (R293). -/
def State.drained (s : State) (u d : Nat) : State :=
  { s with
    portTo := (Tab.set (s.portTo.map (fun p => (p.1, if p.2 = unitIndex u then d else p.2))) (unitIndex u) d).filter (fun p => p.1 ≠ p.2)
    leases := s.leases.map (fun l => if l.unit = u then { l with t1 := s.ref, stage := .test false } else l) }

/-- The traffic of a drained port goes to the first of its peers that serves the same device, and waits where none does. -/
theorem exec_portDrainComplete_drained (cls : unitClass u = 2) (lease : ∃ l ∈ s.leases, l.unit = u ∧ l.stage = .evacuation)
    (idle : s.portBusy (unitIndex u) = false) : exec (.portDrainComplete u) s = .next (s.drained u (unitIndex
      (((unitPeers u).find? (fun v => s.inService v && Config.portPeer (unitIndex v) = Config.portPeer (unitIndex u))).getD u))) := by
  have evacuates : s.leases.any (fun l => l.unit = u && l.stage = .evacuation) = true := by simpa using lease
  rw [exec_portDrainComplete, execPortDrainComplete, if_pos (by simp only [cls, evacuates, idle]; rfl)]
  cases (unitPeers u).find? (fun v => s.inService v && Config.portPeer (unitIndex v) = Config.portPeer (unitIndex u)) <;> rfl

end

theorem evacuationsAndDrains : Claims.EvacuationsAndDrains := by
  intro s h u
  refine ⟨fun lease => ⟨exec_evacuationComplete_holds, exec_evacuationComplete_empty lease⟩,
    fun l hl => exec_granuleMigration_leased hl,
    fun cls => ⟨fun lease idle => ?_, exec_portDrainComplete_busy, exec_portTrafficReturn_drained cls⟩⟩
  refine ⟨_, exec_portDrainComplete_drained cls lease idle, ?_⟩
  cases hf : (unitPeers u).find? (fun v => s.inService v && Config.portPeer (unitIndex v) = Config.portPeer (unitIndex u)) with
  | none =>
    refine .inr ⟨fun w ⟨hw, serves, same⟩ => ?_, rfl⟩
    exact List.find?_eq_none.mp hf w hw (by simp [serves, same])
  | some v =>
    have stands : s.inService v = true ∧ Config.portPeer (unitIndex v) = Config.portPeer (unitIndex u) := by
      simpa using List.find?_some hf
    refine .inl ⟨⟨List.mem_of_find?_eq_some hf, stands⟩, fun w ⟨hw, serves, same⟩ => ?_⟩
    exact le_of_find? (unitPeers_sorted cls) hf w hw (by simp [serves, same])

/-! ## Tiles on the move (R124) -/

/-- The memory, the tile store and the slots. -/
def State.payloads (s : State) : Tab Byte × Tab Byte × Tab Slot := (s.mem, s.tile, s.slots)

theorem State.arrive_payloads (s : State) (ctx handle h : Nat) : (s.arrive ctx handle h).payloads = s.payloads :=
  State.foldl_keeps (g := State.payloads) (fun s p => by split <;> rfl) _ s

theorem State.meet_payloads (s : State) (h t : Nat) : (s.meet h t).payloads = s.payloads := by
  rw [State.meet]
  split <;> rfl

/-- A slot that is not being freed stays (R151). -/
theorem State.reclaim_keeps {s : State} {key : Nat} {x : Slot} (h : s.slots.find key = some x) (hx : x.dying = false) :
    s.reclaim.slots.find key = some x :=
  Tab.find_filter h (by simp only [hx, Bool.false_and, Bool.not_false])

/-- A copied tile reads as the tile that it was copied from. -/
theorem State.copyTile_tile (s : State) (x y n j : Nat) (h : j < n) : (s.copyTile x y n).tile.get 0 (y + j) = s.tile.get 0 (x + j) := by
  refine (writeTab_get_in s.tile y (readTab s.tile x n) j (by rwa [length_readTab])).trans ?_
  simp only [readTab_eq_map, List.getElem_map, List.getElem_range]

/-- A slot that has landed where it was going. -/
def Slot.landed (x : Slot) (m : Move) : Slot := { x with hid := m.hid, unit := m.unit, moving := none, displaced := m.displaced }

/-- A move that nothing holds up lands: the bytes are copied, and the slot names its new place. -/
theorem exec_tileMigrationComplete_lands {s : State} {c n : Nat} {m : Move} {x : Slot} (hx : s.slots.find (c * 2 ^ 20 + n) = some x)
    (hm : x.moving = some m)
    (idle : ∀ q ∈ s.queues, q.1 / 4 = x.hid → ∀ e ∈ q.2, e.id < m.mark → (c * 2 ^ 20 + n) ∉ e.names)
    (still : ∀ p ∈ s.subs, p.2.ctx = c → ∀ q ∈ p.2.push, 0 < q.2.landed → p.2.ring.getD q.1 nullHandle ≠ n) :
    ∃ t : State, exec (.tileMigrationComplete c n) s = .next t.reclaim ∧
      t.payloads = (s.mem, (s.copyTile x.base (x.landed m).base x.size).tile, s.slots.set (c * 2 ^ 20 + n) (x.landed m)) := by
  have key : slotKey 0 c n = c * 2 ^ 20 + n := by rw [slotKey, Nat.zero_mul, Nat.zero_add]
  have no_command : s.queues.any (fun q => q.1 / 4 = x.hid &&
      q.2.any (fun e => decide (e.id < m.mark) && e.names.contains (c * 2 ^ 20 + n))) = false := by
    simpa [List.any_eq_false] using idle
  have no_push : s.subs.any (fun p => p.2.ctx = c && p.2.push.any (fun q =>
      decide (0 < q.2.landed) && p.2.ring.getD q.1 nullHandle = n)) = false := by
    simpa [List.any_eq_false] using still
  rw [exec_tileMigrationComplete, execTileMigrationComplete]
  dsimp only
  rw [key, hx]
  dsimp only
  rw [hm]
  dsimp only
  rw [if_neg (by rw [no_command, no_push]; exact Bool.false_ne_true)]
  refine ⟨_, rfl, (State.arrive_payloads ..).trans ?_⟩
  have met := State.meet_payloads
    ((s.copyTile x.base (x.landed m).base x.size).moveReleases x.base (x.landed m).base x.size) m.hid (s.now x.hid)
  simp only [State.payloads, Prod.mk.injEq] at met ⊢
  obtain ⟨mem, tile, slots⟩ := met
  exact ⟨mem, tile, congrArg (fun t : Tab Slot => t.set (c * 2 ^ 20 + n) (x.landed m)) slots⟩

theorem exec_capacityCounterSignal_due {s : State} {c kind unit seq : Nat} {note : Bool} {x : Ctx} {l : Launch}
    {r : List (Nat × Nat × Nat × Bool)} (hx : s.ctx c = some x) (hd : x.capDue = (kind, unit, seq, note) :: r) (hl : x.launch = some l) :
    let z := s.modCtx c (fun x => { x with capDue := r })
    let noted (t : State) : State := if note then t.insertion c (notifyApp l.notifop kind unit seq) true none else t
    let at_ := z.virtTime c (BitVec.ofNat 64 l.caprec) 64
    (∀ t, z.signalVirt c (BitVec.ofNat 64 l.capctr) 1 at_ = .ok t →
      exec (.capacityCounterSignal c) s = .next (noted (t.reachTo x.part (t.virtTime c (BitVec.ofNat 64 l.capctr) 8)))) ∧
    (∀ e, z.signalVirt c (BitVec.ofNat 64 l.capctr) 1 at_ = .error e →
      exec (.capacityCounterSignal c) s = .next (noted (z.log c 13 e.toNat 0 0 l.capctr seq))) := by
  rw [exec_capacityCounterSignal, execCapacityCounterSignal, hx]
  dsimp only
  rw [hd, hl]
  dsimp only
  exact ⟨fun t ht => by rw [ht], fun e he => by rw [he]⟩

theorem migrationsAndCapacitySignals : Claims.MigrationsAndCapacitySignals := by
  intro s c
  refine ⟨fun n m x hx hm alive idle still => ?_, fun x l kind unit seq note r hx hd hl => exec_capacityCounterSignal_due hx hd hl⟩
  obtain ⟨t, ht, payloads⟩ := exec_tileMigrationComplete_lands hx hm idle still
  simp only [State.payloads, Prod.mk.injEq] at payloads
  obtain ⟨mem, tile, slots⟩ := payloads
  refine ⟨_, ht, State.reclaim_keeps ?_ alive, fun j hj => ?_, mem⟩
  · rw [slots, Tab.find_set_self]; rfl
  · exact (congrArg (fun t : Tab Byte => t.get 0 ((x.landed m).base + j)) tile).trans
      (State.copyTile_tile s x.base (x.landed m).base x.size j hj)

/-- Settles O54: thermal evacuations, scores, evacuations and drains, and migrations, each step by what decides where it goes on. -/
theorem leaseStages : Obligations.LeaseStages :=
  ⟨thermalEvacuations, scoresAndHalvings, evacuationsAndDrains, migrationsAndCapacitySignals⟩

end Sys2Proof.Machine
end

section
namespace Sys2Proof.Machine

/-! ## Objects and the combining forms (R140)

The operands of a form are read back from its symbols object by object, and each row of Table 7.2 is held against the model's shapes and
results. -/

/-- The symbols `x` are read as one: outside any sequence they end an object, and inside one they go on with it. -/
def ReadsAsOne (x : List Sym) : Prop := ∀ (r : List Sym) (d : Nat) (cur : List Sym),
  splitObjs (x ++ r) d cur = if d = 0 then (cur ++ x) :: splitObjs r 0 [] else splitObjs r d (cur ++ x)

/-- Inside a sequence its elements go on with it. -/
theorem splitObjs_inside {xs : List (List Sym)} (hxs : ∀ x ∈ xs, ReadsAsOne x) (r : List Sym) (d : Nat) (cur : List Sym) :
    splitObjs (xs.flatten ++ r) (d + 1) cur = splitObjs r (d + 1) (cur ++ xs.flatten) := by
  induction xs generalizing cur with
  | nil => simp
  | cons x xs ih =>
    rw [List.flatten_cons, List.append_assoc, hxs x (.head _), if_neg (Nat.succ_ne_zero d), ih (fun z hz => hxs z (.tail _ hz)),
      List.append_assoc]

theorem readsAsOne_of_obj {x : List Sym} (hx : Claims.Obj x) : ReadsAsOne x := by
  induction hx with
  | atom y _ _ hlt hgt =>
    intro r d cur
    simp only [List.cons_append, List.nil_append, splitObjs, hlt, hgt, if_false]
  | seq a b xs ha hb _ ih =>
    intro r d cur
    simp only [List.cons_append, List.append_assoc, splitObjs, ha, if_true, Nat.succ_ne_zero, if_false, splitObjs_inside ih, hb,
      List.nil_append, Nat.add_sub_cancel]
    simp

/-- The objects of a list of objects are its elements. -/
theorem splitObjs_flatten {xs : List (List Sym)} (hxs : ∀ x ∈ xs, Claims.Obj x) : splitObjs xs.flatten 0 [] = xs := by
  induction xs with
  | nil => rfl
  | cons x xs ih =>
    rw [List.flatten_cons, readsAsOne_of_obj (hxs x (.head _)), if_pos rfl, ih (fun z hz => hxs z (.tail _ hz)), List.nil_append]

theorem app_eq_mkApp (f : List Sym) (xs : List (List Sym)) : Claims.app f xs = mkApp f xs := rfl
theorem sq_eq_mkSeq (xs : List (List Sym)) : Claims.sq xs = mkSeq xs := rfl

/-- A sequence's objects are the ones that it was made of. -/
theorem seqItems_mkSeq {xs : List (List Sym)} (hxs : ∀ x ∈ xs, Claims.Obj x) : seqItems (mkSeq xs) = some xs := by
  have hlt : symLt.kind = 3 := rfl
  simp only [mkSeq, List.cons_append, seqItems, hlt, if_true, List.dropLast_concat, splitObjs_flatten hxs]

@[simp] theorem Shape.ok_any (o : List Sym) : Shape.any.ok o = true := rfl
theorem Shape.ok_oper {y : Sym} (h : y.kind = 5) : Shape.oper.ok [y] = true := decide_eq_true h
theorem Shape.ok_int {y : Sym} (h : y.kind = 6) : Shape.int.ok [y] = true := decide_eq_true h
theorem Shape.ok_seq {xs : List (List Sym)} (hxs : ∀ x ∈ xs, Claims.Obj x) : Shape.seq.ok (mkSeq xs) = true := by
  have h : (seqItems (mkSeq xs)).isSome = true := by rw [seqItems_mkSeq hxs]; rfl
  exact h

/-- The operands of each row of Table 7.2 are of its form's shapes, and its result is the row's. -/
theorem forms_results {f g n : Sym} {x : List Sym} {xs : List (List Sym)} (hf : f.kind = 5) (hg : g.kind = 5) (hn : n.kind = 6)
    (hxs : ∀ z ∈ xs, Claims.Obj z) : ∀ p ∈ Claims.forms [f] [g] [n] x n.value.toInt xs,
      badOperand (formShape p.1 p.2.1.length) p.2.1 0 = none ∧ formResult p.1 p.2.1 = p.2.2 := by
  intro p hp
  simp only [Claims.forms, List.mem_cons, List.not_mem_nil, or_false, sq_eq_mkSeq, app_eq_mkApp] at hp
  rcases hp with rfl | rfl | rfl | rfl | rfl | rfl | rfl | rfl | rfl | rfl | rfl | rfl | rfl
  all_goals
    refine ⟨?_, ?_⟩
    · unfold formShape
      simp [badOperand, Shape.ok_int hn, Shape.ok_seq hxs, Shape.ok_oper hf, Shape.ok_oper hg]
    · unfold formResult
      simp [seqItems_mkSeq hxs, objInt]

/-- Area `u` is an active area of a combining form with the operands `os`, its symbols at rest and its context live. -/
structure State.appliesForm (s : State) (u : Nat) (a : Area) (os : List (List Sym)) : Prop where
  area : s.area u = some a
  user : a.kind = .user
  active : a.phase = .active
  form : (romExpect a.op).isNone = false
  atRest : s.inTransit a = false
  live : ((s.ctx a.ctx).map Ctx.live).getD false = true
  operands : splitObjs (((a.cells.map (fun p => s.sym p.2.phys)).drop 2).dropLast) 0 [] = os

theorem romExpect_form {op : Nat} (lo : 0xF00 ≤ op) (hi : op ≤ 0xF0D) : (romExpect op).isNone = false := by
  have h : ¬(op < 0xF00 ∨ 0xF0D < op) := by omega
  simp [romExpect, h]

theorem operandCix_eq (os : List (List Sym)) (i : Nat) : operandCix os i = 2 + ((os.take i).map List.length).sum := by
  rw [operandCix, ← List.foldl_map]
  exact (List.sum_eq_foldl (xs := 2 :: (os.take i).map List.length)).symm

/-- An operand of the wrong shape holds the area at that operand's first cell. -/
theorem exec_combiningFormApplied_bad {s : State} {u i : Nat} {a : Area} {os : List (List Sym)} (h : s.appliesForm u a os)
    (hb : badOperand (formShape a.op os.length) os 0 = some i) :
    exec (.combiningFormApplied u) s = .next (s.holdNoInstr u 0x42 (2 + ((os.take i).map List.length).sum)) := by
  obtain ⟨area, user, active, form, atRest, live, operands⟩ := h
  simp only [exec_combiningFormApplied, execCombiningFormApplied, area, user, active, form, atRest, live, operands, hb, operandCix_eq,
    ne_eq, not_true_eq_false, decide_false, Bool.or_self, Bool.not_true, Bool.false_eq_true, if_false]
  rfl

theorem exec_combiningFormApplied_shaped {s : State} {u : Nat} {a : Area} {os : List (List Sym)} (h : s.appliesForm u a os)
    (hb : badOperand (formShape a.op os.length) os 0 = none) (clean : (os.getD 0 []).any (·.poison) = false) :
    (formResult a.op os = none → exec (.combiningFormApplied u) s = .next (s.holdNoInstr u 0x42 2)) ∧
    (∀ ys, formResult a.op os = some ys → exec (.combiningFormApplied u) s =
      .next ((s.modArea u (fun a => stateForm a ys)).ended u (a.cells.length - 1))) := by
  obtain ⟨area, user, active, form, atRest, live, operands⟩ := h
  simp only [exec_combiningFormApplied, execCombiningFormApplied, area, user, active, form, atRest, live, operands, hb, clean,
    ne_eq, not_true_eq_false, decide_false, Bool.or_self, Bool.not_true, Bool.false_eq_true, if_false, Bool.and_false, Bool.false_and,
    Bool.or_false]
  refine ⟨fun hr => ?_, fun ys hr => ?_⟩
  · rw [hr]; rfl
  · rw [hr]; rfl

/-- Settles O59: the operands are read back object by object, and each outcome is a branch of the form's application. -/
theorem combiningForms : Obligations.CombiningForms := by
  refine ⟨fun xs hxs => splitObjs_flatten hxs, fun f g n x xs hf hg hn _ hxs => forms_results hf hg hn hxs, ?_⟩
  intro s u a y z w os area user active lo hi atRest live syms hos
  have operands : splitObjs (((a.cells.map (fun p => s.sym p.2.phys)).drop 2).dropLast) 0 [] = os := by
    rw [syms]
    simp only [List.cons_append, List.drop_succ_cons, List.drop_zero, List.dropLast_concat, splitObjs_flatten hos]
  have applies : s.appliesForm u a os := ⟨area, user, active, romExpect_form lo hi, atRest, live, operands⟩
  refine ⟨fun i hb => exec_combiningFormApplied_bad applies hb, fun hb unpoisoned => exec_combiningFormApplied_shaped applies hb ?_⟩
  cases os with
  | nil => rfl
  | cons o os => exact List.any_eq_false.2 (fun v hv => by simp [unpoisoned o rfl v hv])

end Sys2Proof.Machine
end

section
namespace Sys2Proof

/-! ## The fields of a packed record

A record's fields are read off by the widths of the fields before them. -/

/-- The bits that the fields of a record take. -/
def fieldsWidth (l : List (Nat × Nat)) : Nat := (l.map Prod.fst).sum

theorem packFields_append (l r : List (Nat × Nat)) : packFields (l ++ r) = packFields l + 2 ^ fieldsWidth l * packFields r := by
  induction l with
  | nil => simp [packFields, fieldsWidth]
  | cons p l ih =>
    obtain ⟨n, v⟩ := p
    have hw : fieldsWidth ((n, v) :: l) = n + fieldsWidth l := rfl
    rw [List.cons_append, packFields, ih, packFields, hw, pow_add]
    ring

theorem packFields_lt (l : List (Nat × Nat)) : packFields l < 2 ^ fieldsWidth l := by
  induction l with
  | nil => exact Nat.one_pos
  | cons p l ih =>
    obtain ⟨n, v⟩ := p
    have hv : v % 2 ^ n < 2 ^ n := Nat.mod_lt _ (Nat.two_pow_pos n)
    have hw : fieldsWidth ((n, v) :: l) = n + fieldsWidth l := rfl
    calc packFields ((n, v) :: l) < 2 ^ n * (packFields l + 1) := by rw [packFields, Nat.mul_add]; omega
      _ ≤ 2 ^ n * 2 ^ fieldsWidth l := Nat.mul_le_mul_left _ ih
      _ = 2 ^ fieldsWidth ((n, v) :: l) := by rw [hw, pow_add]

/-- Behind the fields `l` stand the fields `r`. -/
theorem packFields_div {l : List (Nat × Nat)} {w : Nat} (hw : fieldsWidth l = w) (r : List (Nat × Nat)) :
    packFields (l ++ r) / 2 ^ w = packFields r := by
  rw [← hw, packFields_append, Nat.add_mul_div_left _ _ (Nat.two_pow_pos _), Nat.div_eq_of_lt (packFields_lt l), Nat.zero_add]

/-- The field behind the fields `l`. -/
theorem packFields_field_at {l : List (Nat × Nat)} {w : Nat} (hw : fieldsWidth l = w) (n v : Nat) (r : List (Nat × Nat)) :
    packFields (l ++ (n, v) :: r) / 2 ^ w % 2 ^ n = v % 2 ^ n := by
  rw [packFields_div hw, packFields, Nat.add_mul_mod_self_left, Nat.mod_mod]

/-- A record that fits its bit vector is its number. -/
theorem toNat_packFields {l : List (Nat × Nat)} {n : Nat} (h : fieldsWidth l = n) : (BitVec.ofNat n (packFields l)).toNat = packFields l := by
  subst h
  rw [BitVec.toNat_ofNat, Nat.mod_eq_of_lt (packFields_lt l)]

end Sys2Proof

namespace Sys2Proof.Machine

/-! ## MARK (R334) -/

/-- The fields of a journal entry (Table 21.7). -/
def journalFields (n kind status opcode ctx queue fault tag swp hash : Nat) : List (Nat × Nat) :=
  [(32, n % 2 ^ 32), (4, kind), (8, status), (8, opcode), (6, ctx), (6, queue), (8, fault), (184, 0), (64, tag), (64, swp), (128, hash)]

/-- The entry that `journalAdd` appends has the next sequence number, its kind and its context, and the hash in its upper 128 bits. -/
theorem State.journalAdd_entry (s : State) (kind status opcode ctx queue fault tag swp hash : Nat) :
    ∃ e : BitVec 512, (s.journalAdd kind status opcode ctx queue fault tag swp hash).journal =
        s.journal.set ((s.jseq + 1) % 65536) e ∧
      e.toNat % 2 ^ 32 = (s.jseq + 1) % 2 ^ 32 ∧ e.toNat / 2 ^ 32 % 16 = kind % 16 ∧ e.toNat / 2 ^ 52 % 64 = ctx % 64 ∧
      e.toNat / 2 ^ 384 = hash % 2 ^ 128 := by
  let l := journalFields (s.jseq + 1) kind status opcode ctx queue fault tag swp hash
  have he : (BitVec.ofNat 512 (packFields l)).toNat = packFields l := toNat_packFields (by simp [l, fieldsWidth, journalFields])
  refine ⟨BitVec.ofNat 512 (packFields l), rfl, ?_, ?_, ?_, ?_⟩ <;> rw [he]
  · simp [l, journalFields, packFields]
  · exact packFields_field_at (l := l.take 1) rfl 4 kind (l.drop 2)
  · exact packFields_field_at (l := l.take 4) rfl 6 ctx (l.drop 5)
  · have value := packFields_div (l := l.take 10) (w := 384) (by simp [l, fieldsWidth, journalFields]) (l.drop 10)
    rw [List.take_append_drop] at value
    rw [value]
    simp [l, journalFields, packFields]

/-- The effect of MARK: one journal entry more. -/
theorem exec_mark_effect {s : State} {ar : Area} {k : Cell} {c : Cond} {a : SReg} (hp : ar.privileged = true)
    (hi : s.issues c [a] ar k) : ∃ t : State, ∃ e : BitVec 512, exec (.mark c a) s = .next (t.finish k 1 id) ∧
      ({ t with journal := s.journal, jseq := s.jseq } : State) = s ∧ t.jseq = s.jseq + 1 ∧
      t.journal.find (t.jseq % 65536) = some e ∧ (∀ i, i ≠ t.jseq % 65536 → t.journal.find i = s.journal.find i) ∧
      e.toNat % 2 ^ 32 = t.jseq % 2 ^ 32 ∧ e.toNat / 2 ^ 32 % 16 = 3 ∧ e.toNat / 2 ^ 52 % 64 = ar.ctx % 64 ∧
      e.toNat / 2 ^ 384 = (k.sreg a).toNat + (if k.spsn a then 2 ^ 64 else 0) := by
  obtain ⟨e, journal, seq, kind, ctx, value⟩ := s.journalAdd_entry 3 0 0 ar.ctx 0 0 0 (s.sweepOf ar.ctx)
    ((k.sreg a).toNat + 2 ^ 64 * bit (k.spsn a))
  refine ⟨s.journalAdd 3 0 0 ar.ctx 0 0 0 (s.sweepOf ar.ctx) ((k.sreg a).toNat + 2 ^ 64 * bit (k.spsn a)), e,
    by rw [exec_mark, execMark, State.privGate_issues 1 _ hi hp], rfl, rfl, ?_, fun i hne => ?_, seq, kind, ctx, ?_⟩
  · rw [journal]; exact Tab.find_set_self ..
  · rw [journal]; exact Tab.find_set_ne _ _ hne
  · have hv := (k.sreg a).isLt
    rw [value, bit]
    split <;> omega

/-! ## HOSTSIG (R348) -/

/-- A state but for its memories: bytes, poison, times and releases of lines, slices and page tags. -/
def State.besideMemory (s : State) : State := { s with
  mem := []
  hostMem := []
  linePoison := []
  lineTime := []
  releases := []
  slices := []
  tags := [] }

@[simp] theorem State.tagPage_besideMemory (s : State) (t : Trans) : (s.tagPage t).besideMemory = s.besideMemory := by
  unfold State.tagPage
  split
  · rfl
  · extract_lets page n
    split <;> rfl

@[simp] theorem State.touchPlain_besideMemory (s : State) (l : Loc) (n : Nat) (write : Bool) :
    (s.touchPlain l n write).besideMemory = s.besideMemory := by
  obtain ⟨sl, e⟩ := State.touchPlain_eq s l n write
  rw [e]; rfl

@[simp] theorem State.release_besideMemory (s : State) (l : Loc) (rs : List Release) : (s.release_ l rs).besideMemory = s.besideMemory := by
  unfold State.release_
  dsimp only
  split <;> rfl

theorem State.writeLine_besideMemory (s : State) (pa : Nat) (key : Option Nat) (bs : List Byte) :
    (s.writeLine pa key bs).besideMemory = s.besideMemory := by
  cases key <;> simp only [State.writeLine, State.stampLine, State.besideMemory]

/-- A physical address lies in no tile store, so a write there changes device or host memory. -/
@[simp] theorem State.writePhys_besideMemory (s : State) (t : Trans) (va : Nat) (bs : List Byte) (psn : Bool) :
    (s.writeLoc (Loc.phys t va) bs psn).besideMemory = s.besideMemory := by
  unfold Loc.phys
  dsimp only
  split
  · rfl
  · exact State.writeDev_keeps State.besideMemory (fun s pa bs => s.writeLine_besideMemory pa _ bs) (fun _ _ => rfl) ..

@[simp] theorem State.signalPhys_besideMemory (s : State) (l : Nat) (t : Trans) (va amount n : Nat) :
    (s.signalLoc l (Loc.phys t va) amount n).besideMemory = s.besideMemory := by
  simp [State.signalLoc, State.addCounter]

theorem State.loadVirt_besideMemory {s t : State} {ctx n : Nat} {a : Word} {r : List Byte × Bool} (h : s.loadVirt ctx a n = .ok (r, t)) :
    t.besideMemory = s.besideMemory := by
  unfold State.loadVirt at h
  split at h
  · cases h
  · cases h; simp

theorem State.storeVirt_besideMemory {s t : State} {ctx n : Nat} {a : Word} {bs : List Byte} (h : s.storeVirt ctx a bs = .ok (t, n)) :
    t.besideMemory = s.besideMemory := by
  unfold State.storeVirt at h
  split at h
  · cases h
  · cases h; simp

theorem State.signalVirt_besideMemory {s t : State} {ctx amount n : Nat} {a : Word} (h : s.signalVirt ctx a amount n = .ok t) :
    t.besideMemory = s.besideMemory := by
  unfold State.signalVirt at h
  split at h
  · cases h
  · split at h
    · cases h
    · cases h; simp

/-- A log entry and its count are accesses of the device itself (R330). -/
theorem State.log_besideMemory (s : State) (ctx kind code op area a b : Nat) :
    (s.log ctx kind code op area a b).besideMemory = s.besideMemory := by
  unfold State.log State.logAt
  split
  · rfl
  · split
    · rfl
    · split
      · rfl
      · next hl =>
        dsimp only
        split
        · exact State.loadVirt_besideMemory hl
        · next hs =>
          have stored := (State.storeVirt_besideMemory hs).trans (State.loadVirt_besideMemory hl)
          split
          · exact stored
          · next hv => exact (State.signalVirt_besideMemory hv).trans stored

/-- A write of the signal unit takes a free value and changes the memories alone. -/
theorem State.hostWrite_besideMemory (s : State) (ar : Area) (a vec : Nat) (bs : List Byte) :
    (s.hostWrite ar a vec bs).besideMemory = s.tickFree.besideMemory := by
  unfold State.hostWrite
  dsimp only
  split
  · rfl
  · exact State.log_besideMemory ..

/-- What the host takes stands in its memory. -/
theorem State.hostWrite_taken {s : State} (h : Config.hostFault s.free = 0) (ar : Area) (a vec : Nat) (bs : List Byte) :
    s.hostWrite ar a vec bs = { s.tickFree with hostMem := writeTab s.hostMem a bs } := by
  rw [State.hostWrite, if_pos h]; rfl

/-- What a signal to the host leaves alone, but for the memories. -/
def State.besideSignal (s : State) : List (BitVec 6) × Tab Ctx × Tab Area × Tab Sym := (s.irqs, s.ctxs, s.areas, s.row)

@[simp] theorem State.hostWrite_besideSignal (s : State) (ar : Area) (a vec : Nat) (bs : List Byte) :
    (s.hostWrite ar a vec bs).besideSignal = s.besideSignal :=
  show (s.hostWrite ar a vec bs).besideMemory.besideSignal = _ by rw [State.hostWrite_besideMemory]; rfl

/-- Where the next entry of a context's signal ring stands. -/
def Ctx.signalSlot (x : Ctx) : Nat := x.ring + 64 + 16 * (x.sigs % 2 ^ x.ringLog)

/-- The entry of a signal. -/
def State.signalEntry (s : State) (ar : Area) (vec : Nat) (v : Word) (psn : Bool) : Nat :=
  packFields [(36, s.ctxSweep ar.ctx), (15, 0), (1, bit psn), (6, vec), (6, ar.ctx), (64, v.toNat)]

theorem State.signalEntry_eq (s : State) (ar : Area) (n : Nat) (v : Word) (psn : Bool) :
    s.signalEntry ar (bits n 0 6) v psn % 256 ^ 16 = s.ctxSweep ar.ctx % 2 ^ 36 + (if psn then 2 ^ 51 else 0) + n % 64 * 2 ^ 52 +
      ar.ctx % 64 * 2 ^ 58 + v.toNat * 2 ^ 64 := by
  have hv := v.isLt
  have hb : bit psn % 2 ^ 1 = bit psn := by cases psn <;> rfl
  have hp : (if psn then 2 ^ 51 else 0) = 2 ^ 51 * bit psn := by cases psn <;> rfl
  have fits : s.signalEntry ar (bits n 0 6) v psn < 256 ^ 16 :=
    Nat.lt_of_lt_of_eq (packFields_lt _) (by simp [fieldsWidth])
  rw [Nat.mod_eq_of_lt fits, State.signalEntry, hp]
  simp only [packFields, bits, hb]
  omega

/-- The two writes of a signal: its entry, then its count. -/
def State.signalWrites (s : State) (ar : Area) (x : Ctx) (vec : Nat) (v : Word) (psn : Bool) : State :=
  (s.hostWrite ar x.signalSlot vec (leBytes 16 (s.signalEntry ar vec v psn))).hostWrite ar x.ring vec (leBytes 8 (x.sigs + 1))

theorem State.signalHost_eq {x : Ctx} (h : x.ring ≠ 0) (s : State) (ar : Area) (vec : Nat) (v : Word) (psn : Bool) :
    s.signalHost ar x vec v psn = { (s.signalWrites ar x vec v psn).modCtx ar.ctx (fun x => { x with sigs := (x.sigs + 1) % 2 ^ 64 }) with
      irqs := BitVec.ofNat 6 vec :: (s.signalWrites ar x vec v psn).irqs } := by
  rw [State.signalHost, if_neg h]; rfl

theorem State.signalWrites_besideSignal (s : State) (ar : Area) (x : Ctx) (vec : Nat) (v : Word) (psn : Bool) :
    (s.signalWrites ar x vec v psn).besideSignal = s.besideSignal := by
  rw [State.signalWrites, State.hostWrite_besideSignal, State.hostWrite_besideSignal]

/-- Where the host takes both writes, they stand in its memory and nothing else there changes, nor does the device's memory. -/
theorem State.signalWrites_taken {s : State} (h0 : Config.hostFault s.free = 0) (h1 : Config.hostFault (s.free + 1) = 0) (ar : Area)
    (x : Ctx) (vec : Nat) (v : Word) (psn : Bool) :
    let t := s.signalWrites ar x vec v psn
    ofLe (readTab t.hostMem x.ring 8) = (x.sigs + 1) % 2 ^ 64 ∧
      ofLe (readTab t.hostMem x.signalSlot 16) = s.signalEntry ar vec v psn % 256 ^ 16 ∧
      (∀ p, (p < x.ring ∨ x.ring + 8 ≤ p) → (p < x.signalSlot ∨ x.signalSlot + 16 ≤ p) → t.hostMem.get 0 p = s.hostMem.get 0 p) ∧
      t.mem = s.mem := by
  intro t
  let entry := leBytes 16 (s.signalEntry ar vec v psn)
  let count := leBytes 8 (x.sigs + 1)
  have entryLen : entry.length = 16 := length_leBytes ..
  have countLen : count.length = 8 := length_leBytes ..
  have ht : t = { s.tickFree.tickFree with hostMem := writeTab (writeTab s.hostMem x.signalSlot entry) x.ring count } := by
    show (s.hostWrite ar x.signalSlot vec entry).hostWrite ar x.ring vec count = _
    rw [State.hostWrite_taken h0]
    exact State.hostWrite_taken (s := { s.tickFree with hostMem := _ }) h1 ..
  have hm : t.hostMem = writeTab (writeTab s.hostMem x.signalSlot entry) x.ring count := by rw [ht]
  refine ⟨?_, ?_, fun p outCount outEntry => ?_, by rw [ht]; rfl⟩
  · have read := readTab_writeTab (writeTab s.hostMem x.signalSlot entry) x.ring count
    rw [countLen] at read
    rw [hm, read]
    exact ofLe_leBytes ..
  · have read := readTab_writeTab s.hostMem x.signalSlot entry
    rw [entryLen] at read
    rw [hm, readTab_congr _ (writeTab s.hostMem x.signalSlot entry) _ _ (fun p lo _ => writeTab_get_out _ _ _ _ ?_), read]
    · exact ofLe_leBytes ..
    · simp only [Ctx.signalSlot] at lo
      omega
  · rw [hm, writeTab_get_out _ _ _ _ (by omega), writeTab_get_out _ _ _ _ (by omega)]

/-- HOSTSIG issued once nothing posted is outstanding signals the host. -/
theorem exec_hostsig_issues {s : State} {ar : Area} {k : Cell} {c : Cond} {a b : SReg} {x : Ctx} (hx : s.ctx ar.ctx = some x)
    (hi : s.issues c [a, b] ar k) (hv : ar.isVoted = false) (hp : k.posted = false) : exec (.hostsig c a b) s =
      .next ((s.signalHost ar x (bits (k.sreg a).toNat 0 6) (k.sreg b) (k.spsn b)).finish k 1 id) := by
  rw [exec_hostsig, execHostsig, State.gate_issues 1 _ hi]
  simp only [notVoted, hv, hp, hx, Bool.false_eq_true, if_false]

/-- The effect of HOSTSIG in a context with a signal ring. -/
theorem exec_hostsig_effect {s : State} {ar : Area} {k : Cell} {c : Cond} {a b : SReg} {x : Ctx} (hx : s.ctx ar.ctx = some x)
    (hi : s.issues c [a, b] ar k) (hv : ar.isVoted = false) (hp : k.posted = false) (hr : x.ring ≠ 0) :
    ∃ t : State, exec (.hostsig c a b) s = .next (t.finish k 1 id) ∧ t.irqs = BitVec.ofNat 6 (k.sreg a).toNat :: s.irqs ∧
      t.ctx ar.ctx = some { x with sigs := (x.sigs + 1) % 2 ^ 64 } ∧ t.areas = s.areas ∧ t.row = s.row ∧
      (Config.hostFault s.free = 0 ∧ Config.hostFault (s.free + 1) = 0 →
        ofLe (readTab t.hostMem x.ring 8) = (x.sigs + 1) % 2 ^ 64 ∧
        ofLe (readTab t.hostMem x.signalSlot 16) = s.ctxSweep ar.ctx % 2 ^ 36 + (if k.spsn b then 2 ^ 51 else 0) +
          (k.sreg a).toNat % 64 * 2 ^ 52 + ar.ctx % 64 * 2 ^ 58 + (k.sreg b).toNat * 2 ^ 64 ∧
        (∀ p, (p < x.ring ∨ x.ring + 8 ≤ p) → (p < x.signalSlot ∨ x.signalSlot + 16 ≤ p) →
          t.hostMem.get 0 p = s.hostMem.get 0 p) ∧ t.mem = s.mem) := by
  have kept := s.signalWrites_besideSignal ar x (bits (k.sreg a).toNat 0 6) (k.sreg b) (k.spsn b)
  simp only [State.besideSignal, Prod.mk.injEq] at kept
  obtain ⟨irqs, ctxs, areas, row⟩ := kept
  have vector : BitVec.ofNat 6 (bits (k.sreg a).toNat 0 6) = BitVec.ofNat 6 (k.sreg a).toNat :=
    BitVec.eq_of_toNat_eq (by simp [bits])
  refine ⟨_, exec_hostsig_issues hx hi hv hp, ?_⟩
  rw [State.signalHost_eq hr]
  refine ⟨congrArg₂ List.cons vector irqs, ?_, areas, row, fun ⟨h0, h1⟩ => ?_⟩
  · refine (Tab.find_upd_self _ _ _).trans ?_
    rw [ctxs]
    exact congrArg (Option.map _) hx
  · rw [← State.signalEntry_eq]
    exact State.signalWrites_taken h0 h1 ar x _ _ _

/-! ## TLBINV (R333) -/

/-- A page of the context that a hearth's TLB still translates after `dropTrans` lies beside the range. -/
theorem State.dropTrans_disjoint {s : State} {ctx lo hi h : Nat} {e : Trans} (he : e ∈ ((s.dropTrans ctx lo hi).hearth h).tlb)
    (hc : e.ctx = ctx) :
    let size := if e.big then 2 ^ 29 else 2 ^ 16
    e.vpage * size + size ≤ lo ∨ hi ≤ e.vpage * size := by
  unfold State.hearth Tab.get at he
  cases found : (s.dropTrans ctx lo hi).hearths.find h with
  | none =>
    rw [found] at he
    exact absurd he List.not_mem_nil
  | some x =>
    rw [found] at he
    obtain ⟨⟨g, y⟩, _, hy⟩ := List.mem_map.1 (List.mem_filter.1 (Tab.mem_of_find found)).1
    obtain ⟨rfl, rfl⟩ := Prod.mk.inj hy
    have keep := (List.mem_filter.1 he).2
    cases hb : e.big <;> simp [hb, hc] at keep ⊢ <;> omega

/-- TLBINV issued once nothing posted is outstanding drops the translations of its range. -/
theorem exec_tlbinv_issues {s : State} {ar : Area} {k : Cell} {c : Cond} {a b : SReg} (hp : ar.privileged = true)
    (hi : s.issues c [a, b] ar k) (ha : k.spsn a = false) (hb : k.spsn b = false) (hk : k.posted = false) :
    let n := (k.sreg b).toNat % 2 ^ 16
    let lo := if n = 0 then 0 else (k.sreg a).toNat % 2 ^ 55 / 65536 * 65536
    let hi := if n = 0 then 2 ^ 55 else lo + n * 65536
    exec (.tlbinv c a b) s = .next ((s.dropTrans ar.ctx lo hi).finish k 1 id) := by
  intro n lo hi'
  rw [exec_tlbinv, execTlbinv, State.privGate_issues 1 _ hi hp, State.consume_clean (by rw [ha, hb]; rfl), hk]
  simp only [bits, pow_zero, Nat.div_one, Bool.false_eq_true, if_false, lo, hi', n]
  split <;> rfl

/-! ## OPLD (R139) -/

/-- The hearth is loading the operator that `ctx` knows as `op`. -/
def State.loadsOp (s : State) (h ctx op : Nat) : Bool :=
  match (s.hearth h).load with
  | some l => l.ctx = opCtx ctx op && l.op = op
  | none => false

theorem State.loadsOp_iff (s : State) (h ctx op : Nat) :
    s.loadsOp h ctx op = true ↔ ∃ l, (s.hearth h).load = some l ∧ l.ctx = opCtx ctx op ∧ l.op = op := by
  unfold State.loadsOp
  cases (s.hearth h).load <;> simp

/-- The hearth asks for an operator, in place of an earlier request for the same one. -/
def State.askOp (s : State) (h ctx op : Nat) : State := s.modHearth h (fun x => { x with
  oplds := x.oplds.filter (fun o => !(opCtx o.ctx o.op = opCtx ctx op && o.op = op)) ++ [⟨ctx, op, (s.part (s.leadOf h)).sweep⟩] })

/-- OPLD asks for nothing where its register is poisoned or the operator is resident, loading or not to be had. -/
theorem exec_opld_issues {s : State} {ar : Area} {k : Cell} {c : Cond} {a : SReg} (hi : s.issues c [a] ar k) :
    let op := (k.sreg a).toNat % 2 ^ 12
    exec (.opld c a) s = .next ((if k.spsn a || s.isResident k.hid ar.ctx op || s.loadsOp k.hid ar.ctx op ||
      (s.readEntry ar.ctx op).isNone then s else s.askOp k.hid ar.ctx op).finish k 1 id) := by
  intro op
  have hop : bits (k.sreg a).toNat 0 12 = op := by rw [bits, pow_zero, Nat.div_one]
  rw [exec_opld, execOpld, State.gate_issues 1 _ hi, ← hop]
  rfl

/-- Settles O43: the effect of each of the four instructions on the state. -/
theorem systemEffects : Obligations.SystemEffects := by
  intro s ar k c a b x hx
  dsimp only
  refine ⟨exec_mark_effect, fun hk => ⟨fun hi hv hr => ?_, fun hi hv hr => exec_hostsig_effect hx hi hv hk hr,
    fun hp hi ha hb => ?_⟩, fun hi => ?_⟩
  · rw [exec_hostsig_issues hx hi hv hk, State.signalHost, if_pos hr]
  · exact ⟨_, exec_tlbinv_issues hp hi ha hb hk, rfl, fun h e he hc => State.dropTrans_disjoint he hc⟩
  · rw [exec_opld_issues hi]
    refine ⟨fun h => ?_, fun clean absent idle entry => ?_⟩
    · rw [if_pos (by simpa [State.loadsOp_iff, or_assoc] using h)]
    · have notLoading := Bool.eq_false_iff.2 (mt (State.loadsOp_iff ..).1 idle)
      have found := Option.isNone_eq_false_iff.2 (Option.isSome_iff_ne_none.2 entry)
      rw [clean, absent, notLoading, found, if_neg (by decide)]
      rfl

end Sys2Proof.Machine
end
